-- ==== Sys2Proof/Word.lean ====
section
/-! DEFINITION. The word types of the model and their plainest arithmetic. -/

namespace Sys2Proof

/-- One byte. -/
abbrev Byte := BitVec 8
/-- A 16-bit value. -/
abbrev W16 := BitVec 16
/-- A register of a register page (00_scope R4). -/
abbrev W32 := BitVec 32
/-- A general register, a system register, TIME (04 R70, 03 R38). -/
abbrev W64 := BitVec 64
/-- A vector register (04 R71). -/
abbrev W128 := BitVec 128
/-- A physical address (02 R18). -/
abbrev PAddr := BitVec 42
/-- A partition identifier; 0 is the system partition (00 Terms). -/
abbrev PartId := BitVec 6

/-- The number of a word's bits `[lo + w - 1 : lo]`, for numbers held as `Nat`. -/
def natField (x lo w : Nat) : Nat := (x >>> lo) % 2 ^ w

end Sys2Proof
end

