-- ==== Sys2Proof/Syntax.lean ====
section
/-! DEFINITION. The commands of the block: one constructor per row of spec/opcode_table.json, and the types of their
operands.  A command says what the outside, or one of the hardware's own agents, does; its effect is its meaning under
Machine. -/

namespace Sys2Proof

/-- Who issues a control-space access (02 R33): a core (with the PARTID it runs), a stool or JTAG (PARTID 0). -/
inductive Initiator where
  | core (n : Fin 192)
  | stool (k : Fin 34)
  | jtag
  deriving DecidableEq, Repr

/-- A packet of the main fabric: the header's fields (10 R270) and the line of a second flit. -/
structure Packet where
  op : BitVec 8
  vc : Fin 4 := 0
  epoch : Bool := false
  spec : Bool := false
  poison : Bool := false
  hops : Fin 16 := 0
  part : PartId := 0
  src : BitVec 7 := 0
  srcp : Fin 8 := 0
  dst : BitVec 7 := 0
  dstp : Fin 8 := 0
  tag : W16 := 0
  addr : PAddr := 0
  size : BitVec 6 := 0
  be : W64 := 0
  inl : BitVec 256 := 0
  line : BitVec 512 := 0
  deriving DecidableEq, Repr

/-- An access of the control network as the page's node takes it (10 R295-R297): the node where it entered the tree, its source there (0 stool,
1 and 2 bridges, 3 JTAG), its tag, PARTID, byte enables, address, the data of a write; and the node that finds a parity error in
the request, or in the response, if one does.  Nodes are numbered 0 root, 1 + cabinet, 9 + global bench. -/
structure CtlAccess where
  node : Fin 33
  src : Fin 4
  tag : BitVec 6
  part : PartId
  be : BitVec 4
  addr : BitVec 28
  data : Option W32
  badRequest : Option (Fin 33)
  badResponse : Option (Fin 33)
  deriving DecidableEq, Repr

/-- What a router finds in the flits of a packet (10 R272). -/
inductive FlitError where
  | none | corrected | header | second
  deriving DecidableEq, Repr

/-- A packet that a router switches, and what it finds in its flits (10 R272, R277). -/
structure Switched where
  pkt : Packet
  found : FlitError := .none
  deriving DecidableEq, Repr

/-- A control-network access from JTAG (02 R26): the word's address, its byte enables, and the data of a write. -/
structure JtagAccess where
  addr : BitVec 28
  be : BitVec 4
  data : Option W32
  deriving DecidableEq, Repr

/-- An access to the eMRAM (02 R23): who makes it (none: the root of trust itself), the offset, the size in bytes, and
the data of a write. -/
structure EmAccess where
  who : Option Initiator
  off : BitVec 25
  size : Nat
  data : Option W64
  deriving DecidableEq, Repr

/-- How the gPTP time of a port came to the boundary (03 R45): by running on, or by a step that passed one or more
boundaries, or a step backwards that passed none. -/
inductive GptpMove where
  | ran
  | stepForward
  | stepBack
  deriving DecidableEq, Repr

/-- An error that a code meets: none, one that it corrects, or one that it does not (11 R309 rows 1 to 4). -/
inductive CodeError where
  | none
  | corrected
  | lost
  deriving DecidableEq, Repr

/-- What someone on the board has done to a stored line and its tag before a read (11 R309 rows 5 to 8, R315): nothing; altered them, so
that the tag's POISON, KSLOT and SEALED are as given; or put back an older line, which read `d` then, with its tag and its counter
blocks. -/
inductive BoardAct where
  | none
  | altered (poison : Bool) (slot : BitVec 10) (isSealed : Bool)
  | replayed (d : BitVec 512)
  deriving DecidableEq, Repr

/-- What a read of a DRAM line meets (11 R309): an error on the link, an error of the stored word, an act of someone on the board. -/
structure DramCheck where
  link : CodeError := .none
  word : CodeError := .none
  board : BoardAct := .none
  deriving DecidableEq, Repr

/-- A step of the sweep of a memory controller, and what the DRAM reads that it makes meet, by address (11 R309, R317). -/
structure SweepStep where
  mc : Fin 16
  meets : List (PAddr × DramCheck) := []
  deriving DecidableEq, Repr

/-- A write to the doorbell page from a port (12 R331): the port (0-3 PE0-PE3, 4-7 PL0-PL3), the requester, the offset in
the page, the size in bytes and the data. -/
structure MsiWrite where
  port : Fin 8
  req : BitVec 18
  off : BitVec 12
  size : Nat
  data : W64
  deriving DecidableEq, Repr

/-- An Ethernet frame at a switch port (14 R373). -/
structure EthFrame where
  bytes : List Byte
  fcsOk : Bool := true
  deriving DecidableEq, Repr

/-- A PCIe transaction-layer request at a root port. -/
structure Tlp where
  write : Bool
  addr : W64
  data : List Byte
  len : Nat
  req : BitVec 16
  poisoned : Bool := false
  deriving DecidableEq, Repr

/-- A completion at a root port. -/
structure Completion where
  tag : W16
  ok : Bool
  data : List Byte
  poisoned : Bool := false
  deriving DecidableEq, Repr

/-- A Parraha packet. -/
structure PrlPacket where
  dst : BitVec 18 := 0
  src : BitVec 18 := 0
  tag : BitVec 12 := 0
  addr : BitVec 48 := 0
  len : Nat := 0
  stat : Fin 4 := 0
  hops : BitVec 10 := 0
  data : List Byte := []
  crcOk : Bool := true
  deriving DecidableEq, Repr

/-- The commands (spec/opcode_table.json). -/
inductive Instr where
  /-- A write to a register field that has no row of its own is performed under its access code (REGISTER_WRITE, R4). -/
  | registerWrite (i : Initiator) (a : BitVec 28) (size : Nat) (v : W64)
  /-- Writing PG_CTL.LOCK as 1 makes every RWL field of the page read-only until system or power-on reset (LOCK_SET,
  R5). -/
  | lockSet (i : Initiator) (p : BitVec 16) (v : W32)
  /-- Writing PG_CTL.SRST while LOCK is 0 stops functional work, sets BUSY and waits for outstanding responses
  (SOFT_RESET, R31). -/
  | softReset (i : Initiator) (p : BitVec 16) (v : W32)
  /-- Once outstanding responses are discarded, functional registers and PG_ERRCNT reset, BUSY clears and READY sets
  (SOFT_RESET_DONE, R31). -/
  | softResetDone (p : BitVec 16)
  /-- Writing PG_ERRMASK forwards any PG_ERR bit that is set when its mask bit becomes 1 (ERRMASK_WRITE, R30). -/
  | errmaskWrite (i : Initiator) (p : BitVec 16) (v : W32)
  /-- Writing 1 to a PG_ERRINJ bit arms injection at that detector, or reports at once for OWN_REF and SIZE
  (ERRINJ_ARM, R503). -/
  | errinjArm (i : Initiator) (p : BitVec 16) (v : W32)
  /-- A write of PG_OWNER while LOCK is 0 hands the page to another partition (PG_OWNER_WRITE, R35). -/
  | pgOwnerWrite (i : Initiator) (p : BitVec 16) (v : W32)
  /-- An aggregator takes a report, sets AG_STAT, counts it, fills the class record and forwards it under AG_FWD
  (AGGREGATOR_LATCH, R497). -/
  | aggregatorLatch (p : BitVec 16)
  /-- A W1C write of AG_STAT clears class bits and record VALID; a meeting report is latched after it (AG_STAT_CLEAR,
  R497). -/
  | agStatClear (i : Initiator) (p : BitVec 16) (v : W32)
  /-- A gateway control bridge receives a control-space read packet, splits it and forwards it on the control network
  (RD_CS, R298). -/
  | rdCs (k : Packet)
  /-- A gateway control bridge receives a control-space write packet, splits it and forwards it with its PARTID
  (WR_CS, R298). -/
  | wrCs (k : Packet)
  /-- A bridge access unanswered after 10 ms is freed, and any later answer is discarded (CONTROL_BRIDGE_EXPIRY,
  R298). -/
  | controlBridgeExpiry (g : Fin 14) (j : Nat)
  /-- A page's control-network node accepts one access, checks ownership and answers it (CONTROL_NODE_ACCEPT, R297). -/
  | controlNodeAccept (x : CtlAccess)
  /-- A request's timeout expires and its initiator completes it with the outcome for its kind and records TO_ADDR
  (INITIATOR_TIMEOUT, R287). -/
  | initiatorTimeout (j : Nat)
  /-- A TO_CFG write sets the timeout, or has no effect and sets TO_RANGE when out of range (TO_CFG_WRITE, R286). -/
  | toCfgWrite (i : Initiator) (r : Fin 82) (v : W32)
  /-- An eMRAM access is checked for size and root-of-trust rights, then performed or refused (EMRAM_ACCESS, R23). -/
  | emramAccess (w : EmAccess)
  /-- A write to CAB.DVFS_REQ requests an operating point and starts a DVFS sequence if accepted (DVFS_REQUEST,
  R482). -/
  | dvfsRequest (i : Initiator) (c : Fin 8) (v : W32)
  /-- Every 50 µs the power controller reads STREG until the rail's BIT reads 1 (PMIC_STATUS_POLL, R519). -/
  | pmicStatusPoll (c : Fin 4) (r : Option Byte)
  /-- A voltage or clock step completes; the sequence moves on or ends, updating DVFS_STAT and firing 0x308 + c
  (DVFS_STEP_DONE, R483). -/
  | dvfsStepDone (c : Fin 4)
  /-- The regulator or idle PLL misses its limit; the sequence stops and DVFS_FAIL sets (DVFS_TIMEOUT, R483). -/
  | dvfsTimeout (c : Fin 4)
  /-- Every 100 µs each cabinet's junction temperature is sampled into PWT.TJ_c (TEMPERATURE_SAMPLE, R484). -/
  | temperatureSample (t : List W16)
  /-- Every 10 µs the AOC compares each cabinet's sensor with 135 °C and drives THERMTRIP_N (THERMTRIP_SAMPLE, R529). -/
  | thermtripSample (t : List W16)
  /-- Each nanosecond TIME advances by 0, 1 or 2 under the ADJ accumulator, plus any pending step (TIME_INCREMENT,
  R38). -/
  | timeIncrement
  /-- A write to TIM.ADJ sets rate steering, or sets ADJ_RANGE when outside ±500 ppm (ADJ_WRITE, R39). -/
  | adjWrite (i : Initiator) (v : W32)
  /-- A write to TIM.STEP_HI adds the 64-bit step to TIME in the next increment while RUN is 0 (TIME_STEP, R40). -/
  | timeStep (i : Initiator) (v : W32)
  /-- A read of TIME_LO captures the full 64-bit TIME for the reading initiator (TIME_LO_READ, R41). -/
  | timeLoRead (i : Initiator) (c : Fin 8)
  /-- Writing FRM.CTL.RUN as 1 starts ticks under R43 or R44, or is refused when source values break R49 (RUN_START,
  R47). -/
  | runStart (i : Initiator) (v : W32)
  /-- Writing RUN as 0 stops ticks and windows, unmeters regulators, releases held traffic and cancels commits
  (RUN_STOP, R47). -/
  | runStop (i : Initiator) (v : W32)
  /-- A write of FRM.FNUM sets the frame number while RUN is 0 (FNUM_WRITE, R46). -/
  | fnumWrite (i : Initiator) (v : W32)
  /-- TIME reaches the internal tick instant and the master produces a tick and sends its message (INTERNAL_TICK,
  R42). -/
  | internalTick
  /-- A rising edge on FRAME_IN is judged against the expected instant and accepted as a tick or ignored
  (FRAME_IN_EDGE, R42). -/
  | frameInEdge
  /-- The switch signals that a port's gPTP time reached a multiple of PERIOD, giving a tick event (GPTP_BOUNDARY,
  R45). -/
  | gptpBoundary (p : Fin 8) (j : GptpMove)
  /-- TIME reaches expected + TOL with no accepted event; MISSCNT increments and MISS sets (TICK_MISS, R44). -/
  | tickMiss
  /-- A receiver acts on an intact tick message at the tick instant, taking frame number, commits and regulator steps
  (TICK_MESSAGE, R51). -/
  | tickMessage (c : Fin 7) (a : Bool) (b : Bool)
  /-- TIME reaches tick instant + START of a valid window and L3 bit 1 is raised (WINDOW_START, R54). -/
  | windowStart (n : Fin 192) (w : Fin 16)
  /-- TIME reaches tick instant + START + LEN, or the next tick, and L3 bit 2 is raised (WINDOW_END, R54). -/
  | windowEnd (n : Fin 192) (w : Fin 16)
  /-- At a window's grace point the core is checked for a window overrun (WINDOW_GRACE_POINT, R55). -/
  | windowGracePoint (n : Fin 192) (w : Fin 16)
  /-- A regulator grants a packet, line or piece and charges it to the partition's meter (REGULATOR_GRANT, R57). -/
  | regulatorGrant (j : Nat)
  /-- Writing CMT.CTL.ARM starts the commit check of every shadow bank and sets CHECKING (CMT_ARM, R64). -/
  | cmtArm (i : Initiator) (v : W32)
  /-- The commit check ends within 12 µs and the arm is accepted or refused (COMMIT_CHECK_END, R64). -/
  | commitCheckEnd
  /-- Writing CMT.CTL.DISARM cancels a checking or armed commit and sets CANCELLED (CMT_DISARM, R67). -/
  | cmtDisarm (i : Initiator) (v : W32)
  /-- Loads 1 to 8 bytes, zero-extended, into A (LD, R86). -/
  | ld (n : Fin 192) (b : List Byte)
  /-- Loads 1, 2 or 4 bytes, sign-extended, into A (LDX, R86). -/
  | ldx (n : Fin 192) (b : List Byte)
  /-- Stores 1 to 8 bytes of A through the store buffer (ST, R86). -/
  | st (n : Fin 192) (b : List Byte)
  /-- Writes the effective address to A without an access (LEA, R86). -/
  | lea (n : Fin 192) (b : List Byte)
  /-- Loads 8 or 4 bytes into an f register (FLD, R86). -/
  | fld (n : Fin 192) (b : List Byte)
  /-- Stores 8 or 4 bytes from an f register (FST, R86). -/
  | fst (n : Fin 192) (b : List Byte)
  /-- Loads 16 bytes into an f register (VLD, R86). -/
  | vld (n : Fin 192) (b : List Byte)
  /-- Stores 16 bytes from an f register (VST, R86). -/
  | vst (n : Fin 192) (b : List Byte)
  /-- Adds B or an immediate to C, with flags in the flag-setting form (ADD, R117). -/
  | add (n : Fin 192) (b : List Byte)
  /-- Subtracts B from C, with no-borrow carry in the flag-setting form (SUB, R117). -/
  | sub (n : Fin 192) (b : List Byte)
  /-- Adds B, C and STATUS.C (ADC, R118). -/
  | adc (n : Fin 192) (b : List Byte)
  /-- Computes C − B − (1 − STATUS.C) (SBC, R118). -/
  | sbc (n : Fin 192) (b : List Byte)
  /-- Bitwise AND of C and B or an immediate (AND, R117). -/
  | and (n : Fin 192) (b : List Byte)
  /-- Bitwise OR of C and B or an immediate (OR, R117). -/
  | or (n : Fin 192) (b : List Byte)
  /-- Bitwise XOR of C and B or an immediate (XOR, R117). -/
  | xor (n : Fin 192) (b : List Byte)
  /-- Computes C AND NOT B (ANDN, R89). -/
  | andn (n : Fin 192) (b : List Byte)
  /-- Shifts left by an unmasked count (SHL, R120). -/
  | shl (n : Fin 192) (b : List Byte)
  /-- Shifts right logically by an unmasked count (SHR, R120). -/
  | shr (n : Fin 192) (b : List Byte)
  /-- Shifts right arithmetically by an unmasked count (SAR, R120). -/
  | sar (n : Fin 192) (b : List Byte)
  /-- Rotates right by the count modulo w (ROR, R121). -/
  | ror (n : Fin 192) (b : List Byte)
  /-- Writes the low w bits of the product (MUL, R124). -/
  | mul (n : Fin 192) (b : List Byte)
  /-- Writes the high w bits of the unsigned product (MULHU, R124). -/
  | mulhu (n : Fin 192) (b : List Byte)
  /-- Writes the high w bits of the signed product (MULHS, R124). -/
  | mulhs (n : Fin 192) (b : List Byte)
  /-- Copies B or an immediate into A (MOV, R89). -/
  | mov (n : Fin 192) (b : List Byte)
  /-- Sets flags from C − B without writing a register (CMP, R117). -/
  | cmp (n : Fin 192) (b : List Byte)
  /-- Sets flags from C AND B without writing a register (TST, R117). -/
  | tst (n : Fin 192) (b : List Byte)
  /-- Writes C or B to A according to a condition (CSEL, R89). -/
  | csel (n : Fin 192) (b : List Byte)
  /-- Sign-extends B from the prefix width to 64 bits (SXT, R123). -/
  | sxt (n : Fin 192) (b : List Byte)
  /-- Counts leading zero bits of B (CLZ, R123). -/
  | clz (n : Fin 192) (b : List Byte)
  /-- Counts trailing zero bits of B (CTZ, R123). -/
  | ctz (n : Fin 192) (b : List Byte)
  /-- Counts one bits of B (POPC, R123). -/
  | popc (n : Fin 192) (b : List Byte)
  /-- Reverses the bytes of B (BSWAP, R123). -/
  | bswap (n : Fin 192) (b : List Byte)
  /-- Moves a system register to A after the level check (MFS, R75). -/
  | mfs (n : Fin 192) (b : List Byte)
  /-- Moves A to a system register after level and value checks; serialising (MTS, R75). -/
  | mts (n : Fin 192) (b : List Byte)
  /-- Branches if a condition holds, predicted by a direction counter (BC, R160). -/
  | bc (n : Fin 192) (b : List Byte)
  /-- Branches unconditionally (B, R160). -/
  | b (n : Fin 192) (b : List Byte)
  /-- Writes the next address to g27 and branches (BL, R89). -/
  | bl (n : Fin 192) (b : List Byte)
  /-- Branches to B (JR, R160). -/
  | jr (n : Fin 192) (b : List Byte)
  /-- Writes the next address to A and branches to B (JLR, R160). -/
  | jlr (n : Fin 192) (b : List Byte)
  /-- Branches to g27, predicted by the return stack (RET, R164). -/
  | ret (n : Fin 192) (b : List Byte)
  /-- Branches if A is zero (CBZ, R89). -/
  | cbz (n : Fin 192) (b : List Byte)
  /-- Branches if A is not zero (CBNZ, R89). -/
  | cbnz (n : Fin 192) (b : List Byte)
  /-- Sets LSTART, LEND and LCNT and activates or skips a counted loop (LOOP, R106). -/
  | loop (n : Fin 192) (b : List Byte)
  /-- SYSC kind 0 raises SVC with the immediate in CAUSE.INFO (SVC, R99). -/
  | svc (n : Fin 192) (b : List Byte)
  /-- SYSC kind 1 raises HVC to H (HVC, R99). -/
  | hvc (n : Fin 192) (b : List Byte)
  /-- SYSC kind 2 raises MVC to M (MVC, R99). -/
  | mvc (n : Fin 192) (b : List Byte)
  /-- Raises the BRK exception (BRK, R99). -/
  | brk (n : Fin 192) (b : List Byte)
  /-- Does nothing (NOP, R89). -/
  | nop (n : Fin 192) (b : List Byte)
  /-- Atomically swaps memory with C and returns the old value (AMOSWP, R133). -/
  | amoswp (n : Fin 192) (b : List Byte)
  /-- Atomically adds C to memory and returns the old value (AMOADD, R133). -/
  | amoadd (n : Fin 192) (b : List Byte)
  /-- Atomically ANDs C into memory (AMOAND, R133). -/
  | amoand (n : Fin 192) (b : List Byte)
  /-- Atomically ORs C into memory (AMOOR, R133). -/
  | amoor (n : Fin 192) (b : List Byte)
  /-- Atomically XORs C into memory (AMOXOR, R133). -/
  | amoxor (n : Fin 192) (b : List Byte)
  /-- Atomically stores the signed minimum (AMOMIN, R133). -/
  | amomin (n : Fin 192) (b : List Byte)
  /-- Atomically stores the signed maximum (AMOMAX, R133). -/
  | amomax (n : Fin 192) (b : List Byte)
  /-- Stores C only when the old value equals A, returning the old value (CAS, R133). -/
  | cas (n : Fin 192) (b : List Byte)
  /-- Starts an unsigned stepped division (DIV_INIT, R127). -/
  | divInit (n : Fin 192) (b : List Byte)
  /-- Starts a signed stepped division, taking the dividend's magnitude (DIV_INITS, R127). -/
  | divInits (n : Fin 192) (b : List Byte)
  /-- Produces two quotient bits of a division (DSTEP, R127). -/
  | dstep (n : Fin 192) (b : List Byte)
  /-- Fixes signs of quotient and remainder and sets STATUS.DZ (DIV_FIN, R127). -/
  | divFin (n : Fin 192) (b : List Byte)
  /-- Orders every earlier load and store before every later one (FENCE_FULL, R108). -/
  | fenceFull (n : Fin 192) (b : List Byte)
  /-- Orders earlier loads before later loads and stores (FENCE_ACQF, R108). -/
  | fenceAcqf (n : Fin 192) (b : List Byte)
  /-- Orders earlier loads and stores before later stores (FENCE_RELF, R108). -/
  | fenceRelf (n : Fin 192) (b : List Byte)
  /-- Discards the prefetch queue and refetches later instructions (FENCE_IFENCE, R108). -/
  | fenceIfence (n : Fin 192) (b : List Byte)
  /-- Waits for responses to earlier device accesses (FENCE_DEV, R108). -/
  | fenceDev (n : Fin 192) (b : List Byte)
  /-- TLBI scope 0 invalidates stage 1 entries for one page and ASID, and global entries (TLBI_VA_ASID, R109). -/
  | tlbiVaAsid (n : Fin 192) (b : List Byte)
  /-- TLBI scope 1 invalidates stage 1 entries for one page, all ASIDs (TLBI_VA_ALL_ASID, R109). -/
  | tlbiVaAllAsid (n : Fin 192) (b : List Byte)
  /-- TLBI scope 2 invalidates non-global stage 1 entries of one ASID (TLBI_ASID, R109). -/
  | tlbiAsid (n : Fin 192) (b : List Byte)
  /-- TLBI scope 3 invalidates all stage 1 entries of the current VMID (TLBI_VMID_STAGE1, R109). -/
  | tlbiVmidStage1 (n : Fin 192) (b : List Byte)
  /-- TLBI scope 4 invalidates stage 2 entries for one intermediate physical page (TLBI_IPA, R109). -/
  | tlbiIpa (n : Fin 192) (b : List Byte)
  /-- TLBI scope 5 invalidates all entries of one VMID (TLBI_VMID, R109). -/
  | tlbiVmid (n : Fin 192) (b : List Byte)
  /-- TLBI scope 6 invalidates all entries of all VMIDs (TLBI_ALL, R109). -/
  | tlbiAll (n : Fin 192) (b : List Byte)
  /-- Retires when every earlier TLBI of the core has been performed at every core (TLBSYNC, R110). -/
  | tlbsync (n : Fin 192) (b : List Byte)
  /-- Drains the store buffer and issues nothing until an enabled event is pending or TIME reaches A (WAIT, R111). -/
  | wait (n : Fin 192) (b : List Byte)
  /-- Returns to the saved level and PC, restoring STATUS and releasing the hold (RETI, R112). -/
  | reti (n : Fin 192) (b : List Byte)
  /-- Reads a feature register, masked or trapped below H under HCTL (RDFEAT, R97). -/
  | rdfeat (n : Fin 192) (b : List Byte)
  /-- Reads the cabinet's TIME copy (RDTIME, R114). -/
  | rdtime (n : Fin 192) (b : List Byte)
  /-- Reads the frame number and the offset into the frame (RDFRM, R114). -/
  | rdfrm (n : Fin 192) (b : List Byte)
  /-- Reads the core's window state (RDWIN, R115). -/
  | rdwin (n : Fin 192) (b : List Byte)
  /-- Drains and sets the core's PARTID from A (PSWITCH, R116). -/
  | pswitch (n : Fin 192) (b : List Byte)
  /-- Writes the line's dirty data to DRAM, keeping copies valid (CMO_CLEAN_MEM, R234). -/
  | cmoCleanMem (n : Fin 192) (b : List Byte)
  /-- Invalidates every copy of the line, discarding dirty data only at H and M (CMO_INV_MEM, R234). -/
  | cmoInvMem (n : Fin 192) (b : List Byte)
  /-- Cleans the line to DRAM and invalidates every copy (CMO_CINV_MEM, R234). -/
  | cmoCinvMem (n : Fin 192) (b : List Byte)
  /-- Writes dirty L1D data of the line to the bench L2 (CMO_CLEAN_L2, R234). -/
  | cmoCleanL2 (n : Fin 192) (b : List Byte)
  /-- Invalidates the line in every core's L1I (CMO_INV_I, R234). -/
  | cmoInvI (n : Fin 192) (b : List Byte)
  /-- Cleans one set and way of the core's L1 or its bench L2 (CMOSW_CLEAN, R236). -/
  | cmoswClean (n : Fin 192) (b : List Byte)
  /-- Invalidates one set and way, discarding dirty data (CMOSW_INVALIDATE, R236). -/
  | cmoswInvalidate (n : Fin 192) (b : List Byte)
  /-- Cleans and invalidates one set and way (CMOSW_CLEAN_INVALIDATE, R236). -/
  | cmoswCleanInvalidate (n : Fin 192) (b : List Byte)
  /-- FP addition rounded once (FADD, R135). -/
  | fadd (n : Fin 192) (b : List Byte)
  /-- FP subtraction rounded once (FSUB, R135). -/
  | fsub (n : Fin 192) (b : List Byte)
  /-- FP multiplication rounded once (FMUL, R135). -/
  | fmul (n : Fin 192) (b : List Byte)
  /-- FP division on a divider, rounded once (FDIV, R135). -/
  | fdiv (n : Fin 192) (b : List Byte)
  /-- FP square root of B (FSQRT, R135). -/
  | fsqrt (n : Fin 192) (b : List Byte)
  /-- IEEE minimumNumber of C and B (FMIN, R145). -/
  | fmin (n : Fin 192) (b : List Byte)
  /-- IEEE maximumNumber of C and B (FMAX, R145). -/
  | fmax (n : Fin 192) (b : List Byte)
  /-- Fused C × B + A (FMA, R135). -/
  | fma (n : Fin 192) (b : List Byte)
  /-- Fused −(C × B) + A (FMS, R135). -/
  | fms (n : Fin 192) (b : List Byte)
  /-- Fused −(C × B) − A (FNMA, R135). -/
  | fnma (n : Fin 192) (b : List Byte)
  /-- Clears the sign of B (FABS, R138). -/
  | fabs (n : Fin 192) (b : List Byte)
  /-- Inverts the sign of B (FNEG, R138). -/
  | fneg (n : Fin 192) (b : List Byte)
  /-- Quietly compares C with B and sets the flags (FCMP, R144). -/
  | fcmp (n : Fin 192) (b : List Byte)
  /-- Converts between binary32 and binary64 (FCVT, R146). -/
  | fcvt (n : Fin 192) (b : List Byte)
  /-- Converts a signed integer to FP (SCVTF, R146). -/
  | scvtf (n : Fin 192) (b : List Byte)
  /-- Converts FP to a signed integer toward zero, saturating (FCVTZS, R146). -/
  | fcvtzs (n : Fin 192) (b : List Byte)
  /-- Moves bits unchanged between g and f registers (FMV, R92). -/
  | fmv (n : Fin 192) (b : List Byte)
  /-- Rounds to an integral value in FPCTL.RM (FRINT, R147). -/
  | frint (n : Fin 192) (b : List Byte)
  /-- Lane-wise wrapping addition (VADD, R134). -/
  | vadd (n : Fin 192) (b : List Byte)
  /-- Lane-wise wrapping subtraction (VSUB, R134). -/
  | vsub (n : Fin 192) (b : List Byte)
  /-- Lane-wise low product (VMUL, R134). -/
  | vmul (n : Fin 192) (b : List Byte)
  /-- Lane-wise AND (VAND, R92). -/
  | vand (n : Fin 192) (b : List Byte)
  /-- Lane-wise OR (VOR, R92). -/
  | vor (n : Fin 192) (b : List Byte)
  /-- Lane-wise XOR (VXOR, R92). -/
  | vxor (n : Fin 192) (b : List Byte)
  /-- Lane-wise C AND NOT B (VANDN, R92). -/
  | vandn (n : Fin 192) (b : List Byte)
  /-- Lane-wise left shift by lane counts (VSHL, R134). -/
  | vshl (n : Fin 192) (b : List Byte)
  /-- Lane-wise logical right shift (VSHR, R134). -/
  | vshr (n : Fin 192) (b : List Byte)
  /-- Lane-wise arithmetic right shift (VSAR, R134). -/
  | vsar (n : Fin 192) (b : List Byte)
  /-- Lane-wise signed minimum (VMIN, R134). -/
  | vmin (n : Fin 192) (b : List Byte)
  /-- Lane-wise signed maximum (VMAX, R134). -/
  | vmax (n : Fin 192) (b : List Byte)
  /-- Lane-wise unsigned minimum (VMINU, R134). -/
  | vminu (n : Fin 192) (b : List Byte)
  /-- Lane-wise unsigned maximum (VMAXU, R134). -/
  | vmaxu (n : Fin 192) (b : List Byte)
  /-- Lane-wise equality mask (VCMPEQ, R92). -/
  | vcmpeq (n : Fin 192) (b : List Byte)
  /-- Lane-wise greater-than mask (VCMPGT, R92). -/
  | vcmpgt (n : Fin 192) (b : List Byte)
  /-- Broadcasts one lane of B to every lane of A (VDUP, R92). -/
  | vdup (n : Fin 192) (b : List Byte)
  /-- Extracts one lane of an f register to a g register (VEXT, R92). -/
  | vext (n : Fin 192) (b : List Byte)
  /-- Inserts a g register into one lane of an f register (VINS, R92). -/
  | vins (n : Fin 192) (b : List Byte)
  /-- The highest deliverable level is entered in 6 cycles, setting the hold of its target (INTERRUPT_ENTRY, R343). -/
  | interruptEntry (n : Fin 192)
  /-- An MTS to EVCLM_k claims a pending bit, clearing PEND and setting ACT (EVCLM_WRITE, R337). -/
  | evclmWrite (n : Fin 192) (b : List Byte)
  /-- An MTS to EVEOI_k clears ACT of a bit (EVEOI_WRITE, R337). -/
  | eveoiWrite (n : Fin 192) (b : List Byte)
  /-- An MTS to EVSET_k sets a pending bit (EVSET_WRITE, R336). -/
  | evsetWrite (n : Fin 192) (b : List Byte)
  /-- An MTS to EVREL releases the entry hold of the current level (EVREL_WRITE, R343). -/
  | evrelWrite (n : Fin 192) (b : List Byte)
  /-- An MTS to EVHOLD sets or releases entry holds (EVHOLD_WRITE, R343). -/
  | evholdWrite (n : Fin 192) (b : List Byte)
  /-- An L1I miss fill completes and the waiting block proceeds from F2 (FETCH_FILL_COMPLETE, R153). -/
  | fetchFillComplete (n : Fin 192)
  /-- The oldest store buffer entry is written to the L1D when its line is writable (STORE_BUFFER_WRITE, R166). -/
  | storeBufferWrite (n : Fin 192)
  /-- After older overlapping stores reach the L1D, fetch restarts at a partially overlapped load
  (PARTIAL_OVERLAP_REPLAY, R167). -/
  | partialOverlapReplay (n : Fin 192)
  /-- An L2 miss of the oldest load checkpoints the core and starts run-ahead (RUN_AHEAD_ENTRY, R169). -/
  | runAheadEntry (n : Fin 192) (b : List Byte) (prog : List (List Byte))
  /-- Data, an error or poison for the load arrives; run-ahead work is discarded and the checkpoint restored
  (RUN_AHEAD_EXIT, R175). -/
  | runAheadExit (n : Fin 192)
  /-- A write to PL_CTL takes effect at the next exception entry, RETI or PSWITCH (PL_CTL_WRITE, R181). -/
  | plCtlWrite (i : Initiator) (n : Fin 192) (v : W32)
  /-- A write of PL_CMD.PCLR starts setting every direction counter to 0b01 (PCLR, R182). -/
  | pclr (i : Initiator) (n : Fin 192) (v : W32)
  /-- After 4,096 cycles the counter initialisation ends and PCLRB clears (PREDICTOR_INIT_DONE, R182). -/
  | predictorInitDone (n : Fin 192)
  /-- A read of RETCNT_LO captures RETCNT_HI for the reader (RETCNT_LO_READ, R180). -/
  | retcntLoRead (i : Initiator) (n : Fin 192)
  /-- A walker table read returns and the walk continues, faults or installs its translation (TABLE_READ_RESPONSE,
  R196). -/
  | tableReadResponse (n : Fin 192)
  /-- A TLBI arrives at a core, removes matching entries and is acknowledged (TLBI_PACKET, R212). -/
  | tlbiPacket (n : Fin 192) (k : Packet)
  /-- A bench reports a TLBI performed at all its cores (TLBI_ACK, R110). -/
  | tlbiAck (k : Packet)
  /-- Fill data arrives and allocates in a victim way permitted by the active masks (CACHE_FILL, R221). -/
  | cacheFill (n : Fin 192) (a : PAddr)
  /-- GO with OP 1 starts a maintenance engine clean of a range (ME_CLEAN, R239). -/
  | meClean (i : Initiator) (e : Fin 56) (v : W32)
  /-- GO with OP 2 starts an invalidate, discarding dirty data only for PARTID 0 (ME_INVALIDATE, R241). -/
  | meInvalidate (i : Initiator) (e : Fin 56) (v : W32)
  /-- GO with OP 3 starts a clean and invalidate sweep (ME_CLEAN_INVALIDATE, R239). -/
  | meCleanInvalidate (i : Initiator) (e : Fin 56) (v : W32)
  /-- ABORT stops the sweep after the line or set in progress (ME_ABORT, R242). -/
  | meAbort (i : Initiator) (e : Fin 56) (v : W32)
  /-- After outstanding write-backs the engine clears BUSY, sets ABORTED and raises completion (ME_ABORT_DONE, R242). -/
  | meAbortDone (e : Fin 56)
  /-- The last line or set is acted on and accepted; DONE sets and completion fires (ME_SWEEP_DONE, R240). -/
  | meSweepDone (e : Fin 56)
  /-- A cache's invalidation after reset or Stop ends and READY sets (CACHE_INIT_DONE, R244). -/
  | cacheInitDone (e : Fin 248)
  /-- 16 core cycles after a log line's first record, the primary sends the line (LOG_LINE_TIMER, R252). -/
  | logLineTimer (n : Fin 192)
  /-- A bunk log line arrives at the shadow's bench and becomes available for replay (LOG, R254). -/
  | log (k : Packet)
  /-- A log credit flit returns 8 consumed lines to the primary (CRD, R254). -/
  | crd (k : Packet)
  /-- A read of BRPOS_LO captures BRPOS_HI for the reader (BRPOS_LO_READ, R265). -/
  | brposLoRead (i : Initiator) (n : Fin 192)
  /-- A shared line read arrives at its home slice (RD_SH, R271). -/
  | rdSh (k : Packet)
  /-- A line read for ownership arrives at its home slice (RD_UN, R271). -/
  | rdUn (k : Packet)
  /-- A non-cacheable or device read of 1–32 bytes arrives at its target (RD_NC, R271). -/
  | rdNc (k : Packet)
  /-- A dirty line write-back arrives at its home slice or controller (WR_BK, R271). -/
  | wrBk (k : Packet)
  /-- A line write under byte enables arrives at its target (WR_LN, R271). -/
  | wrLn (k : Packet)
  /-- A partial write of 1–32 bytes arrives at its target (WR_PT, R271). -/
  | wrPt (k : Packet)
  /-- A maintenance-by-address request arrives at the home slice (CMO_PACKET, R271). -/
  | cmoPacket (k : Packet)
  /-- A clean eviction report updates the directory's sharer vector (EV_CL, R229). -/
  | evCl (k : Packet)
  /-- A snoop from home arrives at a bench L2 (SNP, R227). -/
  | snp (k : Packet)
  /-- A directory recall arrives at a sharer bench (RCL, R230). -/
  | rcl (k : Packet)
  /-- A trace line arrives at a sink slice or the trace-port exporter (TRC, R293). -/
  | trc (k : Packet)
  /-- A response carrying a line arrives at its initiator (DATA, R271). -/
  | data (k : Packet)
  /-- A response carrying up to 32 bytes arrives at its initiator (DATA_S, R271). -/
  | dataS (k : Packet)
  /-- A completion of a write, CMO or EV_CL arrives at its initiator (ACK, R271). -/
  | ack (k : Packet)
  /-- A snoop or recall answer without data arrives at home (SNP_ACK, R271). -/
  | snpAck (k : Packet)
  /-- A snoop or recall answer with a dirty line arrives at home (SNP_DATA, R271). -/
  | snpData (k : Packet)
  /-- A router switches a packet by the route bank of its EPOCH (PACKET_SWITCH, R277). -/
  | packetSwitch (r : Fin 82) (k : Switched)
  /-- A router's OLD count reaches 0 and DRAIN clears (DRAIN_CLEAR, R279). -/
  | drainClear (r : Fin 82)
  /-- MC_CMD.INIT trains both channels under MC_CFG (MC_INIT, R318). -/
  | mcInit (i : Initiator) (m : Fin 16) (v : W32)
  /-- Training ends with TRAINED at 1, or with TRFAIL for a failing channel (TRAINING_DONE, R318). -/
  | trainingDone (m : Fin 16) (ok0 : Bool) (ok1 : Bool)
  /-- Writing IPE_CTL.ON starts counter-tree initialisation, or is refused with ON_REF (IPE_ON, R312). -/
  | ipeOn (i : Initiator) (m : Fin 16) (v : W32)
  /-- Counter-tree initialisation ends; TINIT clears and ACTIVE sets (TREE_INIT_DONE, R312). -/
  | treeInitDone (m : Fin 16)
  /-- A write of KR_BASE or KR_LIM changes slot selection for later writes (KEY_RANGE_WRITE, R306). -/
  | keyRangeWrite (i : Initiator) (m : Fin 16) (r : Fin 64) (lim : Bool) (v : W32)
  /-- A controller reads a line and checks ECC, poison, slot, freshness and MAC in order (DRAM_READ, R309). -/
  | dramRead (m : Fin 16) (a : PAddr) (x : DramCheck)
  /-- A controller encrypts a line, computes MAC and ECC and writes data and tag (DRAM_WRITE, R308). -/
  | dramWrite (m : Fin 16) (a : PAddr) (d : BitVec 512) (poison : Bool)
  /-- A re-encryption completes and waiting accesses proceed (REENCRYPT_DONE, R315). -/
  | reencryptDone (m : Fin 16)
  /-- Every 16 ms the controller reads MR4 and sets the refresh interval (MR4_READ, R319). -/
  | mr4Read (m : Fin 16) (v : Byte)
  /-- Periodic refresh, ZQ calibration and WCK2DQ tracking run per bank (PERIODIC_CALIBRATION, R318). -/
  | periodicCalibration (m : Fin 16)
  /-- Sweep GO with OP 1 rewrites each line of the range (SWEEP_REWRITE, R317). -/
  | sweepRewrite (i : Initiator) (m : Fin 16) (v : W32)
  /-- Sweep GO with OP 2 writes zero to each line of the range (SWEEP_ZERO, R317). -/
  | sweepZero (i : Initiator) (m : Fin 16) (v : W32)
  /-- ABORT stops an inline protection sweep (SWEEP_ABORT, R317). -/
  | sweepAbort (i : Initiator) (m : Fin 16) (v : W32)
  /-- A sweep completes; DONE sets and source 0x180 + m fires (SWEEP_DONE, R317). -/
  | sweepDone (m : SweepStep)
  /-- A fire reaches its routed core and sets the pending bit, with HELD under moderation (SOURCE_FIRE, R336). -/
  | sourceFire (j : Nat)
  /-- A doorbell write from a port is checked and fires message source 0x2000 + data (MSI_MESSAGE, R331). -/
  | msiMessage (m : MsiWrite)
  /-- A write of a route entry takes effect, or is refused with RTE_BAD (ERT_LO_WRITE, R329). -/
  | ertLoWrite (i : Initiator) (e : BitVec 14) (v : W32)
  /-- A write of the doorbell address takes effect or sets DB_BAD (DBELL_WRITE, R331). -/
  | dbellWrite (i : Initiator) (hi : Bool) (v : W32)
  /-- A group's interval ends, clearing its HELD flags and holding again or going idle (MODERATION_INTERVAL_END,
  R339). -/
  | moderationIntervalEnd (g : BitVec 8)
  /-- A write to SWFIRE fires a software source (SWFIRE_WRITE, R348). -/
  | swfireWrite (i : Initiator) (j : Fin 4) (v : W32)
  /-- PF command 1 creates a VF with pool runs of queue pairs and vectors (PF_CREATE, R352). -/
  | pfCreate (i : Initiator) (v : W32)
  /-- PF command 2 releases a VF's runs (PF_DESTROY, R352). -/
  | pfDestroy (i : Initiator) (v : W32)
  /-- PF command 3 starts a VF reset (PF_RESET, R352). -/
  | pfReset (i : Initiator) (v : W32)
  /-- PF command 4 changes a compatibility VF's queue pair and vector counts (PF_RESIZE, R353). -/
  | pfResize (i : Initiator) (v : W32)
  /-- A PF command finishes, leaving RESULT and firing source 0x400 (PF_COMMAND_DONE, R352). -/
  | pfCommandDone
  /-- Writing Q_CFG.EN from 0 to 1 resets indices and phase and clears HALT (QUEUE_ENABLE, R356). -/
  | queueEnable (i : Initiator) (f : BitVec 8) (q : Fin 64) (v : W32)
  /-- Writing EN from 1 to 0 stops descriptor fetch after the one in progress (QUEUE_DISABLE, R356). -/
  | queueDisable (i : Initiator) (f : BitVec 8) (q : Fin 64) (v : W32)
  /-- A Q_DB write posts TAIL and CQHEAD, or sets DB_BAD when out of range (Q_DB_WRITE, R355). -/
  | qDbWrite (i : Initiator) (f : BitVec 8) (q : Fin 64) (v : W32)
  /-- An engine with a free slot starts the next descriptor round-robin after its checks (DESCRIPTOR_START, R361). -/
  | descriptorStart (e : Fin 10)
  /-- Copies LEN bytes from source to destination (COPY, R358). -/
  | copy (e : Fin 10) (j : Nat)
  /-- Fills LEN bytes with an 8-byte pattern (FILL, R358). -/
  | fill (e : Fin 10) (j : Nat)
  /-- Encrypts or decrypts under the parameter block's mode and key (AES, R360). -/
  | aes (e : Fin 10) (j : Nat)
  /-- Computes a SHA-2 or SHA-3 digest (HASH, R358). -/
  | hash (e : Fin 10) (j : Nat)
  /-- Signs a 48-byte digest with P-384 (ECDSA_SIGN, R358). -/
  | ecdsaSign (e : Fin 10) (j : Nat)
  /-- Verifies a P-384 signature (ECDSA_VERIFY, R358). -/
  | ecdsaVerify (e : Fin 10) (j : Nat)
  /-- Generates an ML-KEM key pair (MLKEM_KEYGEN, R358). -/
  | mlkemKeygen (e : Fin 10) (j : Nat)
  /-- Encapsulates a shared secret under ek (MLKEM_ENCAPS, R358). -/
  | mlkemEncaps (e : Fin 10) (j : Nat)
  /-- Decapsulates a shared secret with dk (MLKEM_DECAPS, R358). -/
  | mlkemDecaps (e : Fin 10) (j : Nat)
  /-- A TSN transmit queue sends one Ethernet frame (TXF, R369). -/
  | txf (e : Fin 10) (j : Nat)
  /-- A TSN receive queue posts a buffer (RXB, R369). -/
  | rxb (e : Fin 10) (j : Nat)
  /-- A descriptor's writes finish and the engine writes its completion entry and fires its vector
  (DESCRIPTOR_COMPLETE, R363). -/
  | descriptorComplete (e : Fin 10) (j : Nat)
  /-- Writing VF_RST.RESET starts a VF reset and sets RSTBUSY (VF_RST_WRITE, R366). -/
  | vfRstWrite (i : Initiator) (f : BitVec 8) (v : W32)
  /-- Outstanding VF accesses end; queue registers reset, RSTBUSY clears and 0x401 fires (VF_RESET_DONE, R366). -/
  | vfResetDone (f : BitVec 8)
  /-- A frame arrives at a switch port and is filtered, forwarded or delivered to a host queue (ETH_FRAME_RECEIVE,
  R373). -/
  | ethFrameReceive (p : Fin 8) (x : EthFrame)
  /-- A read of TS_LO pops the oldest timestamp entry (TS_LO_READ, R376). -/
  | tsLoRead (i : Initiator) (p : Fin 8)
  /-- A write to GDk_OFS_HI applies a gPTP domain offset in one step (GD_OFFSET_WRITE, R375). -/
  | gdOffsetWrite (i : Initiator) (g : Fin 2) (v : W32)
  /-- A port's link goes up or down; down clears SYNC and sets LINKDN (ETH_LINK_CHANGE, R375). -/
  | ethLinkChange (p : Fin 8) (up : Bool)
  /-- Writing QBV_CMD.CHANGE makes the administrative gate list pending (QBV_CHANGE, R377). -/
  | qbvChange (i : Initiator) (p : Fin 8) (v : W32)
  /-- At the change time or named tick the pending gate list becomes operational (GATE_LIST_SWITCH, R377). -/
  | gateListSwitch (p : Fin 8)
  /-- A gate entry's interval ends and the next entry or cycle begins (GATE_ENTRY_END, R377). -/
  | gateEntryEnd (p : Fin 8)
  /-- TBL_CMD.READ loads a table entry into TBL_DATA (TBL_READ, R380). -/
  | tblRead (i : Initiator) (v : W32)
  /-- TBL_CMD.WRITE stores TBL_DATA into a table entry (TBL_WRITE, R380). -/
  | tblWrite (i : Initiator) (v : W32)
  /-- A table operation ends and BUSY clears (TABLE_OP_DONE, R380). -/
  | tableOpDone
  /-- Writing LINK_EN enables a root port, sampling BIF on the first write (PCIE_LINK_ENABLE, R382). -/
  | pcieLinkEnable (i : Initiator) (p : Fin 4) (v : W32)
  /-- A root port's link state changes and its source fires (PCIE_LINK_CHANGE, R404). -/
  | pcieLinkChange (p : Fin 4) (up : Bool)
  /-- PERSTi_N rises 200 µs after PE_REFCLKi starts (PERST_RELEASE, R524). -/
  | perstRelease (p : Fin 4)
  /-- An inbound TLP is checked against the doorbell and translated through inbound windows (PCIE_INBOUND_REQUEST,
  R386). -/
  | pcieInboundRequest (p : Fin 4) (x : Tlp)
  /-- A completion for an outbound request returns data, poison or all ones (PCIE_COMPLETION, R385). -/
  | pcieCompletion (p : Fin 4) (x : Completion)
  /-- CPL_TO expires and the request returns all ones with CPL_ERR (PCIE_COMPLETION_TIMEOUT, R385). -/
  | pcieCompletionTimeout (p : Fin 4) (j : Nat)
  /-- An inbound Parraha write is routed, translated and performed or NACKed (PARRAHA_WR, R392). -/
  | parrahaWr (p : Fin 4) (x : PrlPacket)
  /-- An inbound Parraha read is translated and answered with RDR (PARRAHA_RD, R392). -/
  | parrahaRd (p : Fin 4) (x : PrlPacket)
  /-- A read response completes a remote read with data, zeros or poison (PARRAHA_RDR, R393). -/
  | parrahaRdr (p : Fin 4) (x : PrlPacket)
  /-- An inbound message is written to the message ring or answered NACK FULL (PARRAHA_MSG, R394). -/
  | parrahaMsg (p : Fin 4) (x : PrlPacket)
  /-- A NACK is recorded in PL_NACK and fires its source (PARRAHA_NACK, R393). -/
  | parrahaNack (p : Fin 4) (x : PrlPacket)
  /-- A TICK packet on the source port yields the corrected tick instant and PL_TOFS (PARRAHA_TICK, R396). -/
  | parrahaTick (p : Fin 4) (x : PrlPacket)
  /-- At I − PX_TLEAD, or when the tick is established, TICK is sent on enabled ports (TICK_SEND, R396). -/
  | tickSend
  /-- Every PL_DCFG.IV µs the port sends DLY_REQ (DELAY_MEASURE_TIMER, R395). -/
  | delayMeasureTimer (p : Fin 4)
  /-- A delay request is answered with DLY_RSP carrying t2 and t3 (DLY_REQ, R395). -/
  | dlyReq (p : Fin 4) (x : PrlPacket)
  /-- A delay response sets PL_DLY and DVALID (DLY_RSP, R395). -/
  | dlyRsp (p : Fin 4) (x : PrlPacket)
  /-- A Parraha link comes up or goes down (PARRAHA_LINK_CHANGE, R390). -/
  | parrahaLinkChange (p : Fin 4) (up : Bool)
  /-- Writing PX_MRCFG.EN 0 then 1 zeroes TAIL and PX_MRHEAD (MSG_RING_ENABLE, R394). -/
  | msgRingEnable (i : Initiator) (v : W32)
  /-- Writing GO starts an xSPI command transferring to XS_DST (XSPI_GO, R398). -/
  | xspiGo (i : Initiator) (v : W32)
  /-- An xSPI command ends, setting DONE and firing 0x6CC (XSPI_DONE, R398). -/
  | xspiDone (ok : Bool) (d : List Byte)
  /-- A CMD write starts an I2C, SPI or UART operation (LOW_SPEED_COMMAND, R400). -/
  | lowSpeedCommand (i : Initiator) (k : Fin 12) (v : W32)
  /-- An enabled edge on a GPIO ball fires source 0x680 + n (GPIO_EDGE, R401). -/
  | gpioEdge (g : Fin 64) (rise : Bool)
  /-- JTAG CAPSEL selects a capture-chain segment (CAPSEL, R509). -/
  | capsel (v : W16)
  /-- JTAG CAPRD shifts out the selected segment circularly (CAPRD, R509). -/
  | caprd (bits : Nat)
  /-- Mailbox command writing BLEN random bytes (RNG, R427). -/
  | rng (i : Initiator) (p : Fin 3) (v : W32)
  /-- Checks a boot image and on success measures it and derives identity keys (BOOTIMG, R414). -/
  | bootimg (i : Initiator) (p : Fin 3) (v : W32)
  /-- Derives the next CDI and alias keys from a measurement (DICE_NEXT, R416). -/
  | diceNext (i : Initiator) (p : Fin 3) (v : W32)
  /-- Extends measurement register 8–15 with 48 bytes (MR_EXTEND, R417). -/
  | mrExtend (i : Initiator) (p : Fin 3) (v : W32)
  /-- Writes a signed attestation report (ATTEST, R418). -/
  | attest (i : Initiator) (p : Fin 3) (v : W32)
  /-- Writes a DeviceID or alias public key (GETPUB, R418). -/
  | getpub (i : Initiator) (p : Fin 3) (v : W32)
  /-- Installs fresh keys in an inline protection slot in all engines (SLOT_INSTALL, R419). -/
  | slotInstall (i : Initiator) (p : Fin 3) (v : W32)
  /-- Empties a slot in all engines (SLOT_ERASE, R419). -/
  | slotErase (i : Initiator) (p : Fin 3) (v : W32)
  /-- Fills a confidential table entry after its checks (CONF_SET, R422). -/
  | confSet (i : Initiator) (p : Fin 3) (v : W32)
  /-- Erases a confidential entry's slot and invalidates the entry (CONF_CLR, R422). -/
  | confClr (i : Initiator) (p : Fin 3) (v : W32)
  /-- Generates a key of a type in a handle (KEY_GEN, R420). -/
  | keyGen (i : Initiator) (p : Fin 3) (v : W32)
  /-- Frees a key handle (KEY_ERASE, R420). -/
  | keyErase (i : Initiator) (p : Fin 3) (v : W32)
  /-- Writes the public key of a handle (KEY_PUB, R420). -/
  | keyPub (i : Initiator) (p : Fin 3) (v : W32)
  /-- Advances an anti-rollback counter to a greater value (CTR_ADV, R409). -/
  | ctrAdv (i : Initiator) (p : Fin 3) (v : W32)
  /-- Writes a fresh debug challenge and the UID (DBG_CHAL, R425). -/
  | dbgChal (i : Initiator) (p : Fin 3) (v : W32)
  /-- Verifies a signed debug response and grants debug levels (DBG_RESP, R425). -/
  | dbgResp (i : Initiator) (p : Fin 3) (v : W32)
  /-- Advances the lifecycle state (LC_ADV, R406). -/
  | lcAdv (i : Initiator) (p : Fin 3) (v : W32)
  /-- Writes a key hash slot (PROV_HASH, R427). -/
  | provHash (i : Initiator) (p : Fin 3) (v : W32)
  /-- Revokes a key hash slot (PROV_REVOKE, R427). -/
  | provRevoke (i : Initiator) (p : Fin 3) (v : W32)
  /-- Writes BOOTCFG (PROV_CFG, R427). -/
  | provCfg (i : Initiator) (p : Fin 3) (v : W32)
  /-- A root-of-trust command ends, setting DONE and RESULT and firing 0x6FF + page (MAILBOX_COMMAND_DONE, R427). -/
  | mailboxCommandDone
  /-- Self-tests end; KATDONE sets and core 0 is released, or KATFAIL sets (KAT_DONE, R410). -/
  | katDone (ok : Bool)
  /-- A write of RT_RVBAR moves the reset address, or sets RVB_REF (RVBAR_WRITE, R411). -/
  | rvbarWrite (i : Initiator) (hi : Bool) (v : W32)
  /-- Writing STL_CTL.RUN from 0 to 1 starts the stool at STL_START (STL_RUN_START, R456). -/
  | stlRunStart (i : Initiator) (k : Fin 34) (v : W32)
  /-- Writing RUN from 1 to 0 stops the stool at the next boundary (STL_RUN_STOP, R456). -/
  | stlRunStop (i : Initiator) (k : Fin 34) (v : W32)
  /-- A window access reads or writes the stool SRAM, waiting for the engine's port (STL_WIN_ACCESS, R457). -/
  | stlWinAccess (i : Initiator) (k : Fin 34) (w : Fin 512) (d : Option W32)
  /-- A fire routed to a stool sets its pending bit (STOOL_FIRE, R446). -/
  | stoolFire (j : Nat)
  /-- A deliverable stool level is entered in 8 clocks (STL_INTERRUPT_ENTRY, R448). -/
  | stlInterruptEntry (k : Fin 34)
  /-- A stool's control-space access expires after CNTO clocks (CONTROL_WINDOW_TIMEOUT, R444). -/
  | controlWindowTimeout (k : Fin 34)
  /-- Loads M into A (STL_LD, R436). -/
  | stlLd (k : Fin 34) (b : List Byte)
  /-- Stores the low w bits of A to M (STL_ST, R436). -/
  | stlSt (k : Fin 34) (b : List Byte)
  /-- Adds M to A (STL_ADD, R436). -/
  | stlAdd (k : Fin 34) (b : List Byte)
  /-- Adds M and C to A (STL_ADC, R436). -/
  | stlAdc (k : Fin 34) (b : List Byte)
  /-- Subtracts M from A (STL_SUB, R436). -/
  | stlSub (k : Fin 34) (b : List Byte)
  /-- Subtracts M and borrow from A (STL_SBC, R436). -/
  | stlSbc (k : Fin 34) (b : List Byte)
  /-- ANDs M into A (STL_AND, R436). -/
  | stlAnd (k : Fin 34) (b : List Byte)
  /-- ORs M into A (STL_OR, R436). -/
  | stlOr (k : Fin 34) (b : List Byte)
  /-- XORs M into A (STL_XOR, R436). -/
  | stlXor (k : Fin 34) (b : List Byte)
  /-- Sets flags from A − M (STL_CMP, R436). -/
  | stlCmp (k : Fin 34) (b : List Byte)
  /-- Loads X from an immediate or memory (XLD, R437). -/
  | xld (k : Fin 34) (b : List Byte)
  /-- Stores X to memory (XST, R437). -/
  | xst (k : Fin 34) (b : List Byte)
  /-- Loads Y from an immediate or memory (YLD, R437). -/
  | yld (k : Fin 34) (b : List Byte)
  /-- Stores Y to memory (YST, R437). -/
  | yst (k : Fin 34) (b : List Byte)
  /-- Increments X (XINC, R437). -/
  | xinc (k : Fin 34) (b : List Byte)
  /-- Decrements X (XDEC, R437). -/
  | xdec (k : Fin 34) (b : List Byte)
  /-- Increments Y (YINC, R437). -/
  | yinc (k : Fin 34) (b : List Byte)
  /-- Decrements Y (YDEC, R437). -/
  | ydec (k : Fin 34) (b : List Byte)
  /-- Sets flags from X − i16 (XCMP, R437). -/
  | xcmp (k : Fin 34) (b : List Byte)
  /-- Sets flags from Y − i16 (YCMP, R437). -/
  | ycmp (k : Fin 34) (b : List Byte)
  /-- Copies A[15:0] to X (MOVXA, R437). -/
  | movxa (k : Fin 34) (b : List Byte)
  /-- Copies X to A (MOVAX, R437). -/
  | movax (k : Fin 34) (b : List Byte)
  /-- Copies A[15:0] to Y (MOVYA, R437). -/
  | movya (k : Fin 34) (b : List Byte)
  /-- Copies Y to A (MOVAY, R437). -/
  | movay (k : Fin 34) (b : List Byte)
  /-- Copies SP to X (MOVXS, R437). -/
  | movxs (k : Fin 34) (b : List Byte)
  /-- Copies X to SP (MOVSX, R437). -/
  | movsx (k : Fin 34) (b : List Byte)
  /-- Copies A[7:0] to BK (MOVBA, R437). -/
  | movba (k : Fin 34) (b : List Byte)
  /-- Copies BK to A (MOVAB, R437). -/
  | movab (k : Fin 34) (b : List Byte)
  /-- Loads BK from an immediate (BKLD, R437). -/
  | bkld (k : Fin 34) (b : List Byte)
  /-- Pushes A (PUSH, R437). -/
  | push (k : Fin 34) (b : List Byte)
  /-- Pops A (POP, R437). -/
  | pop (k : Fin 34) (b : List Byte)
  /-- Pushes X (PUSHX, R437). -/
  | pushx (k : Fin 34) (b : List Byte)
  /-- Pops X (POPX, R437). -/
  | popx (k : Fin 34) (b : List Byte)
  /-- Pushes Y (PUSHY, R437). -/
  | pushy (k : Fin 34) (b : List Byte)
  /-- Pops Y (POPY, R437). -/
  | popy (k : Fin 34) (b : List Byte)
  /-- Pushes BK and F (PUSHF, R437). -/
  | pushf (k : Fin 34) (b : List Byte)
  /-- Pops BK and F (POPF, R437). -/
  | popf (k : Fin 34) (b : List Byte)
  /-- Multiplies A[15:0] by X (STL_MUL, R437). -/
  | stlMul (k : Fin 34) (b : List Byte)
  /-- Divides A by X, quotient to A and remainder to Y (DIVU, R438). -/
  | divu (k : Fin 34) (b : List Byte)
  /-- Negates A (ANEG, R438). -/
  | aneg (k : Fin 34) (b : List Byte)
  /-- Branches relative unconditionally (BR, R439). -/
  | br (k : Fin 34) (b : List Byte)
  /-- Branches relative if the named condition holds (BR_COND, R437). -/
  | brCond (k : Fin 34) (b : List Byte)
  /-- Jumps within the current 64 KiB (JP, R439). -/
  | jp (k : Fin 34) (b : List Byte)
  /-- Jumps to a 24-bit address (JPF, R437). -/
  | jpf (k : Fin 34) (b : List Byte)
  /-- Pushes the next PC and jumps within 64 KiB (CALL, R439). -/
  | call (k : Fin 34) (b : List Byte)
  /-- Pushes the next PC and jumps to a 24-bit address (CALLF, R439). -/
  | callf (k : Fin 34) (b : List Byte)
  /-- Pops the PC (STL_RET, R439). -/
  | stlRet (k : Fin 34) (b : List Byte)
  /-- Pops BK, F and PC and flushes the queue (IRET, R451). -/
  | iret (k : Fin 34) (b : List Byte)
  /-- Jumps to X within 64 KiB (JPX, R437). -/
  | jpx (k : Fin 34) (b : List Byte)
  /-- Does nothing (STL_NOP, R437). -/
  | stlNop (k : Fin 34) (b : List Byte)
  /-- Waits until a level above PL is pending and enabled, or RUN is written 0 (IDLE, R452). -/
  | idle (k : Fin 34) (b : List Byte)
  /-- Sets F.I (INTON, R437). -/
  | inton (k : Fin 34) (b : List Byte)
  /-- Clears F.I (INTOFF, R437). -/
  | intoff (k : Fin 34) (b : List Byte)
  /-- Raises stool exception cause 0 (SWX, R449). -/
  | swx (k : Fin 34) (b : List Byte)
  /-- Increments A (AINC, R437). -/
  | ainc (k : Fin 34) (b : List Byte)
  /-- Decrements A (ADEC, R437). -/
  | adec (k : Fin 34) (b : List Byte)
  /-- Inverts A (ANOT, R437). -/
  | anot (k : Fin 34) (b : List Byte)
  /-- Shifts A left by an immediate (STL_SHL, R437). -/
  | stlShl (k : Fin 34) (b : List Byte)
  /-- Shifts A right logically by an immediate (STL_SHR, R437). -/
  | stlShr (k : Fin 34) (b : List Byte)
  /-- Shifts A right arithmetically by an immediate (STL_SAR, R437). -/
  | stlSar (k : Fin 34) (b : List Byte)
  /-- Reads TIME[31:0] and captures TIME[63:32] (STL_RDTIME, R437). -/
  | stlRdtime (k : Fin 34) (b : List Byte)
  /-- Reads the captured or current TIME[63:32] (RDTIMH, R437). -/
  | rdtimh (k : Fin 34) (b : List Byte)
  /-- Reads a stool feature register (STL_RDFEAT, R462). -/
  | stlRdfeat (k : Fin 34) (b : List Byte)
  /-- A DCMD STOP starts the Stop sequence of a domain after its checks (DCMD_STOP, R468). -/
  | dcmdStop (i : Initiator) (v : W32)
  /-- A DCMD WAKE starts a chained wake of a domain and its ancestors (DCMD_WAKE, R471). -/
  | dcmdWake (i : Initiator) (v : W32)
  /-- A DCMD RESET resets a cell or bench (DCMD_RESET, R486). -/
  | dcmdReset (i : Initiator) (v : W32)
  /-- Writing CAB.CRST resets a compute cabinet, or sets CRST_REF elsewhere (CABINET_RESET, R486). -/
  | cabinetReset (i : Initiator) (c : Fin 8) (v : W32)
  /-- After draining, the save list is written, the switch opens and STATE becomes Stop (STOP_SEQUENCE_DONE, R468). -/
  | stopSequenceDone (d : Fin 296)
  /-- A queued event wake of a stopped cell with EVW set is performed (EVENT_WAKE, R470). -/
  | eventWake
  /-- A wake restores the image, opens the fences and sets STATE to Run (WAKE_DONE, R471). -/
  | wakeDone (d : Fin 296)
  /-- A supply, PLL or Chest failure fails a wake, latches FCAUSE and fires 0x302 (WAKE_FAILURE, R473). -/
  | wakeFailure (d : Fin 296) (cause : Fin 4)
  /-- Writing CHIP_CMD.STOP captures TIME and stops AOC clocks and the time PLL (CHIP_STOP, R478). -/
  | chipStop (i : Initiator) (v : W32) (c : BitVec 48)
  /-- Writing CHIP_CMD.SYSRST starts a system reset (CHIP_SYSRST, R485). -/
  | chipSysrst (i : Initiator) (v : W32)
  /-- A falling edge of WAKE_N starts a chip wake (WAKE_N_FALL, R479). -/
  | wakeNFall
  /-- The always-on count equals AON_WAKE with EN set and a chip wake starts (AON_TIMER_MATCH, R479). -/
  | aonTimerMatch
  /-- PWR_GOOD stays low for 2 ms during a chip wake, which fails with cause 1 (PWR_GOOD_TIMEOUT, R523). -/
  | pwrGoodTimeout
  /-- The time PLL locks at an always-on edge and TIME is corrected by the elapsed periods (TIME_PLL_LOCK, R480). -/
  | timePllLock (c : BitVec 48)
  /-- The time PLL fails to lock in 500 µs; the chip stays in Stop and CHIP_WFAIL latches (CHIP_WAKE_PLL_FAIL, R479). -/
  | chipWakePllFail
  /-- A read of AON_LO captures AON_HI for the reader (AON_LO_READ, R489). -/
  | aonLoRead (i : Initiator) (c : BitVec 48)
  /-- PORST_N low starts a power-on reset (PORST_N_LOW, R521). -/
  | porstNLow
  /-- An AON rail below its level for over 2 µs starts a power-on reset (AON_SUPPLY_DIP, R521). -/
  | aonSupplyDip
  /-- SYSRST_N low for at least 1 µs starts a system reset (SYSRST_N_LOW, R528). -/
  | sysrstNLow
  /-- A write of HB_CMD.KICK restarts the heartbeat kick timer (HB_KICK, R502). -/
  | hbKick (i : Initiator) (v : W32)
  /-- A write of HB_CMD.RESUME clears STOPPED when its conditions hold (HB_RESUME, R502). -/
  | hbResume (i : Initiator) (v : W32)
  /-- No KICK within KIV ms sets STOPPED with CAUSE 2 (HB_KICK_EXPIRY, R502). -/
  | hbKickExpiry
  /-- A write of HB_CTL sets heartbeat controls; writing EN 0 sets STOPPED with CAUSE 3 (HB_CTL_WRITE, R502). -/
  | hbCtlWrite (i : Initiator) (v : W32)
  /-- Writing FZ_CMD.FREEZE freezes the device, or is refused and sets FZ_REF (FZ_CMD_FREEZE, R506). -/
  | fzCmdFreeze (i : Initiator) (v : W32)
  /-- FREEZE_N low in two samples with PINEN set requests a freeze (FREEZE_N_LOW, R506). -/
  | freezeNLow
  /-- The power-on reset is released 1 ms after both AON rails are above their levels and PORST_N is high, and the
  self-tests then begin (POWER_ON_RESET_RELEASE, R521). -/
  | powerOnResetRelease
  /-- During a chip wake, PWR_GOOD rises with REFCLK stable and the power controller restarts the time PLL
  (PWR_GOOD_RISE, R523). -/
  | pwrGoodRise
  /-- A control-network access issued from JTAG enters the tree at the root with PARTID 0, and bad byte enables are
  answered at once with SIZE (JTAG_CONTROL_ACCESS, R26). -/
  | jtagControlAccess (x : JtagAccess)
  /-- A root port records an AER error from its link, sets PG_ERR.AER and fires source 0x600 + 16i + 1
  (PCIE_AER_ERROR, R404). -/
  | pcieAerError (p : Fin 4) (cls : Fin 3)
  /-- A write to a UFSHCI doorbell register starts a UFS transfer whose DMA carries the PARTID of PG_OWNER
  (UFS_DOORBELL, R399). -/
  | ufsDoorbell (i : Initiator) (o : BitVec 12) (v : W32)
  /-- A UFS transfer ends and source 0x6CD fires (UFS_TRANSFER_DONE, R399). -/
  | ufsTransferDone (ok : Bool) (a : PAddr) (d : List Byte)
  /-- An I2C, SPI or UART operation ends and source 0x6C0 + k, 0x6C4 + k or 0x6C8 + k fires (LOW_SPEED_TRANSFER_DONE,
  R400). -/
  | lowSpeedTransferDone (k : Fin 12) (d : List Byte)
  /-- Bytes arrive on a UART RX line, or an I2C controller addresses the device as target, and enter the RX FIFO
  (LOW_SPEED_RECEIVE, R400). -/
  | lowSpeedReceive (k : Fin 12) (d : List Byte)
  deriving DecidableEq, Repr

end Sys2Proof
end

