-- ==== Sys2Proof/Machine/Bits.lean ====
section
/-! DEFINITION. Bit fields, sign extension and little-endian byte order (00_scope R3). -/

namespace Sys2Proof.Machine

/-- The field `[lo + w - 1 : lo]` of a word, as a number (00_scope "Numbers, units and bits"). -/
def fieldOf {n : Nat} (x : BitVec n) (lo w : Nat) : Nat := (x.toNat >>> lo) % 2 ^ w

/-- Bit `i` of a word. -/
def bitOf {n : Nat} (x : BitVec n) (i : Nat) : Bool := x.toNat.testBit i

/-- The word with field `[lo + w - 1 : lo]` replaced by the low `w` bits of `v`. -/
def putField {n : Nat} (x : BitVec n) (lo w v : Nat) : BitVec n :=
  (x &&& ~~~ (BitVec.ofNat n (2 ^ w - 1) <<< lo)) ||| (BitVec.ofNat n (v % 2 ^ w) <<< lo)

/-- The word with bit `i` set to `b`. -/
def putBit {n : Nat} (x : BitVec n) (i : Nat) (b : Bool) : BitVec n :=
  putField x i 1 (if b then 1 else 0)

/-- `1` for true, `0` for false. -/
def b2n (b : Bool) : Nat := if b then 1 else 0

/-- The low `w` bits of `x`, sign-extended to an integer. -/
def sextNat (x w : Nat) : Int :=
  let y := x % 2 ^ w
  if y < 2 ^ (w - 1) then (y : Int) else (y : Int) - (2 ^ w : Nat)

/-- The low `w` bits of a 64-bit word, sign-extended to 64 bits. -/
def sext64 (x : W64) (w : Nat) : W64 := BitVec.ofInt 64 (sextNat x.toNat w)

/-- The low `w` bits of a 64-bit word, zero-extended. -/
def zext64 (x : W64) (w : Nat) : W64 := BitVec.ofNat 64 (x.toNat % 2 ^ w)

/-- The number that a list of bytes spells, the first byte least significant (R3). -/
def leNat : List Byte → Nat
  | [] => 0
  | b :: bs => b.toNat + 256 * leNat bs

/-- The `n` bytes of a number, least significant first (R3). -/
def leBytes : Nat → Nat → List Byte
  | 0, _ => []
  | n + 1, x => BitVec.ofNat 8 (x % 256) :: leBytes n (x / 256)

/-- `x` rounded down to a multiple of `2 ^ k`. -/
def alignDown (x k : Nat) : Nat := (x >>> k) <<< k

/-- A counter that adds 1 and saturates at `max` (R29 COUNT, R37, R50). -/
def satInc (max x : Nat) : Nat := if x < max then x + 1 else max

/-- Replace element `i` of a list, if it has one. -/
def listSet {α : Type} : List α → Nat → α → List α
  | [], _, _ => []
  | _ :: xs, 0, v => v :: xs
  | x :: xs, i + 1, v => x :: listSet xs i v

/-- The indices `i < n` in rising order at which `p` holds. -/
def indicesWhere (n : Nat) (p : Nat → Bool) : List Nat := (List.range n).filter p

/-- The first `i < n` at which `p` holds. -/
def firstWhere (n : Nat) (p : Nat → Bool) : Option Nat := (List.range n).find? p

/-- Put a number into a rising list once. -/
def insertOnce (x : Nat) : List Nat → List Nat
  | [] => [x]
  | y :: ys => if x < y then x :: y :: ys else if x = y then y :: ys else y :: insertOnce x ys

end Sys2Proof.Machine
end

