-- ==== Sys2Proof/Machine/Topology.lean ====
section
/-! DEFINITION. The main fabric's routers, their links and the default routes (10 R266, R267, R277). -/

namespace Sys2Proof.Machine

/-- The kinds of router of RT_INFO.KIND (10 R289), in code order. -/
inductive RouterKind where
  | bench | computeGateway | slice | memoryGateway | ioc | iocGateway | spine
  deriving DecidableEq, Repr

/-- RT_INFO.KIND code. -/
def RouterKind.code : RouterKind → Nat
  | .bench => 0 | .computeGateway => 1 | .slice => 2 | .memoryGateway => 3 | .ioc => 4 | .iocGateway => 5 | .spine => 6

/-- The kind of router `r` (R266). -/
def routerKind (r : Nat) : RouterKind :=
  if r < 32 then (if r % 8 < 6 then .bench else .computeGateway)
  else if r < 68 then (if (r - 32) % 18 < 16 then .slice else .memoryGateway)
  else if r < 72 then .ioc
  else if r < 74 then .iocGateway
  else .spine

/-- The number of routers (R266). -/
def routerCount : Nat := 82

/-- The cabinet of a router; 8 for the spine (R8, R266). -/
def routerCabinet (r : Nat) : Nat :=
  if r < 32 then r / 8 else if r < 68 then 4 + (r - 32) / 18 else if r < 74 then 6 else 8

/-- The neighbour of a bench router at mesh row `b / 3`, column `b % 3` (R266, R267). -/
def benchNeighbour (n b p : Nat) : Option Nat :=
  let row := b / 3
  let col := b % 3
  match p with
  | 1 => if row = 1 then some (8 * n + b - 3) else none
  | 2 => if row = 0 then some (8 * n + b + 3) else none
  | 3 => if 0 < col then some (8 * n + b - 1) else none
  | 4 => if col < 2 then some (8 * n + b + 1) else none
  | 5 => if col = 0 then some (8 * n + 6) else if col = 2 then some (8 * n + 7) else none
  | _ => none

/-- The neighbour of a compute gateway (R267). -/
def computeGatewayNeighbour (n g p : Nat) : Option Nat :=
  let lo := min ((2 * n + g) % 8) ((2 * n + 4 + g) % 8)
  let hi := max ((2 * n + g) % 8) ((2 * n + 4 + g) % 8)
  match p with
  | 1 => some (8 * n + (if g = 0 then 0 else 2))
  | 2 => some (8 * n + (if g = 0 then 3 else 5))
  | 3 => some (74 + lo)
  | 4 => some (74 + hi)
  | _ => none

/-- The neighbour of a slice router at mesh row `s / 4`, column `s % 4` (R266, R267). -/
def sliceNeighbour (k s p : Nat) : Option Nat :=
  let base := 32 + 18 * k
  let row := s / 4
  let col := s % 4
  match p with
  | 2 => if 0 < row then some (base + s - 4) else none
  | 3 => if row < 3 then some (base + s + 4) else none
  | 4 => if 0 < col then some (base + s - 1) else none
  | 5 => if col < 3 then some (base + s + 1) else none
  | 6 => if col = 0 then some (base + 16) else if col = 3 then some (base + 17) else none
  | _ => none

/-- The neighbour of a memory gateway: slice links on ports 1-4, spine routers on 5 and 6 (R267). -/
def memoryGatewayNeighbour (k g p : Nat) : Option Nat :=
  let base := 32 + 18 * k
  match p with
  | 1 => some (base + (if g = 0 then 0 else 3))
  | 2 => some (base + (if g = 0 then 4 else 7))
  | 3 => some (base + (if g = 0 then 8 else 11))
  | 4 => some (base + (if g = 0 then 12 else 15))
  | 5 => some (74 + k + 2 * g)
  | 6 => some (74 + k + 2 * g + 4)
  | _ => none

/-- The neighbour of an IOC router: row neighbour, column neighbour, gateway (R267). -/
def iocNeighbour (q p : Nat) : Option Nat :=
  match p with
  | 4 => some (68 + (if q % 2 = 0 then q + 1 else q - 1))
  | 5 => some (68 + (q + 2) % 4)
  | 6 => some (72 + q / 2)
  | _ => none

/-- The neighbour of an IOC gateway (R267): gateway 0 joins IOC routers 0 and 1 and spine 1 and 6, gateway 1 joins
IOC routers 2 and 3 and spine 3 and 4. -/
def iocGatewayNeighbour (g p : Nat) : Option Nat :=
  match p with
  | 1 => some (68 + 2 * g)
  | 2 => some (69 + 2 * g)
  | 3 => some (74 + (if g = 0 then 1 else 3))
  | 4 => some (74 + (if g = 0 then 6 else 4))
  | _ => none

/-- The neighbour of spine router `z`: the ring on ports 0 and 1, two compute gateways, one memory gateway, and an
IOC gateway on spine 1, 3, 4 and 6 (R266, R267). -/
def spineNeighbour (z p : Nat) : Option Nat :=
  let g := z % 2
  let n := (z - g) / 2 % 2
  match p with
  | 0 => some (74 + (z + 7) % 8)
  | 1 => some (74 + (z + 1) % 8)
  | 2 => some (8 * n + 6 + g)
  | 3 => some (8 * (n + 2) + 6 + g)
  | 4 => some (48 + 18 * g + (z / 2) % 2)
  | 5 => if z = 1 ∨ z = 6 then some 72 else if z = 3 ∨ z = 4 then some 73 else none
  | _ => none

/-- The router at the far end of port `p` of router `r`; none for a local endpoint, a control bridge or a port
that the router lacks (R266, R267). -/
def neighbour (r p : Nat) : Option Nat :=
  match routerKind r with
  | .bench => benchNeighbour (r / 8) (r % 8) p
  | .computeGateway => computeGatewayNeighbour (r / 8) (r % 8 - 6) p
  | .slice => sliceNeighbour ((r - 32) / 18) ((r - 32) % 18) p
  | .memoryGateway => memoryGatewayNeighbour ((r - 32) / 18) ((r - 32) % 18 - 16) p
  | .ioc => iocNeighbour (r - 68) p
  | .iocGateway => iocGatewayNeighbour (r - 72) p
  | .spine => spineNeighbour (r - 74) p

/-- RT_INFO.NPORT: the number of ports of a router (R266). -/
def portCount (r : Nat) : Nat :=
  match routerKind r with
  | .bench => if r % 8 % 3 = 1 then 5 else 6
  | .computeGateway => 5
  | .slice => if (r - 32) % 18 % 4 = 0 ∨ (r - 32) % 18 % 4 = 3 then 7 else 6
  | .memoryGateway => 7
  | .ioc => 7
  | .iocGateway => 5
  | .spine => if r = 75 ∨ r = 77 ∨ r = 78 ∨ r = 80 then 6 else 5

/-! ### The control network (R295) -/

/-- The parent of a node: nodes are numbered 0 root, 1 + cabinet, 9 + global bench (R295, R296). -/
def nodeParent (n : Nat) : Nat := if n < 9 then 0 else 1 + (n - 9) / 6

/-- The nodes from the root down to a node. -/
def nodeLine (n : Nat) : List Nat := if n = 0 then [0] else if n < 9 then [0, n] else [0, nodeParent n, n]

/-- How many of the first members of two lists are the same. -/
def sharedPrefix : List Nat → List Nat → Nat
  | a :: l, b :: m => if a = b then 1 + sharedPrefix l m else 0
  | _, _ => 0

/-- The nodes that an access passes from node `a` to node `b`: up to the nearest common ancestor and down (R295). -/
def nodePath (a b : Nat) : List Nat :=
  let k := sharedPrefix (nodeLine a) (nodeLine b)
  ((nodeLine a).drop k).reverse ++ (nodeLine b).drop (k - 1)

/-- The stool of a node; the root's is chip stool 0. -/
def nodeStool (n : Nat) : Nat := if n = 0 then 32 else if n < 9 then 24 + (n - 1) else n - 9

/-- The node of a stool; both chip stools stand at the root. -/
def stoolNode (k : Nat) : Nat := if k < 24 then 9 + k else if k < 32 then 1 + (k - 24) else 0

/-! ### Default routes -/

/-- Every router next to one of the list. -/
def neighboursOf (rs : List Nat) : List Nat :=
  rs.flatMap (fun r => (List.range 7).filterMap (neighbour r))

/-- One round of the search from a destination: the routers reached so far, and the new ones. -/
def spread (seen front : List Nat) : List Nat :=
  (neighboursOf front).foldl (fun acc r => if seen.contains r || acc.contains r then acc else r :: acc) []

/-- The first port of `r` that leads into `front`. -/
def portInto (r : Nat) (front : List Nat) : Option Nat :=
  (List.range 7).find? (fun p => match neighbour r p with | some q => front.contains q | none => false)

/-- Walk outward from a destination until the routers one hop nearer than `r` are known; answer the lowest-numbered
port that leads to one of them. -/
def searchRoute (r : Nat) : Nat → List Nat → List Nat → Nat
  | 0, _, _ => 0
  | fuel + 1, seen, front =>
    match portInto r front with
    | some p => p
    | none =>
      let next := spread seen front
      searchRoute r fuel (seen ++ next) next

/-- The default port from router `r` towards router `d`: the lowest-numbered port on a path with the fewest routers;
`0xF` for the router itself (R277). -/
def defaultPort (r d : Nat) : Nat := if r = d then 0xF else searchRoute r 16 [d] [d]

/-- The default route entry: BPORT and UPORT equal, 0xFF for the router itself (R277). -/
def defaultRoute (r d : Nat) : Nat := 17 * defaultPort r d

end Sys2Proof.Machine
end

