-- ==== Sys2Proof/Machine/RegMap.lean ====
section
/-! DEFINITION. The register pages of control space and the registers of each kind of page: offsets, reset values and
access masks (02 R25-R29 and the register tables of chapters 03 to 19). -/

namespace Sys2Proof.Machine

/-- The kinds of register page (02 R27 and the chapters that list further pages). -/
inductive PageKind where
  | core | dbg | l2 | slc | router | probe | stool | rg | agg | cabCtl
  | frm | tim | cmt | frr | timCopy | cmr | win
  | mc | ipe | evc | modIv | swf | ert | te | vf | tsw | tsp | pcie | prl | bio
  | pwc | pwd | pwq | pwt | chest | rts | rtm | frz
  deriving DecidableEq, Repr

/-- A register page: its kind, its PG_ID.INST (R28), and the cabinet, block and page of its address (R25). -/
structure Page where
  kind : PageKind
  inst : Nat
  cab : Nat
  block : Nat
  page : Nat
  deriving DecidableEq, Repr

/-- The page number `[27:12]` of a control-space address. -/
def pageNo (cab block page : Nat) : Nat := cab * 4096 + block * 16 + page

/-- The control-space offset `[27:0]` of a page's first register (R25). -/
def pageBase (cab block page : Nat) : Nat := 4096 * pageNo cab block page

/-- The pages of a compute cabinet beside those every cabinet has (R27). -/
def computePage (c b p : Nat) : Option (PageKind × Nat) :=
  if 0x10 ≤ b ∧ b < 0x16 then
    match p with
    | 0 => some (.l2, 6 * c + (b - 0x10))
    | 1 => some (.router, 8 * c + (b - 0x10))
    | 2 => some (.probe, 8 * c + (b - 0x10))
    | 3 => some (.stool, 6 * c + (b - 0x10))
    | 4 => some (.rg, 6 * c + (b - 0x10))
    | 5 => some (.agg, 6 * c + (b - 0x10))
    | _ => none
  else if 0x40 ≤ b ∧ b < 0x70 then
    match p with
    | 0 => some (.core, 48 * c + (b - 0x40))
    | 1 => some (.dbg, 48 * c + (b - 0x40))
    | _ => none
  else none

/-- The pages of a memory cabinet (R27). -/
def memoryPage (c b p : Nat) : Option (PageKind × Nat) :=
  if 0x10 ≤ b ∧ b < 0x20 then
    match p with
    | 0 => some (.slc, 16 * (c - 4) + (b - 0x10))
    | 1 => some (.router, 32 + 18 * (c - 4) + (b - 0x10))
    | 2 => some (.probe, 32 + 18 * (c - 4) + (b - 0x10))
    | _ => none
  else if 0x30 ≤ b ∧ b < 0x38 then
    match p with
    | 0 => some (.mc, 8 * (c - 4) + (b - 0x30))
    | 1 => some (.ipe, 8 * (c - 4) + (b - 0x30))
    | 2 => some (.rg, 8 * (c - 4) + (b - 0x30))
    | _ => none
  else none

/-- The pages of the IOC (R27, R328, R348, 14). -/
def iocPage (b p : Nat) : Option (PageKind × Nat) :=
  if b = 0x10 then
    (if p = 0 then some (.evc, 0) else if p = 1 then some (.modIv, 0) else if p < 6 then some (.swf, 0) else none)
  else if 0x11 ≤ b ∧ b ≤ 0x13 then some (.ert, 0)
  else if 0x20 ≤ b ∧ b < 0x28 then (if p = 0 then some (.te, b - 0x20) else none)
  else if 0x30 ≤ b ∧ b < 0x40 then some (.vf, 16 * (b - 0x30) + p)
  else if b = 0x40 then (if p = 0 then some (.tsw, 0) else if p ≤ 8 then some (.tsp, p - 1) else none)
  else if 0x44 ≤ b ∧ b < 0x48 then (if p = 0 then some (.pcie, b - 0x44) else none)
  else if 0x48 ≤ b ∧ b < 0x4C then (if p = 0 then some (.prl, b - 0x48) else none)
  else if b = 0x4C then (if p < 4 then some (.bio, 0) else none)
  else if 0x50 ≤ b ∧ b < 0x54 then
    (if p = 0 then some (.router, 68 + (b - 0x50)) else if p = 1 then some (.probe, 68 + (b - 0x50)) else none)
  else none

/-- The pages of the AOC (R27). -/
def aocPage (b p : Nat) : Option (PageKind × Nat) :=
  if b = 0x10 then
    match p with
    | 0 => some (.pwc, 0) | 1 => some (.pwd, 0) | 2 => some (.pwq, 0) | 3 => some (.pwt, 0) | _ => none
  else if b = 0x11 then (if p = 0 then some (.chest, 0) else none)
  else if b = 0x12 then (if p = 0 then some (.rts, 0) else if p < 4 then some (.rtm, 0) else none)
  else if b = 0x14 then (if p = 0 then some (.frz, 0) else none)
  else if b = 0x15 then (if p < 2 then some (.stool, 32 + p) else none)
  else none

/-- The frame unit's pages in block 0x02 (R36). -/
def framePage (c p : Nat) : Option (PageKind × Nat) :=
  if c = 7 then
    match p with
    | 0 => some (.frm, c) | 1 => some (.tim, c) | 2 => some (.cmt, c) | _ => none
  else if p = 0 then some (.frr, c)
  else if p = 1 then some (.timCopy, c)
  else if p = 2 then some (.cmr, c)
  else if c < 4 ∧ p < 15 then some (.win, c)
  else none

/-- The router number of gateway `g` of cabinet `c`, c 0-6 (R266). -/
def gatewayRouter (c g : Nat) : Nat :=
  if c < 4 then 8 * c + 6 + g else if c < 6 then 48 + 18 * (c - 4) + g else 72 + g

/-- The pages every cabinet 0-7 has (R27). -/
def commonPage (c b p : Nat) : Option (PageKind × Nat) :=
  match b with
  | 0 => if p = 0 then some (.cabCtl, c) else none
  | 1 => if p = 0 then some (.agg, c) else none
  | 2 => framePage c p
  | 3 => if p = 0 then some (.stool, 24 + c) else none
  | 4 =>
    if c < 7 then
      match p with
      | 0 => some (.router, gatewayRouter c 0) | 1 => some (.probe, gatewayRouter c 0) | 2 => some (.rg, gatewayRouter c 0)
      | _ => none
    else none
  | 5 =>
    if c < 7 then
      match p with
      | 0 => some (.router, gatewayRouter c 1) | 1 => some (.probe, gatewayRouter c 1) | 2 => some (.rg, gatewayRouter c 1)
      | _ => none
    else none
  | _ => none

/-- The pages of cabinet value 8, the chip level (R27). -/
def chipPage (b p : Nat) : Option (PageKind × Nat) :=
  if b = 0 then (if p = 0 then some (.agg, 8) else none)
  else if 0x10 ≤ b ∧ b < 0x18 then
    (if p = 0 then some (.router, 74 + (b - 0x10)) else if p = 1 then some (.probe, 74 + (b - 0x10)) else none)
  else none

/-- Kind and PG_ID.INST of a page by cabinet, block and page (R27, R28). -/
def pageKindAt (c b p : Nat) : Option (PageKind × Nat) :=
  if c = 8 then chipPage b p
  else if 8 < c then none
  else if b < 6 then commonPage c b p
  else if c < 4 then computePage c b p
  else if c < 6 then memoryPage c b p
  else if c = 6 then iocPage b p
  else aocPage b p

/-- The page that holds control-space offset `a`, or none where the page is unmapped (R21, R27). -/
def pageOf (a : Nat) : Option Page :=
  let c := natField a 24 4
  let b := natField a 16 8
  let p := natField a 12 4
  match pageKindAt c b p with
  | some (k, i) => some ⟨k, i, c, b, p⟩
  | none => none

/-- The offset of the page's first register. -/
def Page.base (p : Page) : Nat := pageBase p.cab p.block p.page

/-- PG_ID.TTTT, the block type code (R27). -/
def Page.typeCode (p : Page) : Nat :=
  match p.kind with
  | .core => 0x0100 | .dbg => 0x0110 | .l2 => 0x0200 | .slc => 0x0400
  | .router => if p.cab < 4 ∧ 0x10 ≤ p.block then 0x0210 else 0x0500
  | .probe => 0x0510 | .stool => 0x0C00 | .rg => 0x0610 | .agg => 0x0D00 | .cabCtl => 0x0300
  | .frm | .tim | .cmt | .frr | .timCopy | .cmr | .win => 0x0600
  | .mc => 0x0410 | .ipe => 0x0420 | .evc | .modIv | .swf | .ert => 0x0700
  | .te => 0x0800 | .vf => 0x0810 | .tsw | .tsp => 0x0900 | .pcie => 0x0910 | .prl => 0x0920 | .bio => 0x0930
  | .pwc | .pwd | .pwq | .pwt => 0x0B00 | .chest => 0x0B10 | .rts | .rtm => 0x0A00 | .frz => 0x0D10

/-- PG_FEAT (R29 and the block chapters: R294, R455, R488, R498; 0 elsewhere). -/
def Page.feat (p : Page) : Nat :=
  match p.kind with
  | .probe => if p.cab = 4 ∨ p.cab = 5 then (if 0x10 ≤ p.block then 1 else 0) else 0
  | .stool => if 32 ≤ p.inst then 1 else 0
  | .cabCtl => if p.cab < 4 then 1 else 0
  | .agg => if p.cab = 8 then 1 else 0
  | _ => 0

/-- One row of a register table: `num` registers from `off` on, `stride` apart, their reset value, and the masks of the
bits that are RW, RWL, W1C and W1S (R4).  A bit in none of them is RO, WO or reserved.  `sys`: only PARTID 0 writes it.
`act`: the offset of the active bank's copy of a shadow-banked register (03 R63). -/
structure RegRow where
  off : Nat
  num : Nat := 1
  stride : Nat := 4
  rst : Nat := 0
  rw : Nat := 0
  rwl : Nat := 0
  w1c : Nat := 0
  w1s : Nat := 0
  sys : Bool := false
  act : Option Nat := none
  deriving DecidableEq, Repr

/-- All 32 bits. -/
def full : Nat := 0xFFFFFFFF

/-- A read-only register. -/
def ro (off : Nat) (rst : Nat := 0) : RegRow := { off, rst }
/-- A writable register with a mask. -/
def rw (off : Nat) (mask : Nat := full) (rst : Nat := 0) : RegRow := { off, rw := mask, rst }

/-- The common page header (R29).  PG_ID and PG_FEAT are views; PG_ERRINJ arms. -/
def headerRows : List RegRow :=
  [ ro 0x000, { off := 0x004, rst := 0x1001 }, ro 0x008, { off := 0x00C, rst := 1, rw := 1, w1s := 4 },
    { off := 0x010, rst := 0xC }, { off := 0x014, w1c := full }, { off := 0x018, rst := full, rw := full },
    { off := 0x01C, w1s := full }, ro 0x020, { off := 0x024, rwl := 0x3F } ]

/-- FRM (R48). -/
def frmRows : List RegRow :=
  [ rw 0x040 7, ro 0x044, rw 0x048, ro 0x050, ro 0x054, rw 0x058, rw 0x05C, ro 0x060, ro 0x064 0xF4240, ro 0x068,
    ro 0x06C 0x3E8, { off := 0x070, rw := 0x1F, act := some 0x060 },
    { off := 0x074, rw := 0x7FFFFFF, rst := 0xF4240, act := some 0x064 },
    { off := 0x078, rw := 0x7FFFFFF, act := some 0x068 }, { off := 0x07C, rw := 0xFFFF, rst := 0x3E8, act := some 0x06C },
    rw 0x080 0xFFFF, rw 0x084 0xFFFF, rw 0x088 0xFFFF ]

/-- TIM of the AOC (R41). -/
def timRows : List RegRow :=
  [ ro 0x040, ro 0x044, rw 0x048, { off := 0x04C, w1c := 1 }, rw 0x050, ro 0x054, ro 0x058, ro 0x05C ]

/-- TIM of cabinets 0-6 (R41). -/
def timCopyRows : List RegRow := [ ro 0x040, ro 0x044, ro 0x04C ]

/-- CMT (R67). -/
def cmtRows : List RegRow :=
  [ rw 0x040, ro 0x044, ro 0x048, ro 0x04C, ro 0x050, ro 0x054, rw 0x058 0xFFFF, ro 0x05C, ro 0x060 ]

/-- FRR (R51). -/
def frrRows : List RegRow := [ ro 0x040, ro 0x044, ro 0x048, rw 0x04C 0xFFFF 0x3E8 ]

/-- CMR (R51). -/
def cmrRows : List RegRow := [ ro 0x040, ro 0x044 ]

/-- The window entries of one slot: active at 0x100 + 0x200c, shadow at 0x200 + 0x200c (R52, R53). -/
def winSlotRows (c : Nat) : List RegRow :=
  let a := 0x100 + 0x200 * c
  [ { off := a, num := 16, stride := 16 }, { off := a + 4, num := 16, stride := 16 }, { off := a + 8, num := 16, stride := 16 },
    { off := a + 0x100, num := 16, stride := 16, rw := 0x7FFFFFF, act := some a },
    { off := a + 0x104, num := 16, stride := 16, rw := 0x7FFFFFF, act := some (a + 4) },
    { off := a + 0x108, num := 16, stride := 16, rw := 0x8000003F, act := some (a + 8) } ]

/-- WIN (R53). -/
def winRows : List RegRow :=
  [ { off := 0x040, num := 4, stride := 16 }, { off := 0x044, num := 4, stride := 16, rw := 0xFFFF } ]
    ++ winSlotRows 0 ++ winSlotRows 1 ++ winSlotRows 2 ++ winSlotRows 3

/-- Which meters a regulator has (R56). -/
structure Meters where
  urg : Bool
  bulk : Bool
  bytes : Bool
  deriving DecidableEq, Repr

/-- The meters of the regulator page (R56). -/
def Page.meters (p : Page) : Meters :=
  if p.cab < 6 ∧ p.block < 6 then ⟨true, true, false⟩
  else if p.cab < 4 then ⟨true, true, false⟩
  else if p.cab < 6 then ⟨false, false, true⟩
  else if p.block = 4 then ⟨true, true, true⟩
  else ⟨true, true, false⟩

/-- Budgets, active budgets and used counts of one meter (R62); an absent meter's registers read 0 and ignore writes
(R56). -/
def meterRows (sh ac us : Nat) (present : Bool) : List RegRow :=
  let m := if present then full else 0
  [ { off := sh, num := 64, rw := m, rst := m, act := some ac }, { off := ac, num := 64, rst := m }, { off := us, num := 64 } ]

/-- RG (R62). -/
def rgRows (m : Meters) : List RegRow :=
  [ ro 0x040, ro 0x044, ro 0x048, ro 0x04C, ro 0x050, ro 0x054, { off := 0xA00, num := 64, rw := 0x7FFFF } ]
    ++ meterRows 0x100 0x400 0x700 m.urg ++ meterRows 0x200 0x500 0x800 m.bulk ++ meterRows 0x300 0x600 0x900 m.bytes

/-- CORE (06 R180, 07 R216, 09 R265). -/
def coreRows : List RegRow :=
  [ rw 0x100 7 7, ro 0x104, ro 0x108 1, { off := 0x110, num := 9, rw := full }, { off := 0x140, num := 7, rw := full },
    { off := 0x160, rw := 0x800001FF, sys := true, act := some 0x164 }, ro 0x164, ro 0x168, ro 0x16C, ro 0x170, ro 0x174,
    rw 0x178, rw 0x17C, rw 0x180, ro 0x184, ro 0x188, { off := 0x190, num := 8 } ]

/-- L2 and SLC (08 R238). -/
def cacheRows : List RegRow :=
  [ rw 0x040, rw 0x044 0x3FF, rw 0x048, rw 0x04C 0x3FF, rw 0x050 0x13, ro 0x054, ro 0x058, ro 0x05C, ro 0x060, ro 0x064,
    ro 0x068, { off := 0x070, rw := 0xFFFF, sys := true, act := some 0x074 }, ro 0x074, { off := 0x080, num := 4, rw := full },
    { off := 0x100, num := 64, rw := 0xFFFF, rst := 0xFFFF, sys := true, act := some 0x200 },
    { off := 0x200, num := 64, rst := 0xFFFF } ]

/-- RT (10 R289); the control-bridge registers exist on gateways. -/
def routerRows (r : Nat) : List RegRow :=
  let gw := match routerKind r with | .computeGateway | .memoryGateway | .iocGateway => true | _ => false
  [ ro 0x040, ro 0x044, rw 0x048 0xFFFFFF 0x2710, rw 0x04C, ro 0x050, ro 0x054, rw 0x058, rw 0x05C, rw 0x060,
    { off := 0x068, rw := full, sys := true, act := some 0x070 }, { off := 0x06C, rw := full, sys := true, act := some 0x074 },
    ro 0x070, ro 0x074, ro 0x078, { off := 0x07C, rw := if gw then full else 0 },
    { off := 0x100, num := 82, rw := 0xFF, sys := true }, { off := 0x300, num := 82 }, { off := 0x500, num := 82 } ]

/-- PRB (10 R294); the trace sink's registers exist on slice probe pages. -/
def probeRows (sink : Bool) : List RegRow :=
  [ rw 0x040 3, rw 0x044 0x1F, rw 0x048 ]
    ++ (List.range 4).flatMap (fun k =>
        [ rw (0x060 + 0x20 * k) 0xF7, rw (0x064 + 0x20 * k) 0x7F7F, rw (0x068 + 0x20 * k) 0x7F7F, rw (0x06C + 0x20 * k) 0xFFFF,
          rw (0x070 + 0x20 * k) 0x3F3F, rw (0x074 + 0x20 * k), ro (0x078 + 0x20 * k) ])
    ++ (if sink then [ rw 0x100 3, ro 0x104, rw 0x108 0x1FFF, rw 0x10C 0x3F, rw 0x110, { off := 0x800, num := 512 } ] else [])

/-- MC (11 R322). -/
def mcRows : List RegRow :=
  [ { off := 0x040, rwl := 0x133, rst := 3 }, ro 0x044, ro 0x048, ro 0x04C, { off := 0x050, num := 4, rw := full } ]

/-- IPE (11 R323). -/
def ipeRows : List RegRow :=
  [ { off := 0x040, w1s := 1 }, ro 0x044, { off := 0x048, num := 4, rw := full }, ro 0x058, ro 0x05C, rw 0x060, rw 0x064 0x3FF,
    rw 0x068, rw 0x06C 0x3FF, rw 0x070 3, ro 0x074, ro 0x078, ro 0x07C, ro 0x080, ro 0x084,
    { off := 0x100, num := 4, rwl := 0x8FFFFFFF, sys := true },
    { off := 0x200, num := 64, stride := 8, rw := 0x801FFFFF, sys := true },
    { off := 0x204, num := 64, stride := 8, rw := 0xFFDFFFFF, sys := true }, { off := 0x400, num := 32 } ]

/-- EVC (12 R348). -/
def evcRows : List RegRow :=
  [ { off := 0x040, rwl := 0xFFFFF000, rst := 0xFFFFF000 }, { off := 0x044, rwl := 0x3FF, rst := 0xFF },
    { off := 0x048, num := 3, rw := full }, ro 0x054, ro 0x058, rw 0x05C ]

/-- MOD (12 R348). -/
def modRows : List RegRow := [ { off := 0x404, num := 255, rw := 0x7FFFFFF } ]

/-- ERT: 256 entries; ERT_HI in block 0x13 only (12 R328). -/
def ertRows (hi : Bool) : List RegRow :=
  [ { off := 0x800, num := 256, stride := 8, rw := 0x9FFFFEFF, sys := true } ]
    ++ (if hi then [ { off := 0x804, num := 256, stride := 8, rw := 0x801FFFFF, sys := true } ] else [])

/-- TE; the PF registers on engine 0 only (13 R370). -/
def teRows (e : Nat) : List RegRow :=
  [ ro 0x040, { off := 0x044, num := 3, rw := full } ]
    ++ (if e = 0 then
          [ ro 0x100, rw 0x104 0x7F01FF7F, ro 0x108, ro 0x10C 0x10000400, { off := 0x120, num := 8, w1c := full },
            { off := 0x400, num := 512 } ]
        else [])

/-- VFC (13 R371). -/
def vfRows : List RegRow :=
  [ ro 0x040, ro 0x044, ro 0x048,
    { off := 0x080, num := 8, stride := 0x20, rw := 0xFFFFF003, sys := true },
    { off := 0x084, num := 8, stride := 0x20, rw := 0xFFFF, sys := true },
    { off := 0x088, num := 8, stride := 0x20, rw := 0xFFFFF000, sys := true },
    { off := 0x08C, num := 8, stride := 0x20, rw := 0x3FF, sys := true },
    { off := 0x090, num := 8, stride := 0x20, rw := full, sys := true },
    { off := 0x400, num := 64, stride := 0x20, rw := 0xFFFFFFC0 }, { off := 0x404, num := 64, stride := 0x20, rw := 0xFFFF },
    { off := 0x408, num := 64, stride := 0x20, rw := 0xFFFFFFC0 }, { off := 0x40C, num := 64, stride := 0x20, rw := 0xFFFF },
    { off := 0x410, num := 64, stride := 0x20, rw := 0x3FFF3F }, { off := 0x414, num := 64, stride := 0x20, rw := full },
    { off := 0x418, num := 64, stride := 0x20 }, { off := 0x41C, num := 64, stride := 0x20 } ]

/-- TSW (14 R381). -/
def tswRows : List RegRow :=
  [ rw 0x040 1, { off := 0x044, num := 4, rw := full }, rw 0x054 0x800003FF, rw 0x058, rw 0x060 0xFF, rw 0x064 0xFFFFFF,
    ro 0x068, ro 0x06C, { off := 0x080, num := 16, rw := full } ]

/-- TSP (14 R381). -/
def tspRows : List RegRow :=
  [ rw 0x040 0x10377, ro 0x044, rw 0x048 3, rw 0x04C 3, ro 0x050, rw 0x054 0x7FFFFFF, rw 0x058 0x1FF 1, rw 0x05C, rw 0x060,
    rw 0x064, ro 0x068, ro 0x070, ro 0x074, ro 0x078, { off := 0x07C, num := 5, rw := full } ]

/-- PCI; BIF exists on PE0 only (14 R386). -/
def pcieRows (i : Nat) : List RegRow :=
  [ { off := 0x040, rwl := if i = 0 then 0x73 else 0x70, rst := 0x50 }, rw 0x044 3, ro 0x048, rw 0x04C, rw 0x050,
    rw 0x054 0xFFFFFF 0x2710, rw 0x058, ro 0x05C, ro 0x060,
    { off := 0x080, num := 8, stride := 16, rw := 0xFFFFF003 }, { off := 0x084, num := 8, stride := 16, rw := full },
    { off := 0x088, num := 8, stride := 16, rw := 0x3FFFFFFF }, { off := 0x08C, num := 8, stride := 16, rw := 0x3FFFFFFF } ]

/-- PRL; offsets 0x100-0x3FF on PL0 only (14 R397). -/
def prlRows (i : Nat) : List RegRow :=
  [ rw 0x040 3, ro 0x044, ro 0x048, rw 0x04C 0xFFFF 0x3E8, ro 0x050, ro 0x054, { off := 0x058, num := 6, rw := full }, ro 0x070 ]
    ++ (if i = 0 then
          [ { off := 0x100, rwl := 0x3FFFF }, { off := 0x104, rwl := 0xC1FF01FF }, rw 0x108 0xFFFF 0x7D0, rw 0x10C 0x8000000F,
            rw 0x110 0xFFFFFF80, rw 0x114 0x3FF, rw 0x118 0xFFFF, ro 0x11C,
            { off := 0x200, num := 16, stride := 16, rw := 0xC007FFFF }, { off := 0x204, num := 16, stride := 16, rw := 0xFFFF },
            { off := 0x208, num := 16, stride := 16, rw := 0x3FFFF }, { off := 0x20C, num := 16, stride := 16, rw := 0x7FFFFFF },
            { off := 0x300, num := 16, stride := 16, rw := 0xC7FFFFFF }, { off := 0x304, num := 16, stride := 16, rw := 0x3F00FFFF },
            { off := 0x308, num := 16, stride := 16, rw := 0x1FFFFF }, { off := 0x30C, num := 16, stride := 16, rw := 0x8003FFFF } ]
        else [])

/-- One low-speed controller: CTL, DIV, STAT, TXD, RXD, CMD (14 R400). -/
def lowSpeedRows (b : Nat) : List RegRow := [ rw b, rw (b + 4), ro (b + 8), ro (b + 0xC), ro (b + 0x10), ro (b + 0x14) ]

/-- Boot and low-speed I/O (14 R398-R403).  The offsets of the XS registers inside 0x040-0x07F are the model's
(DESIGN CHOICE, assumption log 30): XS_CMD, XS_ADDR, XS_LEN, XS_DST_LO, XS_DST_HI, XS_GO, XS_STAT. -/
def bioRows (page : Nat) : List RegRow :=
  match page with
  | 0 => [ rw 0x040, rw 0x044, rw 0x048, rw 0x04C, rw 0x050 0x3FF, ro 0x054, ro 0x058, { off := 0x400, num := 256, rw := full } ]
  | 1 => (List.range 4).flatMap (fun k => lowSpeedRows (0x100 + 0x40 * k))
  | 2 => (List.range 4).flatMap (fun k => lowSpeedRows (0x100 + 0x40 * k) ++ lowSpeedRows (0x200 + 0x40 * k))
  | _ => [ ro 0x040, ro 0x044, rw 0x048, rw 0x04C, rw 0x050, rw 0x054, { off := 0x058, num := 4, rw := full }, rw 0x100 7, rw 0x104 ]

/-- PWC (17 R489, 19 R518). -/
def pwcRows : List RegRow :=
  [ ro 0x040, ro 0x044, ro 0x048, { off := 0x04C, w1c := 0x8000000F }, ro 0x050, ro 0x054, rw 0x058, rw 0x05C 0x8000FFFF, ro 0x060,
    ro 0x064, { off := 0x080, rwl := 0x8000FF7F }, { off := 0x084, num := 4, rwl := 0x7FF } ]

/-- PWD (17 R489). -/
def pwdRows : List RegRow :=
  [ { off := 0x100, num := 296, w1c := 8 }, { off := 0x600, num := 192, rw := 1, sys := true },
    { off := 0x900, num := 104, sys := true } ]

/-- PWQ (17 R489). -/
def pwqRows : List RegRow := [ ro 0x040, ro 0x044, { off := 0x048, w1c := 0x8000F1FF }, ro 0x04C, ro 0x050 ]

/-- PWT (17 R489). -/
def pwtRows : List RegRow := [ { off := 0x040, num := 8 }, { off := 0x060, w1c := 0x8000FF77 } ]

/-- RTS (15 R426). -/
def rtsRows : List RegRow :=
  [ ro 0x040, ro 0x044, ro 0x048, { off := 0x04C, rwl := 0xFFFFF000, rst := 0xF0000000 }, { off := 0x050, rwl := 0x3FF, rst := 0x3FF },
    { off := 0x054, num := 4 }, rw 0x064, rw 0x068, ro 0x06C, ro 0x070,
    { off := 0x100, num := 256, rw := 0x8000003F, sys := true },
    { off := 0x500, num := 16, stride := 16 }, { off := 0x504, num := 16, stride := 16 }, { off := 0x508, num := 16, stride := 16 } ]

/-- RTM (15 R426). -/
def rtmRows : List RegRow :=
  [ ro 0x040, ro 0x044, { off := 0x048, num := 4, rw := full }, rw 0x058 0xFFFFFFC0, rw 0x05C 0x3FF, rw 0x060 0xFFFF, ro 0x064, ro 0x068 ]

/-- STL (16 R455). -/
def stoolRows (i : Nat) : List RegRow :=
  [ rw 0x040 1, ro 0x044, rw 0x048 0xFFFFFF, ro 0x04C, rw 0x050 0x7F, rw 0x054, rw 0x058, ro 0x05C,
    { off := 0x060, rw := if 32 ≤ i then full else 0 }, { off := 0x800, num := 512 } ]

/-- The DVFS point at reset: 550 mV and 600 MHz in compute cabinets, the single operating point elsewhere (R8, R488). -/
def dvfsReset (c : Nat) : Nat :=
  if c < 4 then 0x02580226 else if c < 6 then 2000 * 65536 + 750 else if c = 6 then 1000 * 65536 + 750 else 400 * 65536 + 750

/-- CAB (17 R488). -/
def cabRows (c : Nat) : List RegRow := [ ro 0x040, ro 0x044 (dvfsReset c), ro 0x048 (dvfsReset c), ro 0x04C ]

/-- EAG (18 R498). -/
def aggRows (chip : Bool) : List RegRow :=
  [ { off := 0x040, w1c := 0x1F }, { off := 0x044, rst := if chip then 0 else 0x1F, rw := if chip then 0 else 0x1F },
    rw 0x048 0x1F 0x1F, { off := 0x050, num := 5, rw := full }, { off := 0x080, num := 20 } ]
    ++ (if chip then
          [ { off := 0x100, rwl := 0xFF07, rst := 5 }, ro 0x104, ro 0x108, { off := 0x10C, rwl := 0x1F, rst := 4 }, ro 0x110 ]
        else [])

/-- FRZ (18 R512). -/
def frzRows : List RegRow := [ ro 0x040, rw 0x044 1 1, ro 0x048, rw 0x04C ]

/-- The functional registers of a page. -/
def Page.rows (p : Page) : List RegRow :=
  match p.kind with
  | .core => coreRows | .dbg => [] | .l2 => cacheRows | .slc => cacheRows | .router => routerRows p.inst
  | .probe => probeRows (p.feat = 1) | .stool => stoolRows p.inst | .rg => rgRows p.meters | .agg => aggRows (p.cab = 8)
  | .cabCtl => cabRows p.cab | .frm => frmRows | .tim => timRows | .cmt => cmtRows | .frr => frrRows | .timCopy => timCopyRows
  | .cmr => cmrRows | .win => winRows | .mc => mcRows | .ipe => ipeRows | .evc => evcRows | .modIv => modRows
  | .swf => [ro 0x040] | .ert => ertRows (p.block = 0x13) | .te => teRows p.inst | .vf => vfRows | .tsw => tswRows
  | .tsp => tspRows | .pcie => pcieRows p.inst | .prl => prlRows p.inst | .bio => bioRows p.page | .pwc => pwcRows
  | .pwd => pwdRows | .pwq => pwqRows | .pwt => pwtRows | .chest => [rw 0x040 0xFF, { off := 0x800, num := 512 }]
  | .rts => rtsRows | .rtm => rtmRows | .frz => frzRows

/-- Does the row hold the register at offset `o`? -/
def RegRow.holds (r : RegRow) (o : Nat) : Bool :=
  decide (r.off ≤ o) && decide ((o - r.off) % r.stride = 0) && decide ((o - r.off) / r.stride < r.num)

/-- The row of the register at offset `o` of a page; none where the offset is reserved (R6). -/
def Page.row (p : Page) (o : Nat) : Option RegRow :=
  if o < 0x40 then headerRows.find? (·.holds o) else p.rows.find? (·.holds o)

/-- PG_ID (R28, R29). -/
def Page.pgId (p : Page) : Nat := p.typeCode * 65536 + p.inst * 256 + p.page

/-- Reset values that depend on the page: PG_ID, PG_FEAT, the default routes, RG_KIND, RT_INFO (R29, R62, R277, R289);
and DSTAT.STATE of the domains that are not cells, which power-on reset leaves in Run (17 R486, assumption log 6). -/
def Page.resetOver (p : Page) (o : Nat) : Option Nat :=
  if o = 0 then some p.pgId
  else if o = 8 then some p.feat
  else
    match p.kind with
    | .router =>
      if o = 0x40 then some (p.inst + 256 * (routerKind p.inst).code + 65536 * portCount p.inst)
      else if 0x100 ≤ o ∧ o < 0x248 then some (defaultRoute p.inst ((o - 0x100) / 4))
      else if 0x300 ≤ o ∧ o < 0x448 then some (defaultRoute p.inst ((o - 0x300) / 4))
      else if 0x500 ≤ o ∧ o < 0x648 then some (defaultRoute p.inst ((o - 0x500) / 4))
      else none
    | .rg =>
      if o = 0x40 then
        some ((if p.cab < 4 ∧ 0x10 ≤ p.block then 0 else if p.block < 6 then 1 else 2)
          + (if p.meters.urg then 4 else 0) + (if p.meters.bytes then 8 else 0))
      else none
    | .pwd => if 0x100 + 4 * 192 ≤ o ∧ o < 0x100 + 4 * 296 then some 3 else none
    | _ => none

/-- The reset value of the register at control-space offset `a`; 0 where no register stands (R6). -/
def resetValue (a : Nat) : W32 :=
  match pageOf a with
  | none => 0
  | some p =>
    let o := a % 4096
    match p.resetOver o with
    | some v => BitVec.ofNat 32 v
    | none =>
      match p.row o with
      | some r => BitVec.ofNat 32 r.rst
      | none => 0

/-- The error classes, in code order (18 R492). -/
inductive ErrClass where
  | corrected | contained | fatal | budget | integrity
  deriving DecidableEq, Repr

/-- The class code (R492). -/
def ErrClass.code : ErrClass → Nat
  | .corrected => 0 | .contained => 1 | .fatal => 2 | .budget => 3 | .integrity => 4

/-- The class in which a PG_ERR bit of a page kind reports (R29, R37, R246, R262, R290, R292, R324, R349, R372, R404,
R428, R459, R491, R494, R512). -/
def errClass (k : PageKind) (bit : Nat) : ErrClass :=
  if bit = 31 ∨ bit = 30 then .integrity
  else
    match k with
    | .core => if bit = 0 then .corrected else if bit = 1 then .contained else if bit = 11 then .budget else .fatal
    | .l2 | .slc => if bit = 0 then .corrected else if bit = 1 ∨ bit = 4 then .contained else if bit = 2 then .fatal else .budget
    | .router =>
      if bit = 2 then .integrity else if bit = 3 then .corrected else if bit = 4 then .contained else .budget
    | .frr => .integrity
    | .mc => if bit = 0 then .corrected else if bit = 1 then .contained else if bit = 2 then .fatal else if bit = 3 then .integrity else .budget
    | .ipe => if bit = 0 then .corrected else if bit = 1 then .contained else if bit = 6 then .budget else .integrity
    | .evc => if bit = 0 then .integrity else .budget
    | .te => if bit = 1 then .corrected else if bit = 2 then .contained else .budget
    | .vf => if bit = 2 ∨ bit = 5 then .integrity else if bit = 4 then .contained else .budget
    | .tsp => if bit = 1 then .integrity else .budget
    | .pcie => if bit = 2 then .contained else .integrity
    | .prl => if bit = 0 then .integrity else if bit = 3 then .corrected else .budget
    | .rts => if bit = 3 then .fatal else .integrity
    | .rtm => .integrity
    | .stool =>
      if bit = 0 ∨ bit = 4 then .fatal else if bit = 2 then .corrected else if bit = 3 then .contained
      else if bit = 29 then .integrity else .budget
    | .pwc | .pwq => if bit = 1 then .fatal else .budget
    | .chest => if bit = 0 then .corrected else .contained
    | .frz => .integrity
    | _ => .budget

end Sys2Proof.Machine
end

