-- ==== Sys2Proof/Machine/State.lean ====
section
/-! DEFINITION. The state of the block as plain data, and the state right after reset. -/

namespace Sys2Proof.Machine

/-- Faults of the model.  There is none: where the hardware detects something wrong it records it and goes on (17 R492,
18), and so does the model. -/
inductive Fault : Type
  deriving DecidableEq, Repr

/-- Why a command has no meaning. -/
inductive Refusal where
  /-- Raised by a dispatch arm of a row whose meaning is not written yet.  Safe: the machine stops. -/
  | notModelled (mnemonic : String)
  /-- Raised by an Ozhorn-64 or Lintos row whose bytes decode to an instruction of another row: the command contradicts
  itself, no hardware event corresponds to it.  Safe: the machine stops. -/
  | otherEncoding
  deriving DecidableEq, Repr

/-- The memory types (07 R192), the more restrictive later. -/
inductive MemType where
  | wb | nc | dev
  deriving DecidableEq, Repr

/-- A store buffer entry: up to 16 bytes to one page (06 R166). -/
structure SbEntry where
  addr : Nat
  data : List Byte
  mt : MemType
  part : PartId
  /-- The partition hint or NT of the store: 0 none, 1 EVF, 2 NT, 3 NAL (08 R224). -/
  hint : Nat := 0
  /-- A CMO's operation (08 R234), or none for a store. -/
  cmo : Option Nat := none
  /-- The access has left for the fabric under this tag, and waits for its response. -/
  sent : Option W16 := none
  /-- It is the higher part of a store that crosses a page, whose lower part is the entry before it (06 R166). -/
  upper : Bool := false
  deriving DecidableEq, Repr

/-- A TLB entry (07 R202).  Rights are UR, UW, UX, SR, SW, SX in bits 0 to 5; sizes are 0 (4 KiB), 1 (2 MiB), 2 (1 GiB). -/
structure TlbEntry where
  hreg : Bool
  vmid : W16
  asid : W16
  glob : Bool
  va : Nat
  sz : Nat
  pa : Nat
  mt : MemType
  /-- The type that stage 1 gave. -/
  mt1 : MemType
  hint : Bool
  r1 : BitVec 6
  l1 : Nat
  r2 : BitVec 6
  l2 : Nat
  ipa : Nat
  ipaSz : Nat
  dirty : Bool
  deriving DecidableEq, Repr

/-- The kinds of access (07 R196). -/
inductive Acc where
  | fetch | read | write | rmw
  deriving DecidableEq, Repr

/-- What came back for one access of a walk: the value a table read gave, an error response, poison, or the result of a
compare-and-swap (07 R194, R195). -/
inductive WalkReply where
  | word (v : W64)
  | bus
  | poison
  | swapped
  deriving DecidableEq, Repr

/-- A walk in progress (07 R197): what it translates, the answers to its accesses so far, and whether a speculative access asked for it
(06 R174; 07 R207). -/
structure Walk where
  va : W64
  acc : Acc
  lv : Nat
  /-- CAUSE.SZ of the access (04 R102). -/
  sz : Nat
  replies : List WalkReply
  spec : Bool := false
  deriving DecidableEq, Repr

/-- Whether a core issues (04 R105, R111; 09 R264). -/
inductive RunState where
  | ready
  /-- In a WAIT: the TIME that ends it, and the PC of the instruction after it. -/
  | waiting (until_ : Option W64) (next : W64)
  | dead
  deriving DecidableEq, Repr

/-- Line states of a cache (08 R227). -/
inductive LineSt where
  | m | o | e | s
  deriving DecidableEq, Repr

/-- A cache line: its line number (address / 64), state, data, poison mark, and the bytes written since it was poisoned
(R534). -/
structure CLine where
  line : Nat
  st : LineSt
  data : BitVec 512
  poison : Bool
  written : W64 := 0
  /-- A tag-only entry of an L2, or of one that a reserved way holds (R224). -/
  tagOnly : Bool := false
  deriving DecidableEq, Repr

/-- A set-associative cache: lines by set * ways + way, the recency order of each set's ways (most recent first). -/
structure Cache where
  lines : SMap (Option CLine) := []
  order : SMap (List Nat) := []
  deriving DecidableEq, Repr

/-- A read of a core that the caches do not serve, waiting for its response: its address and tag, and what came back, with its
poison mark; whether it fetches a block (06 R152); and whether it is an atomic's, whose write is in the store buffer (04 R95). -/
structure ExtRead where
  addr : Nat
  tag : W16
  got : Option (BitVec 256 × Bool)
  fetch : Bool := false
  wrote : Bool := false
  deriving DecidableEq, Repr

/-- A block of the prefetch queue: the virtual address of its first byte, and whether its data is poisoned (06 R152). -/
structure Block where
  va : W64
  poison : Bool
  deriving DecidableEq, Repr

/-- A line delivered to an access: its number, whether ownership was asked for, its data and poison mark, and whether it is for a
fetch. -/
structure Given where
  line : Nat
  un : Bool
  data : BitVec 512
  poison : Bool
  fetch : Bool := false
  deriving DecidableEq, Repr

/-- Run-ahead (06 R169-R172): the lines that the load waits for, the INV bits (0-31 g, 32-63 f, 64-67 N Z C V, 68-70 LCNT, LSTART and
LEND, 71 the divide bits), the store cache (oldest first, each with whether its data is INV), the number of run-ahead instructions, and whether issue has stopped.
The checkpointed registers are the core's own, which run-ahead leaves alone (R170). -/
structure RunAhead where
  lines : List Nat
  inv : List Nat := []
  stores : List (SbEntry × Bool) := []
  count : Nat := 0
  stopped : Bool := false
  deriving DecidableEq, Repr

/-- A line of a bunk log: its header's fields and its record slots (09 R252). -/
structure LogLine where
  seq : W16
  snap : Bool
  ctl : BitVec 7
  slots : List W64
  deriving DecidableEq, Repr

/-- A core's part in a bunk pair (09). -/
structure Bunk where
  bound : Bool := false
  shadow : Bool := false
  partner : Nat := 0
  brpos : W64 := 0
  ssig : W64 := 0
  bsig : W64 := 0
  /-- Primary: the sequence number of the next line, the slots of the open line and their CTL bits, the lines sent and not
  credited, and whether it sends nothing any more (R263, R264). -/
  seq : W16 := 0
  /-- Primary: a load or atomic that had issued at the binding completes before the snapshot is sent (R249). -/
  due : Bool := false
  cur : List W64 := []
  curCtl : BitVec 7 := 0
  unread : Nat := 0
  mute : Bool := false
  /-- Primary: lines that find no free place in the ring of 512 (R251, R260). -/
  out : List LogLine := []
  /-- Shadow: the lines that have arrived, slots consumed of the first, the expected SEQ, the snapshot so far, whether it has
  been loaded, lines consumed since the last credit, FENDs written and not compared. -/
  lines : List LogLine := []
  slot : Nat := 0
  expect : W16 := 0
  snap : List W64 := []
  loaded : Bool := false
  eaten : Nat := 0
  fends : List W16 := []
  halted : Bool := false
  broken : Bool := false
  deriving DecidableEq, Repr

/-- One Ozhorn-64 core. -/
structure Core where
  g : SMap W64 := []
  f : SMap W128 := []
  sys : SMap W64 := []
  pc : W64 := 0x3FFF0000000
  level : Fin 4 := 3
  run : RunState := .ready
  /-- The next instruction is the first at an exception vector (04 R105). -/
  vec : Bool := false
  /-- An interrupt of this level was entered and its handler has not issued an instruction (12 R344). -/
  entered : Option (Fin 4) := none
  held : List (Nat × Nat) := []
  sb : List SbEntry := []
  /-- The physical ranges (address, length) of a load that a partial overlap discarded (06 R167). -/
  replay : List (Nat × Nat) := []
  itlb : List TlbEntry := []
  dtlb : List TlbEntry := []
  l2tlb : SMap (Option TlbEntry) := []
  l2rr : SMap Nat := []
  walk : Option Walk := none
  /-- TLBIs issued and not yet performed everywhere: the tags of the packets whose answers are outstanding, one list per
  TLBI. -/
  tlbis : List (List Nat) := []
  l1i : Cache := {}
  l1d : Cache := {}
  pred : SMap (BitVec 2) := []
  rstack : List W64 := []
  pl : W32 := 7
  ra : Option RunAhead := none
  raDone : Bool := false
  /-- The prefetch queue, oldest first (06 R152). -/
  queue : List Block := []
  /-- The line of the block that waits in F2 (06 R153). -/
  fetchWait : Option Nat := none
  /-- Fetch ahead stands still until a redirect: the next block cannot be fetched (06 R154). -/
  stuck : Bool := false
  /-- The access that waits for the walker, whose misses have been counted (07 R216). -/
  xlWait : Option (W64 × Acc) := none
  /-- The load or atomic at the boundary has issued: it has asked for data and waits for it. -/
  issued : Bool := false
  /-- Reads outside the caches that the load or atomic in progress has made. -/
  ext : List ExtRead := []
  /-- Lines that were delivered to the access in progress without being allocated, or 0 after a timeout (08 R222; 10 R287). -/
  given : List Given := []
  /-- Lines that a non-temporal access of the core brought into its L1D and has not used yet: the use leaves the recency order alone
  (08 R221, R224). -/
  came : List Nat := []
  bunk : Bunk := {}
  deriving DecidableEq, Repr

/-- One Lintos engine (16 R431, R454). -/
structure Stool where
  a : W32 := 0
  x : W16 := 0
  y : W16 := 0
  bk : Byte := 0
  sp : W16 := 0
  f : Byte := 0
  pc : BitVec 24 := 0
  halted : Bool := false
  waiting : Bool := false
  timeHi : Option W32 := none
  lreg : SMap W32 := []
  sram : Memory := []
  /-- The bytes of an instruction whose control-space access nothing answers (R443, R444). -/
  cw : Option (List Byte) := none
  deriving DecidableEq, Repr

/-- TIME and the captures of upper halves (03 R38-R41). -/
structure ClockSt where
  time : W64 := 0
  acc : W32 := 0
  step : Option W64 := none
  locked : Bool := true
  /-- Captured upper halves by initiator and register (R41). -/
  caps : SMap (Option W32) := []
  deriving DecidableEq, Repr

/-- A tick event that has arrived: its tick instant, and the frame number a Parraha TICK carried (03 R42, R46). -/
structure TickEvent where
  instant : W64
  fnum : Option W32
  deriving DecidableEq, Repr

/-- A tick message on its way to the receiver of a cabinet (03 R51). -/
structure TickMsg where
  cab : Nat
  fnum : W32
  instant : W64
  deriving DecidableEq, Repr

/-- A commit that a cabinet still owes: its target, and whether a tick message was lost since (03 R51). -/
structure Owed where
  cab : Nat
  target : W32
  lost : Bool
  deriving DecidableEq, Repr

/-- A window that a core's table entered in the frame in progress (03 R54, R55). -/
structure WinRun where
  idx : Nat
  stop : W64
  part : PartId
  ended : Bool
  grace : W64
  contd : Bool
  closed : Bool
  /-- It belongs to the frame before the one in progress. -/
  old : Bool
  /-- Its end passed while its cabinet was in Stop: it was not entered (17 R472; assumption log 74). -/
  lost : Bool := false
  /-- The TIME at which it was entered: tick instant + START (03 R54). -/
  start : W64 := 0
  deriving DecidableEq, Repr

/-- The frame unit (03). -/
structure FrameSt where
  /-- The instant at which the next tick is expected; none before the first tick of kinds 1-3. -/
  expected : Option W64 := none
  /-- No event came by expected + TOL with HOLD 0: the next event is accepted whenever it arrives (R44). -/
  late : Bool := false
  events : List TickEvent := []
  /-- An accepted tick whose instant is still to come. -/
  due : Option TickEvent := none
  msgs : List TickMsg := []
  /-- Cabinets that still owe a commit (R51). -/
  owed : List Owed := []
  /-- Cabinets whose regulators are metered (R58). -/
  metered : List Nat := []
  wins : SMap (List WinRun) := []
  /-- Meters of budget 0 whose exhaustion occurred in this frame: regulator page, meter, PARTID (R58). -/
  zeroSeen : List (Nat × Nat × Nat) := []
  /-- A shadow write was refused in this checking or armed period (R65). -/
  lateSeen : Bool := false
  deriving DecidableEq, Repr

/-- A fire on its way (12 R327): of a numbered source, or directly at a stool's level and bit (18 R499). -/
inductive Fire where
  | source (n : Nat)
  | stool (k : Nat) (lvl bit : Nat)
  deriving DecidableEq, Repr

/-- A moderation group that is holding: until when, and whether a flag was set in the interval (12 R339). -/
structure ModGroup where
  until_ : W64
  flagged : Bool
  deriving DecidableEq, Repr

/-- The event fabric. -/
structure EventSt where
  fires : List Fire := []
  groups : SMap (Option ModGroup) := []
  deriving DecidableEq, Repr

/-- A report on its way to an aggregator page (18 R495): the page and bit that report, the address it carries, the TIME of
detection, the PARTID where one is named, and whether it was injected. -/
structure Report where
  dest : Nat
  page : Nat
  bit : Nat
  cls : ErrClass
  addr : Nat
  time : W64
  part : Option PartId
  inj : Bool
  deriving DecidableEq, Repr

/-- A word, line or unit that an injection altered (18 R503): the page and bit armed, and which unit. -/
structure Flaw where
  page : Nat
  bit : Nat
  key : Nat
  deriving DecidableEq, Repr

/-- A freeze (18 R506-R509): its source (1 ball, 2 register), TIME at acceptance, RT_STAT.DBG at the freeze. -/
structure Freeze where
  src : Nat
  time : W64
  dbg : Nat
  /-- The number of the free values that the flip-flops hold. -/
  key : Nat := 0
  deriving DecidableEq, Repr

/-- Error reports, injections, heartbeat, freeze and capture (18). -/
structure ErrSt where
  reports : List Report := []
  /-- What the latest detection of each page and PG_ERR bit reports, whether its mask bit let it out or not (02 R30). -/
  seen : List Report := []
  flaws : List Flaw := []
  hbLevel : Bool := false
  /-- TIME of the last KICK, or of the write that set KEN. -/
  kickAt : W64 := 0
  /-- A KIV period has expired since the last performed KICK. -/
  kickLate : Bool := false
  frozen : Option Freeze := none
  seg : W16 := 0
  /-- The bits that the latest CAPRD brought to TDO, the first one first (R509). -/
  tdo : List Bool := []
  deriving DecidableEq, Repr

/-- A sequence of the power controller (17 R466): a Stop of a domain, or a chained wake (the domains still to wake, first
the outermost; the domain asked for; the WAKE_SRC it records; whether a DCMD started it). -/
inductive PwrSeq where
  | stop (d : Nat)
  | wake (chain : List Nat) (target : Nat) (src : Nat) (dcmd : Bool)
  deriving DecidableEq, Repr

/-- The save image of a domain (17 R475, R476): its saved registers, a cell's core, a bench or common's stool, the commit
(CMT.LAST) and the tick (FRM.LAST) that stood at the save. -/
structure Image where
  regs : SMap W32
  core : Option Core
  lregs : SMap (SMap W32)
  commit : W32
  tick : Nat
  deriving DecidableEq, Repr

/-- A DVFS sequence of a compute cabinet (17 R483): the step in progress and the point it moves from. -/
inductive DvfsStep where
  | voltage (mv : Nat)
  | clock (mhz : Nat)
  deriving DecidableEq, Repr

/-- Whether the chip runs, is in Stop, waits for PWR_GOOD, or waits for the time PLL (17 R478, R479; 19 R523). -/
inductive ChipMode where
  | run | stop | waitGood | waitPll
  deriving DecidableEq, Repr

/-- The power controller, its bus, and the balls of the AOC (17, 19). -/
structure PowerSt where
  seq : Option PwrSeq := none
  wakeq : List Nat := []
  images : SMap (Option Image) := []
  dvfs : SMap (Option DvfsStep) := []
  chip : ChipMode := .run
  /-- The always-on count, as last seen. -/
  aon : BitVec 48 := 0
  /-- The always-on count at the entry to chip Stop. -/
  aonEntry : BitVec 48 := 0
  /-- Held in power-on reset (19 R521), and whether PORST_N started it: the ball counts as low until the release (19 R529). -/
  inReset : Bool := false
  porst : Bool := false
  /-- The stools' copy of source 0x302 owed after a failed chip wake (R479). -/
  owe302 : Bool := false
  /-- Cabinets whose reset waits for a sequence to end (R486). -/
  crst : List Nat := []
  /-- What locked pages of a domain in Stop without an image keep: LOCK, PG_OWNER and RWL fields (00 R5; 02 R35; 17 R487). -/
  locks : SMap (SMap W32) := []
  /-- Instructions a core may still execute after it stopped its own cell (R469). -/
  selfLeft : Nat := 0
  /-- The Chest's software drawers (R474, R490): bytes from drawer 12,288 on. -/
  chest : Memory := []
  thermtrip : Bool := false
  pwrReqLow : Bool := false
  /-- PE_REFCLKi runs; PERSTi_N is high (19 R524). -/
  refclk : List Nat := []
  perstHigh : List Nat := []
  /-- The byte last written on PMIC_SCL/PMIC_SDA: target address, register, value (19 R519). -/
  pmic : Option (Nat × Nat × Nat) := none
  deriving DecidableEq, Repr

/-- A packet in the main fabric: the router and the port at which it stands, an input port or, once it has left the router, a local
one; the regulator page it waits at; whether that regulator holds it; and whether it has left by a local port (10 R273-R277; 03
R59). -/
structure Flight where
  pkt : Packet
  rtr : Nat
  port : Nat
  wait : Option Nat
  held : Bool
  out : Bool
  deriving DecidableEq, Repr

/-- The arbiter of a router's output port (10 R274): the slot of the rotation, the channels whose packet has a second flit to send,
and the input port last served on each channel. -/
structure Arbiter where
  slot : Nat := 0
  bodies : List Nat := []
  last : SMap Nat := []
  deriving DecidableEq, Repr

/-- A request of the control network (10 R296): the node where it entered, its source there, its tag, what it carries and where it
goes. -/
structure CtlPkt where
  node : Nat
  src : Nat
  tag : BitVec 6
  part : PartId
  be : BitVec 4
  addr : BitVec 28
  data : Option W32
  deriving DecidableEq, Repr

/-- A control-space access that a gateway's control bridge holds: the packet, the tags of the halves that have no answer yet, lower
half first, and the data that has come (10 R298). -/
structure BridgeAcc where
  gw : Nat
  pkt : Packet
  left : List (BitVec 6)
  data : List W32
  deriving DecidableEq, Repr

/-- The main fabric. -/
structure NetSt where
  flights : List Flight := []
  /-- Requests sent and not yet answered (R285). -/
  outs : List Packet := []
  bridges : List BridgeAcc := []
  /-- Requests in the control network (R295-R297). -/
  ctl : List CtlPkt := []
  /-- The arbiters of output ports, by router * 8 + port (R274). -/
  arb : SMap Arbiter := []
  /-- Trace records of each probe's partly filled line (R292). -/
  trace : SMap (List W128) := []
  /-- The transaction tag of the next request (R270 TAG; assumption log 8). -/
  tag : W16 := 0
  deriving DecidableEq, Repr

/-- A directory entry (08 R229): the sharers, bit n for global bench n; the owner; unique (U) or shared (SH). -/
structure DirEnt where
  line : Nat
  sharers : BitVec 24
  owner : Option (Fin 24)
  uniq : Bool
  deriving DecidableEq, Repr

/-- A set-associative directory: entries by set * 16 + way, the recency order of each set's ways. -/
structure Dir where
  ents : SMap (Option DirEnt) := []
  order : SMap (List Nat) := []
  deriving DecidableEq, Repr

/-- A victim in an eviction buffer (08 R243). -/
structure EvLine where
  line : Nat
  data : BitVec 512
  poison : Bool
  part : PartId
  deriving DecidableEq, Repr

/-- A fill outstanding for a core (08 R221, R224): its line, whether it asks for ownership, its hint (0 plain, 1 EVF, 2 NT, 3
NAL, 4 the walker's, which fills the L2 only, 5 the same of a walk that has been abandoned, 07 R214), whether it is a fetch, whether it is speculative, and what has arrived: data, poison, the state granted. -/
structure Miss where
  core : Nat
  line : Nat
  un : Bool
  hint : Nat
  fetch : Bool
  spec : Bool
  part : PartId
  tag : W16
  /-- The virtual address's line, for the L1I's index. -/
  va : Nat
  got : Option (BitVec 512 × Bool × LineSt)
  deriving DecidableEq, Repr

/-- A request that a home slice is working on (08 R229-R232): the benches whose answers it awaits, the dirty line that a
bench gave it, the line it recalls to free a directory entry, whether it awaits its controller; whether a CMO awaits the controller's
acceptance of what it wrote (R235); and whether the slice's own engine asks (R238). -/
structure HomeTx where
  slice : Nat
  req : Packet
  left : List Nat
  data : Option (BitVec 512 × Bool)
  recalling : Option Nat
  snooped : Bool
  dram : Bool
  flush : Bool := false
  eng : Bool := false
  deriving DecidableEq, Repr

/-- What a maintenance engine or a sweep latched at GO (08 R239, 11 R317), and how far it has come: the next line or set, the lines of
it already acted on, the lines whose write-backs are outstanding, and where an abort stops it (08 R240, R242); `got` is what an inline
protection sweep has read of the line that it has not written yet. -/
structure Sweep where
  lo : Nat
  len : Nat
  op : Nat
  scope : Bool
  part : PartId
  abort : Bool
  pos : Nat := 0
  acted : List Nat := []
  out : List Nat := []
  stop : Option Nat := none
  got : Option (BitVec 512 × Bool) := none
  deriving DecidableEq, Repr

/-- The caches shared by cores, the directories and what is under way between them (08). -/
structure CohSt where
  l2 : SMap Cache := []
  slc : SMap Cache := []
  dir : SMap Dir := []
  /-- Eviction buffers: of bench b at b, of slice k at 24 + k. -/
  evb : SMap (List EvLine) := []
  misses : List Miss := []
  txs : List HomeTx := []
  /-- Requests that wait for a request to the same line: slice and packet. -/
  waitq : List (Nat × Packet) := []
  /-- Engine operations: of L2 b at b, of slice k at 24 + k. -/
  me : SMap (Option Sweep) := []
  /-- Trace records of sink slices, by slice * 8192 + record (10 R293). -/
  sink : SMap W128 := []
  /-- Sink slices whose records have all been written and none read since (10 R293). -/
  sinkFull : List Nat := []
  /-- TLBIs that have reached a bench: the packet, and the cores that have not performed it (07 R212). -/
  tlbis : List (Packet × List Nat) := []
  deriving DecidableEq, Repr

/-- The tag of a DRAM line (11 R304): slot, POISON, SEALED; the key and the tree that wrote it, in place of the MAC; and what is wrong with
the stored line, as the KIND of the row at which a read of it fails (R309, R323: 1 UE, 2 MACF, 3 FRESH). -/
structure LineTag where
  slot : Nat
  key : Nat
  poison : Bool
  isSealed : Bool
  tree : Nat
  fails : Option Nat := none
  deriving DecidableEq, Repr

/-- A counter block (11 R314): MAJOR and the minors; an unlisted minor is 0. -/
structure CtrBlock where
  major : BitVec 56 := 0
  minors : SMap Nat := []
  deriving DecidableEq, Repr

/-- A request that a memory controller has accepted and not performed: the controller, the packet, and the key slot that a write has (11
R306). -/
structure McReq where
  mc : Nat
  pkt : Packet
  slot : Nat := 0
  deriving DecidableEq, Repr

/-- A re-encryption that runs (11 R315): controller, level and block, and the minor whose wrap started it. -/
structure Reenc where
  mc : Nat
  level : Nat
  block : Nat
  idx : Nat
  deriving DecidableEq, Repr

/-- The memory controllers and inline protection engines (11). -/
structure MemSt where
  /-- The plain data of DRAM lines, by physical address. -/
  dram : Memory := []
  tags : SMap (Option LineTag) := []
  /-- Key slots: which key each holds; 0 is empty (R305). -/
  keys : SMap Nat := []
  /-- Lines of the tag caches, most recent first, by controller. -/
  tagCache : SMap (List Nat) := []
  /-- Counter blocks by (controller * 4 + level) * 65536 * 16 + block; level 3 is the root on the die (R313). -/
  ctrs : SMap CtrBlock := []
  /-- Counter caches, most recent first: level * 1048576 + block, and whether it is dirty. -/
  ctrCache : SMap (List (Nat × Bool)) := []
  /-- How often each engine's tree has been initialised. -/
  trees : SMap Nat := []
  /-- Controllers that have had INIT: MC_CFG is fixed (R299, R322). -/
  inited : List Nat := []
  /-- Controllers whose training runs (R318). -/
  training : List Nat := []
  /-- The visible top that every cell holds (R300, 02 R22). -/
  vtop : Nat := 0
  /-- Requests that a controller has accepted and not performed, in arrival order (R308). -/
  queue : List McReq := []
  /-- Re-encryptions that run, oldest first (R315). -/
  reenc : List Reenc := []
  /-- Controllers whose channels are in self-refresh (R321). -/
  selfRefresh : List Nat := []
  sw : SMap (Option Sweep) := []
  /-- The eMRAM's bytes by offset (02 R23). -/
  emram : Memory := []
  deriving DecidableEq, Repr

/-- A key hash slot (15 R408). -/
structure KeyHash where
  hash : List Byte := []
  valid : Bool := false
  revoked : Bool := false
  deriving DecidableEq, Repr

/-- What only ever moves forward: the lifecycle, anti-rollback counters, BOOTCFG and key hash slots of the configuration area
(15 R405, R408, R409). -/
structure Otp where
  lc : Fin 4 := 0
  ctrs : SMap W32 := []
  bootcfg : W64 := 0
  hashes : SMap KeyHash := []
  deriving DecidableEq, Repr

/-- A key handle (15 R420): its type, owner and flags, and the key. -/
structure KeyH where
  type : Nat
  owner : PartId
  shared : Bool
  persist : Bool
  key : List Byte
  deriving DecidableEq, Repr

/-- A mailbox command that waits (15 R427): its page (1-3), OP, PARTID, arguments, buffer address and length. -/
structure MbCmd where
  page : Nat
  op : Nat
  part : PartId
  args : List W32
  buf : Nat
  len : Nat
  deriving DecidableEq, Repr

/-- The root of trust (15). -/
structure RotSt where
  queue : List MbCmd := []
  /-- The unique device secret and the persistent handles of the key store. -/
  uds : List Byte := []
  handles : SMap (Option KeyH) := []
  /-- MR0 to MR15 that are not 0; the current CDI. -/
  mrs : SMap (List Byte) := []
  cdi : List Byte := []
  /-- The DeviceID private keys of this boot: 1 ECDSA, 2 ML-DSA (R415). -/
  dev : SMap (List Byte) := []
  challenge : Option (List Byte) := none
  /-- Owner and CONF of installed slots (R419). -/
  slots : SMap (Option (PartId × Bool)) := []
  /-- The counter-tree MAC key that has been installed, 0 for none (R419). -/
  treeKey : Nat := 0
  deriving DecidableEq, Repr

/-- A descriptor that an engine or the switch has in a slot, or has parked (13 R357-R364): function, queue, SQ index, its 32 bytes,
bytes of LEN done, the AES parameter block, input gathered so far, a buffer posted (RXB), whether a COPY has read poisoned data,
and once it is finished its status and RESULT; whether the checks of its start have been made, the key and the output that it holds, how
much of the output it has written, and what the bytes that a COPY has written over held before. -/
structure Desc where
  vf : Nat
  q : Nat
  idx : Nat
  bytes : List Byte
  done : Nat := 0
  par : List Byte := []
  acc : List Byte := []
  posted : Bool := false
  psn : Bool := false
  fin : Option (Nat × W32) := none
  checked : Bool := false
  key : Option (List Byte) := none
  out : Option (List Byte) := none
  wrote : Nat := 0
  saved : List Byte := []
  deriving DecidableEq, Repr

/-- The transfer engines and the virtual functions (13): descriptors in slots and parked ones by engine (8 and 9 are the switch's
transmit and receive queues), the global queue last started, bytes charged of the 64 that TE_BCNT counts as one, the PF
command in progress with its PF_ARG, and functions whose reset began by their page's soft reset. -/
structure TeSt where
  slots : SMap (List Desc) := []
  parked : SMap (List Desc) := []
  last : SMap Nat := []
  charged : SMap Nat := []
  pf : Option (W32 × W32) := none
  soft : List Nat := []
  deriving DecidableEq, Repr

/-- A gate control list in operation: its cycle time, its entries (gate states and interval), the entry in force, and how much of
the cycle the entries before it took (14 R377). -/
structure GateList where
  ct : Nat
  entries : List (Byte × Nat)
  idx : Nat
  spent : Nat
  deriving DecidableEq, Repr

/-- A pending change of a gate list (14 R377): the cycle time, the entries, and the frame number that it waits for, if any. -/
structure GatePend where
  ct : Nat
  entries : List (Byte × Nat)
  frame : Option W32
  /-- The ConfigChangeTime in the port's gPTP time, where no frame is named. -/
  cct : Nat := 0
  /-- The tick that starts the named frame has come. -/
  begun : Bool := false
  deriving DecidableEq, Repr

/-- A TLP that a PCIe port sends: a request for `len` bytes at a PCIe address, or with data there, or a completion, with UR where
the request was refused; EP marks poisoned data (14 R384-R386; 18 R493). -/
inductive PcieSent where
  | read (addr len : Nat)
  | write (addr : Nat) (data : List Byte) (ep : Bool)
  | done (data : List Byte) (ep : Bool)
  | ur
  deriving DecidableEq, Repr

/-- A timestamp of an 802.1AS frame (14 R376): TIME, whether it was sent, its sequenceId. -/
structure Stamp where
  time : W64
  sent : Bool
  seq : W16
  deriving DecidableEq, Repr

/-- A frame that waits at an egress port for the gate of its traffic class (14 R377), and whether its data is poisoned (18 R493). -/
structure Egress where
  cls : Nat
  bytes : List Byte
  bad : Bool := false
  deriving DecidableEq, Repr

/-- An operation of the switch's table window in progress (14 R380): table, index, and the data of a write. -/
structure TblOp where
  table : Nat
  idx : Nat
  data : Option (List W32)
  deriving DecidableEq, Repr

/-- An outbound PCIe request that waits for its completion (14 R385). -/
structure PcieReq where
  port : Nat
  pkt : Packet
  deriving DecidableEq, Repr

/-- A remote read over the Parraha link that waits for its response (14 R391). -/
structure PrlRead where
  tag : Nat
  pkt : Packet
  deriving DecidableEq, Repr

/-- The packet last put on a Parraha link: its type and fields (14 R389). -/
structure PrlSent where
  type : Nat
  pkt : PrlPacket
  deriving DecidableEq, Repr

/-- The vehicle and board ports (14). -/
structure PortSt where
  /-- Entries of the switch's tables 1 to 24, by table * 2^24 + index, 16 words each; an unlisted one is all 0. -/
  tables : SMap (List W32) := []
  tblOp : Option TblOp := none
  stamps : SMap (List Stamp) := []
  /-- The entry that TS_HI and TS_INFO return. -/
  stamp : SMap (Option Stamp) := []
  gates : SMap (Option GateList) := []
  gatePend : SMap (Option GatePend) := []
  egress : SMap (List Egress) := []
  /-- Offsets of the gPTP domains in force (R375). -/
  gd : SMap W64 := []
  /-- BIF as sampled (R382). -/
  lanes : Option Nat := none
  pcie : List PcieReq := []
  reads : List PrlRead := []
  /-- The TAG of the next Parraha read. -/
  tag : BitVec 12 := 0
  sent : SMap (Option PrlSent) := []
  /-- The tick that TICK_SEND last announced: its instant and frame number (R396). -/
  ticked : Option (W64 × W32) := none
  /-- The latest TLP that each PCIe port sent (R384-R386). -/
  tlps : SMap (Option PcieSent) := []
  /-- t1 of the last DLY_REQ of a port (R395). -/
  t1 : SMap (Option W64) := []
  /-- INSTANT of the last TICK used (R396). -/
  origin : W64 := 0
  /-- The phase of the message ring (R394). -/
  phase : Bool := true
  /-- FIFOs and operations in progress of the low-speed controllers, by number: I2C 0-3, SPI 4-7, UART 8-11 (R400). -/
  tx : SMap (List Byte) := []
  rx : SMap (List Byte) := []
  busy : List Nat := []
  xspi : Bool := false
  ufs : Bool := false
  /-- Records that the trace-port exporter holds (R403). -/
  trace : List W128 := []
  deriving DecidableEq, Repr

/-- The state of the block. -/
structure State where
  /-- The commands that wait, first in first out. -/
  pending : List Instr := []
  /-- Free values drawn so far (assumption log 1). -/
  fresh : Nat := 0
  /-- The registers of register pages by control-space offset; an unlisted one holds its reset value. -/
  regs : SMap W32 := []
  /-- Page numbers of the pages in a soft reset (02 R31). -/
  soft : List Nat := []
  cores : SMap Core := []
  stools : SMap Stool := []
  clock : ClockSt := {}
  frame : FrameSt := {}
  ev : EventSt := {}
  err : ErrSt := {}
  power : PowerSt := {}
  net : NetSt := {}
  coh : CohSt := {}
  mem : MemSt := {}
  otp : Otp := {}
  rot : RotSt := {}
  te : TeSt := {}
  port : PortSt := {}
  deriving DecidableEq, Repr

/-- The block right after reset. -/
def State.reset : State := {}

end Sys2Proof.Machine
end

