-- ==== Sys2Proof/Machine/Ops.lean ====
section
/-! DEFINITION. The named operations over the registers of register pages, cores and stools, and the reports and fires
that blocks send. -/

namespace Sys2Proof.Machine

/-- What a command answers. -/
abbrev Out := Host.Outcome State Fault Refusal

/-! ### Registers -/

/-- The register at control-space offset `a`; one that nothing has written holds its reset value. -/
def State.reg (s : State) (a : Nat) : W32 := SMap.get (resetValue a) s.regs a

/-- Set the register at control-space offset `a`. -/
def State.setReg (s : State) (a : Nat) (v : W32) : State :=
  { s with regs := SMap.set (resetValue a) s.regs a v }

/-- A field of a register. -/
def State.fld (s : State) (a lo w : Nat) : Nat := fieldOf (s.reg a) lo w

/-- A bit of a register. -/
def State.bit (s : State) (a i : Nat) : Bool := bitOf (s.reg a) i

/-- Set a field of a register. -/
def State.setFld (s : State) (a lo w v : Nat) : State := s.setReg a (putField (s.reg a) lo w v)

/-- Set a bit of a register. -/
def State.setBit (s : State) (a i : Nat) (b : Bool) : State := s.setReg a (putBit (s.reg a) i b)

/-- Set a register to a number. -/
def State.setNat (s : State) (a v : Nat) : State := s.setReg a (BitVec.ofNat 32 v)

/-- A counter that counts modulo 2^32. -/
def State.count (s : State) (a : Nat) (n : Nat := 1) : State := s.setReg a (s.reg a + BitVec.ofNat 32 n)

/-- A counter in bits 15:0 that saturates at 0xFFFF. -/
def State.count16 (s : State) (a : Nat) : State := s.setFld a 0 16 (satInc 0xFFFF (s.fld a 0 16))

/-- The 64-bit number in two registers, the lower half first. -/
def State.reg64 (s : State) (a : Nat) : Nat := (s.reg a).toNat + 4294967296 * (s.reg (a + 4)).toNat

/-- Set two registers to the halves of a 64-bit number. -/
def State.setReg64 (s : State) (a v : Nat) : State := (s.setNat a v).setNat (a + 4) (v / 4294967296)

/-- Registers of `[lo, hi)` back at their reset values. -/
def State.clearRegs (s : State) (lo hi : Nat) : State :=
  { s with regs := s.regs.filter (fun c => c.1 < lo || hi ≤ c.1) }

/-- The physical address of a control-space offset (02 R25). -/
def ctlAddr (a : Nat) : Nat := 0x3F000000000 + a

/-! ### Pages of one kind, by instance number -/

/-- FRM, TIM and CMT of the AOC (03 R36). -/
def frm (o : Nat) : Nat := pageBase 7 2 0 + o
def tim (o : Nat) : Nat := pageBase 7 2 1 + o
def cmt (o : Nat) : Nat := pageBase 7 2 2 + o
/-- FRR, CMR of cabinet `c` (03 R36). -/
def frr (c o : Nat) : Nat := pageBase c 2 0 + o
def cmr (c o : Nat) : Nat := pageBase c 2 2 + o
/-- The WIN page of global core `n` (03 R36). -/
def winPage (n : Nat) : Nat := pageBase (n / 48) 2 (3 + n % 48 / 4)
/-- The page of core `n` (02 R27). -/
def corePage (n o : Nat) : Nat := pageBase (n / 48) (0x40 + n % 48) 0 + o
/-- Cabinet of core, bench (02 R27; 01 R9). -/
def cabOfCore (n : Nat) : Nat := n / 48
def benchOfCore (n : Nat) : Nat := n / 8
/-- The pages of global bench `b` (02 R27). -/
def benchPage (b p o : Nat) : Nat := pageBase (b / 6) (0x10 + b % 6) p + o
/-- The pages of global slice `k`. -/
def slicePage (k p o : Nat) : Nat := pageBase (4 + k / 16) (0x10 + k % 16) p + o
/-- The pages of memory controller `m`: 0 MC, 1 IPE, 2 regulator. -/
def mcPage (m p o : Nat) : Nat := pageBase (4 + m / 8) (0x30 + m % 8) p + o
/-- The page of router `r` (02 R27; 10 R266); its probe is the next page. -/
def routerPage (r o : Nat) : Nat :=
  if r < 32 then (if r % 8 < 6 then pageBase (r / 8) (0x10 + r % 8) 1 else pageBase (r / 8) (4 + r % 8 - 6) 0) + o
  else if r < 68 then
    let k := (r - 32) / 18
    let j := (r - 32) % 18
    (if j < 16 then pageBase (4 + k) (0x10 + j) 1 else pageBase (4 + k) (4 + j - 16) 0) + o
  else if r < 72 then pageBase 6 (0x50 + (r - 68)) 0 + o
  else if r < 74 then pageBase 6 (4 + (r - 72)) 0 + o
  else pageBase 8 (0x10 + (r - 74)) 0 + o
/-- The probe page of router `r`. -/
def probePage (r o : Nat) : Nat := routerPage r 0 + 4096 + o
/-- The page of stool `k` (02 R27, R28). -/
def stoolPage (k o : Nat) : Nat :=
  if k < 24 then pageBase (k / 6) (0x10 + k % 6) 3 + o
  else if k < 32 then pageBase (k - 24) 3 0 + o
  else pageBase 7 0x15 (k - 32) + o
/-- Pages of the event fabric (12 R348, R328). -/
def evc (o : Nat) : Nat := pageBase 6 0x10 0 + o
def modPage (o : Nat) : Nat := pageBase 6 0x10 1 + o
/-- ERT_LO and ERT_HI of source `n`. -/
def ertLo (n : Nat) : Nat := pageBase 6 (0x11 + n / 4096) (n / 256 % 16) + 0x800 + 8 * (n % 256)
def ertHi (n : Nat) : Nat := ertLo n + 4
/-- Power controller pages (17 R489). -/
def pwc (o : Nat) : Nat := pageBase 7 0x10 0 + o
def pwd (o : Nat) : Nat := pageBase 7 0x10 1 + o
def pwq (o : Nat) : Nat := pageBase 7 0x10 2 + o
def pwt (o : Nat) : Nat := pageBase 7 0x10 3 + o
def dstat (d : Nat) : Nat := pwd (0x100 + 4 * d)
/-- Cabinet controller, freeze page, root of trust, chip aggregator (02 R27). -/
def cabCtl (c o : Nat) : Nat := pageBase c 0 0 + o
def frz (o : Nat) : Nat := pageBase 7 0x14 0 + o
def rts (o : Nat) : Nat := pageBase 7 0x12 0 + o
def chipAgg (o : Nat) : Nat := pageBase 8 0 0 + o
/-- Transfer engine, VF control, switch, PCIe, Parraha and board pages (02 R27). -/
def tePage (e o : Nat) : Nat := pageBase 6 (0x20 + e) 0 + o
def vfPage (v o : Nat) : Nat := pageBase 6 (0x30 + v / 16) (v % 16) + o
def tsw (o : Nat) : Nat := pageBase 6 0x40 0 + o
def tsp (p o : Nat) : Nat := pageBase 6 0x40 (p + 1) + o
def pciePage (i o : Nat) : Nat := pageBase 6 (0x44 + i) 0 + o
def prlPage (i o : Nat) : Nat := pageBase 6 (0x48 + i) 0 + o
def bioPage (p o : Nat) : Nat := pageBase 6 0x4C p + o

/-! ### Cores and stools -/

/-- The reset value of a system register (04 R76, 12 R333). -/
def sysReset (n : Nat) : W64 :=
  if n = 0x8009 then 0xA5 else if 0x8020 ≤ n ∧ n ≤ 0x8027 then BitVec.allOnes 64 else 0

/-- A core's system register by number. -/
def Core.sysReg (c : Core) (n : Nat) : W64 := SMap.get (sysReset n) c.sys n
def Core.setSys (c : Core) (n : Nat) (v : W64) : Core := { c with sys := SMap.set (sysReset n) c.sys n v }

/-- Core `n` of the block. -/
def State.core (s : State) (n : Nat) : Core := SMap.get {} s.cores n
def State.setCore (s : State) (n : Nat) (c : Core) : State := { s with cores := SMap.set {} s.cores n c }
def State.updCore (s : State) (n : Nat) (f : Core → Core) : State := s.setCore n (f (s.core n))

/-- Stool `k` of the block. -/
def State.stool (s : State) (k : Nat) : Stool := SMap.get {} s.stools k
def State.setStool (s : State) (k : Nat) (c : Stool) : State := { s with stools := SMap.set {} s.stools k c }

/-- The PARTID a core runs (04 R76 PARTID). -/
def Core.part (c : Core) : PartId := BitVec.ofNat 6 (c.sysReg 0x8008).toNat

/-- The PARTID that an initiator's control-space accesses carry (02 R33). -/
def State.partOf (s : State) : Initiator → PartId
  | .core n => (s.core n.val).part
  | .stool _ => 0
  | .jtag => 0

/-- A number for each initiator, for captures. -/
def iniCode : Initiator → Nat
  | .core n => n.val
  | .stool k => 192 + k.val
  | .jtag => 226

/-- TIME as a number. -/
def State.time (s : State) : Nat := s.clock.time.toNat

/-! ### Free values -/

/-- Draw a fresh number; free choices are opaque functions of it. -/
def State.draw (s : State) : Nat × State := (s.fresh, { s with fresh := s.fresh + 1 })

/-! ### Domains and reachability -/

/-- The switched domain of a page; none for what is never switched (17 R463). -/
def Page.domain (p : Page) : Option Nat :=
  if p.cab < 4 then
    if 0x10 ≤ p.block ∧ p.block < 0x16 then some (192 + 6 * p.cab + (p.block - 0x10))
    else if 0x40 ≤ p.block then some (48 * p.cab + (p.block - 0x40))
    else some (264 + p.cab)
  else if p.cab < 6 then
    if 0x10 ≤ p.block ∧ p.block < 0x20 then some (216 + 16 * (p.cab - 4) + (p.block - 0x10))
    else if 0x30 ≤ p.block then some (248 + 8 * (p.cab - 4) + (p.block - 0x30))
    else some (264 + p.cab)
  else if p.cab = 6 then
    if p.block = 0x40 then some 279
    else if 0x44 ≤ p.block ∧ p.block < 0x48 then some (280 + (p.block - 0x44))
    else if 0x48 ≤ p.block ∧ p.block < 0x4C then some (284 + (p.block - 0x48))
    else if 0x20 ≤ p.block ∧ p.block < 0x28 then some (288 + (p.block - 0x20))
    else some 270
  else if p.cab = 8 ∧ 0x10 ≤ p.block then some (271 + (p.block - 0x10))
  else none

/-- DSTAT.STATE of a domain: 0 Stop, 1 waking, 2 stopping, 3 Run (17 R489). -/
def State.domState (s : State) (d : Nat) : Nat := s.fld (dstat d) 0 2

/-- Is the domain in Run or not yet fenced (R464, R465)? -/
def State.domUp (s : State) (d : Nat) : Bool := decide (2 ≤ s.domState d)

/-- Are the pages of the domain reachable (02 R32, 17 R465)? -/
def State.pageUp (s : State) (p : Page) : Bool :=
  match p.domain with
  | none => true
  | some d => s.domUp d

/-- Does the block of the page at control-space offset `base` accept new functional work: PG_CTL.EN is 1 and no soft reset is in
progress (02 R29, R31; assumption log 31)? -/
def State.enabled (s : State) (base : Nat) : Bool := s.bit (base + 0xC) 0 && !s.soft.contains (base / 4096)

/-! ### Fires and reports -/

/-- A block fires a source: the fire sets out for the event fabric (12 R327). -/
def State.fire (s : State) (n : Nat) : State := { s with ev := { s.ev with fires := s.ev.fires ++ [.source n] } }

/-- Set a bit at a stool's level directly, whatever the route table holds (18 R499, 17 R473). -/
def State.fireStool (s : State) (k lvl bit : Nat) : State :=
  { s with ev := { s.ev with fires := s.ev.fires ++ [.stool k lvl bit] } }

/-- The page number of the first aggregator to which a page reports (18 R495). -/
def firstAgg (p : Page) : Nat :=
  if p.cab = 8 then pageNo 8 0 0
  else if p.cab < 4 ∧ 0x10 ≤ p.block then
    if p.block < 0x16 then
      if p.kind = .agg then pageNo p.cab 1 0 else pageNo p.cab p.block 5
    else pageNo p.cab (0x10 + (p.block - 0x40) / 8) 5
  else pageNo p.cab 1 0

/-- The aggregator above an aggregator; none above the chip aggregator (18 R495). -/
def aggParent (n : Nat) : Option Nat :=
  let c := n / 4096
  if c = 8 then none
  else if n % 4096 / 16 = 1 then some (pageNo 8 0 0)
  else some (pageNo c 1 0)

/-- What a detection now reports to the page's first aggregator (18 R495). -/
def State.reportOf (s : State) (p : Page) (bit : Nat) (addr : Nat) (part : Option PartId) (inj : Bool) : Report :=
  { dest := firstAgg p, page := pageNo p.cab p.block p.page, bit := bit, cls := errClass p.kind bit, addr := addr,
    time := s.clock.time, part := part, inj := inj }

/-- A report sets out. -/
def State.report (s : State) (r : Report) : State := { s with err := { s.err with reports := s.err.reports ++ [r] } }

/-- The page keeps what its latest detection of a bit reports (02 R30; assumption log 73). -/
def State.see (s : State) (r : Report) : State :=
  { s with err := { s.err with seen := r :: s.err.seen.filter (fun q => !(q.page = r.page && q.bit = r.bit)) } }

/-- A detector finds an error: PG_ERR bit `bit` sets, a corrected error counts in PG_ERRCNT, and the page reports it if
its mask bit is 1 (02 R30, 18 R492, R495); a domain in Stop reports nothing (R496). -/
def State.detect (s : State) (p : Page) (bit : Nat) (addr : Nat) (part : Option PartId) (inj : Bool) : State :=
  let s := s.setBit (p.base + 0x14) bit true
  let s := if errClass p.kind bit = .corrected then s.count16 (p.base + 0x20) else s
  let s := s.see (s.reportOf p bit addr part inj)
  if s.bit (p.base + 0x18) bit && s.pageUp p then s.report (s.reportOf p bit addr part inj) else s

/-- Raise PG_ERR bit `bit` of the page at control-space offset `base`, the page's own address in the report. -/
def State.raise (s : State) (base bit : Nat) (part : Option PartId := none) : State :=
  match pageOf base with
  | none => s
  | some p => s.detect p bit (ctlAddr p.base) part false

/-- The evaluation point of a detector whose injection method is "force": an armed bit sets, reports as injected, and its
arm clears (18 R503). -/
def State.force (s : State) (base bit : Nat) : State :=
  match pageOf base with
  | none => s
  | some p =>
    if s.bit (p.base + 0x1C) bit then
      (s.detect p bit (ctlAddr p.base) none true).setBit (p.base + 0x1C) bit false
    else s

/-- An array, transport or compare injection takes hold of a unit: the arm's altered word is the one with key `key`
(18 R503). -/
def State.taint (s : State) (base bit key : Nat) : State :=
  if s.bit (base + 0x1C) bit && !(s.err.flaws.any (fun f => f.page = base && f.bit = bit)) then
    { s with err := { s.err with flaws := s.err.flaws ++ [⟨base, bit, key⟩] } }
  else s

/-- Is the unit with key `key` altered by an injection of this detector? -/
def State.tainted (s : State) (base bit key : Nat) : Bool :=
  s.err.flaws.any (fun f => f.page = base && f.bit = bit && f.key = key)

/-- The altered unit is checked: the detector reports it as injected, and the arm clears (18 R503, R505). -/
def State.found (s : State) (base bit key : Nat) : State :=
  match pageOf base with
  | none => s
  | some p =>
    let s := s.detect p bit (ctlAddr p.base) none true
    let s := s.setBit (p.base + 0x1C) bit false
    { s with err := { s.err with flaws := s.err.flaws.filter (fun f => !(f.page = base && f.bit = bit && f.key = key)) } }

/-- An injected error shows as bit `bit` of its page. -/
def State.foundAs (s : State) (base bit : Nat) : State :=
  match pageOf base with
  | none => s
  | some p => s.detect p bit (ctlAddr p.base) none true

/-- Check a unit for an injection of this detector. -/
def State.checkUnit (s : State) (base bit key : Nat) : State :=
  if s.tainted base bit key then s.found base bit key else s

/-- A write into an array under ECC whose corrected-class detector is bit `ce` and whose other detector is bit `ue`: a write of a
whole word makes it correct; an arm takes hold of what is written (16 R458; 17 R477; 18 R503). -/
def State.eccWrite (s : State) (base ce ue key : Nat) (whole : Bool) : State :=
  let s := if whole then
      { s with err := { s.err with flaws := s.err.flaws.filter (fun f =>
        !(f.page = base && f.key = key && (f.bit = ce || f.bit = ue || f.bit = ue + 100))) } }
    else s
  (s.taint base ce key).taint base ue key

/-- A read of a word of such an array: whether it cannot be corrected.  A word found so stays so until it is written whole; the mark
is a flaw of bit `ue` + 100. -/
def State.eccRead (s : State) (base ce ue key : Nat) : Bool × State :=
  if s.tainted base ue key then
    let s := s.found base ue key
    (true, { s with err := { s.err with flaws := s.err.flaws ++ [⟨base, ue + 100, key⟩] } })
  else if s.tainted base (ue + 100) key then (true, s.raise base ue)
  else (false, s.checkUnit base ce key)

/-! ### Captures of upper halves (03 R41) -/

/-- The key of an initiator's capture for the register at offset `a`. -/
def capKey (i a : Nat) : Nat := i * 268435456 + a

/-- Capture an upper half for an initiator. -/
def State.capture (s : State) (i a : Nat) (v : W32) : State :=
  { s with clock := { s.clock with caps := SMap.set none s.clock.caps (capKey i a) (some v) } }

/-- Read an upper half: the captured one, once, or else the current one. -/
def State.takeCap (s : State) (i a : Nat) (cur : W32) : W32 × State :=
  match SMap.get none s.clock.caps (capKey i a) with
  | some v => (v, { s with clock := { s.clock with caps := SMap.set none s.clock.caps (capKey i a) none } })
  | none => (cur, s)

/-! ### When the block runs -/

/-- Nothing acts on a command while the device is frozen (18 R508), the chip is in Stop or waking from it (17 R478), or
the device is held in power-on reset (19 R521). -/
def State.stalled (s : State) : Bool := s.err.frozen.isSome || s.power.chip != .run || s.power.inReset

/-- A command's effect, in a block that runs. -/
def act (s : State) (f : State → State) : Out := .next (if s.stalled then s else f s)

end Sys2Proof.Machine
end

