-- ==== Sys2Proof/Machine/Retire.lean ====
section
/-! DEFINITION. What the retirement of an instruction does beside its own effect. -/

namespace Sys2Proof.Machine

/-- Count a retired instruction in RETCNT (06 R180). -/
def State.retired (s : State) (n : Nat) : State :=
  s.setReg64 (corePage n 0x110) (s.reg64 (corePage n 0x110) + 1)

/-- A loop-back (04 R107): where execution continues after an instruction whose next sequential address is `seq`. -/
def Core.loopBack (c : Core) (seq : W64) : Core :=
  if bitOf (c.sysReg 0) 8 && seq == c.sysReg 4 then
    let k := c.sysReg 2 - 1
    if k = 0 then { (c.setSys 2 0).setSys 0 (putBit (c.sysReg 0) 8 false) with pc := seq }
    else { c.setSys 2 k with pc := c.sysReg 3 }
  else { c with pc := seq }

/-- An instruction that retires ends the window of a double fault (04 R105) and the time in which another interrupt may
replace an entry (12 R344). -/
def Core.settled (c : Core) : Core :=
  { c with
    vec := false, entered := none, given := c.given.filter (·.fetch), came := [], ext := c.ext.filter (·.fetch), replay := [], raDone := false, issued := false
    xlWait := none }

/-- A redirect of the front end: the prefetch queue and the wait of a block are given up (06 R153, R160). -/
def Core.redirect (c : Core) : Core :=
  { c with queue := [], fetchWait := none, stuck := false, ext := c.ext.filter (!·.fetch), given := c.given.filter (!·.fetch) }

/-- A core whose own domain is stopping uses up one of the instructions it may still execute (17 R469). -/
def State.useLast (s : State) (n : Nat) : State :=
  if s.domState n = 2 then { s with power := { s.power with selfLeft := s.power.selfLeft - 1 } } else s

end Sys2Proof.Machine
end

