-- ==== Sys2Proof/Machine/Net.lean ====
section
/-! DEFINITION. Regulators, packets in flight, routers, fences, probes and initiator timeouts (03 R56-R62; 10). -/

namespace Sys2Proof.Machine

/-! ### Regulators -/

/-- The meters of a regulator (03 R56). -/
inductive Meter where
  | urg | bulk | bytes
  deriving DecidableEq, Repr

/-- The offset of a meter's active budget, used count, and its EXHCNT flag (03 R62). -/
def Meter.budOff : Meter → Nat
  | .urg => 0x400 | .bulk => 0x500 | .bytes => 0x600
def Meter.usedOff : Meter → Nat
  | .urg => 0x700 | .bulk => 0x800 | .bytes => 0x900
def Meter.flag : Meter → Nat
  | .urg => 16 | .bulk => 17 | .bytes => 18
def Meter.code : Meter → Nat
  | .urg => 0 | .bulk => 1 | .bytes => 2

/-- Is the regulator metered (03 R58)? -/
def State.isMetered (s : State) (rg : Nat) : Bool := s.frame.metered.contains (rg / 16777216)

/-- Budget and used count of a partition's meter. -/
def State.budget (s : State) (rg : Nat) (m : Meter) (p : Nat) : Nat := (s.reg (rg + m.budOff + 4 * p)).toNat
def State.used (s : State) (rg : Nat) (m : Meter) (p : Nat) : Nat := (s.reg (rg + m.usedOff + 4 * p)).toNat

/-- While its regulator is metered, a meter is exhausted when its used count reaches its budget; a budget of 0xFFFF_FFFF
never exhausts (03 R58). -/
def State.exhausted (s : State) (rg : Nat) (m : Meter) (p : Nat) : Bool :=
  s.isMetered rg && decide (s.budget rg m p ≠ 0xFFFFFFFF) && decide (s.budget rg m p ≤ s.used rg m p)

/-- The exhaustion source of a regulator page (12 R326). -/
def rgSource (rg : Nat) : Nat :=
  match pageOf rg with
  | some p =>
    if p.block < 6 then 0x118 + 2 * p.cab + (p.block - 4)
    else if p.cab < 4 then 0x100 + p.inst
    else 0x128 + p.inst
  | none => 0

/-- What a regulator does on an exhaustion (03 R60). -/
def State.exhaust (s : State) (rg : Nat) (m : Meter) (p : Nat) : State :=
  let e := rg + 0x48 + 4 * (p / 32)
  let x := rg + 0xA00 + 4 * p
  let s := if s.bit e (p % 32) then s else s.count16 x
  let s := s.setBit e (p % 32) true
  let s := s.setBit x m.flag true
  (s.raise rg 0).fire (rgSource rg)

/-- Charge a partition's meter; a charge that reaches the budget is an exhaustion (03 R57, R58, R60). -/
def State.charge (s : State) (rg : Nat) (m : Meter) (p n : Nat) : State :=
  let was := s.exhausted rg m p
  let a := rg + m.usedOff + 4 * p
  let t := s.setNat a (min 0xFFFFFFFF ((s.reg a).toNat + n))
  if t.exhausted rg m p && !was then t.exhaust rg m p else t

/-- A regulator holds a request of an exhausted meter; a meter of budget 0 is exhausted by the first one it holds in a
frame (03 R58, R59). -/
def State.holdAt (s : State) (rg : Nat) (m : Meter) (p : Nat) : State :=
  let k := (rg, m.code, p)
  if s.budget rg m p = 0 && !s.frame.zeroSeen.contains k then
    ({ s with frame := { s.frame with zeroSeen := s.frame.zeroSeen ++ [k] } }).exhaust rg m p
  else s

/-! ### Packets -/

/-- The opcodes (10 R271). -/
def opRdSh : BitVec 8 := 0x01
def opRdUn : BitVec 8 := 0x02
def opRdNc : BitVec 8 := 0x03
def opRdCs : BitVec 8 := 0x04
def opWrBk : BitVec 8 := 0x08
def opWrLn : BitVec 8 := 0x09
def opWrPt : BitVec 8 := 0x0A
def opWrCs : BitVec 8 := 0x0B
def opCmo : BitVec 8 := 0x0C
def opEvCl : BitVec 8 := 0x10
def opSnp : BitVec 8 := 0x11
def opRcl : BitVec 8 := 0x12
def opTlbi : BitVec 8 := 0x13
def opLog : BitVec 8 := 0x18
def opCrd : BitVec 8 := 0x19
def opTrc : BitVec 8 := 0x1A
def opData : BitVec 8 := 0x20
def opDataS : BitVec 8 := 0x21
def opAck : BitVec 8 := 0x22
def opSnpAck : BitVec 8 := 0x23
def opSnpData : BitVec 8 := 0x24
def opTlbiAck : BitVec 8 := 0x25

/-- Is the opcode listed in R271? -/
def opListed (o : BitVec 8) : Bool :=
  [opRdSh, opRdUn, opRdNc, opRdCs, opWrBk, opWrLn, opWrPt, opWrCs, opCmo, opEvCl, opSnp, opRcl, opTlbi, opLog, opCrd, opTrc,
   opData, opDataS, opAck, opSnpAck, opSnpData, opTlbiAck].contains o

/-- The flits of a packet (10 R271): two where a line travels. -/
def pktFlits (p : Packet) : Nat :=
  if [opWrBk, opWrLn, opLog, opTrc, opData, opSnpData].contains p.op then 2 else 1

/-- Is this a response (10 R271)? -/
def isResponse (p : Packet) : Bool := 0x20 ≤ p.op.toNat

/-- Does the PARTID use the urgent channel at router `r` (10 R273, active URGP)? -/
def State.urgent (s : State) (r : Nat) (p : PartId) : Bool :=
  s.bit (routerPage r (0x70 + 4 * (p.toNat / 32))) (p.toNat % 32)

/-- The channel of a packet injected at router `r` (10 R273).  A DATA, DATA_S or ACK keeps the channel it was given, which
matches its request. -/
def State.channel (s : State) (r : Nat) (p : Packet) : Fin 4 :=
  if p.op = opLog ∨ p.op = opCrd then 3
  else if p.op = opTrc then 0
  else if p.op = opEvCl ∨ p.op = opSnp ∨ p.op = opRcl ∨ p.op = opTlbi then 2
  else if p.op = opSnpAck ∨ p.op = opSnpData ∨ p.op = opTlbiAck then 1
  else if p.op = opData ∨ p.op = opDataS ∨ p.op = opAck then p.vc
  else if s.urgent r p.part then 3 else 0

/-- The channel of the response to a request (10 R273). -/
def replyVc (p : Packet) : Fin 4 := if p.vc = 3 then 3 else 1

/-- EPOCH of a router. -/
def State.epoch (s : State) (r : Nat) : Bool := s.bit (routerPage r 0x44) 0

/-- The regulator that a packet meets at the router where it is injected: the bench's (03 R56); coherence packets meet none. -/
def injectRg (r : Nat) (p : Packet) : Option Nat :=
  if routerKind r = .bench ∧ p.src.toNat = r ∧ p.vc ≠ 2 then some (benchPage (6 * (r / 8) + r % 8) 4 0) else none

/-- The output port of a packet at a router: DSTP at its destination, else the route entry of the bank of its EPOCH (10
R277). -/
def State.outPort (s : State) (r : Nat) (p : Packet) : Nat :=
  if p.dst.toNat = r then p.dstp.val
  else
    let e := s.reg (routerPage r ((if p.epoch then 0x500 else 0x300) + 4 * p.dst.toNat))
    if p.vc = 3 then fieldOf e 4 4 else fieldOf e 0 4

/-- The router to which router `r` sends a packet that is not for itself. -/
def State.nextRouter (s : State) (r : Nat) (p : Packet) : Option Nat :=
  if p.dst.toNat = r then none else neighbour r (s.outPort r p)

/-- Does a link between two routers pass a crossing: does it join a gateway and the spine (10 R282)? -/
def crosses (r q : Nat) : Bool := decide (74 ≤ r) != decide (74 ≤ q)

/-- The regulator that a packet meets at a gateway from which it leaves for the spine (03 R56). -/
def State.spineRg (s : State) (r : Nat) (p : Packet) : Option Nat :=
  match s.nextRouter r p with
  | some q => if 74 ≤ q ∧ r < 74 ∧ p.vc ≠ 2 then some (routerPage r 0 + 0x2000) else none
  | none => none

/-- The regulator that decides on a packet at router `r` before the router switches it. -/
def State.gateRg (s : State) (r : Nat) (p : Packet) : Option Nat := (injectRg r p).or (s.spineRg r p)

/-- A packet as a router's local port injects it (10 R273). -/
def State.stamp (s : State) (r port : Nat) (p : Packet) : Packet :=
  { p with src := BitVec.ofNat 7 r, srcp := Fin.ofNat 8 port, vc := s.channel r p, hops := 0, epoch := s.epoch r }

/-- Inject a packet at a router's local port (10 R273). -/
def State.send (s : State) (r port : Nat) (p : Packet) : State :=
  let p := s.stamp r port p
  { s with net := { s.net with flights := s.net.flights ++ [⟨p, r, port, s.gateRg r p, false, false⟩] } }

/-- Send a request: it takes the next tag and waits for its response (10 R270, R285).  TOUT is forced at the next request
of an attached initiator (18 R504). -/
def State.request (s : State) (r port : Nat) (p : Packet) : State :=
  let s := s.force (routerPage r 0) 0
  let p := { p with tag := s.net.tag, src := BitVec.ofNat 7 r, srcp := Fin.ofNat 8 port, vc := s.channel r p }
  let s := { s with net := { s.net with tag := s.net.tag + 1, outs := s.net.outs ++ [p] } }
  s.send r port p

/-- Send the response to a request back where it came from (10 R271). -/
def State.respond (s : State) (q : Packet) (op : BitVec 8) (inl : BitVec 256) (line : BitVec 512) (poison : Bool) : State :=
  s.send q.dst.toNat q.dstp.val
    { op := op, vc := (replyVc q), part := q.part, dst := q.src, dstp := q.srcp, tag := q.tag, addr := q.addr, size := q.size,
      inl := inl, line := line, poison := poison }

/-- A packet leaves the fabric where it arrives. -/
def State.arrive (s : State) (p : Packet) : State :=
  match s.net.flights.findIdx? (fun f => f.pkt = p) with
  | some j => { s with net := { s.net with flights := s.net.flights.eraseIdx j } }
  | none => s

/-- The buffers of an input port (10 R275): requests, responses and coherence packets, and on the urgent channel requests and responses
apart. -/
def bufferOf (p : Packet) : Nat := if p.vc = 3 then (if isResponse p then 4 else 3) else p.vc.val

/-- Do two packets in flight stand in one buffer of one port? -/
def sameBuffer (f g : Flight) : Bool := f.rtr = g.rtr && f.port = g.port && f.out == g.out && bufferOf f.pkt = bufferOf g.pkt

/-- Is flight `j` the first of its buffer, but for packets at a regulator (10 R276; 03 R59; assumption log 77)? -/
def State.firstOf (s : State) (j : Nat) (f : Flight) : Bool :=
  !(s.net.flights.take j).any (fun g => g.wait.isNone && sameBuffer g f)

/-- Is the packet still on its way: it is in flight, and has not left its last router, or a regulator decides on it, or others of
its channel stand before it (10 R276)?  A packet that no flight holds comes from outside the model (assumption log 77). -/
def State.atGate (s : State) (p : Packet) : Bool :=
  match s.net.flights.findIdx? (fun f => f.pkt = p) with
  | none => false
  | some j =>
    match s.net.flights[j]? with
    | none => false
    | some f => !f.out || f.wait.isSome || !s.firstOf j f

/-- What an arriving packet does, once it has arrived. -/
def State.landed (s : State) (p : Packet) (f : State → State) : State := if s.atGate p then s else f (s.arrive p)

/-- The request that a response answers: same tag, and from where the response arrives. -/
def answers (p q : Packet) : Bool := q.tag = p.tag && q.src = p.dst && q.srcp = p.dstp

/-- The request that a response answers, taken off the list of outstanding ones. -/
def State.answered (s : State) (p : Packet) : Option (Packet × State) :=
  match s.net.outs.findIdx? (fun q => answers p q) with
  | some j =>
    match s.net.outs[j]? with
    | some q => some (q, { s with net := { s.net with outs := s.net.outs.eraseIdx j } })
    | none => none
  | none => none

/-- A response that arrives after its request has timed out is discarded and counted (10 R288). -/
def State.lateResponse (s : State) (p : Packet) : State := s.count (routerPage p.dst.toNat 0x58)

/-- Record a timeout of an initiator at a router's local port (10 R287). -/
def State.timeoutAt (s : State) (r port addr : Nat) (part : PartId) : State :=
  let s := s.count (routerPage r 0x4C)
  let s := s.setNat (routerPage r 0x50) addr
  let s := s.setNat (routerPage r 0x54) (addr / 4294967296 % 1024 + 65536 * port + 16777216 * part.toNat)
  s.raise (routerPage r 0) 0 (some part)

/-! ### Grants -/

/-- The meter that counts a packet (03 R56). -/
def pktMeter (p : Packet) : Meter := if p.vc = 3 then .urg else .bulk

/-- Is the packet held while its meter is exhausted: an urgent or request-channel packet, and at a memory controller a read or write
that is not a write-back from the SLC; the write-back of a slice's engine, which INLINE marks, is held (03 R59; 08 R239; assumption log
15)? -/
def holdable (m : Meter) (p : Packet) : Bool := (p.vc = 3 || p.vc = 0) && !(m = .bytes && p.op = opWrBk && p.inl = 0)

/-- Replace flight `j`. -/
def State.setFlight (s : State) (j : Nat) (f : Flight) : State :=
  { s with net := { s.net with flights := listSet s.net.flights j f } }

/-- Is it the regulator of a memory controller, which counts bytes (03 R56)? -/
def isByteRg (rg : Nat) : Bool :=
  match pageOf rg with
  | some p => decide (p.cab = 4 ∨ p.cab = 5) && decide (0x30 ≤ p.block)
  | none => false

/-- The regulator that a packet meets as it leaves for a local port: a memory controller's (03 R56, 10 R266). -/
def portRg (r port : Nat) : Option Nat :=
  if 32 ≤ r ∧ r < 68 ∧ (r - 32) % 18 < 16 ∧ port = 1 then some (mcPage (8 * ((r - 32) / 18) + (r - 32) % 18 / 2) 2 0) else none

/-- Would flight `j` overtake at its regulator: does an earlier packet of its channel wait there that the regulator does not hold, or
one of the same partition (10 R276; 03 R59)? -/
def State.overtakes (s : State) (j : Nat) (f : Flight) : Bool :=
  (s.net.flights.take j).any (fun g => g.wait = f.wait && bufferOf g.pkt = bufferOf f.pkt && (!g.held || g.pkt.part = f.pkt.part))

/-- A regulator decides on the packet of flight `j`: it grants and charges it, or holds it (03 R57, R59).  A bench's
regulator stamps EPOCH and HOPS (10 R273). -/
def State.grant (s : State) (j : Nat) : State :=
  match s.net.flights[j]? with
  | some f =>
    match f.wait with
    | some rg =>
      let p := f.pkt.part.toNat
      let m := if isByteRg rg then Meter.bytes else (pktMeter f.pkt)
      if s.overtakes j f then s
      else if s.exhausted rg m p && (holdable m f.pkt) then (s.setFlight j { f with held := true }).holdAt rg m p
      else
        let s := s.force rg 0
        let k := if routerKind f.rtr = .bench then { f.pkt with epoch := s.epoch f.rtr, hops := 0 } else f.pkt
        (s.setFlight j { f with wait := none, held := false, pkt := k }).charge rg m p (if isByteRg rg then 64 else pktFlits f.pkt)
    | none => s
  | none => s

/-- REGULATOR_GRANT (03 R57). -/
def execRegulatorGrant (j : Nat) (s : State) : Out := act s (fun s => s.grant j)

/-- Release what a regulator holds, in arrival order (03 R61 step 4). -/
def State.release (s : State) (rg : Nat) : State :=
  (List.range s.net.flights.length).foldl
    (fun s j =>
      match s.net.flights[j]? with
      | some f => if f.held && f.wait = some rg then s.grant j else s
      | none => s)
    s

/-! ### Fences and routers -/

/-- The switched domains behind a local port of a router, where they are not the router's own (10 R267, R283; 17 R463). -/
def endpointDomains (r port : Nat) : List Nat :=
  if 32 ≤ r ∧ r < 68 then
    let k := (r - 32) / 18
    let j := (r - 32) % 18
    if j < 16 ∧ port = 1 then [248 + 8 * k + j / 2] else []
  else if r = 68 then (if port = 0 then [279] else [])
  else if r = 69 then (if port < 4 then [280 + port] else [])
  else if r = 70 then
    (if port = 0 then [284, 285, 286, 287] else if port = 1 then [288, 289, 290, 291] else if port = 2 then [292, 293, 294, 295] else [])
  else []

/-- The domain of a router. -/
def routerDomain (r : Nat) : Option Nat :=
  match pageOf (routerPage r 0) with
  | some p => p.domain
  | none => none

/-- Is the way on closed by a fence: no domain beyond it is up (10 R283)?  The Parraha ports share a local port of a router, and so do
four engines each: a packet that enters there finds its way while one of them is up (assumption log 79). -/
def State.fenced (s : State) (ds : List Nat) : Bool := !ds.isEmpty && ds.all (fun d => !s.domUp d)

/-- A closed fence of a port of router `r` discards a packet (10 R283); it answers a TLBI for the domain. -/
def State.fenceDrop (s : State) (r : Nat) (p : Packet) : State :=
  let s := (s.count (routerPage r 0x5C)).raise (routerPage r 0) 1
  if p.op = opTlbi then
    s.send r 0 { op := opTlbiAck, part := p.part, dst := p.src, dstp := p.srcp, tag := p.tag, addr := p.addr, inl := p.inl }
  else s

/-- The router that owns the port at which a domain's fence stands, for what reaches the domain over the control network: the one
through which the domain joins the fabric (02 R32; 10 R283; assumption log 79). -/
def fenceRouter (d : Nat) : Nat :=
  if d < 192 then 8 * (d / 48) + d % 48 / 8
  else if d < 216 then 8 * ((d - 192) / 6) + 6
  else if d < 248 then 48 + 18 * ((d - 216) / 16)
  else if d < 264 then 32 + 18 * ((d - 248) / 8) + 2 * ((d - 248) % 8)
  else if d < 268 then 74 + 2 * (d - 264) % 8
  else if d < 270 then 74 + (d - 268)
  else if d = 270 then 75
  else if d < 279 then 74 + (d - 271 + 1) % 8
  else if d = 279 then 68
  else if d < 284 then 69
  else 70

/-- A closed fence discards and counts a control-space access to a page of its domain (02 R32). -/
def State.fenceCtl (s : State) (a : Nat) : State :=
  match (pageOf a).bind Page.domain with
  | none => s
  | some d =>
    let r := fenceRouter d
    if s.domUp d || s.fenced (routerDomain r).toList then s else (s.count (routerPage r 0x5C)).raise (routerPage r 0) 1

/-- A router discards a packet (10 R276). -/
def State.hopDrop (s : State) (r : Nat) : State := (s.count (routerPage r 0x60)).raise (routerPage r 0) 2

/-- Does filter `k` of the router's probe match the packet (10 R291)? -/
def State.filterHit (s : State) (r k : Nat) (p : Packet) : Bool :=
  let b := probePage r (0x60 + 0x20 * k)
  let fits := fun (a x : Nat) (w : Nat) =>
    let v := s.reg (b + a)
    decide ((fieldOf v 0 w ^^^ x) &&& fieldOf v 8 w = 0)
  s.bit b 0 && s.bit b (4 + p.vc.val) && fits 4 p.src.toNat 7 && fits 8 p.dst.toNat 7 && fits 12 p.op.toNat 8
    && fits 16 p.part.toNat 6

/-- The trace record of a header (10 R292). -/
def traceRecord (r : Nat) (p : Packet) (hits : Nat) (time : Nat) : W128 :=
  BitVec.ofNat 8 p.op.toNat ++ p.part ++ BitVec.ofNat 2 p.vc.val ++ BitVec.ofNat 1 (b2n p.epoch) ++ BitVec.ofNat 7 r
    ++ p.src ++ p.dst ++ p.addr ++ BitVec.ofNat 4 hits ++ BitVec.ofNat 4 p.hops.val ++ BitVec.ofNat 40 time

/-- Four trace records as a line, the first lowest. -/
def traceLine (l : List W128) : BitVec 512 :=
  l.foldr (fun x acc => (acc <<< 128) ||| BitVec.setWidth 512 x) 0

/-- The router number of the slice router of slice `k` (10 R266). -/
def sliceRouter (k : Nat) : Nat := 32 + 18 * (k / 16) + k % 16

/-- A probe puts a record into its trace buffer of two lines; a full line leaves as a TRC packet (10 R292, R293).  TLOST is
forced at the next trace record (18 R504). -/
def State.traceRec (s : State) (r : Nat) (x : W128) : State :=
  let s := s.force (probePage r 0) 0
  let cur := SMap.get [] s.net.trace r
  let lines := (s.net.flights.filter (fun f => f.pkt.op = opTrc && f.rtr = r && f.wait.isSome && f.pkt.src = BitVec.ofNat 7 r)).length
  if 8 ≤ cur.length + 4 * lines then (s.count (probePage r 0x48)).raise (probePage r 0) 0
  else
    let cur := cur ++ [x]
    if cur.length < 4 then { s with net := { s.net with trace := SMap.set [] s.net.trace r cur } }
    else
      let s := { s with net := { s.net with trace := SMap.set [] s.net.trace r [] } }
      let k := s.fld (probePage r 0x44) 0 5
      let d := if s.bit (probePage r 0x40) 1 then (71, 1) else (sliceRouter k, 0)
      s.send r 0 { op := opTrc, dst := BitVec.ofNat 7 d.1, dstp := Fin.ofNat 8 d.2, line := traceLine cur }

/-- A probe sees the header of a packet that its router switches (10 R291, R292). -/
def State.probe (s : State) (r : Nat) (p : Packet) : State :=
  let hits := (List.range 4).filter (fun k => s.filterHit r k p)
  let s := hits.foldl (fun s k => s.count (probePage r (0x74 + 0x20 * k)) (if s.bit (probePage r (0x60 + 0x20 * k)) 1 then (pktFlits p) else 1)) s
  if hits.any (fun k => s.bit (probePage r (0x60 + 0x20 * k)) 2) then
    s.traceRec r (traceRecord r p (hits.foldl (fun a k => a + 2 ^ k) 0) s.time)
  else s

/-- What a router finds in the flits of a packet, by injection or by itself: the packet, none where its header is lost, and the state after
(10 R272; 18 R504). -/
def State.linkCheck (s : State) (r : Nat) (p : Packet) (e : FlitError) : Option Packet × State :=
  let b := routerPage r 0
  let s := if e = .corrected then s.raise b 3 else s.force b 3
  if e = .header then (none, s)
  else if pktFlits p = 2 && (e = .second || s.bit (b + 0x1C) 4) then
    (some { p with poison := true }, if e = .second then s.raise b 4 else s.force b 4)
  else (some p, s)

/-- Does the domain begin to stop: its fence lets no new request or coherence packet in, and is not closed (10 R283)? -/
def State.closing (s : State) (ds : List Nat) : Bool := !ds.isEmpty && ds.all (fun d => s.domState d ≠ 3)

/-- The domains into which a router passes a packet, where a fence stands between. -/
def State.intoDomains (s : State) (r : Nat) (p : Packet) : List Nat :=
  if p.dst.toNat = r then endpointDomains r p.dstp.val
  else
    match s.nextRouter r p with
    | some q => if routerDomain q = routerDomain r then [] else (routerDomain q).toList
    | none => []

/-- The port of router `q` on which the link from router `r` ends. -/
def entryPort (r q : Nat) : Nat := ((List.range 8).find? (fun i => neighbour q i = some r)).getD 0

/-- Flits that a buffer of router `q` on the link from router `r` holds, its crossing's FIFO with it (10 R275, R282). -/
def bufferSize (r q : Nat) : Nat := (if 74 ≤ q then 8 else 4) + (if crosses r q then 16 else 0)

/-- Flits that stand in a buffer. -/
def State.inBuffer (s : State) (q port buf : Nat) : Nat :=
  s.net.flights.foldl (fun n f => if f.rtr = q && f.port = port && !f.out && bufferOf f.pkt = buf then n + pktFlits f.pkt else n) 0

/-- Does the crossing on a link hold its flits: is the clock of its compute cabinet being moved (10 R282; 17 R483)? -/
def State.crossingHeld (s : State) (r q : Nat) : Bool :=
  crosses r q &&
    (match SMap.get none s.power.dvfs (routerCabinet (min r q)) with
      | some (.clock _) => true
      | _ => false)

/-- Is the packet of a flight at router `r` ready to go where it goes: the fence lets it in, the buffer beyond has room for it, no crossing
holds it; at a local port no other request waits (10 R275, R282, R283; assumption log 78)? -/
def State.ready (s : State) (r : Nat) (f : Flight) : Bool :=
  let p := f.pkt
  let came := match neighbour r f.port with
    | some q => s.crossingHeld q r
    | none => false
  !came && (isResponse p || !s.closing (s.intoDomains r p)) &&
    (match s.nextRouter r p with
      | some q => !s.crossingHeld r q && decide (s.inBuffer q (entryPort r q) (bufferOf p) + pktFlits p ≤ bufferSize r q)
      | none => isResponse p || !s.net.flights.any (fun g => g.rtr = r && g.out && g.wait.isNone && g.port = p.dstp.val
          && bufferOf g.pkt = bufferOf p))

/-- The rotation of an output port: response, coherence and request (10 R274). -/
def rotation : List Nat := [1, 2, 0, 1, 2, 0, 1, 0]

/-- Which channel's header an output port sends next, where `want` tells which have one ready: urgent first, else the next in the rotation; second
flits of packets under way take slots of their own (10 R274).  The slot after it, and the second flits then still to send. -/
def arbitrate (want : Nat → Bool) : Nat → Nat → List Nat → Option (Nat × Nat × List Nat)
  | 0, _, _ => none
  | fuel + 1, slot, bodies =>
    if want 3 then some (3, slot, bodies)
    else
      match ((List.range 8).map (fun k => rotation.getD ((slot + k) % 8) 0)).find? (fun c => bodies.contains c || want c) with
      | none => none
      | some c =>
        if bodies.contains c then arbitrate want fuel ((slot + 1) % 8) (bodies.erase c) else some (c, (slot + 1) % 8, bodies)

/-- The flights that stand ready at router `r` for output port `o`, with their indices. -/
def State.rivals (s : State) (r o : Nat) : List (Nat × Flight) :=
  (s.net.flights.zipIdx.map (fun x => (x.2, x.1))).filter
    (fun x => x.2.rtr = r && !x.2.out && x.2.wait.isNone && s.outPort r x.2.pkt = o && s.firstOf x.1 x.2 && s.ready r x.2)

/-- Of the packets of one channel, the one that the round-robin over input ports takes, the port last served being `last`. -/
def roundRobin (last : Nat) (l : List (Nat × Flight)) : Option (Nat × Flight) :=
  l.foldl
    (fun (b : Option (Nat × Flight)) x =>
      match b with
      | none => some x
      | some y => if (x.2.port + 7 - last) % 8 < (y.2.port + 7 - last) % 8 then some x else some y)
    none

/-- The arbiter of output port `o` of router `r`. -/
def State.arbiter (s : State) (r o : Nat) : Arbiter := SMap.get {} s.net.arb (8 * r + o)

/-- Which flight output port `o` of router `r` sends next, and its arbiter after (10 R274). -/
def State.chosen (s : State) (r o : Nat) : Option (Nat × Arbiter) :=
  let l := s.rivals r o
  let a := s.arbiter r o
  let on := fun c => l.filter (fun x => x.2.pkt.vc.val = c)
  match arbitrate (fun c => !(on c).isEmpty) 4 a.slot a.bodies with
  | none => none
  | some (c, slot, bodies) =>
    match roundRobin (SMap.get 7 a.last c) (on c) with
    | none => none
    | some (j, f) =>
      some (j, { slot := slot, bodies := if pktFlits f.pkt = 2 && c ≠ 3 then bodies ++ [c] else bodies, last := SMap.set 7 a.last c f.port })

/-- Take flight `j` out and put it at the end, as `f`. -/
def State.moveFlight (s : State) (j : Nat) (f : Flight) : State :=
  { s with net := { s.net with flights := s.net.flights.eraseIdx j ++ [f] } }

/-- A router discards the packet of flight `j`. -/
def State.dropFlight (s : State) (j : Nat) : State := { s with net := { s.net with flights := s.net.flights.eraseIdx j } }

/-- Must router `r` discard the packet: its opcode is not listed, it has made 15 hops, or no link leads on (10 R276)? -/
def State.strayed (s : State) (r : Nat) (p : Packet) : Bool :=
  !opListed p.op || (p.dst.toNat ≠ r && (p.hops = 15 || (s.nextRouter r p).isNone))

/-- The packet of flight `j` leaves router `r`: by its local port, or to the next router, where a regulator may decide on it. -/
def State.passOn (s : State) (r j : Nat) (f : Flight) : State :=
  let p := f.pkt
  match s.nextRouter r p with
  | none => s.moveFlight j { f with rtr := r, port := p.dstp.val, out := true, wait := portRg r p.dstp.val }
  | some q =>
    let p := { p with hops := p.hops + 1 }
    s.moveFlight j { f with pkt := p, rtr := q, port := entryPort r q, wait := s.gateRg q p }

/-- A router switches the packet of flight `j`, the first of its buffer (10 R272, R274, R276, R277, R283). -/
def State.switch (s : State) (r j : Nat) (f : Flight) (e : FlitError) : State :=
  let gone := s.strayed r f.pkt || s.fenced (s.intoDomains r f.pkt)
  match if gone then some (j, s.arbiter r (s.outPort r f.pkt)) else s.chosen r (s.outPort r f.pkt) with
  | none => s
  | some (i, a) =>
    if i ≠ j then s
    else
      let s := s.force (routerPage r 0) 1
      let s := s.force (routerPage r 0) 2
      let lc := s.linkCheck r f.pkt e
      let s := lc.2
      match lc.1 with
      | none => (s.dropFlight j).hopDrop r
      | some p =>
        if !opListed p.op then (s.dropFlight j).hopDrop r
        else
          let s := s.probe r p
          if s.strayed r p then (s.dropFlight j).hopDrop r
          else if s.fenced (s.intoDomains r p) then (s.dropFlight j).fenceDrop r p
          else
            let s := { s with net := { s.net with arb := SMap.set {} s.net.arb (8 * r + s.outPort r p) a } }
            s.passOn r j { f with pkt := p }

/-- PACKET_SWITCH: router `r` switches the packet, which stands first in a buffer of an input and is the one that its output port takes; `e` is
what the router finds in its flits (10 R272-R277). -/
def packetSwitch (r : Nat) (k : Packet) (e : FlitError) (s : State) : State :=
  if !s.enabled (routerPage r 0) then s else
  match s.net.flights.findIdx? (fun f => f.pkt = k && f.rtr = r && f.wait.isNone && !f.out) with
  | some j =>
    match s.net.flights[j]? with
    | some f => if s.firstOf j f then s.switch r j f e else s
    | none => s
  | none => s

/-- OLD: the flits of the old epoch at a router, on its links and in its crossings (10 R279).  A packet that its bench's regulator has
not granted carries no EPOCH yet (R273). -/
def State.oldFlits (s : State) (r : Nat) : Nat :=
  s.net.flights.foldl
    (fun n f =>
      if f.rtr = r && !f.out && f.pkt.epoch != s.epoch r && !(f.wait.isSome && routerKind r = .bench) then n + (pktFlits f.pkt) else n) 0

/-- DRAIN_CLEAR: DRAIN clears when OLD has reached 0 (10 R279). -/
def execDrainClear (r : Fin 82) (s : State) : Out :=
  act s (fun s => if s.oldFlits r.val = 0 then s.setBit (routerPage r.val 0x44) 1 false else s)

/-- The commit of a router's route-table bank (10 R278). -/
def State.commitRouter (s : State) (r : Nat) : State :=
  let e := s.epoch r
  let bank := if e then 0x300 else 0x500
  let s := (List.range 82).foldl
    (fun s d => s.setReg (routerPage r (bank + 4 * d)) (s.reg (routerPage r (0x100 + 4 * d)))) s
  let s := (s.setReg (routerPage r 0x70) (s.reg (routerPage r 0x68))).setReg (routerPage r 0x74) (s.reg (routerPage r 0x6C))
  let s := s.setBit (routerPage r 0x44) 0 (!e)
  if s.oldFlits r = 0 then s else s.setBit (routerPage r 0x44) 1 true

/-- Is this entry of RTE_SH of router `r` one that the commit check accepts (10 R280)? -/
def routeOk (r d : Nat) (v : W32) : Bool :=
  if d = r then fieldOf v 0 8 = 0xFF
  else (neighbour r (fieldOf v 0 4)).isSome && (neighbour r (fieldOf v 4 4)).isSome

/-- The commit check of a router's bank (10 R280). -/
def State.routerBankOk (s : State) (r : Nat) : Bool :=
  !s.bit (routerPage r 0x44) 1 && (List.range 82).all (fun d => routeOk r d (s.reg (routerPage r (0x100 + 4 * d))))

/-- The destination router and port of a physical address (10 R269); none where the address is unmapped or is DRAM, whose
home slice the caller gives. -/
def ioDest (a : Nat) : Option (Nat × Nat) :=
  if 0x10000000000 ≤ a ∧ a < 0x20000000000 then some (69, a / 0x4000000000 % 4)
  else if 0x20000000000 ≤ a ∧ a < 0x30000000000 then some (70, 0)
  else if 0x3E000000000 ≤ a ∧ a < 0x3E002000000 then some (71, 0)
  else if 0x3FFF0000000 ≤ a ∧ a < 0x3FFF0040000 then some (71, 0)
  else if 0x3F000000000 ≤ a ∧ a < 0x3F010000000 then
    let c := a / 0x1000000 % 16
    let g := a / 0x10000 % 2
    if c ≤ 6 then some (gatewayRouter c g, 0) else if c ≤ 8 then some (gatewayRouter 6 g, 0) else none
  else none

end Sys2Proof.Machine
end

