-- ==== Sys2Proof/Machine/Bunk.lean ====
section
/-! DEFINITION. Bunk pairs: binding, the log, signatures and comparisons (09 R247-R265). -/

namespace Sys2Proof.Machine

/-- Rewrite the bunk record of core `n`. -/
def State.updBunk (s : State) (n : Nat) (f : Bunk → Bunk) : State := s.updCore n (fun c => { c with bunk := f c.bunk })

/-- The initial value of a signature (09 R258). -/
def sigInit : W64 := BitVec.allOnes 64

/-- One bit step of the signature's CRC. -/
def crcBit (s : W64) : W64 := if s.msb then (s <<< 1) ^^^ 0x42F0E1EBA9EA3693 else s <<< 1

/-- One byte enters a signature (09 R258). -/
def crcByte (s : W64) (b : Byte) : W64 :=
  let s := s ^^^ (BitVec.setWidth 64 b <<< 56)
  crcBit (crcBit (crcBit (crcBit (crcBit (crcBit (crcBit (crcBit s)))))))

/-- Bytes enter a signature in order. -/
def crcBytes (s : W64) (l : List Byte) : W64 := l.foldl crcByte s

/-- The signature entry of a store: address, log2 of the size, data (09 R258). -/
def storeSig (s : W64) (va : W64) (data : List Byte) : W64 :=
  crcBytes s (leBytes 8 va.toNat ++ [BitVec.ofNat 8 (Nat.log2 data.length)] ++ data)

/-! ### The primary's log -/

/-- The LOG packet of a line: it goes to the shadow's bench; ADDR names the shadow, TAG the primary (assumption log 9). -/
def logPacket (n : Nat) (part : PartId) (q : Nat) (l : LogLine) : Packet :=
  let used := l.slots.length
  let head := 65536 * l.seq.toNat + (if l.snap then 2048 else 0) + 256 * used + l.ctl.toNat
  { op := opLog, part := part, dst := BitVec.ofNat 7 (8 * (q / 48) + q % 48 / 8), dstp := 0, tag := BitVec.ofNat 16 n,
    addr := BitVec.ofNat 42 q,
    line := BitVec.ofNat 512 (head + (l.slots.foldr (fun w a => w.toNat + 18446744073709551616 * a) 0) * 18446744073709551616) }

/-- The log line that a LOG packet carries. -/
def logLineOf (k : Packet) : LogLine :=
  let h := k.line.toNat
  { seq := BitVec.ofNat 16 (natField h 16 16), snap := h.testBit 11, ctl := BitVec.ofNat 7 h,
    slots := (List.range (natField h 8 3)).map (fun i => BitVec.ofNat 64 (natField h (64 * (i + 1)) 64)) }

/-- The router of a core's bench. -/
def benchRouter (n : Nat) : Nat := 8 * (n / 48) + n % 48 / 8

/-- The lines that the log of a pair holds (09 R251). -/
def logSize : Nat := 512

/-- The way of a bench's L2 in which the logs of its shadows lie: the lowest of the active RSVMASK (09 R251; 08 R225). -/
def State.logWay (s : State) (b : Nat) : Option Nat := firstWhere 16 (fun w => s.bit (benchPage b 0 0x74) w)

/-- The set of that way in which the line of a sequence number of shadow `q` lies: the sets 512 c to 512 c + 511 of cell c are a ring (09
R251). -/
def logSet (q : Nat) (seq : W16) : Nat := logSize * (q % 8) + seq.toNat % logSize

/-- Lines set out for the shadow's bench while the ring has a free place (09 R251, R254). -/
def State.drainLog (s : State) (n : Nat) : List LogLine → State
  | [] => s.updBunk n (fun b => { b with out := [] })
  | l :: rest =>
    let c := s.core n
    if logSize ≤ c.bunk.unread then s.updBunk n (fun b => { b with out := l :: rest })
    else ((s.send (benchRouter n) 0 (logPacket n c.part c.bunk.partner l)).updBunk n
      (fun b => { b with unread := b.unread + 1 })).drainLog n rest

/-- The primary sends a line on its way (09 R254). -/
def State.sendLine (s : State) (n : Nat) (l : LogLine) : State :=
  (s.updBunk n (fun b => { b with seq := b.seq + 1 })).drainLog n ((s.core n).bunk.out ++ [l])

/-- A primary stops sending: it discards its lines unsent, those that its bench's regulator has not granted with them (09 R263, R264). -/
def State.muteLog (s : State) (p : Nat) (broken : Bool) : State :=
  let s := { s with net := { s.net with flights := s.net.flights.filter (fun f =>
    !(f.pkt.op = opLog && f.pkt.tag = BitVec.ofNat 16 p && f.wait.isSome && f.rtr = benchRouter p)) } }
  s.updBunk p (fun q => { q with mute := true, broken := q.broken || broken, cur := [], curCtl := 0, out := [] })

/-- Send the open line, if it holds a record (09 R252). -/
def State.flushLog (s : State) (n : Nat) : State :=
  let b := (s.core n).bunk
  if b.cur.isEmpty then s
  else
    (s.sendLine n ⟨b.seq, false, b.curCtl, b.cur⟩).updBunk n (fun b => { b with cur := [], curCtl := 0 })

/-- Append slots to the open line. -/
def Bunk.append (b : Bunk) (ctl : Bool) (slots : List W64) : Bunk :=
  { b with cur := b.cur ++ slots, curCtl := if ctl then putBit b.curCtl b.cur.length true else b.curCtl }

/-- The primary writes a record (09 R252, R253). -/
def State.logRec (s : State) (n : Nat) (ctl : Bool) (slots : List W64) : State :=
  let b := (s.core n).bunk
  if !b.bound || b.shadow || b.mute then s
  else
    let s := if 7 < b.cur.length + slots.length then s.flushLog n else s
    let s := s.updBunk n (fun b => b.append ctl slots)
    if (s.core n).bunk.cur.length = 7 then s.flushLog n else s

/-- The first slot of a control record (09 R253): TYPE, BRPOS[31:0] and further fields. -/
def ctlSlot (type : Nat) (brpos : W64) (more : Nat) : W64 :=
  BitVec.ofNat 64 (type * 1152921504606846976 + brpos.toNat % 4294967296 + more)

/-- A record that carries the primary's signatures, which then return to the initial value (09 R259). -/
def State.logSigs (s : State) (n : Nat) (type more : Nat) : State :=
  let b := (s.core n).bunk
  if !b.bound || b.shadow then s
  else (s.logRec n true [ctlSlot type b.brpos more, b.ssig, b.bsig]).updBunk n (fun b => { b with ssig := sigInit, bsig := sigInit })

/-- The lag of a pair: the primary's BRPOS minus the shadow's (09 R260). -/
def State.lag (s : State) (n : Nat) : Nat :=
  let b := (s.core n).bunk
  let q := (s.core b.partner).bunk
  if b.shadow then (q.brpos - b.brpos).toNat else (b.brpos - q.brpos).toNat

/-- The primary stalls at RT (09 R260). -/
def State.stalledPrimary (s : State) (n : Nat) : Bool :=
  let b := (s.core n).bunk
  b.bound && !b.shadow && !b.mute &&
    (decide (2048 ≤ s.lag n) || decide (logSize ≤ b.unread)
      || decide (4 ≤ b.out.length + (s.net.flights.filter (fun f => f.pkt.op = opLog && f.pkt.tag = BitVec.ofNat 16 n && f.wait.isSome)).length))

/-- LOG_LINE_TIMER: the primary sends its open line (09 R252). -/
def execLogLineTimer (n : Fin 192) (s : State) : Out := act s (fun s => s.flushLog n.val)

/-! ### Binding -/

/-- The system registers of a snapshot (09 R249). -/
def snapRegs : List Nat :=
  (List.range 7).map (0x4000 + ·) ++ [0x4010, 0x4011] ++ (List.range 10).map (0x8000 + ·) ++ (List.range 4).map (0x8010 + ·)
    ++ (List.range 8).map (0x8020 + ·) ++ (List.range 6).map (0xC000 + ·)

/-- The 139 doublewords of a snapshot (09 R249; 17 R476). -/
def Core.snapshot (c : Core) : List W64 :=
  (List.range 31).map (fun i => SMap.get 0 c.g (i + 1))
    ++ (List.range 32).flatMap (fun i =>
        let v := SMap.get 0 c.f i
        [BitVec.ofNat 64 v.toNat, BitVec.ofNat 64 (v.toNat / 18446744073709551616)])
    ++ (List.range 5).map c.sysReg ++ [c.pc, BitVec.ofNat 64 c.level.val] ++ snapRegs.map c.sysReg

/-- Load a snapshot (09 R249). -/
def Core.loadSnapshot (c : Core) (l : List W64) : Core :=
  let w := fun i => l.getD i 0
  let c := { c with
    g := (List.range 31).foldl (fun m i => SMap.set 0 m (i + 1) (w i)) []
    f := (List.range 32).foldl
      (fun m i => SMap.set 0 m i (BitVec.ofNat 128 ((w (31 + 2 * i)).toNat + 18446744073709551616 * (w (32 + 2 * i)).toNat))) []
    pc := w 100, level := Fin.ofNat 4 (w 101).toNat, run := .ready, vec := false, entered := none, replay := [],
    walk := none, ra := none, given := [], ext := [], raDone := false, queue := [], fetchWait := none, stuck := false, xlWait := none
    issued := false }
  let c := (List.range 5).foldl (fun c i => c.setSys i (w (95 + i))) c
  (List.range snapRegs.length).foldl (fun c i => c.setSys (snapRegs.getD i 0) (w (102 + i))) c

/-- Cut a list into pieces of seven. -/
def sevens : Nat → List W64 → List (List W64)
  | 0, _ => []
  | n + 1, l => l.take 7 :: sevens n (l.drop 7)

/-- The primary sends its snapshot as the first 20 lines; BRPOS is 0 there, and the signatures begin (09 R249, R258). -/
def State.sendSnapshot (s : State) (p : Nat) : State :=
  let s := s.updBunk p (fun b => { b with due := false, mute := b.broken, brpos := 0, ssig := sigInit, bsig := sigInit })
  if (s.core p).bunk.mute then s
  else (sevens 20 (s.core p).snapshot).foldl (fun s l => s.sendLine p ⟨(s.core p).bunk.seq, true, 0, l⟩) s

/-- A pair's record at its binding (09 R247, R258). -/
def Bunk.bind (partner : Nat) (shadow : Bool) : Bunk :=
  { bound := true, shadow := shadow, partner := partner, ssig := sigInit, bsig := sigInit }

/-- Bind a shadow: it discards what is in flight, drains its store buffer, and waits for the snapshot (09 R249). -/
def State.bindShadow (s : State) (q p : Nat) : State :=
  s.updCore q (fun c => Core.redirect { c with
    bunk := Bunk.bind p true, ra := none, walk := none, xlWait := none, replay := [], given := [], ext := [], issued := false })

/-- Bind a primary, and its shadow with it: it sends its snapshot, once what has issued has completed (09 R249). -/
def State.bindPrimary (s : State) (p q : Nat) : State :=
  let due := (s.core p).issued
  let s := (s.bindShadow q p).updBunk p (fun _ => { Bunk.bind q false with due := due, mute := due })
  if due then s else s.sendSnapshot p

/-- VALID, ROLE and PARTNER of a binding (09 R265). -/
def bndValid (v : W32) : Bool := bitOf v 31
def bndShadow (v : W32) : Bool := bitOf v 8
def bndPartner (v : W32) : Nat := fieldOf v 0 8

/-- A commit changes the binding of core `n` from `o` to `v` (09 R247, R249, R264): a primary is bound, and its shadow with it, at the tick of
its own cabinet, after that tick's frame end. -/
def State.bindChange (s : State) (n : Nat) (o v : W32) : State :=
  if bndValid v && !bndValid o then
    let b := (s.core n).bunk
    if !bndShadow v then s.bindPrimary n (bndPartner v)
    else if b.bound && b.shadow && b.partner = bndPartner v && !b.halted then s
    else s.bindShadow n (bndPartner v)
  else if bndValid o && !bndValid v then
    let b := (s.core n).bunk
    if b.shadow then (if b.halted then s.updBunk n (fun b => { b with bound := false, broken := false }) else s)
    else
      let s := s.logRec n true [ctlSlot 6 b.brpos 0]
      (s.flushLog n).updBunk n (fun b => { b with bound := false, broken := false })
  else s

/-- The frame-end records of the primaries and the lateness checks of the shadows of a cabinet (09 R259, R261): frame
number `fn` ended.  Late is the comparison of an earlier frame; FELATE is
forced at the next frame end (18 R504). -/
def State.frameEnd (s : State) (n : Nat) (fn : W32) : State :=
  let b := (s.core n).bunk
  if !b.bound then s
  else if b.shadow then
    if b.halted then s
    else
      let s := s.force (corePage n 0) 11
      if b.fends.any (fun f => f != BitVec.setWidth 16 fn) then s.raise (corePage n 0) 11 else s
  else
    let s := s.logSigs n 4 (fn.toNat % 65536 * 4294967296)
    if b.mute then s else s.updBunk b.partner (fun q => { q with fends := q.fends ++ [BitVec.setWidth 16 fn] })

/-- The binding bank's commit check (09 R248): the failing cores. -/
def State.bindingBad (s : State) (n : Nat) : Bool :=
  let v := s.reg (corePage n 0x160)
  let q := bndPartner v
  let w := s.reg (corePage q 0x160)
  let a := s.reg (corePage n 0x164)
  bndValid v &&
    (decide (192 ≤ q) || q == n || !bndValid w || bndPartner w != n || bndShadow w == bndShadow v
      || n / 48 == q / 48
      || (bndShadow v && fieldOf (s.reg (benchPage (n / 8) 0 0x70)) 0 16 == 0)
      || (bndValid a && bndPartner a != q))

/-- More than 48 pairs are valid (09 R248). -/
def State.tooManyPairs (s : State) : Bool :=
  decide (96 < ((List.range 192).filter (fun n => bndValid (s.reg (corePage n 0x160)))).length)

/-- The first core that fails the binding bank's check. -/
def State.bindingFail (s : State) : Option Nat :=
  match firstWhere 192 s.bindingBad with
  | some n => some n
  | none => if s.tooManyPairs then firstWhere 192 (fun n => bndValid (s.reg (corePage n 0x160))) else none

/-! ### The shadow's side -/

/-- A divergence: DIVERGE is reported, the shadow halts, the primary goes on and sends nothing (09 R262, R263). -/
def State.diverge (s : State) (n : Nat) : State :=
  let b := (s.core n).bunk
  let s := s.raise (corePage n 0) 9
  (s.updBunk n (fun b => { b with halted := true })).muteLog b.partner false

/-- What a shadow finds next in its log: nothing yet, a line out of order, or a slot with its CTL bit and the slots after it in the line
that start no control record (09 R252). -/
inductive LogHead where
  | empty
  | bad
  | slot (w : W64) (ctl : Bool) (rest : List W64)

/-- The next slot of the log. -/
def Bunk.head (b : Bunk) : LogHead :=
  match b.lines with
  | [] => .empty
  | l :: _ =>
    if b.slot = 0 && l.seq != b.expect then .bad
    else
      match l.slots.drop b.slot with
      | [] => .bad
      | w :: rest =>
        let more := (List.range rest.length).takeWhile (fun k => !bitOf l.ctl (b.slot + 1 + k))
        .slot w (bitOf l.ctl b.slot) (rest.take more.length)

/-- The shadow consumes `k` slots of the first line; an exhausted line is dropped, and 8 of them return a credit flit (09
R254). -/
def State.eatSlots (s : State) (n k : Nat) : State :=
  let s := s.force (corePage n 0) 9
  let b := (s.core n).bunk
  match b.lines with
  | [] => s
  | l :: rest =>
    let b := if b.slot = 0 then { b with expect := b.expect + 1 } else b
    if b.slot + k < l.slots.length then s.updBunk n (fun _ => { b with slot := b.slot + k })
    else
      let b := { b with lines := rest, slot := 0, eaten := b.eaten + 1 }
      if b.eaten < 8 then s.updBunk n (fun _ => b)
      else
        let s := s.updBunk n (fun _ => { b with eaten := 0 })
        s.send (benchRouter n) 0
          { op := opCrd, part := (s.core n).part, dst := BitVec.ofNat 7 (benchRouter b.partner), dstp := 0,
            tag := BitVec.ofNat 16 n, addr := BitVec.ofNat 42 b.partner }

/-- A comparison of signatures (09 R259, R262, R265); SIGMIS injection inverts bit 0 of the shadow's SSIG (18 R504). -/
def State.compareSigs (s : State) (n : Nat) (ps pb : W64) (fend : Bool) : State :=
  let page := corePage n 0
  let b := (s.core n).bunk
  let inj := s.bit (page + 0x1C) 8
  let ss := if inj then b.ssig ^^^ 1 else b.ssig
  let s := s.force page 10
  let s := s.count (page + 0x178)
  let s := if ss = ps && b.bsig = pb then s
    else
      let s := s.count (page + 0x17C)
      let s := s.setNat (page + 0x184) b.brpos.toNat
      let s := s.setNat (page + 0x188) (b2n (ss != ps) + 2 * b2n (b.bsig != pb) + 4 * b2n fend)
      let s := s.setReg64 (page + 0x190) ps.toNat
      let s := s.setReg64 (page + 0x198) ss.toNat
      let s := s.setReg64 (page + 0x1A0) pb.toNat
      let s := s.setReg64 (page + 0x1A8) b.bsig.toNat
      if inj then s.force page 8 else s.raise page 8
  let s := if fend then s.updBunk n (fun b => { b with fends := b.fends.drop 1 }) else s
  s.updBunk n (fun b => { b with ssig := sigInit, bsig := sigInit })

/-- Has the log of a shadow whose pair is broken run out: nothing is left of it, and nothing is on its way (09 R264)? -/
def State.logGone (s : State) (n : Nat) : Bool :=
  let b := (s.core n).bunk
  b.shadow && b.broken && b.lines.isEmpty && !s.net.flights.any (fun f => f.pkt.op = opLog && f.pkt.addr = BitVec.ofNat 42 n)

/-- When it has, the shadow sets BROKEN and halts; without a valid binding it is bound no more (09 R264). -/
def State.logOut (s : State) (n : Nat) : State :=
  if s.logGone n && !(s.core n).bunk.halted then
    (s.updBunk n (fun b => { b with halted := true, bound := bndValid (s.reg (corePage n 0x164)) })).raise (corePage n 0) 10
  else s

/-- A reset of a core breaks its pair (09 R264). -/
def State.breakPair (s : State) (n : Nat) : State :=
  let b := (s.core n).bunk
  if !b.bound then s
  else if b.shadow then
    (s.muteLog b.partner true).raise (corePage b.partner 0) 10
  else (s.updBunk b.partner (fun q => { q with broken := true })).logOut b.partner

/-- CRD: a credit flit returns 8 lines to the primary, which sends what waited for a place (09 R251, R254). -/
def creditArrive (k : Packet) (s : State) : State :=
  s.landed k (fun s =>
    let n := k.addr.toNat
    (s.updBunk n (fun b => { b with unread := b.unread - 8 })).drainLog n (s.core n).bunk.out)

/-- CRD (09 R254). -/
def execCrd (k : Packet) (s : State) : Out := act s (creditArrive { k with op := opCrd })

/-- An instruction of a bound core retires: BRPOS advances; a primary writes a CHK record at each whole multiple of 4,096
(09 R253, R259).  With the snapshot due, it is sent at this boundary (R249). -/
def State.bunkRetire (s : State) (n : Nat) : State :=
  let b := (s.core n).bunk
  if !b.bound then s
  else
    if b.due then s.sendSnapshot n
    else
    let s := s.updBunk n (fun b => { b with brpos := b.brpos + 1 })
    if !b.shadow && fieldOf (b.brpos + 1) 0 12 = 0 then s.logSigs n 3 0 else s

end Sys2Proof.Machine
end

