-- ==== Sys2Proof/Config.lean ====
section
/-! DEFINITION. The free values: what the spec leaves open.  Each is a constant without a body, so no proof can see what it
is. -/

namespace Sys2Proof

/-- A free choice between two permitted outcomes (00 R2), one for each number drawn (assumption log 1). -/
opaque Config.pick : Nat → Bool

/-- An unpredictable position below a bound: how far a sweep had come when it was stopped, for each number drawn (assumption
log 1). -/
opaque Config.place : Nat → Nat

/-- A byte that the outside or an unwritten place gives, for each number drawn (assumption log 1). -/
opaque Config.byte : Nat → Byte

/-- The boot ROM's bytes by offset: the spec gives no contents (02 R23; assumption log 11). -/
opaque Config.rom : Nat → Byte

/-- The SHA-384 hash of Fenavo's manufacturing key that the boot ROM holds: the spec gives no value (15 R405; assumption log 18). -/
opaque Config.romKeyHash : List Byte

/-- The 11 check bits of the SEC-DED code over the 64 bytes of a line's ciphertext and tag bits 63:11: the spec does not give the code
(11 R304; assumption log 66). -/
opaque Config.lineEcc : BitVec 512 → BitVec 53 → BitVec 11

/-- The four words of the device's unique ID (15 R426 RT_UID): fixed at manufacture, not given by the spec. -/
opaque Config.uid : Nat → W32

/-- Where the 2-byte field that ends a VLAN table entry stands in the entry's 64 bytes: the fields before it are those of a standard
(14 R380; assumption log 23). -/
opaque Config.vlanTail : Nat

/-- The flip-flops of a capture segment, and what the chain shows of them in the freeze with a number (18 R510). -/
opaque Config.segLen : Nat → Nat
opaque Config.flop : Nat → Nat → Bool

end Sys2Proof
end

