-- ==== Sys2Proof/Machine/Errors.lean ====
section
/-! DEFINITION. The aggregation tree, ERR_N, the heartbeat, freeze and capture (18). -/

namespace Sys2Proof.Machine

/-- STOPPED sets; CAUSE records the first cause since it last cleared (18 R502). -/
def State.stopHb (s : State) (cause : Nat) : State :=
  if s.bit (chipAgg 0x104) 0 then s else s.setNat (chipAgg 0x104) (1 + 2 * cause)

/-- The source an aggregator fires (18 R499), by its page number. -/
def aggSource (n : Nat) : Nat :=
  let c := n / 4096
  if c = 8 then 0x200
  else if n % 4096 / 16 = 1 then 0x208 + c
  else 0x220 + 6 * c + (n % 4096 / 16 - 0x10)

/-- Fill the record of a class, if it is not VALID (18 R497, R498). -/
def State.fillRecord (s : State) (base : Nat) (r : Report) : State :=
  let a := base + 0x80 + 16 * r.cls.code
  if s.bit (a + 4) 31 then s
  else
    let hi := r.addr / 4294967296 % 1024 + 1024 * r.bit
      + (match r.part with
         | some p => 32768 + 65536 * p.toNat
         | none => 0)
      + (if r.inj then 1073741824 else 0) + 2147483648
    ((s.setNat a r.addr).setNat (a + 4) hi).setReg64 (a + 8) r.time.toNat

/-- What an aggregator does with a report (18 R496, R497, R499, R502). -/
def State.latch (s : State) (r : Report) : State :=
  let base := 4096 * r.dest
  let k := r.cls.code
  let s := s.setBit (base + 0x40) k true
  let s := s.count (base + 0x50 + 4 * k)
  let s := s.fillRecord base r
  let s := if s.bit (base + 0x48) k then s.fire (aggSource r.dest) else s
  match aggParent r.dest with
  | some up =>
    if s.bit (base + 0x44) k then { s with err := { s.err with reports := s.err.reports ++ [{ r with dest := up }] } } else s
  | none =>
    let s := (s.fireStool 32 3 62).fireStool 33 3 62
    if r.cls = .fatal && s.bit (chipAgg 0x100) 2 then s.stopHb 1 else s

/-- The first report on its way to the aggregator page, and the others. -/
def takeReport (d : Nat) : List Report → Option (Report × List Report)
  | [] => none
  | r :: rs =>
    if r.dest = d then some (r, rs)
    else match takeReport d rs with
      | some (x, ys) => some (x, r :: ys)
      | none => none

/-- The reports among `rs` that may arrive in one cycle of 400 MHz with the first one, `r`, of their class (18 R497). -/
def rivals (r : Report) (rs : List Report) : List Report :=
  rs.filter (fun q => q.dest = r.dest && q.cls = r.cls && decide (q.time.toNat ≤ r.time.toNat + 2))

/-- AGGREGATOR_LATCH: the aggregator takes the first report that waits for it, or, where several of its class arrive in one cycle, any of
them (18 R496, R497; assumption log 1). -/
def aggregatorLatch (p : Nat) (s : State) : State :=
  match takeReport p s.err.reports with
  | none => s
  | some (r, rs) =>
    match rivals r rs with
    | [] => ({ s with err := { s.err with reports := rs } }).latch r
    | l =>
      let q := (r :: l).getD (Config.place s.fresh % (l.length + 1)) r
      ({ s with err := { s.err with reports := s.err.reports.erase q }, fresh := s.fresh + 1 }).latch q

/-- AGGREGATOR_LATCH (18 R497). -/
def execAggregatorLatch (p : BitVec 16) (s : State) : Out := act s (aggregatorLatch p.toNat)

/-- ERR_N is asserted while AG_STAT AND ERRN_MASK of the chip aggregator is not 0, and while the device is frozen (18
R500). -/
def State.errN (s : State) : Bool :=
  s.err.frozen.isSome || (s.reg (chipAgg 0x40) &&& s.reg (chipAgg 0x10C)) != 0

/-- ERR_HB may toggle (18 R501). -/
def State.hbRuns (s : State) : Bool :=
  s.bit (rts 0x44) 0 && !s.bit (rts 0x44) 1 && s.bit (chipAgg 0x100) 0 && !s.bit (chipAgg 0x104) 0 && !s.stalled

/-- ERR_HB after TIME moved from `old`: one toggle when floor(TIME / 500,000) changed (18 R501). -/
def State.hbTick (s : State) (old : Nat) : State :=
  if s.hbRuns && s.time / 500000 != old / 500000 then { s with err := { s.err with hbLevel := !s.err.hbLevel } } else s

/-- KIV in nanoseconds. -/
def State.kiv (s : State) : Nat := s.fld (chipAgg 0x100) 8 8 * 1000000

/-- A write of HB_CTL (18 R498, R502). -/
def State.writeHbCtl (s : State) (v : W32) : State :=
  let ken := bitOf v 1
  if ken && fieldOf v 8 8 == 0 then s
  else
    let was := s.bit (chipAgg 0x100) 1
    let s := s.setReg (chipAgg 0x100) (v &&& 0xFF07)
    let s := if ken && !was then { s with err := { s.err with kickAt := s.clock.time, kickLate := false } } else s
    if bitOf v 0 then s else s.stopHb 3

/-- A write of HB_CMD: KICK restarts the kick timer; RESUME clears STOPPED and CAUSE when its conditions hold (18 R502). -/
def State.writeHbCmd (s : State) (v : W32) : State :=
  let s := if bitOf v 0 then { s with err := { s.err with kickAt := s.clock.time, kickLate := false } } else s
  let c := s.reg (chipAgg 0x100)
  if bitOf v 1 && bitOf c 0 && (!s.bit (chipAgg 0x40) 2 || !bitOf c 2) && (!bitOf c 1 || !s.err.kickLate) then
    s.setNat (chipAgg 0x104) 0
  else s

/-- HB_KICK_EXPIRY: with KEN 1, no KICK within KIV ms (18 R502). -/
def kickExpiry (s : State) : State :=
  if s.bit (chipAgg 0x100) 1 && !s.err.kickLate && decide (s.err.kickAt.toNat + s.kiv ≤ s.time) then
    ({ s with err := { s.err with kickLate := true } }).stopHb 2
  else s

/-- HB_KICK_EXPIRY (18 R502). -/
def execHbKickExpiry (s : State) : Out := act s kickExpiry

/-- RT_STAT.DBG (15 R425). -/
def State.dbg (s : State) : Nat := if s.otp.lc = 0 ∨ s.otp.lc = 3 then 15 else s.fld (rts 0x44) 8 4

/-- Is a confidential entry valid (15 R422)? -/
def State.confValid (s : State) : Bool := (List.range 16).any (fun e => s.bit (rts (0x500 + 16 * e)) 31)

/-- A request now would be accepted (18 R506, FZ_STAT.READY). -/
def State.freezeReady (s : State) : Bool := Nat.testBit s.dbg 2 && !s.confValid

/-- A freeze request from source `src`: 1 the ball, 2 the register (18 R506, R507). -/
def State.freeze (s : State) (src : Nat) : State :=
  if s.freezeReady then { s with err := { s.err with frozen := some ⟨src, s.clock.time, s.dbg, s.fresh⟩ }, fresh := s.fresh + 1 }
  else (s.count (frz 0x4C)).raise (frz 0) 0

/-- FREEZE_N_LOW: the ball requests a freeze while FZ_CTL.PINEN is 1 (18 R506). -/
def execFreezeNLow (s : State) : Out := act s (fun s => if s.bit (frz 0x44) 0 then s.freeze 1 else s)

/-- The capture instructions act only in a frozen device with JTAG and FRZ in DBG at the freeze (18 R509). -/
def State.capturing (s : State) : Bool :=
  match s.err.frozen with
  | some z => Nat.testBit z.dbg 0 && Nat.testBit z.dbg 2
  | none => false

/-- CAPSEL: select a segment; otherwise BYPASS (18 R509). -/
def execCapsel (v : W16) (s : State) : Out :=
  .next (if s.capturing then { s with err := { s.err with seg := v } } else s)

/-- The flip-flops of a segment that are in the capture chain: how many is the device's; a domain in Stop or waking and a number that no
segment has give none (18 R509, R510). -/
def State.segPowered (s : State) (g : Nat) : Bool := if g < 296 then s.domUp g else decide (g < 298)
def State.segLen (s : State) (g : Nat) : Nat := if s.segPowered g then Config.segLen g % 4294967296 else 0

/-- The 128-bit header of a segment of the chain of a frozen device (18 R510). -/
def State.segHeader (s : State) (z : Freeze) (g : Nat) : Nat :=
  g + 65536 * b2n (s.segPowered g) + 131072 * z.src + 16777216 + 4294967296 * s.segLen g + 18446744073709551616 * z.time.toNat

/-- Bit `i` of a segment, least significant first, circularly: its header, then a bit of each flip-flop, whose order is not part of the
architecture: free, and the same at every read (18 R509, R510; assumption log 1).  The chain holds no secret (R511): no free bit depends on the
state. -/
def State.capBit (s : State) (z : Freeze) (i : Nat) : Bool :=
  let g := s.err.seg.toNat
  let j := i % (128 + s.segLen g)
  if j < 128 then Nat.testBit (s.segHeader z g) j else Config.flop z.key (g * 4294967296 + (j - 128))

/-- CAPRD: bits of the selected segment come out at TDO; the segment is shifted circularly, so each bit returns to its place (18 R509). -/
def execCaprd (bits : Nat) (s : State) : Out :=
  .next (match s.err.frozen with
    | some z => if s.capturing then { s with err := { s.err with tdo := (List.range bits).map (s.capBit z) } } else s
    | none => s)

end Sys2Proof.Machine
end

