-- ==== Sys2Proof/Machine/Events.lean ====
section
/-! DEFINITION. The event arrays of a core, the route of a fire, moderation and messages (12 R325-R349). -/

namespace Sys2Proof.Machine

/-- System register numbers of the event words: EVPEND, EVEN, EVACT (12 R333). -/
def evPend (k w : Nat) : Nat := 0x4100 + 0x40 * k + w
def evEn (k w : Nat) : Nat := 0x4110 + 0x40 * k + w
def evAct (k w : Nat) : Nat := 0x4120 + 0x40 * k + w

/-- Bit `b` of level `k` in one of the arrays. -/
def Core.evBit (c : Core) (arr : Nat → Nat → Nat) (k b : Nat) : Bool := bitOf (c.sysReg (arr k (b / 64))) (b % 64)

/-- Set bit `b` of level `k` in one of the arrays. -/
def Core.setEvBit (c : Core) (arr : Nat → Nat → Nat) (k b : Nat) (v : Bool) : Core :=
  c.setSys (arr k (b / 64)) (putBit (c.sysReg (arr k (b / 64))) (b % 64) v)

/-- Is the HELD flag of the bit set (12 R336)? -/
def Core.isHeld (c : Core) (k b : Nat) : Bool := c.held.any (fun h => h.1 = 1024 * k + b)

/-- Clear the HELD flag of the bit. -/
def Core.clearHeld (c : Core) (k b : Nat) : Core := { c with held := c.held.filter (fun h => h.1 ≠ 1024 * k + b) }

/-- The HELD flags of word `w` of level `k`. -/
def Core.heldWord (c : Core) (k w : Nat) : W64 :=
  c.held.foldl (fun a h => if h.1 / 64 = 16 * k + w then putBit a (h.1 % 64) true else a) 0

/-- The bits of a word that are pending, enabled, not active and not HELD (12 R341 condition 1). -/
def Core.readyWord (c : Core) (k w : Nat) : W64 :=
  c.sysReg (evPend k w) &&& c.sysReg (evEn k w) &&& ~~~(c.sysReg (evAct k w)) &&& ~~~(c.heldWord k w)

/-- Does level `k` hold a bit that meets R341 condition 1? -/
def Core.levelReady (c : Core) (k : Nat) : Bool := (List.range 16).any (fun w => c.readyWord k w != 0)

/-- EVSUM_k (12 R334). -/
def Core.evSum (c : Core) (k : Nat) : W64 :=
  (List.range 16).foldl
    (fun a w =>
      let a := if c.readyWord k w != 0 then putBit a w true else a
      if c.sysReg (evPend k w) != 0 then putBit a (16 + w) true else a)
    0

/-- Does any level complete a WAIT (12 R342)? -/
def Core.wakeReady (c : Core) : Bool := (List.range 4).any (fun k => c.levelReady k)

/-- The WAIT of core `n` completes and retires: the core goes on at the next instruction, after any loop-back; a primary
writes a WAKE record (04 R107, R111; 09 R253). -/
def State.completeWait (s : State) (n : Nat) (seq : W64) : State :=
  let s := s.logRec n true [ctlSlot 5 (s.core n).bunk.brpos 0]
  let s := s.updCore n (fun c => { (c.loopBack seq).settled with run := .ready })
  (s.retired n).bunkRetire n

/-- A WAIT whose condition is met completes (04 R111); a shadow's ends by its log alone (09 R255). -/
def State.endWait (s : State) (n : Nat) : State :=
  match (s.core n).run with
  | .waiting u seq =>
    let c := s.core n
    let due := match u with
      | some t => decide (t.toNat ≤ s.time)
      | none => false
    if (c.wakeReady || due) && !(c.bunk.bound && c.bunk.shadow) && !c.bunk.halted then s.completeWait n seq else s
  | _ => s

/-- A fire or EVSET sets the pending bit; `grp` is the group that holds the fire, 0 when it is not held (12 R336).  A core
in WAIT releases HELD bits at once (R340). -/
def Core.pend (c : Core) (k b grp : Nat) : Core :=
  let was := c.evBit evPend k b
  let c := c.setEvBit evPend k b true
  let inWait := match c.run with
    | .waiting _ _ => true
    | _ => false
  if grp = 0 || inWait then c.clearHeld k b
  else if was then c
  else { c with held := c.held ++ [(1024 * k + b, grp)] }

/-- Set a pending bit at a core that runs, and complete its WAIT if that ends it. -/
def State.pendCore (s : State) (n k b grp : Nat) : State :=
  (s.updCore n (fun c => c.pend k b grp)).endWait n

/-- The frame unit raises a level 3 source on a core; a core in Stop records none (12 R325, 17 R470). -/
def State.raiseL3 (s : State) (n b : Nat) : State :=
  if s.domUp n then s.pendCore n 3 b 0 else s

/-- The power controller checks a stopped cell's image and queues a wake when DWCFG.EVW is 1 and a bit is pending and
enabled in it (17 R470). -/
def State.checkImage (s : State) (n : Nat) : State :=
  match SMap.get none s.power.images n with
  | some { core := some c, .. } =>
    if s.bit (pwd (0x600 + 4 * n)) 0 &&
        (List.range 4).any (fun k => (List.range 16).any (fun w => c.sysReg (evPend k w) &&& c.sysReg (evEn k w) != 0)) then
      { s with power := { s.power with wakeq := insertOnce n s.power.wakeq } }
    else s
  | _ => s

/-- A fire at a core whose cell is in Stop sets the bit in the PEND image, with HELD at 0 (17 R470). -/
def State.pendImage (s : State) (n k b : Nat) : State :=
  match SMap.get none s.power.images n with
  | some img =>
    match img.core with
    | some c =>
      let c := (c.setEvBit evPend k b true).clearHeld k b
      ({ s with power := { s.power with images := SMap.set none s.power.images n (some { img with core := some c }) } }).checkImage n
    | none => s
  | none => s

/-- The moderation of a fire of group `g`: whether it is held, and the groups afterwards (12 R339). -/
def State.moderate (s : State) (g : Nat) : Bool × State :=
  let iv := s.fld (modPage (0x400 + 4 * g)) 0 27
  match SMap.get none s.ev.groups g with
  | some _ => (true, s)
  | none =>
    if g == 0 || iv == 0 then (false, s)
    else
      (false, { s with ev := { s.ev with
        groups := SMap.set none s.ev.groups g (some ⟨s.clock.time + BitVec.ofNat 64 iv, false⟩) } })

/-- A flag was set in the interval of group `g`. -/
def State.markFlag (s : State) (g : Nat) : State :=
  match SMap.get none s.ev.groups g with
  | some x => { s with ev := { s.ev with groups := SMap.set none s.ev.groups g (some { x with flagged := true }) } }
  | none => s

/-- The fields of a route entry (12 R328). -/
structure Route where
  en : Bool
  grp : Nat
  bit : Nat
  lvl : Nat
  core : Nat

/-- The route entry of source `n`. -/
def State.route (s : State) (n : Nat) : Route :=
  let e := s.reg (ertLo n)
  { en := bitOf e 31, grp := fieldOf e 21 8, bit := fieldOf e 11 10, lvl := fieldOf e 9 2, core := fieldOf e 0 8 }

/-- Count a fire: FIRECNT for internal sources and VF vectors (12 R348). -/
def State.countFire (s : State) (n : Nat) : State := if n < 0x2000 then s.count (evc 0x048) else s

/-- A fire routed to a core reaches its pending bit (12 R336, R339; 17 R470).  A flag that R340 releases at once was set in the
interval. -/
def State.deliver (s : State) (r : Route) : State :=
  if s.domUp r.core then
    let h := s.moderate r.grp
    let was := ((h.2.core r.core).evBit evPend r.lvl r.bit)
    let s := h.2.pendCore r.core r.lvl r.bit (if h.1 then r.grp else 0)
    if h.1 && !was then s.markFlag r.grp else s
  else s.pendImage r.core r.lvl r.bit

/-- SOURCE_FIRE: fire number `j` of those on their way, of a numbered source that is not routed to a stool.  A source
with EN 0 is counted in NORTCNT and has no other effect (R329); while cabinet common 6 is in Stop no source fires (17
R470). -/
def sourceFire (j : Nat) (s : State) : State :=
  match s.ev.fires[j]? with
  | some (.source n) =>
    let r := s.route n
    let rest := { s with ev := { s.ev with fires := s.ev.fires.eraseIdx j } }
    if !s.domUp 270 then rest
    else if !r.en then rest.count (evc 0x05C)
    else if 192 ≤ r.core then s
    else (rest.countFire n).deliver r
  | _ => s

/-- SOURCE_FIRE (12 R336). -/
def execSourceFire (j : Nat) (s : State) : Out := act s (sourceFire j)

/-- MODERATION_INTERVAL_END: the interval of group `g` ends: HELD flags of its fires clear at every core; with a flag set
in it the group holds again, otherwise it becomes idle (12 R339). -/
def moderationEnd (g : Nat) (s : State) : State :=
  match SMap.get none s.ev.groups g with
  | none => s
  | some x =>
    if s.time < x.until_.toNat then s
    else
      let iv := s.fld (modPage (0x400 + 4 * g)) 0 27
      let nx := if x.flagged && iv != 0 then some ⟨s.clock.time + BitVec.ofNat 64 iv, false⟩ else none
      let s := { s with ev := { s.ev with groups := SMap.set none s.ev.groups g nx } }
      (List.range 192).foldl
        (fun s n => (s.updCore n (fun c => { c with held := c.held.filter (fun h => h.2 ≠ g) })).endWait n) s

/-- MODERATION_INTERVAL_END (12 R339). -/
def execModerationIntervalEnd (g : BitVec 8) (s : State) : Out := act s (moderationEnd g.toNat)

/-- The doorbell page address of EVC.DBELL (12 R331). -/
def State.doorbell (s : State) : Nat := (s.reg (evc 0x040)).toNat / 4096 * 4096 + 4294967296 * s.fld (evc 0x044) 0 10

/-- May the doorbell stand at this address: in a row of R18 that is marked unmapped (12 R331)? -/
def doorbellOk (a : Nat) : Bool :=
  let u := a / 4096
  (decide (0x4000000 ≤ u) && decide (u < 0x10000000)) || (decide (0x30000000 ≤ u) && decide (u < 0x3E000000))
    || (decide (0x3E002000 ≤ u) && decide (u < 0x3F000000)) || (decide (0x3F010000 ≤ u) && decide (u < 0x3FFF0000))
    || (decide (0x3FFF0040 ≤ u) && decide (u < 0x40000000))

/-- Refuse a message: MSIREFCNT, MSIREF_INFO, MSIREF_REQ and PG_ERR.MSI_REF (12 R331). -/
def State.refuseMsi (s : State) (m : MsiWrite) (reason : Nat) : State :=
  let s := s.count (evc 0x050)
  let s := s.setNat (evc 0x054) (fieldOf m.data 0 12 + 65536 * m.port.val + 1048576 * reason)
  let s := s.setNat (evc 0x058) m.req.toNat
  s.raise (evc 0) 0

/-- MSI_MESSAGE: a write to the doorbell page reaches the event fabric and is accepted or refused (12 R331, R332). -/
def msiMessage (m : MsiWrite) (s : State) : State :=
  let s := s.force (evc 0) 0
  let n := 0x2000 + fieldOf m.data 0 12
  let hi := s.reg (ertHi n)
  if m.size ≠ 4 ∨ m.off ≠ 0 ∨ fieldOf m.data 12 20 ≠ 0 then s.refuseMsi m 3
  else if !(s.route n).en then s.refuseMsi m 1
  else if bitOf hi 31 && (fieldOf hi 18 3 != m.port.val || fieldOf hi 0 18 != m.req.toNat) then s.refuseMsi m 2
  else (s.count (evc 0x04C)).fire n

/-- MSI_MESSAGE (12 R331). -/
def execMsiMessage (m : MsiWrite) (s : State) : Out := act s (msiMessage m)

end Sys2Proof.Machine
end

