-- ==== Sys2Proof/Machine/Frame.lean ====
section
/-! DEFINITION. The frame unit: TIME, ticks, receivers, windows, commits (03). -/

namespace Sys2Proof.Machine

/-! ### Addresses -/

/-- FRM fields. -/
def State.running (s : State) : Bool := s.bit (frm 0x40) 0
def State.kind (s : State) : Nat := s.fld (frm 0x60) 0 2
def State.srcPort (s : State) : Nat := s.fld (frm 0x60) 2 3
def State.period (s : State) : Nat := s.fld (frm 0x64) 0 27
def State.tol (s : State) : Nat := s.fld (frm 0x6C) 0 16
def State.fnum (s : State) : W32 := s.reg (frm 0x48)
/-- CMT.STAT bits: ARMED, CHECKING. -/
def State.armed (s : State) : Bool := s.bit (cmt 0x48) 0
def State.checking (s : State) : Bool := s.bit (cmt 0x48) 1

/-- Frame a is after frame b (03 R46). -/
def frameAfter (a b : W32) : Bool := let d := (a - b).toNat; decide (1 ≤ d) && decide (d ≤ 0x7FFFFFFF)

/-! ### Commits -/

/-- What lies in the lowest way of an old RSVMASK is discarded when the new one lacks that way: the trace lines of a sink slice, the
log lines of the shadows of a bench (08 R245; 09 R251; 10 R293). -/
def State.dropReserved (s : State) (p : Page) (old : W32) : State :=
  match firstWhere 16 (fun w => bitOf old w) with
  | none => s
  | some w =>
    if s.bit (p.base + 0x74) w then s
    else if p.kind = .slc then
      { s with coh := { s.coh with sink := s.coh.sink.filter (fun r => r.1 / 8192 ≠ p.inst) } }
    else
      (List.range 8).foldl
        (fun s k => s.updBunk (8 * p.inst + k) (fun b => if b.shadow then { b with lines := [], slot := 0 } else b)) s

/-- Copy every shadow register of a page to its active bank (03 R63). -/
def State.commitPage (s : State) (base : Nat) : State :=
  match pageOf base with
  | none => s
  | some p =>
    let s0 := s
    let fin := fun (s : State) => if p.kind = .l2 || p.kind = .slc then s.dropReserved p (s0.reg (base + 0x74)) else s
    fin <| p.rows.foldl
      (fun s r =>
        match r.act with
        | none => s
        | some a => (List.range r.num).foldl
            (fun s j => s.setReg (base + a + r.stride * j) (s.reg (base + r.off + r.stride * j))) s)
      s

/-- The cabinet's pages with shadow banks that are copied register by register (03 R63): windows, budgets, way masks. -/
def bankPages (c : Nat) : List Nat :=
  (if c < 4 then (List.range 12).map (fun k => pageBase c 2 (3 + k))
      ++ (List.range 6).flatMap (fun b => [pageBase c (0x10 + b) 0, pageBase c (0x10 + b) 4])
    else if c < 6 then (List.range 16).map (fun k => pageBase c (0x10 + k) 0) ++ (List.range 8).map (fun m => pageBase c (0x30 + m) 2)
    else [])
    ++ [pageBase c 4 2, pageBase c 5 2]

/-- The regulators of a cabinet (03 R56). -/
def cabRegulators (c : Nat) : List Nat :=
  (if c < 4 then (List.range 6).map (fun b => pageBase c (0x10 + b) 4)
    else if c < 6 then (List.range 8).map (fun m => pageBase c (0x30 + m) 2) else [])
    ++ [pageBase c 4 2, pageBase c 5 2]

/-- The routers of a cabinet. -/
def cabRouters (c : Nat) : List Nat := (List.range 82).filter (fun r => routerCabinet r = c)

/-- Commit the binding of core `n`: BND_SH becomes BND, and the pair is bound or ended (09 R247). -/
def State.commitBinding (s : State) (n : Nat) : State :=
  let o := s.reg (corePage n 0x164)
  let v := s.reg (corePage n 0x160)
  (s.setReg (corePage n 0x164) v).bindChange n o v

/-- A cabinet performs a commit of its shadow banks (03 R63, R66; 10 R278). -/
def State.commitCabinet (s : State) (c : Nat) : State :=
  let s := (bankPages c).foldl (fun s b => s.commitPage b) s
  let s := (cabRouters c).foldl (fun s r => s.commitRouter r) s
  if c < 4 then (List.range 48).foldl (fun s k => s.commitBinding (48 * c + k)) s else s

/-- End a checking or armed commit as cancelled (03 R67). -/
def State.cancelCommit (s : State) : State :=
  if s.armed || s.checking then
    let s := s.setReg (cmt 0x48) (putField (s.reg (cmt 0x48)) 0 4 8)
    (List.range 7).foldl (fun s c => s.setNat (cmr c 0x44) 0) s
  else s

/-- A write of CMT.CTL (03 R64, R67): ARM clears DONE, CANCELLED, SKIPPED and REASON; CORE and WINDOW keep what the last check wrote. -/
def State.writeCmtCtl (s : State) (v : W32) : State :=
  if bitOf v 1 then s.cancelCommit
  else if bitOf v 0 && !s.armed && !s.checking then
    { (s.setReg (cmt 0x48) (s.reg (cmt 0x48) &&& 0x00FFF000 ||| 2)) with frame := { s.frame with lateSeen := false } }
  else s

/-- R49 on source values: SRC, PERIOD, PHASE, TOL; for KIND 2 with 802.1Qbv enabled on the port, PERIOD is a whole multiple
or divisor of its operational gate cycle time. DEDUCED: a port with 802.1Qbv enabled and no operational gate list has the cycle time 0,
of which no PERIOD is a multiple or a divisor, and does not meet the limit. -/
def State.sourceOk (s : State) (src per pha tol : Nat) : Bool :=
  let p := natField src 2 3
  let ct := s.fld (tsp p 0x50) 0 27
  decide (50000 ≤ per) && decide (per ≤ 100000000) && decide (pha < per) && decide (tol ≤ per / 4)
    && (natField src 0 2 != 2 || !s.bit (tsp p 0x4C) 0 || (ct != 0 && (per % ct == 0 || ct % per == 0)))

/-- The registers of entry `i` of core `n`'s window table, active or shadow (03 R52, R53). -/
def winEntry (n i : Nat) (sh : Bool) : Nat :=
  winPage n + 0x100 + 0x200 * (n % 4) + (if sh then 0x100 else 0) + 0x10 * i

/-- START, LEN, VALID and PARTID of a window entry. -/
def State.winStart (s : State) (a : Nat) : Nat := s.fld a 0 27
def State.winLen (s : State) (a : Nat) : Nat := s.fld (a + 4) 0 27
def State.winValid (s : State) (a : Nat) : Bool := s.bit (a + 8) 31
def State.winPart (s : State) (a : Nat) : PartId := BitVec.ofNat 6 (s.fld (a + 8) 0 6)

/-- The first failing entry of a core's shadow table (03 R64); none for a well-formed table (R53). -/
def State.windowFail (s : State) (n : Nat) : Option Nat :=
  let e := fun i => winEntry n i true
  let per := s.fld (frm 0x74) 0 27
  let last := ((List.range 16).filter (fun i => s.winValid (e i))).getLast?
  firstWhere 16 (fun i =>
    s.winValid (e i) &&
      ((i != 0 && !s.winValid (e (i - 1))) || decide (s.winLen (e i) < 1000)
        || (i != 0 && decide (s.winStart (e i) < s.winStart (e (i - 1)) + s.winLen (e (i - 1))))
        || (last == some i && decide (per < s.winStart (e i) + s.winLen (e i)))))

/-- The way-mask bank's commit check of an L2 or SLC page (08 R225). -/
def State.maskBankOk (s : State) (base : Nat) (slc : Bool) : Bool :=
  let rsv := s.fld (base + 0x70) 0 16
  (List.range 64).all (fun p =>
    let w := s.fld (base + 0x100 + 4 * p) 0 16
    decide (w &&& rsv = 0) && (!slc || w != 0))

/-- The pages whose bank check fails, other than windows and source (03 R64 REASON 5). -/
def State.failingPages (s : State) : List Nat :=
  (match s.bindingFail with
    | some n => [corePage n 0]
    | none => [])
    ++ ((List.range 24).map (fun b => benchPage b 0 0)).filter (fun b => !s.maskBankOk b false)
    ++ ((List.range 32).map (fun k => slicePage k 0 0)).filter (fun b => !s.maskBankOk b true)
    ++ ((List.range 82).filter (fun r => !s.routerBankOk r)).map (fun r => routerPage r 0)

/-- The least number of a list. -/
def leastOf : List Nat → Option Nat
  | [] => none
  | x :: xs => match leastOf xs with
    | none => some x
    | some y => some (min x y)

/-- COMMIT_CHECK_END: the arm is accepted or refused (03 R64). -/
def commitCheckEnd (s : State) : State :=
  if !s.checking then s
  else
    let tab := (List.range 192).findSome? (fun n => (s.windowFail n).map (fun i => (n, i)))
    let src := s.sourceOk (s.reg (frm 0x70)).toNat (s.fld (frm 0x74) 0 27) (s.fld (frm 0x78) 0 27) (s.fld (frm 0x7C) 0 16)
    let bad := leastOf s.failingPages
    let reason :=
      if !frameAfter (s.reg (cmt 0x40)) (s.fnum + 1) then 1
      else if !s.running then 2
      else if tab.isSome then 3
      else if !src then 4
      else if bad.isSome then 5
      else 0
    let place := match tab with
      | some (n, i) => 4096 * n + 1048576 * i
      | none => 0
    let s := s.setReg64 (cmt 0x5C) (match bad with
      | some b => ctlAddr b
      | none => 0)
    if reason = 0 then
      (List.range 7).foldl (fun s c => if s.domUp (264 + c) then s.setNat (cmr c 0x44) 1 else s) (s.setNat (cmt 0x48) (1 + place))
    else (s.setNat (cmt 0x48) (256 * reason + place)).raise (cmt 0) 0

/-- COMMIT_CHECK_END (03 R64). -/
def execCommitCheckEnd (s : State) : Out := act s commitCheckEnd

/-- A write to a shadow-banked register while a commit is checking or armed (03 R65). -/
def State.lateWrite (s : State) (a : Nat) : State :=
  let s := if s.frame.lateSeen then s else
    { (s.setReg64 (cmt 0x50) (ctlAddr a)) with frame := { s.frame with lateSeen := true } }
  (s.count16 (cmt 0x58)).raise (cmt 0) 1

/-! ### Ticks at the master -/

/-- PR_CTL.SNAP: a tick instant copies each counter of the router's probe and sets it to 0 (10 R291). -/
def State.snapProbe (s : State) (r : Nat) : State :=
  if s.bit (probePage r 0x40) 0 then
    (List.range 4).foldl
      (fun s k => (s.setReg (probePage r (0x78 + 0x20 * k)) (s.reg (probePage r (0x74 + 0x20 * k)))).setNat
        (probePage r (0x74 + 0x20 * k)) 0) s
  else s

/-- The commit at the master: the target frame starts (03 R66). -/
def State.masterCommit (s : State) : State :=
  let t := s.reg (cmt 0x40)
  let skip := decide (s.fnum ≠ t)
  let s := s.commitPage (frm 0)
  let s := (List.range 8).foldl (fun s k => s.commitRouter (74 + k)) s
  let s := s.setReg (cmt 0x48) (putField (s.reg (cmt 0x48)) 0 5 (if skip then 0x14 else 4))
  let s := s.setReg (cmt 0x4C) t
  let s := (List.range 7).foldl (fun s c => s.setNat (cmr c 0x44) 0) s
  let s := if skip then s.raise (cmt 0) 2 else s
  { s with frame := { s.frame with owed := (List.range 7).map (fun c => ⟨c, t, false⟩) } }

/-- The tick starts the frame that gate changes of the switch's ports name (14 R377). -/
def State.beginGates (s : State) (f : W32) : State :=
  { s with port := { s.port with
    gatePend := s.port.gatePend.map (fun c => (c.1, c.2.map (fun g => if g.frame = some f then { g with begun := true } else g))) } }

/-- The tick at the master (03 R42, R46, R48, R66): the frame number, the tick instant, the commit of the target frame, the
next expected instant, and a message to every receiver. After a commit that changes SRC, what the old source reported and no tick
took is nothing to the new one. -/
def State.masterTick (s : State) (instant : W64) (carried : Option W32) : State :=
  let old := s.reg (frm 0x60)
  let s := (s.force (frm 0) 0).force (frm 0) 1
  let s := s.force (frm 0) 2
  let f := match carried with
    | some x => if s.bit (frm 0x40) 2 && s.kind = 3 then x else s.fnum + 1
    | none => s.fnum + 1
  let s := (s.setReg (frm 0x48) f).setReg64 (frm 0x50) instant.toNat
  let s := s.setBit (frm 0x44) 0 true
  let s := if s.armed && (f = s.reg (cmt 0x40) || frameAfter f (s.reg (cmt 0x40))) then s.masterCommit else s
  let s := ((List.range 8).foldl (fun s k => s.snapProbe (74 + k)) s).beginGates f
  { s with frame := { s.frame with
      expected := some (instant + BitVec.ofNat 64 s.period), due := none, late := false,
      events := if s.reg (frm 0x60) = old then s.frame.events else [],
      msgs := s.frame.msgs ++ (List.range 7).map (fun c => ⟨c, f, instant⟩) } }

/-- Accept a tick event: the tick falls at its instant (03 R44). -/
def State.acceptTick (s : State) (e : TickEvent) : State :=
  if e.instant.toNat ≤ s.time then s.masterTick e.instant e.fnum
  else { s with frame := { s.frame with
      due := some e, late := false, expected := some (e.instant + BitVec.ofNat 64 s.period) } }

/-- Judge an event against the expected instant (03 R44). -/
def State.judgeTick (s : State) (e : TickEvent) : State :=
  match s.frame.expected with
  | none => s.acceptTick e
  | some x =>
    if s.frame.late then s.acceptTick e
    else if e.instant.toNat + s.tol < x.toNat then (s.count16 (frm 0x84)).raise (frm 0) 1
    else if e.instant.toNat ≤ x.toNat + s.tol then (s.acceptTick e).setBit (frm 0x44) 1 false
    else { s with frame := { s.frame with events := s.frame.events ++ [e] } }

/-- An event of a source of kind `k` arrives (03 R42). -/
def State.tickEvent (s : State) (k : Nat) (e : TickEvent) : State :=
  if s.running && s.kind = k then s.judgeTick e else s

/-- INTERNAL_TICK: TIME has reached the internal tick instant (03 R42, R43). -/
def internalTick (s : State) : State :=
  match s.frame.expected with
  | some x => if s.running && s.kind = 0 && decide (x.toNat ≤ s.time) then s.masterTick x none else s
  | none => s

/-- INTERNAL_TICK (03 R42). -/
def execInternalTick (s : State) : Out := act s internalTick

/-- FRAME_IN_EDGE: a rising edge on FRAME_IN is sampled now; its instant is 80 ns later (03 R42). -/
def execFrameInEdge (s : State) : Out := act s (fun s => s.tickEvent 1 ⟨s.clock.time + 80, none⟩)

/-- GPTP_BOUNDARY: the port's gPTP time reached a multiple of PERIOD (03 R42, R45). A boundary of a port that is not synchronised is no
event: it counts as missing when its time is up (R44). -/
def gptpBoundary (p : Nat) (j : GptpMove) (s : State) : State :=
  if s.running && s.kind = 2 && s.srcPort = p then
    let s := if j = .ran then s else (s.count16 (frm 0x88)).raise (frm 0) 2
    if j = .stepBack || !s.bit (tsp p 0x48) 1 then s else s.tickEvent 2 ⟨s.clock.time + 80, none⟩
  else s

/-- The step that a new offset of a gPTP domain makes in the time of the port that FRM.SRC selects (03 R45; 14 R375): backwards, or
forwards past one or more of the instants at which that time, less PHASE, is a multiple of PERIOD. A forward step past none is no
step for R45. -/
def State.gptpMove (s : State) (old new : W64) : GptpMove :=
  let at_ := fun (o : W64) => ((s.clock.time.toNat : Int) + o.toInt - s.fld (frm 0x68) 0 27) / s.period
  if new.toInt < old.toInt then .stepBack
  else if at_ old < at_ new then .stepForward
  else .ran

/-- A gPTP step of domain `k` at the tick source (03 R45; 14 R375). -/
def State.gptpStep (s : State) (k : Nat) (old new : W64) : State :=
  if s.fld (tsp s.srcPort 0x48) 0 1 = k && s.gptpMove old new != .ran then gptpBoundary s.srcPort (s.gptpMove old new) s else s

/-- A write of TSP.GP_CFG: when software reports that the port which FRM.SRC selects is synchronised, COARSE clears (03 R41; 14
R375). -/
def State.writeGpCfg (s : State) (p : Nat) (v : W32) : State :=
  if bitOf v 1 && s.kind = 2 && s.srcPort = p then s.setBit (tim 0x4C) 0 false else s

/-- GPTP_BOUNDARY (03 R45). -/
def execGptpBoundary (p : Fin 8) (j : GptpMove) (s : State) : Out := act s (gptpBoundary p.val j)

/-- Judge the events that arrived and were not accepted, against a new expectation (03 R44). -/
def State.rejudge (s : State) : State :=
  let l := s.frame.events
  l.foldl (fun s e => s.judgeTick e) { s with frame := { s.frame with events := [] } }

/-- The active source values: SRC, PERIOD, PHASE and TOL. -/
def State.sourceRegs (s : State) : List W32 := [0x60, 0x64, 0x68, 0x6C].map (fun o => s.reg (frm o))

/-- TICK_MISS: TIME has reached expected + TOL with no accepted event (03 R44). A hold-over tick leaves the next one expected at the
previous expectation + PERIOD, but when its commit changes the source values, at its own instant + the new PERIOD (R48). -/
def tickMiss (s : State) : State :=
  match s.frame.expected with
  | some x =>
    if s.running && s.kind != 0 && s.frame.due.isNone && !s.frame.late && decide (x.toNat + s.tol ≤ s.time) then
      let s := (s.count16 (frm 0x80)).raise (frm 0) 0
      if s.bit (frm 0x40) 1 then
        let t := (s.masterTick (x + BitVec.ofNat 64 s.tol) none).setBit (frm 0x44) 1 true
        (if t.sourceRegs = s.sourceRegs then
          { t with frame := { t.frame with expected := some (x + BitVec.ofNat 64 t.period) } }
        else t).rejudge
      else ({ s with frame := { s.frame with late := true } }).rejudge
    else s
  | none => s

/-- TICK_MISS (03 R44). -/
def execTickMiss (s : State) : Out := act s tickMiss

/-- TIME has moved: a tick whose instant it has reached is made (03 R42). -/
def State.dueTick (s : State) : State :=
  match s.frame.due with
  | some e => if decide (e.instant.toNat ≤ s.time) then (s.masterTick e.instant e.fnum).rejudge else s
  | none => s

/-- The first internal tick instant after a start (03 R43). -/
def firstInternal (next time per : Nat) : Nat :=
  if time < next then next else next + ((time - next) / per + 1) * per

/-- The windows that core `n` entered. -/
def State.winsOf (s : State) (n : Nat) : List WinRun := SMap.get [] s.frame.wins n
def State.setWins (s : State) (n : Nat) (l : List WinRun) : State :=
  { s with frame := { s.frame with wins := SMap.set [] s.frame.wins n l } }

/-- No window of the frame raises an event any more; the latest one entered is still shown (03 R47, R54). -/
def State.stopWindows (s : State) (n : Nat) : State :=
  s.setWins n (((s.winsOf n).filter (fun w => !w.old)).map (fun w => { w with ended := true, closed := true }))

/-- Stop ticks: window events stop, regulators become unmetered and release what they hold, an armed or checking commit is
cancelled (03 R47). -/
def State.stopFrames (s : State) : State :=
  let s := s.setBit (frm 0x44) 0 false
  let s := { s with frame := { s.frame with
    expected := none, late := false, events := [], due := none, msgs := [], metered := [], zeroSeen := [] } }
  let s := (List.range 192).foldl (fun s n => s.stopWindows n) s
  let s := (List.range 7).foldl
    (fun s c => (cabRegulators c).foldl (fun s rg => (s.clearRegs (rg + 0x700) (rg + 0xA00)).release rg) s) s
  s.cancelCommit

/-- A write of FRM.CTL (03 R47). -/
def State.writeFrmCtl (s : State) (v : W32) : State :=
  let was := s.running
  let ok := s.sourceOk (s.reg (frm 0x60)).toNat s.period (s.fld (frm 0x68) 0 27) s.tol
  let s := s.setReg (frm 0x40) ((v &&& 6) ||| (if was then 1 else 0))
  if bitOf v 0 then
    if was then s
    else if ok then
      let s := s.setBit (frm 0x40) 0 true
      { s with frame := { s.frame with
        expected := if s.kind = 0 then some (BitVec.ofNat 64 (firstInternal (s.reg64 (frm 0x58)) s.time s.period)) else none,
        late := false, events := [], due := none } }
    else s.raise (frm 0) 4
  else (s.setBit (frm 0x40) 0 false).stopFrames

/-- A write of FRM.FNUM (03 R46). -/
def State.writeFnum (s : State) (v : W32) : State := if s.running then s.raise (frm 0) 3 else s.setReg (frm 0x48) v

/-! ### Windows -/

/-- The slot register WCUR of a core; WOVCNT is the next word (03 R53). -/
def wcur (n : Nat) : Nat := winPage n + 0x40 + 0x10 * (n % 4)

/-- The window state of a core (04 R115): REMAIN, PARTID, SEEN, IN and INDEX of the latest window entered this frame; IN while TIME lies
inside it (03 R54). -/
def State.windowState (s : State) (n : Nat) : Nat :=
  match ((s.winsOf n).filter (fun w => !w.old && !w.lost)).reverse with
  | [] => 0
  | w :: _ =>
    (if w.start.toNat ≤ s.time ∧ s.time < w.stop.toNat then (min 0xFFFFFFFF (w.stop.toNat - s.time)) * 4294967296 + 16 else 0) + 256 * w.part.toNat + 32 + w.idx

/-- WCUR of a core: the window state without REMAIN and SEEN (03 R53, 04 R115). -/
def State.winCur (s : State) (n : Nat) : Nat := s.windowState n % 32 + 256 * (s.windowState n / 256 % 64)

/-- The tick instant of the frame in progress in a cabinet. -/
def State.tickInstant (s : State) (c : Nat) : Nat := s.reg64 (frr c 0x44)

/-- Does a valid window of PARTID `p` with this START stand in the core's active table? -/
def State.hasWindow (s : State) (n : Nat) (start : Nat) (p : PartId) : Bool :=
  (List.range 16).any (fun i =>
    let a := winEntry n i false
    s.winValid a && s.winStart a == start && s.winPart a == p)

/-- A core bound as shadow has no window events (09 R257). -/
def State.isShadow (s : State) (n : Nat) : Bool := (s.core n).bunk.bound && (s.core n).bunk.shadow

/-- Raise a window source, not at a bound shadow (09 R257). -/
def State.raiseWin (s : State) (n b : Nat) : State := if s.isShadow n then s else s.raiseL3 n b

/-- Evaluate a window's grace point (03 R55). -/
def State.graceCheck (s : State) (n : Nat) (w : WinRun) : State :=
  if s.domState n = 3 && (s.core n).part = w.part && !w.contd && !s.isShadow n then
    ((s.count16 (wcur n + 4)).raiseWin n 3).raise (winPage n) 0 (some w.part)
  else s

/-- WINDOW_START: TIME has reached tick instant + START of a valid window (03 R54). -/
def windowStart (n i : Nat) (s : State) : State :=
  let a := winEntry n i false
  let t := s.tickInstant (n / 48) + s.winStart a
  if s.running && s.bit (frm 0x44) 0 && s.domUp (264 + n / 48) && s.winValid a && decide (t ≤ s.time)
      && !(s.winsOf n).any (fun w => w.idx == i && !w.old) then
    let p := s.winPart a
    let s := s.setWins n (s.winsOf n ++ [⟨i, BitVec.ofNat 64 (t + s.winLen a), p, false, 0, false, false, false, false, BitVec.ofNat 64 t⟩])
    s.raiseWin n 1
  else s

/-- Put a window among those of a core in the order of their START. -/
def insertWin (x : Nat × WinRun) : List (Nat × WinRun) → List (Nat × WinRun)
  | [] => [x]
  | y :: l => if x.1 < y.1 then x :: y :: l else y :: insertWin x l

/-- The windows of a core whose START has passed when its cabinet wakes in the middle of a frame: one in progress is entered without
an event and raises its end; one that has ended raises none (03 R54; 17 R472; assumption log 74). -/
def State.rejoinWindows (s : State) (n : Nat) : State :=
  let t := s.tickInstant (n / 48)
  let l := (List.range 16).foldl (fun (l : List (Nat × WinRun)) i =>
    let a := winEntry n i false
    let e := t + s.winStart a + s.winLen a
    let past := decide (e ≤ s.time)
    if s.winValid a && decide (t + s.winStart a ≤ s.time) then
      insertWin (s.winStart a, ⟨i, BitVec.ofNat 64 e, s.winPart a, past, 0, false, past, false, past, BitVec.ofNat 64 (t + s.winStart a)⟩) l
    else l) []
  s.setWins n (if s.running && s.bit (frm 0x44) 0 then l.map (·.2) else [])

/-- WINDOW_START (03 R54). -/
def execWindowStart (n : Fin 192) (w : Fin 16) (s : State) : Out := act s (windowStart n.val w.val)

/-- End a window at TIME `e`: bit 2 is raised, the grace point is fixed (03 R54, R55). -/
def State.endWindow (s : State) (n : Nat) (e : Nat) (contd : Bool) (w : WinRun) : WinRun × State :=
  let s := s.force (winPage n) 0
  ({ w with ended := true, stop := BitVec.ofNat 64 e, grace := BitVec.ofNat 64 (e + s.fld (frr (n / 48) 0x4C) 0 16), contd := contd },
    s.raiseWin n 2)

/-- WINDOW_END: TIME has reached tick instant + START + LEN (03 R54). -/
def windowEnd (n i : Nat) (s : State) : State :=
  match (s.winsOf n).findIdx? (fun w => w.idx = i && !w.ended && !w.old) with
  | none => s
  | some j =>
    match (s.winsOf n)[j]? with
    | none => s
    | some w =>
      if s.time < w.stop.toNat then s
      else
        let contd := s.hasWindow n (w.stop.toNat - s.tickInstant (n / 48)) w.part
        let r := s.endWindow n w.stop.toNat contd w
        r.2.setWins n (listSet (r.2.winsOf n) j r.1)

/-- WINDOW_END (03 R54). -/
def execWindowEnd (n : Fin 192) (w : Fin 16) (s : State) : Out := act s (windowEnd n.val w.val)

/-- WINDOW_GRACE_POINT: TIME has reached the grace point of a window that ended, the oldest such of that entry (03 R55). -/
def gracePoint (n i : Nat) (s : State) : State :=
  match (s.winsOf n).findIdx? (fun w => w.idx = i && w.ended && !w.closed && decide (w.grace.toNat ≤ s.time)) with
  | none => s
  | some j =>
    match (s.winsOf n)[j]? with
    | none => s
    | some w => (s.setWins n (listSet (s.winsOf n) j { w with closed := true })).graceCheck n w

/-- WINDOW_GRACE_POINT (03 R55). -/
def execWindowGracePoint (n : Fin 192) (w : Fin 16) (s : State) : Out := act s (gracePoint n.val w.val)

/-- One window of the ending frame at a tick instant: what is left of it, if anything (03 R54, R55). -/
def State.tickWindow (s : State) (n instant : Nat) (w : WinRun) : List WinRun × State :=
  if w.old then ([], if w.closed then s else s.graceCheck n w)
  else if !w.ended then
    let at_ := min w.stop.toNat instant
    let contd := if w.stop.toNat < instant then w.contd else s.hasWindow n 0 w.part
    let r := s.endWindow n at_ contd w
    ([{ r.1 with old := true }], r.2)
  else if w.closed then ([], s)
  else if w.stop.toNat < instant then ([], s.graceCheck n w)
  else ([{ w with old := true, contd := s.hasWindow n 0 w.part }], s)

/-- The windows of a core at a tick instant, after the banks of a commit are active (03 R54). -/
def State.tickWindows (s : State) (n instant : Nat) : State :=
  let r := (s.winsOf n).foldl
    (fun (acc : List WinRun × State) w =>
      let x := acc.2.tickWindow n instant w
      (acc.1 ++ x.1, x.2)) ([], s)
  r.2.setWins n r.1

/-! ### Ticks at a receiver -/

/-- The regulator steps at a tick instant (03 R61): RG_EXH to RG_PREV, used counts to 0, held traffic released. -/
def State.tickRegulator (s : State) (rg : Nat) : State :=
  let s := (s.setReg (rg + 0x50) (s.reg (rg + 0x48))).setReg (rg + 0x54) (s.reg (rg + 0x4C))
  let s := (s.setNat (rg + 0x48) 0).setNat (rg + 0x4C) 0
  (s.clearRegs (rg + 0x700) (rg + 0xA00)).release rg

/-- A core at a tick instant: run-ahead issue stops (06 R173), frame-end records (09 R259), windows, L3 bit 0 (03 R54). -/
def State.tickCore (s : State) (n instant : Nat) : State :=
  let s := s.updCore n (fun c => { c with ra := c.ra.map (fun r => { r with stopped := true }) })
  let s := s.tickWindows n instant
  s.raiseWin n 0

/-- The receiver of a cabinet takes a tick (03 R51, R54, R61, R66). -/
def State.takeTick (s : State) (m : TickMsg) : State :=
  let c := m.cab
  let ended := s.reg (frr c 0x40)
  let s := (s.setReg (frr c 0x40) m.fnum).setReg64 (frr c 0x44) m.instant.toNat
  let s := if c < 4 then (List.range 48).foldl (fun s k => s.frameEnd (48 * c + k) ended) s else s
  let s := match s.frame.owed.find? (fun (o : Owed) => o.cab = c) with
    | some o =>
      let s := s.commitCabinet c
      let s := s.setReg (cmr c 0x40) (if o.lost then m.fnum else o.target)
      { s with frame := { s.frame with owed := s.frame.owed.filter (fun (o : Owed) => o.cab ≠ c) } }
    | none => s
  let s := { s with frame := { s.frame with
    metered := insertOnce c s.frame.metered, zeroSeen := s.frame.zeroSeen.filter (fun k => k.1 / 16777216 ≠ c) } }
  let s := (cabRegulators c).foldl (fun s rg => s.tickRegulator rg) s
  let s := (cabRouters c).foldl (fun s r => s.snapProbe r) s
  if c < 4 then (List.range 48).foldl (fun s k => s.tickCore (48 * c + k) m.instant.toNat) s else s

/-- TICK_MESSAGE: the receiver of a cabinet acts at the tick instant on a message of which copy A or copy B is intact; with
neither it takes no tick (03 R51). A cabinet in Stop takes no tick and owes no commit for it. -/
def tickMessage (c : Nat) (a b : Bool) (s : State) : State :=
  match s.frame.msgs.find? (fun m => m.cab = c) with
  | none => s
  | some m =>
    if s.time < m.instant.toNat then s
    else
      let s := { s with frame := { s.frame with msgs := s.frame.msgs.erase m } }
      if !s.domUp (264 + c) then
        { s with frame := { s.frame with owed := s.frame.owed.filter (fun (o : Owed) => o.cab ≠ c) } }
      else
        let s := s.force (frr c 0) 0
        if a || b then s.takeTick m
        else
          let s := { s with frame := { s.frame with
            owed := s.frame.owed.map (fun (o : Owed) => if o.cab = c then { o with lost := true } else o) } }
          s.raise (frr c 0) 0

/-- TICK_MESSAGE (03 R51). -/
def execTickMessage (c : Fin 7) (a b : Bool) (s : State) : Out := act s (tickMessage c.val a b)

/-! ### TIME -/

/-- TIM.ADJ is signed (03 R38). -/
def State.adj (s : State) : Int := sextNat (s.reg (tim 0x48)).toNat 32

/-- One increment of TIME: the accumulator adds ADJ; a carry adds 2, a borrow 0, otherwise 1; a pending step is added on
top (03 R38, R40). -/
def State.advance (s : State) : State :=
  let sum : Int := (s.clock.acc.toNat : Int) + s.adj
  let inc : Nat := if sum < 0 then 0 else if (4294967296 : Int) ≤ sum then 2 else 1
  let step := match s.clock.step with
    | some x => x
    | none => 0
  { s with clock := { s.clock with
      acc := BitVec.ofInt 32 sum, time := s.clock.time + BitVec.ofNat 64 inc + step, step := none } }

/-- TIME_INCREMENT: a nanosecond passes; a WAIT whose TIME has come ends, a tick whose instant has come is made, ERR_HB may
toggle (03 R38; 04 R111; 18 R501). -/
def timeIncrement (s : State) : State :=
  if s.clock.locked then
    let old := s.time
    let s := s.advance
    let s := s.hbTick old
    let s := (List.range 192).foldl (fun s n => s.endWait n) s
    s.dueTick
  else s

/-- TIME_INCREMENT (03 R38). -/
def execTimeIncrement (s : State) : Out := act s timeIncrement

/-- A write of TIM.ADJ (03 R39). -/
def State.writeAdj (s : State) (v : W32) : State :=
  let x := sextNat v.toNat 32
  if x < -0x20C49B ∨ 0x20C49B < x then s.raise (tim 0) 0 else s.setReg (tim 0x48) v

/-- A write of TIM.STEP_HI (03 R40). -/
def State.writeStep (s : State) (v : W32) : State :=
  if s.running then s.raise (tim 0) 1
  else
    let x := BitVec.ofNat 64 ((s.reg (tim 0x50)).toNat + 4294967296 * v.toNat)
    { s with clock := { s.clock with step := some (x + s.clock.step.getD 0) } }

end Sys2Proof.Machine
end

