-- ==== Sys2Proof/Machine/Aes.lean ====
section
/-! DEFINITION. AES and the modes that the transfer engines and the inline protection engines use (13 R350; 11 R305, R314).  The spec
names the standards (FIPS 197; SP 800-38A, B, D, E; IEEE 1619); their contents are PRESUMED (assumption log 18). -/

namespace Sys2Proof.Machine

/-- The exclusive or of two byte strings, as long as the shorter. -/
def xorBytes (a b : List Byte) : List Byte := a.zipWith (· ^^^ ·) b

/-- A byte string cut or padded with zeros to `n` bytes. -/
def fit (n : Nat) (l : List Byte) : List Byte := l.take n ++ List.replicate (n - l.length) 0

/-- Cut a byte string into pieces of `n` bytes. -/
def pieces (n : Nat) (l : List Byte) : List (List Byte) :=
  (List.range ((l.length + n - 1) / n)).map (fun i => (l.drop (n * i)).take n)

/-- A byte string as a big-endian number, and a number as `n` bytes, the most significant first. -/
def beNat (l : List Byte) : Nat := leNat l.reverse
def beBytesOf (n x : Nat) : List Byte := (leBytes n x).reverse

/-! ### The cipher -/

/-- Multiplication by x and multiplication in the field of AES. -/
def gfDouble (a : Byte) : Byte := (a <<< 1) ^^^ (if a.getLsbD 7 then 0x1B else 0)
def gfMul (a b : Byte) : Byte :=
  ((List.range 8).foldl (fun (r : Byte × Byte) i => (if b.getLsbD i then r.1 ^^^ r.2 else r.1, gfDouble r.2)) (0, a)).1
/-- The inverse, a to the 254th power; that of 0 is 0. -/
def gfInv (a : Byte) : Byte := ((List.range 7).foldl (fun (r : Byte × Byte) _ => let s := gfMul r.2 r.2; (gfMul r.1 s, s)) (1, a)).1

/-- The substitution of a byte, and its inverse. -/
def aesSub (x : Byte) : Byte :=
  let a := gfInv x
  a ^^^ a.rotateLeft 1 ^^^ a.rotateLeft 2 ^^^ a.rotateLeft 3 ^^^ a.rotateLeft 4 ^^^ 0x63
def aesUnsub (x : Byte) : Byte := gfInv (x.rotateLeft 1 ^^^ x.rotateLeft 3 ^^^ x.rotateLeft 6 ^^^ 0x05)

/-- The words of the key schedule after the key's own, newest first: `nk` words to the key, `i` the next word's number. -/
def aesExpand (nk : Nat) (rcon : Byte) (i : Nat) (w : List (List Byte)) : Nat → List (List Byte)
  | 0 => w
  | left + 1 =>
    let last := w.headD []
    let t :=
      if i % nk = 0 then xorBytes ((last.rotateLeft 1).map aesSub) [rcon, 0, 0, 0]
      else if nk = 8 ∧ i % nk = 4 then last.map aesSub
      else last
    aesExpand nk (if i % nk = 0 then gfDouble rcon else rcon) (i + 1) (xorBytes (w.getD (nk - 1) []) t :: w) left

/-- The round keys of a key of 16 or 32 bytes. -/
def aesKeys (key : List Byte) : List (List Byte) :=
  let nk := key.length / 4
  pieces 16 (aesExpand nk 1 nk (pieces 4 key).reverse (4 * (nk + 7) - nk)).reverse.flatten

/-- The rows are shifted: to the left, or back. -/
def aesShift (back : Bool) (l : List Byte) : List Byte :=
  (List.range 16).map (fun i => let r := i % 4; l.getD ((i + 4 * (if back then 4 - r else r)) % 16 / 4 * 4 + r) 0)

/-- Each column is multiplied by the circulant matrix with first row `m`. -/
def aesMix (m : List Byte) (l : List Byte) : List Byte :=
  (List.range 16).map (fun i =>
    (List.range 4).foldl (fun a j => a ^^^ gfMul (m.getD ((4 + j - i % 4) % 4) 0) (l.getD (i / 4 * 4 + j) 0)) 0)

/-- One block is encrypted under the round keys. -/
def aesEncrypt (ks : List (List Byte)) (blk : List Byte) : List Byte :=
  let mid := ((ks.drop 1).dropLast).foldl (fun b k => xorBytes (aesMix [2, 3, 1, 1] (aesShift false (b.map aesSub))) k) (xorBytes blk (ks.headD []))
  xorBytes (aesShift false (mid.map aesSub)) (ks.getLastD [])

/-- One block is decrypted. -/
def aesDecrypt (ks : List (List Byte)) (blk : List Byte) : List Byte :=
  let mid := ((ks.drop 1).dropLast).reverse.foldl
    (fun b k => aesMix [14, 11, 13, 9] (xorBytes ((aesShift true b).map aesUnsub) k)) (xorBytes blk (ks.getLastD []))
  xorBytes ((aesShift true mid).map aesUnsub) (ks.headD [])

/-! ### Modes -/

/-- CBC over whole blocks. -/
def cbcEncrypt (ks : List (List Byte)) (iv : List Byte) (bs : List (List Byte)) : List Byte :=
  (bs.foldl (fun (r : List Byte × List (List Byte)) b => let c := aesEncrypt ks (xorBytes r.1 b); (c, c :: r.2)) (iv, [])).2.reverse.flatten
def cbcDecrypt (ks : List (List Byte)) (iv : List Byte) (bs : List (List Byte)) : List Byte :=
  ((iv :: bs).zipWith (fun p c => xorBytes p (aesDecrypt ks c)) bs).flatten

/-- A counter block `k` blocks further on, a big-endian number of which the last `w` bytes count. -/
def ctrBlock (w : Nat) (iv : List Byte) (k : Nat) : List Byte :=
  iv.take (16 - w) ++ beBytesOf w (beNat (iv.drop (16 - w)) + k)

/-- The key stream of a counter mode from a counter block, applied to a text. -/
def ctrCrypt (w : Nat) (ks : List (List Byte)) (iv : List Byte) (x : List Byte) : List Byte :=
  ((pieces 16 x).zipIdx.map (fun b => xorBytes b.1 (aesEncrypt ks (ctrBlock w iv b.2)))).flatten

/-- Multiplication in the field of GCM, on blocks as big-endian numbers. -/
def ghashMul (x y : Nat) : Nat :=
  ((List.range 128).foldl (fun (r : Nat × Nat) i =>
    (if x.testBit (127 - i) then r.1 ^^^ r.2 else r.1, if r.2 % 2 = 1 then (r.2 / 2) ^^^ (0xE1 * 2 ^ 120) else r.2 / 2)) (0, y)).1

/-- The tag of GCM for a 96-bit IV, additional data and ciphertext. -/
def gcmTag (ks : List (List Byte)) (iv aad ct : List Byte) : List Byte :=
  let h := beNat (aesEncrypt ks (fit 16 []))
  let bs := (pieces 16 aad ++ pieces 16 ct).map (fit 16) ++ [beBytesOf 8 (8 * aad.length) ++ beBytesOf 8 (8 * ct.length)]
  let g := bs.foldl (fun a b => ghashMul (a ^^^ beNat b) h) 0
  xorBytes (beBytesOf 16 g) (aesEncrypt ks (iv ++ [0, 0, 0, 1]))

/-- GCM's cipher: the key stream from the counter block after the first. -/
def gcmCrypt (ks : List (List Byte)) (iv x : List Byte) : List Byte := ctrCrypt 4 ks (iv ++ [0, 0, 0, 2]) x

/-- A tweak for the next block: multiplied by x, the lowest byte first. -/
def xtsNext (t : Nat) : Nat := (2 * t) % 2 ^ 128 ^^^ (if t.testBit 127 then 0x87 else 0)

/-- XTS over whole blocks of one data unit: the first key for the data, the second for the tweak. -/
def xtsCrypt (dec : Bool) (key tweak x : List Byte) : List Byte :=
  let n := key.length / 2
  let ks := aesKeys (key.take n)
  let t0 := leNat (aesEncrypt (aesKeys (key.drop n)) tweak)
  ((pieces 16 x).foldl (fun (r : Nat × List (List Byte)) b =>
    let t := leBytes 16 r.1
    let y := if dec then aesDecrypt ks (xorBytes b t) else aesEncrypt ks (xorBytes b t)
    (xtsNext r.1, xorBytes y t :: r.2)) (t0, [])).2.reverse.flatten

/-- CMAC. -/
def cmac (key msg : List Byte) : List Byte :=
  let ks := aesKeys key
  let dbl := fun (x : Nat) => (2 * x) % 2 ^ 128 ^^^ (if x.testBit 127 then 0x87 else 0)
  let k1 := dbl (beNat (aesEncrypt ks (fit 16 [])))
  let bs := if msg = [] then [[]] else pieces 16 msg
  let last := bs.getLastD []
  let end_ := if last.length = 16 then xorBytes last (beBytesOf 16 k1) else xorBytes (fit 16 (last ++ [0x80])) (beBytesOf 16 (dbl k1))
  aesEncrypt ks (xorBytes end_ (bs.dropLast.foldl (fun c b => aesEncrypt ks (xorBytes c b)) (fit 16 [])))

end Sys2Proof.Machine
end

