-- ==== Sys2Proof/Machine/Mem.lean ====
section
/-! DEFINITION. Memory controllers and inline protection engines (11). -/

namespace Sys2Proof.Machine

/-! ### Where a line lives -/

/-- The exclusive or of bits of an address. -/
def xorBits (a : Nat) (l : List Nat) : Nat := (l.filter (fun i => a.testBit i)).length % 2

/-- The memory controller of a visible address (R301). -/
def mcOf (a : Nat) : Nat :=
  xorBits a [8, 12, 16, 20, 24, 28, 32, 36, 40] + 2 * xorBits a [9, 13, 17, 21, 25, 29, 33, 37, 41]
    + 4 * xorBits a [10, 14, 18, 22, 26, 30, 34, 38] + 8 * xorBits a [11, 15, 19, 23, 27, 31, 35, 39]

/-- The local address in its controller (R301). -/
def localOf (a : Nat) : Nat := a / 4096 * 256 + a % 256

/-- The home slice of a visible address (08 R220). -/
def homeSlice (a : Nat) : Nat := 2 * mcOf a + xorBits a [6, 14, 22, 30, 38]

/-- Channel, bank group and bank, row and column of a local address (R302). -/
def dramChannel (l : Nat) : Nat := xorBits l [6, 15, 24]
def dramBank (l : Nat) : Nat := (l / 128 % 16) ^^^ (l / 131072 % 16)
def dramColumn (l : Nat) : Nat := l / 2048 % 32
def dramRow (l : Nat) : Nat := l / 65536

/-- The rank of a local address with `c` bytes in the controller (R302): with two ranks the highest bit of L within the capacity, for every
line has one L, and its two channels share the controller's range of it (DEDUCED). -/
def dramRank (two : Bool) (c l : Nat) : Nat := if two then l / (c / 2) % 2 else 0

/-- Tag address of the data line at local address `l`, with `c` bytes in the controller (R303). -/
def tagAddress (c l : Nat) : Nat := 7 * c / 8 + 8 * (l / 64)
/-- The counter tree's base (R303). -/
def ctrBase (c : Nat) : Nat := 63 * c / 64
/-- The local address of a counter block of level 0, 1 or 2 (R303, R313). -/
def ctrAddress (c level block : Nat) : Nat :=
  ctrBase c + (match level with | 0 => 0 | 1 => 0x1000000 | _ => 0x1040000) + 64 * block

/-- Is the address in visible DRAM (R300, 02 R19)? -/
def State.isDram (s : State) (a : Nat) : Bool := decide (a < s.mem.vtop)

/-- A line's 64 bytes as one number, the lowest address least significant. -/
def lineData (m : Memory) (line : Nat) : BitVec 512 := BitVec.ofNat 512 (leNat (m.readN (64 * line) 64))

/-- The memory with a line replaced. -/
def setLine (m : Memory) (line : Nat) (d : BitVec 512) : Memory := m.writeN (64 * line) (leBytes 64 d.toNat)

/-- IPE page of controller `m`, and its MC page. -/
def ipe (m o : Nat) : Nat := mcPage m 1 o
def mc (m o : Nat) : Nat := mcPage m 0 o

/-- Capacity per controller in bytes (R322 CAP). -/
def State.capacity (s : State) (m : Nat) : Nat := 2147483648 * 2 ^ s.fld (mc m 0x40) 4 2

/-- The rank in which controller `m` keeps local address `l` (R302, R322 RANKS). -/
def State.rankOf (s : State) (m l : Nat) : Nat := dramRank (s.bit (mc m 0x40) 8) (s.capacity m) l

/-! ### Keys, sealed regions, counters -/

/-- The key that a slot holds; 0 where it is empty (R305). -/
def State.slotKey (s : State) (k : Nat) : Nat := SMap.get 0 s.mem.keys k

/-- The slot of a write to an address: the first valid range that contains it, else slot 0 (R306). -/
def State.slotOf (s : State) (m a : Nat) : Nat :=
  match firstWhere 64 (fun r =>
    let b := ipe m (0x200 + 8 * r)
    s.bit b 31 && decide (s.fld b 0 21 ≤ a / 2097152) && decide (a / 2097152 ≤ s.fld (b + 4) 0 21)) with
  | some r => s.fld (ipe m (0x204 + 8 * r)) 22 10
  | none => 0

/-- Base, size and tree offset of a sealed region in 64 MiB units, if valid (R311). -/
def State.sealRegion (s : State) (m n : Nat) : Option (Nat × Nat × Nat) :=
  let r := ipe m (0x100 + 4 * n)
  if s.bit r 31 then some (s.fld r 0 16, 2 ^ s.fld r 16 4, s.fld r 20 8) else none

/-- The tree index of a sealed address; none where no valid region holds it (R313). -/
def State.treeIndex (s : State) (m a : Nat) : Option Nat :=
  (List.range 4).findSome? (fun n =>
    match s.sealRegion m n with
    | some (b, z, o) =>
      if b * 67108864 ≤ a ∧ a < (b + z) * 67108864 then some ((o * 4194304 + localOf a - b * 67108864 / 16) / 64) else none
    | none => none)

/-- Key of a counter block in the state. -/
def ctrKey (m level block : Nat) : Nat := (m * 4 + level) * 1048576 + block

/-- Increment a minor counter; at the wrap MAJOR increments and the re-encryption of the block's other lines or child blocks starts, for the
root's counters on the die as well (R315). -/
def State.bumpMinor (s : State) (m level block idx : Nat) : State :=
  let k := ctrKey m level block
  let b : CtrBlock := SMap.get {} s.mem.ctrs k
  let v := (SMap.get 0 b.minors idx + 1) % 64
  let b : CtrBlock := { major := if v = 0 then b.major + 1 else b.major, minors := SMap.set 0 b.minors idx v }
  let s := { s with mem := { s.mem with ctrs := SMap.set {} s.mem.ctrs k b } }
  if v = 0 then
    (({ s with mem := { s.mem with reenc := s.mem.reenc ++ [({ mc := m, level := level, block := block, idx := idx } : Reenc)] } }).setBit (ipe m 0x44) 2 true).count (ipe m 0x4C)
  else s

/-- The blocks of a counter cache, 1,024 of them (R315). -/
def ctrCacheSize : Nat := 1024

/-- Bring a counter block into the counter cache as the most recent one, its parent first; a dirty block that leaves
increments its parent's minor counter (R315).  The cache replaces the least recently used block (DESIGN CHOICE, assumption
log 12).  `fuel` bounds the chain of parents and victims. -/
def State.ctrTouch (s : State) (m level block : Nat) (dirty : Bool) : Nat → State
  | 0 => s
  | fuel + 1 =>
    let key := level * 1048576 + block
    let c := SMap.get [] s.mem.ctrCache m
    match c.find? (fun e => e.1 = key) with
    | some e =>
      let c := (key, e.2 || dirty) :: c.filter (fun e => e.1 ≠ key)
      { s with mem := { s.mem with ctrCache := SMap.set [] s.mem.ctrCache m c } }
    | none =>
      let s := s.count (ipe m 0x48)
      let s := if level < 2 then s.ctrTouch m (level + 1) (block / 64) false fuel else s
      let c := (key, dirty) :: SMap.get [] s.mem.ctrCache m
      let out := c.drop ctrCacheSize
      let s := { s with mem := { s.mem with ctrCache := SMap.set [] s.mem.ctrCache m (c.take ctrCacheSize) } }
      out.foldl
        (fun (s : State) (e : Nat × Bool) =>
          if e.2 then
            let lv := e.1 / 1048576
            let bl := e.1 % 1048576
            if lv < 2 then (s.bumpMinor m (lv + 1) (bl / 64) (bl % 64)).ctrTouch m (lv + 1) (bl / 64) true fuel
            else s.bumpMinor m 3 0 bl
          else s)
        s

/-- Is a counter block in the counter cache, where it is trusted (R315)? -/
def State.ctrCached (s : State) (m level block : Nat) : Bool :=
  (SMap.get [] s.mem.ctrCache m).any (fun e => e.1 = level * 1048576 + block)

/-- Every dirty block leaves the cache: those of level 0 first, then the parents that this makes dirty, up to the root (R315). -/
def State.ctrFlush (s : State) (m : Nat) : State :=
  let s := (List.range 3).foldl
    (fun (s : State) lv =>
      ((SMap.get [] s.mem.ctrCache m).filter (fun e => e.2 && e.1 / 1048576 = lv)).foldl
        (fun (s : State) e =>
          let bl := e.1 % 1048576
          if lv < 2 then (s.bumpMinor m (lv + 1) (bl / 64) (bl % 64)).ctrTouch m (lv + 1) (bl / 64) true 8 else s.bumpMinor m 3 0 bl) s) s
  { s with mem := { s.mem with ctrCache := SMap.set [] s.mem.ctrCache m [] } }

/-- Must an access to a line wait for a re-encryption: of the line, one of the other lines of a level 0 block, or of a counter block on its
path that must be read from DRAM (R315)? -/
def State.reencWaits (s : State) (m line : Nat) : Bool :=
  match s.treeIndex m (64 * line) with
  | none => false
  | some t => s.mem.reenc.any (fun r =>
      let child := t / 64 ^ r.level
      r.mc = m && child / 64 = r.block && child % 64 != r.idx && (r.level = 0 || !s.ctrCached m (r.level - 1) child))

/-- A sealed write increments its counter (R315). -/
def State.bumpCounter (s : State) (m t : Nat) : State := (s.ctrTouch m 0 (t / 64) true 8).bumpMinor m 0 (t / 64) (t % 64)

/-! ### What DRAM stores (R304, R305, R314) -/

/-- The bytes of key number `k`, from `off` on: those drawn at its install (R419). -/
def keyMaterial (k off n : Nat) : List Byte := (List.range n).map (fun i => Config.byte (k - 1 + off + i))

/-- A counter {major, minor}, the minor in the lowest 6 bits (DEDUCED from the order of the pair, R305, R313). -/
def State.counterOf (s : State) (m level block idx : Nat) : Nat :=
  let b : CtrBlock := SMap.get {} s.mem.ctrs (ctrKey m level block)
  64 * b.major.toNat + SMap.get 0 b.minors idx

/-- A line's counter: of a sealed line, else 0. -/
def State.lineCounter (s : State) (m line : Nat) : Nat :=
  match s.treeIndex m (64 * line) with
  | some t => s.counterOf m 0 (t / 64) (t % 64)
  | none => 0

/-- The ciphertext of a line: AES-256-XTS under its slot's key pair, with PA[41:6] and the counter as tweak (R305). -/
def State.cipherLine (s : State) (m line : Nat) (t : LineTag) : List Byte :=
  xtsCrypt false (keyMaterial t.key 0 64) (leBytes 8 line ++ leBytes 8 (s.lineCounter m line)) (leBytes 64 (lineData s.mem.dram line).toNat)

/-- Tag bits 31:20: KSLOT, POISON, SEALED (R304). -/
def LineTag.fields (t : LineTag) : Nat := 4 * t.slot + 2 * b2n t.poison + b2n t.isSealed

/-- The 64-bit tag of a line (R304, R305): the MAC over the ciphertext, PA[41:6], tag bits 31:20 and the counter. -/
def State.tagWord (s : State) (m line : Nat) (t : LineTag) : BitVec 64 :=
  let c := s.cipherLine m line t
  let mac := beNat ((cmac (keyMaterial t.key 64 32)
    (c ++ leBytes 8 line ++ leBytes 2 t.fields ++ leBytes 8 (s.lineCounter m line))).take 4)
  let hi := BitVec.ofNat 53 (mac * 2097152 + t.fields * 512)
  hi ++ Config.lineEcc (BitVec.ofNat 512 (leNat c)) hi

/-- Bits 447:0 of a counter block: MAJOR in bits 55:0, minor i in bits 61 + 6i : 56 + 6i (R314). -/
def CtrBlock.word (b : CtrBlock) : Nat :=
  b.major.toNat + (List.range 64).foldl (fun r i => r + SMap.get 0 b.minors i * 2 ^ (56 + 6 * i)) 0

/-- The counter of a block's parent for it: in the next level, or the root (R313). -/
def State.parentCounter (s : State) (m level block : Nat) : Nat :=
  if level < 2 then s.counterOf m (level + 1) (block / 64) (block % 64) else s.counterOf m 3 0 block

/-- A counter block as DRAM stores it at its local address: the MAC, keyed by the engine key that the root of trust installed, covers bits
447:0, that address and the parent's counter (R314). -/
def State.blockWord (s : State) (m level block : Nat) : BitVec 512 :=
  let b : CtrBlock := SMap.get {} s.mem.ctrs (ctrKey m level block)
  let mac := beNat ((cmac (keyMaterial s.rot.treeKey 0 32)
    (leBytes 56 b.word ++ leBytes 8 (ctrAddress (s.capacity m) level block) ++ leBytes 8 (s.parentCounter m level block))).take 8)
  BitVec.ofNat 512 (mac * 2 ^ 448 + b.word)

/-- The tag line of a data line is brought into the tag cache of 4,096 lines (R304, assumption log 12). -/
def State.tagTouch (s : State) (m line : Nat) : State :=
  let t := localOf (64 * line) / 64 / 8
  let c := SMap.get [] s.mem.tagCache m
  let s := if c.contains t then s else s.count (mc m 0x5C)
  { s with mem := { s.mem with tagCache := SMap.set [] s.mem.tagCache m ((t :: c.filter (· ≠ t)).take 4096) } }

/-- How often the engine's tree has been initialised. -/
def State.tree (s : State) (m : Nat) : Nat := SMap.get 0 s.mem.trees m

/-! ### Writes and reads of lines -/

/-- The record of a line's tag. -/
def State.lineTag (s : State) (line : Nat) : Option LineTag := SMap.get none s.mem.tags line
def State.setTag (s : State) (line : Nat) (t : LineTag) : State :=
  { s with mem := { s.mem with tags := SMap.set none s.mem.tags line (some t) } }

/-- A write of a line at its controller under key slot `k` (R308), with the injections of R504. -/
def State.dramStore (s : State) (m line k : Nat) (d : BitVec 512) (poison : Bool) : State :=
  let s := (s.count (mc m 0x54)).force (ipe m 0) 4
  let empty := decide (s.slotKey k = 0)
  let s := if empty then s.raise (ipe m 0) 4 else s
  let ti := s.treeIndex m (64 * line)
  let s := match ti with
    | some t => s.bumpCounter m t
    | none => s
  let s := s.tagTouch m line
  let s := ((s.taint (ipe m 0) 0 line).taint (ipe m 0) 1 line).taint (ipe m 0) 2 line
  let s := if ti.isSome then s.taint (ipe m 0) 3 line else s
  let slot := if empty then 0 else k
  let s := s.setTag line
    { slot := slot, key := s.slotKey slot, poison := poison || empty, isSealed := ti.isSome, tree := s.tree m }
  { s with mem := { s.mem with dram := setLine s.mem.dram line (if empty then 0 else d) } }

/-- A write of a line that its controller accepts and performs at once: the slot is that of its address now (R306). -/
def State.dramWrite (s : State) (m line : Nat) (d : BitVec 512) (poison : Bool) : State :=
  s.dramStore m line (s.slotOf m (64 * line)) d poison

/-- Record a failed read: address and KIND in the FAIL registers (R309, R323); the corrected errors of rows 1 and 3 have no KIND and are not
recorded (DEDUCED: they are no failed line). -/
def State.failRead (s : State) (m line kind : Nat) : State :=
  let a := 64 * line
  (s.setNat (ipe m 0x58) a).setNat (ipe m 0x5C) (a / 4294967296 % 1024 + 65536 * kind)

/-- A detector of a read finds an error, by nature or by injection. -/
def State.readError (s : State) (m line base bit kind : Nat) : State :=
  let s := if s.tainted base bit line then s.found base bit line else s.raise base bit
  if kind = 0 then s else s.failRead m line kind

/-- The stored line stays wrong until it is written again: nothing rewrites it of the device's own accord (R309). -/
def State.spoil (s : State) (line kind : Nat) : State :=
  match s.lineTag line with
  | some t => s.setTag line { t with fails := some kind }
  | none => s

/-- What someone on the board did to the stored line (R309 rows 5 to 8).  An older line put back is what a line in no sealed region then
reads; in a sealed region its counter path fails, or, where the trusted counter cache holds its counter, its MAC does (R315). -/
def State.boardActs (s : State) (m line : Nat) : BoardAct → State
  | .none => s
  | .altered p k z => s.setTag line { slot := k.toNat, key := 0, poison := p, isSealed := z, tree := s.tree m, fails := some 2 }
  | .replayed d =>
    match s.lineTag line, s.treeIndex m (64 * line) with
    | none, _ => s
    | some _, some t => s.spoil line (if s.ctrCached m 0 (t / 64) then 2 else 3)
    | some _, none => { s with mem := { s.mem with dram := setLine s.mem.dram line d } }

/-- Rows 5 to 9 of R309: what the tag of a line gives.  A line that nothing has written since power-on fails at row 4, 6 or
8 (free choice, assumption log 1). -/
def State.readTag (s : State) (m line : Nat) : BitVec 512 × Bool × State :=
  let d := lineData s.mem.dram line
  let i := ipe m 0
  match s.lineTag line with
  | none =>
    let n := s.fresh
    let s := { s with fresh := s.fresh + 2 }
    if Config.pick n then (d, true, s.readError m line i 1 1)
    else if Config.pick (n + 1) then (d, true, s.readError m line i 4 4)
    else (d, true, (s.count (ipe m 0x50)).readError m line i 2 2)
  | some t =>
    let inSeal := (s.treeIndex m (64 * line)).isSome
    if t.poison then (d, true, s)
    else if s.slotKey t.slot = 0 then (d, true, s.readError m line i 4 4)
    else if inSeal && (!t.isSealed || t.fails = some 3 || s.tainted i 3 line) then
      (d, true, ((s.count (ipe m 0x54)).readError m line i 3 3).spoil line 3)
    else if s.slotKey t.slot != t.key || t.fails = some 2 || s.tainted i 2 line || (t.isSealed && (!inSeal || t.tree != s.tree m)) then
      (d, true, ((s.count (ipe m 0x50)).readError m line i 2 2).spoil line 2)
    else (d, false, s)

/-- A read of a line at its controller: data, POISON, and the state after (R309). -/
def State.dramRead (s : State) (m line : Nat) (x : DramCheck) : BitVec 512 × Bool × State :=
  let i := ipe m 0
  let c := mc m 0
  let s := ((s.count (mc m 0x50)).force i 4).boardActs m line x.board
  let s := s.tagTouch m line
  let s := match s.treeIndex m (64 * line) with
    | some t => s.ctrTouch m 0 (t / 64) false 8
    | none => s
  let s := if x.link = .corrected then s.raise c 0 else s.force c 0
  if x.link = .lost || s.bit (c + 0x1C) 1 then
    let s := if s.bit (c + 0x1C) 1 then s.force c 1 else s.raise c 1
    (lineData s.mem.dram line, true, s.failRead m line 5)
  else
    let lost := x.word = .lost || s.tainted i 1 line || (s.lineTag line).any (fun t => t.fails = some 1)
    if lost then (lineData s.mem.dram line, true, (s.readError m line i 1 1).spoil line 1)
    else
      let s := if x.word = .corrected || s.tainted i 0 line then s.readError m line i 0 0 else s
      s.readTag m line

/-- The oldest request that the controller has accepted for a line, a read or a write, and the rest. -/
def takeQueued (m line : Nat) (w : Bool) : List McReq → Option (McReq × List McReq)
  | [] => none
  | r :: rest =>
    if r.mc = m ∧ r.pkt.addr.toNat / 64 = line ∧ ((r.pkt.op = opWrBk ∨ r.pkt.op = opWrLn) ↔ w = true) then some (r, rest)
    else
      match takeQueued m line w rest with
      | some (q, l) => some (q, r :: l)
      | none => none

/-- Does controller `m` serve the line: the line is visible and its own (R300, R301)? -/
def State.serves (s : State) (m line : Nat) : Bool := s.isDram (64 * line) && decide (mcOf (64 * line) = m)

/-- Has the sweep of the controller read the line and not written it yet: no other access comes between (R317)? -/
def State.sweepHolds (s : State) (m line : Nat) : Bool :=
  match (SMap.get none s.mem.sw m : Option Sweep) with
  | some w => w.got.isSome && w.pos == line
  | none => false

/-- May an access to a line be performed now (R315, R317)? -/
def State.lineFree (s : State) (m line : Nat) : Bool := !s.reencWaits m line && !s.sweepHolds m line

/-- Is the domain of controller `m` in Run or stopping? -/
def State.mcUp (s : State) (m : Nat) : Bool := s.domUp (248 + m)

/-- DRAM_READ: the controller reads a line and answers the request that waits for it (R309).  A read that no request asked for is one
from outside what the model follows (assumption log 77). -/
def dramReadCmd (m line : Nat) (x : DramCheck) (s : State) : State :=
  if !s.serves m line || !s.mcUp m || !s.lineFree m line then s
  else
    let r := s.dramRead m line x
    match takeQueued m line false s.mem.queue with
    | some (q, rest) =>
      let s := r.2.2
      ({ s with mem := { s.mem with queue := rest } }).respond q.pkt opData 0 r.1 r.2.1
    | none => r.2.2

/-- DRAM_READ (R309). -/
def execDramRead (m : Fin 16) (a : PAddr) (x : DramCheck) (s : State) : Out := act s (dramReadCmd m.val (a.toNat / 64) x)

/-- DRAM_WRITE: the controller performs the oldest write that it has accepted for the line, with that write's data, POISON and slot (R306,
R308).  Where it has accepted none, the write is one from outside what the model follows, with the command's own data and POISON
(assumption log 77). -/
def dramWriteCmd (m line : Nat) (d : BitVec 512) (poison : Bool) (s : State) : State :=
  if !s.serves m line || !s.mcUp m || !s.lineFree m line then s
  else
    match takeQueued m line true s.mem.queue with
    | some (q, rest) => ({ s with mem := { s.mem with queue := rest } }).dramStore m line q.slot q.pkt.line q.pkt.poison
    | none => s.dramWrite m line d poison

/-- DRAM_WRITE (R308). -/
def execDramWrite (m : Fin 16) (a : PAddr) (d : BitVec 512) (poison : Bool) (s : State) : Out :=
  act s (dramWriteCmd m.val (a.toNat / 64) d poison)

/-! ### Bring-up -/

/-- MC_STAT.TRAINED, IPE_STAT.ACTIVE. -/
def State.trained (s : State) (m : Nat) : Bool := s.bit (mc m 0x48) 0
def State.ipeActive (s : State) (m : Nat) : Bool := s.bit (ipe m 0x44) 0

/-- All controllers have the configuration of controller 0. -/
def State.sameCfg (s : State) : Bool := (List.range 16).all (fun m => s.reg (mc m 0x40) == s.reg (mc 0 0x40))

/-- Visible DRAM is established when every controller is trained with one configuration and every engine is active
(R300). -/
def State.establish (s : State) : State :=
  if (List.range 16).all (fun m => s.trained m && s.ipeActive m) && s.sameCfg && !s.bit (mc 0 0x48) 3 then
    let top := 14 * s.capacity 0
    let s := { s with mem := { s.mem with vtop := top } }
    (List.range 16).foldl (fun s m => (s.setNat (mc m 0x4C) (top / 67108864)).setBit (mc m 0x48) 3 true) s
  else s

/-- A write of MC_CMD (R318, R322). -/
def State.writeMcCmd (s : State) (m : Nat) (v : W32) : State :=
  if bitOf v 0 then
    { s with mem := { s.mem with inited := insertOnce m s.mem.inited, training := insertOnce m s.mem.training } }
  else s

/-- TRAINING_DONE: training ends for both channels (R318, R300). -/
def trainingDone (m : Nat) (ok0 ok1 : Bool) (s : State) : State :=
  if !s.mem.training.contains m || !s.mcUp m then s
  else
    let s := { s with mem := { s.mem with training := s.mem.training.filter (· ≠ m) } }
    if ok0 && ok1 then
      let s := s.setBit (mc m 0x48) 0 true
      if (List.range 16).all (fun j => s.trained j) && !s.sameCfg then
        (List.range 16).foldl (fun s j => s.raise (mc j 0) 3) s
      else s.establish
    else (s.setFld (mc m 0x48) 1 2 (b2n (!ok0) + 2 * b2n (!ok1))).raise (mc m 0) 2

/-- TRAINING_DONE (R318). -/
def execTrainingDone (m : Fin 16) (ok0 ok1 : Bool) (s : State) : Out := act s (trainingDone m.val ok0 ok1)

/-- Do two of the valid regions overlap, in memory or in the tree (R312)? -/
def regionsOverlap (l : List (Nat × Nat × Nat)) : Bool :=
  match l with
  | [] => false
  | (b, z, o) :: rest =>
    rest.any (fun r => (decide (b < r.1 + r.2.1) && decide (r.1 < b + z)) || (decide (o < r.2.2 + r.2.1) && decide (r.2.2 < o + z)))
      || regionsOverlap rest

/-- The valid sealed regions. -/
def State.sealRegions (s : State) (m : Nat) : List (Nat × Nat × Nat) := (List.range 4).filterMap (fun n => s.sealRegion m n)

/-- Is a region one that ON accepts: SIZEL at most 8, below the top and inside the tree (R312, R323)? -/
def regionOk (c : Nat) (r : Nat × Nat × Nat) : Bool :=
  decide (r.2.1 ≤ 256) && decide ((r.1 + r.2.1) * 67108864 ≤ 14 * c) && decide (r.2.2 + r.2.1 ≤ 256)

/-- A write of IPE_CTL: a write of 1 is refused under the conditions of R312, whether ON is 0 or 1; accepted, it has an effect where ON is
0, for ON once set stays set (R312). -/
def State.writeIpeCtl (s : State) (m : Nat) (v : W32) : State :=
  if !bitOf v 0 then s
  else
    let l := s.sealRegions m
    if s.slotKey 0 = 0 || !s.trained m || !l.all (regionOk (s.capacity m)) || regionsOverlap l then
      (s.setBit (ipe m 0x44) 3 true).raise (ipe m 0) 5
    else if s.bit (ipe m 0x40) 0 then s
    else (s.setBit (ipe m 0x40) 0 true).setBit (ipe m 0x44) 1 true

/-- TREE_INIT_DONE: every counter is 0, TINIT clears and ACTIVE sets (R312, R300). -/
def treeInitDone (m : Nat) (s : State) : State :=
  if !s.bit (ipe m 0x44) 1 || !s.mcUp m then s
  else
    let s := { s with mem := { s.mem with
      ctrs := s.mem.ctrs.filter (fun c => c.1 / 4194304 ≠ m), ctrCache := SMap.set [] s.mem.ctrCache m []
      trees := SMap.set 0 s.mem.trees m (s.tree m + 1) } }
    ((s.setBit (ipe m 0x44) 1 false).setBit (ipe m 0x44) 0 true).establish

/-- TREE_INIT_DONE (R312). -/
def execTreeInitDone (m : Fin 16) (s : State) : Out := act s (treeInitDone m.val)

/-- REENCRYPT_DONE: the oldest re-encryption of the engine ends; REENC stays 1 while another runs (R315). -/
def reencryptDone (m : Nat) (s : State) : State :=
  match s.mem.reenc.find? (fun r => r.mc = m) with
  | none => s
  | some r =>
    let l := s.mem.reenc.erase r
    ({ s with mem := { s.mem with reenc := l } }).setBit (ipe m 0x44) 2 (l.any (fun r => r.mc = m))

/-- REENCRYPT_DONE (R315). -/
def execReencryptDone (m : Fin 16) (s : State) : Out := act s (reencryptDone m.val)

/-- MR4_READ: `v` is the refresh multiple that MR4 requests less 1, or 4 and more where MR4 requests more than 4 times the base
rate or reports a temperature out of range (R319; assumption log 13). -/
def mr4Read (m : Nat) (v : Byte) (s : State) : State :=
  if !s.mcUp m then s
  else
    let s := s.force (mc m 0) 4
    if v.toNat < 4 then s.setFld (mc m 0x48) 4 3 v.toNat else (s.setFld (mc m 0x48) 4 3 4).raise (mc m 0) 4

/-- MR4_READ (R319). -/
def execMr4Read (m : Fin 16) (v : Byte) (s : State) : Out := act s (mr4Read m.val v)

/-- A read of RFMCNT finds the refresh management commands issued since it was last read (R322): how many, the DRAM's row activations
give, which the spec does not (a free number, assumption log 84). -/
def State.readRfm (s : State) (m : Nat) : W32 × State :=
  let t := { s.count (mc m 0x58) (if s.trained m then Config.place s.fresh else 0) with fresh := s.fresh + 1 }
  (t.reg (mc m 0x58), t)

/-- PERIODIC_CALIBRATION: ZQ calibration and WCK2DQ tracking take their time and change nothing (R318). -/
def execPeriodicCalibration (_m : Fin 16) (s : State) : Out := .next s

/-! ### Sweeps (R317) -/

/-- The sweep in progress. -/
def State.sweep (s : State) (m : Nat) : Option Sweep := SMap.get none s.mem.sw m
def State.setSweep (s : State) (m : Nat) (x : Option Sweep) : State :=
  { s with mem := { s.mem with sw := SMap.set none s.mem.sw m x } }

/-- Where a sweep ends: after the last line of its range. -/
def Sweep.endLine (w : Sweep) : Nat := (w.lo + w.len + 63) / 64

/-- The lines of a byte range in rising address order. -/
def rangeLines (lo len : Nat) : List Nat := (List.range ((lo + len + 63) / 64 - lo / 64)).map (fun k => lo / 64 + k)

/-- The next line at or after `pos` that the controller holds and that is visible, before the sweep's end: each 4 KiB page has four lines of
every controller, so it lies among the next 128 (R301, R317). -/
def State.swNext (s : State) (m : Nat) (w : Sweep) (pos : Nat) : Option Nat :=
  match firstWhere 128 (fun k => s.serves m (pos + k)) with
  | some k => if pos + k < w.stop.getD w.endLine then some (pos + k) else none
  | none => none

/-- SW_POS shows the next line. -/
def State.swPlace (s : State) (m : Nat) (w : Sweep) : State :=
  let pos := 64 * (s.swNext m w w.pos).getD (w.stop.getD w.endLine)
  (s.setNat (ipe m 0x7C) pos).setNat (ipe m 0x80) (pos / 4294967296 % 1024)

/-- ABORT stops a sweep after the line in progress, which is an unpredictable one (R317, 08 R242; assumption log 14). -/
def State.swAbort (s : State) (m : Nat) : State :=
  match s.sweep m with
  | some w =>
    if w.abort then s
    else
      let lo := w.pos + b2n w.got.isSome
      let stop := lo + Config.place s.fresh % (w.endLine - lo + 1)
      ({ s with fresh := s.fresh + 1 }).setSweep m (some { w with abort := true, stop := some stop })
  | none => s

/-- A write of SW_CMD (R317, as 08 R239 and R242 give). -/
def State.writeSwCmd (s : State) (m : Nat) (v : W32) : State :=
  let start := (s.reg (ipe m 0x60)).toNat + 4294967296 * s.fld (ipe m 0x64) 0 10
  let len := (s.reg (ipe m 0x68)).toNat + 4294967296 * s.fld (ipe m 0x6C) 0 10
  let op := s.fld (ipe m 0x70) 0 2
  let s :=
    if !bitOf v 0 then s
    else if (s.sweep m).isSome then s.raise (ipe m 0) 6
    else if len = 0 then ((s.setNat (ipe m 0x78) 2).setNat (ipe m 0x84) 0).fire (0x180 + m)
    else if !s.ipeActive m || op = 0 || op = 3 || decide (0x40000000000 < start + len) then
      ((s.setNat (ipe m 0x78) 8).raise (ipe m 0) 6).fire (0x180 + m)
    else
      let w : Sweep :=
        { lo := start, len := len, op := op, scope := false, part := BitVec.ofNat 6 (s.fld (ipe m 0x24) 0 6), abort := false
          pos := start / 64 }
      (((s.setNat (ipe m 0x78) 1).setNat (ipe m 0x84) 0).setSweep m (some w)).swPlace m w
  if bitOf v 1 then s.swAbort m else s

/-- A sweep goes on, line by line, to its end or to an access that must wait: each read and each write is charged 64 bytes and held as one
of a request (R317, 03 R59); `meets` tells what the reads meet (R309).  `fuel` bounds the accesses. -/
def State.swRun (s : State) (m : Nat) (meets : Nat → DramCheck) : Nat → State
  | 0 => s
  | fuel + 1 =>
    match s.sweep m with
    | none => s
    | some w =>
      match s.swNext m w w.pos with
      | none => s.setSweep m (some { w with pos := w.stop.getD w.endLine })
      | some line =>
        let w := { w with pos := line }
        let rg := mcPage m 2 0
        if s.reencWaits m line then s.setSweep m (some w)
        else if s.exhausted rg .bytes w.part.toNat then (s.setSweep m (some w)).holdAt rg .bytes w.part.toNat
        else
          let s := (s.force rg 0).charge rg .bytes w.part.toNat 64
          match w.got, decide (w.op = 1) with
          | none, true =>
            let r := s.dramRead m line (meets line)
            (r.2.2.setSweep m (some { w with got := some (r.1, r.2.1) })).swRun m meets fuel
          | g, _ =>
            let x := g.getD (0, false)
            let s := (s.dramWrite m line x.1 x.2).count (ipe m 0x84)
            let s := if x.2 then s.setBit (ipe m 0x78) 4 true else s
            (s.setSweep m (some { w with pos := line + 1, got := none })).swRun m meets fuel

/-- SWEEP_DONE: the sweep goes on as far as it can; once it has acted on every line of its range that this controller holds and that is
visible, or, after an abort, on those below where that stops it, BUSY clears and the completion source is raised (R317; assumption log
14). -/
def sweepDone (m : Nat) (meets : Nat → DramCheck) (s : State) : State :=
  let n := match s.sweep m with
    | some w => 2 * (w.endLine - w.pos) + 1
    | none => 0
  let s := s.swRun m meets n
  match s.sweep m with
  | none => s
  | some w =>
    let s := s.swPlace m w
    if w.pos = w.stop.getD w.endLine then
      let st := s.fld (ipe m 0x78) 4 1
      ((s.setNat (ipe m 0x78) (16 * st + (if w.abort then 4 else 2))).setSweep m none).fire (0x180 + m)
    else s

/-- SWEEP_DONE (R317). -/
def execSweepDone (m : SweepStep) (s : State) : Out :=
  act s (sweepDone m.mc.val (fun line =>
    match m.meets.find? (fun x => x.1.toNat / 64 = line) with
    | some x => x.2
    | none => {}))

end Sys2Proof.Machine
end

