-- ==== Sys2Proof/Machine/Cache.lean ====
section
/-! DEFINITION. Caches: organisation, lookup, replacement under way masks, coherence inside a bench, and the newest copy of a
line (08 R217-R231). -/

namespace Sys2Proof.Machine

/-! ### One cache -/

/-- Set index of a line number in each cache (R217); the L1I is indexed by the virtual address. -/
def l1dSet (line : Nat) : Nat := line % 128
def l1iSet (va : Nat) : Nat := va / 64 % 256
def l2Set (line : Nat) : Nat := line % 4096
def slcSet (line : Nat) : Nat := line / 2 % 2048
def dirSet (line : Nat) : Nat := line / 2 % 8192

/-- The line in a way of a set. -/
def Cache.at (c : Cache) (ways set w : Nat) : Option CLine := SMap.get none c.lines (set * ways + w)

/-- The way of a set that holds a line. -/
def Cache.way (c : Cache) (ways set line : Nat) : Option Nat :=
  firstWhere ways (fun w => match c.at ways set w with
    | some l => l.line == line
    | none => false)

/-- The entry of a line. -/
def Cache.find (c : Cache) (ways set line : Nat) : Option CLine :=
  match c.way ways set line with
  | some w => c.at ways set w
  | none => none

/-- Put an entry into a way. -/
def Cache.put (c : Cache) (ways set w : Nat) (x : Option CLine) : Cache :=
  { c with lines := SMap.set none c.lines (set * ways + w) x }

/-- Rewrite the entry of a line, if the cache holds it. -/
def Cache.modify (c : Cache) (ways set line : Nat) (f : CLine → Option CLine) : Cache :=
  match c.way ways set line with
  | some w =>
    match c.at ways set w with
    | some l => c.put ways set w (f l)
    | none => c
  | none => c

/-- Recency order of a set's ways, the most recent first. -/
def Cache.recency (c : Cache) (ways set : Nat) : List Nat := SMap.get (List.range ways) c.order set

/-- A way becomes the most recently used (R221). -/
def Cache.touch (c : Cache) (ways set w : Nat) : Cache :=
  { c with order := SMap.set (List.range ways) c.order set (w :: (c.recency ways set).filter (· ≠ w)) }

/-- The victim among the ways that a fill may use: the lowest-numbered invalid one, else the least recently used (R221). -/
def Cache.victim (c : Cache) (ways set : Nat) (allow : Nat → Bool) : Option Nat :=
  match firstWhere ways (fun w => allow w && (c.at ways set w).isNone) with
  | some w => some w
  | none => (c.recency ways set).reverse.find? allow

/-- The valid lines of a cache. -/
def Cache.valid (c : Cache) : List CLine := c.lines.filterMap (fun e => e.2)

/-! ### The caches of the device -/

/-- L2 of a global bench, SLC of a slice. -/
def State.l2 (s : State) (b : Nat) : Cache := SMap.get {} s.coh.l2 b
def State.setL2 (s : State) (b : Nat) (c : Cache) : State := { s with coh := { s.coh with l2 := SMap.set {} s.coh.l2 b c } }
def State.slc (s : State) (k : Nat) : Cache := SMap.get {} s.coh.slc k
def State.setSlc (s : State) (k : Nat) (c : Cache) : State := { s with coh := { s.coh with slc := SMap.set {} s.coh.slc k c } }
def State.evb (s : State) (x : Nat) : List EvLine := SMap.get [] s.coh.evb x
def State.setEvb (s : State) (x : Nat) (l : List EvLine) : State :=
  { s with coh := { s.coh with evb := SMap.set [] s.coh.evb x l } }

/-- The line in the L2 of a bench, in the L1D of a core. -/
def State.l2Line (s : State) (b line : Nat) : Option CLine := (s.l2 b).find 16 (l2Set line) line
def State.l1dLine (s : State) (n line : Nat) : Option CLine := (s.core n).l1d.find 8 (l1dSet line) line
def State.modL2 (s : State) (b line : Nat) (f : CLine → Option CLine) : State := s.setL2 b ((s.l2 b).modify 16 (l2Set line) line f)
def State.modL1d (s : State) (n line : Nat) (f : CLine → Option CLine) : State :=
  s.updCore n (fun c => { c with l1d := c.l1d.modify 8 (l1dSet line) line f })

/-- The cores of a bench. -/
def benchCores (b : Nat) : List Nat := (List.range 8).map (fun k => 8 * b + k)

/-- The router of a global bench (10 R266). -/
def benchRtr (b : Nat) : Nat := 8 * (b / 6) + b % 6

/-- Does a partition allocate in a way: its bit is 1 in the active mask of the page, and the way is not reserved (R222)? -/
def State.mayUse (s : State) (page p w : Nat) : Bool := s.bit (page + 0x200 + 4 * p) w && !s.bit (page + 0x74) w

/-- Does a partition find no way of the cache to allocate in (R222)? -/
def State.maskZero (s : State) (page p : Nat) : Bool := !(List.range 16).any (s.mayUse page p)

/-- The bench behind a packet's source: port 0 of a bench router (10 R266, R285). -/
def benchOf (p : Packet) : Option Nat :=
  let r := p.src.toNat
  if routerKind r = .bench ∧ p.srcp.val = 0 then some (6 * (r / 8) + r % 8) else none

/-- A packet's line number. -/
def pktLine (p : Packet) : Nat := p.addr.toNat / 64

/-! ### The directory (R229, R230) -/

def State.dir (s : State) (k : Nat) : Dir := SMap.get {} s.coh.dir k
def State.setDir (s : State) (k : Nat) (d : Dir) : State := { s with coh := { s.coh with dir := SMap.set {} s.coh.dir k d } }

/-- The entry in a way of a set. -/
def Dir.at (d : Dir) (set w : Nat) : Option DirEnt := SMap.get none d.ents (set * 16 + w)
def Dir.put (d : Dir) (set w : Nat) (x : Option DirEnt) : Dir := { d with ents := SMap.set none d.ents (set * 16 + w) x }
def Dir.recency (d : Dir) (set : Nat) : List Nat := SMap.get (List.range 16) d.order set
def Dir.touch (d : Dir) (set w : Nat) : Dir :=
  { d with order := SMap.set (List.range 16) d.order set (w :: (d.recency set).filter (· ≠ w)) }

/-- The way that holds a line's entry. -/
def Dir.way (d : Dir) (line : Nat) : Option Nat :=
  firstWhere 16 (fun w => match d.at (dirSet line) w with
    | some e => e.line == line
    | none => false)

/-- The entry of a line. -/
def Dir.find (d : Dir) (line : Nat) : Option DirEnt :=
  match d.way line with
  | some w => d.at (dirSet line) w
  | none => none

/-- Rewrite the entry of a line. -/
def State.modDir (s : State) (k line : Nat) (f : DirEnt → Option DirEnt) : State :=
  let d := s.dir k
  match d.way line with
  | some w =>
    match d.at (dirSet line) w with
    | some e => s.setDir k (d.put (dirSet line) w (f e))
    | none => s
  | none => s

/-- The benches of a sharer vector. -/
def DirEnt.benches (e : DirEnt) : List Nat := (List.range 24).filter (fun b => bitOf e.sharers b)

/-- An entry without a bench. -/
def DirEnt.without (e : DirEnt) (b : Nat) : Option DirEnt :=
  let v := putBit e.sharers b false
  let o := match e.owner with
    | some x => if x.val = b then none else some x
    | none => none
  if v = 0 then none else some { e with sharers := v, owner := o }

/-- A bench whose caches have become invalid leaves every directory entry: the sharer vectors stay exact (R229; assumption log 81). -/
def State.leaveDirs (s : State) (b : Nat) : State :=
  (List.range 32).foldl
    (fun s k =>
      let d := s.dir k
      s.setDir k { d with ents := d.ents.filterMap (fun x =>
        (x.2.bind (fun e => if bitOf e.sharers b then e.without b else some e)).map (fun e => (x.1, some e))) })
    s

/-! ### Errors of tags: a set that is lost (R233) -/

/-- Key of a set's mark among the flaws. -/
def deadKey (set : Nat) : Nat := 4398046511104 + set

/-- Has an uncorrectable tag error taken a set out of use until its domain is reset (R233)? -/
def State.setDead (s : State) (page bit set : Nat) : Bool := s.tainted page bit (deadKey set)

/-- An access to a set finds an injected tag error there: the error reports and the set is lost (18 R504, R233). -/
def State.tagCheck (s : State) (page bit set : Nat) : State :=
  if s.tainted page bit set then
    let s := s.found page bit set
    { s with err := { s.err with flaws := s.err.flaws ++ [⟨page, bit, deadKey set⟩] } }
  else s

/-! ### Inside a bench (R227) -/

/-- Take the dirty data of a line out of the L1D of a core into its L2, and leave the copy as `f` says. -/
def State.takeL1 (s : State) (n line : Nat) (f : CLine → Option CLine) : State :=
  match s.l1dLine n line with
  | none => s
  | some l =>
    let s := if l.st = .m then
        s.modL2 (n / 8) line (fun x => some { x with st := .m, data := l.data, poison := l.poison, tagOnly := false })
      else s
    s.modL1d n line f

/-- A copy that loses write permission becomes S, and its record of bytes rewritten is discarded (R227, R534). -/
def CLine.shared (l : CLine) : Option CLine := some { l with st := .s, written := 0 }

/-- The L2 downgrades, or invalidates, the L1D copies of a line in its bench except that of core `but`. -/
def State.settleL1 (s : State) (b line : Nat) (but : Option Nat) (kill : Bool) : State :=
  (benchCores b).foldl
    (fun s n => if but = some n then s else s.takeL1 n line (fun l => if kill then none else l.shared)) s

/-- Remove every copy of a line from the L1I of a core (R219). -/
def State.dropL1i (s : State) (n line : Nat) : State :=
  s.updCore n (fun c => { c with l1i :=
    { c.l1i with lines := c.l1i.lines.filter (fun e => match e.2 with
      | some l => l.line != line
      | none => false) } })

/-- The L1 copies of a line in a bench: L1D and L1I. -/
def State.l1Copies (s : State) (b line : Nat) : Nat :=
  (benchCores b).foldl
    (fun a n => a + b2n (s.l1dLine n line).isSome + b2n ((s.core n).l1i.valid.any (fun l => l.line == line))) 0

/-- Inclusion: the line leaves every L1 of the bench, its dirty data collected first (R227). -/
def State.include (s : State) (b line : Nat) : State :=
  let s := s.count (benchPage b 0 0x8C) (s.l1Copies b line)
  (benchCores b).foldl (fun s n => (s.takeL1 n line (fun _ => none)).dropL1i n line) s

/-! ### Evictions and fills -/

/-- A request of a bench's L2 to the home slice of a line. -/
def State.homeRequest (s : State) (b line : Nat) (op : BitVec 8) (part : PartId) (inl : BitVec 256) (d : BitVec 512)
    (poison spec : Bool) : State :=
  s.request (benchRtr b) 0
    { op := op, part := part, dst := BitVec.ofNat 7 (sliceRouter (homeSlice (64 * line))), dstp := 0,
      addr := BitVec.ofNat 42 (64 * line), inl := inl, line := d, poison := poison, spec := spec }

/-- A bench writes a line back to home through its eviction buffer (R243). -/
def State.sendBack (s : State) (b line : Nat) (part : PartId) (d : BitVec 512) (poison : Bool) : State :=
  (s.setEvb b (s.evb b ++ [⟨line, d, poison, part⟩])).homeRequest b line opWrBk part 0 d poison false

/-- An L2 evicts a line: inclusion, then a write-back of a dirty line or a clean report to home (R227, R229, R243). -/
def State.evictL2 (s : State) (b line : Nat) (part : PartId) : State :=
  let s := s.include b line
  match s.l2Line b line with
  | none => s
  | some l =>
    let s := (s.modL2 b line (fun _ => none)).count (benchPage b 0 0x88)
    if (l.st = .m || l.st = .o) && !l.tagOnly then
      s.sendBack b line part l.data l.poison
    else s.homeRequest b line opEvCl part 0 0 false false

/-- Is a write-back or eviction report of a line on its way from a bench, not yet acknowledged?  The bench asks for the line again only
then (R243; assumption log 81). -/
def State.leaving (s : State) (b line : Nat) : Bool :=
  s.net.outs.any (fun q => (q.op = opWrBk || q.op = opEvCl) && pktLine q == line && benchOf q = some b)

/-- Allocate a line in the L2 of a bench under the masks active now (R221-R226); answers whether it holds it now.  A full
eviction buffer makes the fill wait (R243). -/
def State.fillL2 (s : State) (b : Nat) (x : CLine) (part : PartId) (mru : Bool) : Bool × State :=
  let page := benchPage b 0 0
  let set := l2Set x.line
  let s := s.tagCheck page 2 set
  match (s.l2 b).way 16 set x.line with
  | some w =>
    let s := s.setL2 b ((s.l2 b).put 16 set w (some x))
    (true, if mru then s.setL2 b ((s.l2 b).touch 16 set w) else s)
  | none =>
    if s.setDead page 2 set then (false, s)
    else
      match (s.l2 b).victim 16 set (s.mayUse page part.toNat) with
      | none => (false, s)
      | some w =>
        let s := match (s.l2 b).at 16 set w with
          | some v => s.evictL2 b v.line part
          | none => s
        let s := ((s.taint page 0 x.line).taint page 1 x.line).taint page 2 set
        let s := s.setL2 b ((s.l2 b).put 16 set w (some x))
        (true, if mru then s.setL2 b ((s.l2 b).touch 16 set w) else s)

/-- Allocate a line in the L1D of a core; a dirty victim's data goes to the L2 (R217, R221). -/
def State.fillL1d (s : State) (n : Nat) (x : CLine) (mru : Bool) : State :=
  let page := corePage n 0
  let set := l1dSet x.line
  let s := s.tagCheck page 2 set
  let c := (s.core n).l1d
  match c.way 8 set x.line with
  | some w => s.updCore n (fun k =>
      let d := k.l1d.put 8 set w (some x)
      { k with l1d := if mru then d.touch 8 set w else d })
  | none =>
    if s.setDead page 2 set then s
    else
      match c.victim 8 set (fun _ => true) with
      | none => s
      | some w =>
        let s := match c.at 8 set w with
          | some v => s.takeL1 n v.line (fun _ => none)
          | none => s
        let s := s.taint page 2 set
        s.updCore n (fun k =>
          let d := k.l1d.put 8 set w (some x)
          { k with l1d := if mru then d.touch 8 set w else d })

/-- Allocate a line in the L1I of a core at a virtual address. -/
def State.fillL1i (s : State) (n va : Nat) (x : CLine) (mru : Bool) : State :=
  let set := l1iSet va
  let c := (s.core n).l1i
  let w := match c.way 4 set x.line with
    | some w => some w
    | none => c.victim 4 set (fun _ => true)
  match w with
  | none => s
  | some w =>
    let s := s.taint (corePage n 0) 0 (deadKey x.line)
    s.updCore n (fun k =>
      let d := k.l1i.put 4 set w (some x)
      { k with l1i := if mru then d.touch 4 set w else d })

/-- May an L1D hold the line writable: the L2 has it in M or E and no other L1D of the bench holds it (R227)? -/
def State.soleL1 (s : State) (n line : Nat) : Bool :=
  (benchCores (n / 8)).all (fun j => j == n || (s.l1dLine j line).isNone)

/-! ### The newest copy of a line -/

/-- State code of a granted line in a DATA packet's INLINE: 0 S, 1 E, 2 M (DESIGN CHOICE, assumption log 15). -/
def grantCode : LineSt → Nat
  | .s => 0 | .e => 1 | .m => 2 | .o => 0
def grantOf (inl : BitVec 256) : LineSt :=
  match inl.toNat % 4 with
  | 1 => .e | 2 => .m | _ => .s

/-- A modified copy in some L1D. -/
def State.dirtyL1 (s : State) (line : Nat) : Option CLine :=
  s.cores.findSome? (fun c =>
    match c.2.l1d.find 8 (l1dSet line) line with
    | some l => if l.st = .m then some l else none
    | none => none)

/-- A modified or owned copy in some L2. -/
def State.dirtyL2 (s : State) (line : Nat) : Option CLine :=
  s.coh.l2.findSome? (fun c =>
    match c.2.find 16 (l2Set line) line with
    | some l => if (l.st = .m || l.st = .o) && !l.tagOnly then some l else none
    | none => none)

/-- A dirty line under way: arrived and not filled, in a packet, held by home, in an eviction buffer. -/
def State.dirtyWay (s : State) (line : Nat) : Option (BitVec 512 × Bool) :=
  let a := fun (p : Packet) => p.addr.toNat / 64 == line
  let fromMiss := s.coh.misses.findSome? (fun x =>
    match x.got with
    | some (d, p, .m) => if x.line = line then some (d, p) else none
    | _ => none)
  let fromPkt := s.net.flights.findSome? (fun f =>
    if a f.pkt && (f.pkt.op = opSnpData || (f.pkt.op = opData && decide (grantOf f.pkt.inl = .m))) then some (f.pkt.line, f.pkt.poison)
    else none)
  let fromTx := s.coh.txs.findSome? (fun t => if a t.req then t.data else none)
  let fromEvb := s.coh.evb.findSome? (fun e => (e.2.find? (fun v => v.line == line)).map (fun v => (v.data, v.poison)))
  (fromMiss.or fromPkt).or (fromTx.or fromEvb)

/-- The line in the SLC, else in a controller's queue, else in DRAM. -/
def State.homeCopy (s : State) (line : Nat) : BitVec 512 × Bool :=
  match (s.slc (homeSlice (64 * line))).find 16 (slcSet line) line with
  | some l => (l.data, l.poison)
  | none =>
    match s.mem.queue.findSome? (fun q =>
        if q.pkt.op = opWrBk && q.pkt.addr.toNat / 64 == line then some (q.pkt.line, q.pkt.poison) else none) with
    | some x => x
    | none =>
      let r := s.readTag (mcOf (64 * line)) line
      (r.1, r.2.1)

/-- The newest copy of a visible line, which a coherent access sees wherever it lies (R227-R232): data and poison. -/
def State.newest (s : State) (line : Nat) : BitVec 512 × Bool :=
  match s.dirtyL1 line with
  | some l => (l.data, l.poison)
  | none =>
    match s.dirtyL2 line with
    | some l => (l.data, l.poison)
    | none =>
      match s.dirtyWay line with
      | some x => x
      | none => s.homeCopy line

/-! ### Loads -/

/-- Is a cache page ready (R244)? -/
def State.cacheReady (s : State) (page : Nat) : Bool := s.bit (page + 0x10) 1

/-- Ask home for a line on behalf of a core, unless the core already waits for it as strongly, or the bench's own eviction of the line is
under way. -/
def State.miss (s : State) (n line : Nat) (un fetch spec : Bool) (hint va : Nat) : State :=
  if s.coh.misses.any (fun x => x.core == n && x.line == line && (x.un || !un) && x.fetch == fetch && x.hint != 5
      && (x.hint == 4) == (hint == 4)) then s
  else if s.leaving (n / 8) line then s
  else
    let part := (s.core n).part
    let tag := s.net.tag
    let s := s.homeRequest (n / 8) line (if un then opRdUn else opRdSh) part (BitVec.ofNat 256 hint) 0 false spec
    let m : Miss :=
      { core := n, line := line, un := un, hint := hint, fetch := fetch, spec := spec, part := part, tag := tag, va := va, got := none }
    { s with coh := { s.coh with misses := s.coh.misses ++ [m] } }

/-- A lookup in the L2: ACCCNT and MISSCNT count (R238). -/
def State.lookL2 (s : State) (b : Nat) (hit : Bool) : State :=
  let s := s.count (benchPage b 0 0x80)
  if hit then s else s.count (benchPage b 0 0x84)

/-- An access that misses in the L2 asks home, and its lookup is counted, once: an access commanded again while its request is under way
looks nothing up (R238). -/
def State.missL2 (s : State) (n line : Nat) (un fetch : Bool) (hint va : Nat) (arch : Bool := true) : State :=
  let t := s.miss n line un fetch (!arch) hint va
  if t.coh.misses.length = s.coh.misses.length then s else t.lookL2 (n / 8) false

/-- An access hits in the L2: for an architectural one the line becomes the most recently used (R221; 06 R177). -/
def State.hitL2 (s : State) (b line : Nat) (arch : Bool := true) : State :=
  let s := s.lookL2 b true
  if !arch then s
  else
  match (s.l2 b).way 16 (l2Set line) line with
  | some w => s.setL2 b ((s.l2 b).touch 16 (l2Set line) w)
  | none => s

/-- An architectural access hits in the L1D: the line becomes the most recently used, unless it is the use for which a non-temporal
access has just brought the line (R221, R224). -/
def State.hitL1d (s : State) (n line hint : Nat) : State :=
  let first := hint = 2 && (s.core n).came.contains line
  s.updCore n (fun k =>
    let k := { k with came := k.came.filter (· ≠ line) }
    match k.l1d.way 8 (l1dSet line) line with
    | some w => if first then k else { k with l1d := k.l1d.touch 8 (l1dSet line) w }
    | none => k)

/-- A non-temporal access of a core has brought a line into its L1D. -/
def State.noteNt (s : State) (n line hint : Nat) : State :=
  if hint = 2 then s.updCore n (fun c => { c with came := insertOnce line c.came }) else s

/-- An injected data error in a clean line: the line is fetched again, which is an error corrected (R233, R246). -/
def State.foundClean (s : State) (page line : Nat) : State :=
  let s := { s with err := { s.err with flaws := s.err.flaws.filter (fun f => !(f.page = page && f.bit = 1 && f.key = line)) } }
  (s.setBit (page + 0x1C) 1 false).foundAs page 0

/-- An access to a line of the L1D finds an injected data error: corrected, or the dirty line is poisoned, or the clean one is
fetched again (R233, 18 R504). -/
def State.checkL1d (s : State) (n line : Nat) : State :=
  let page := corePage n 0
  let s := (s.checkUnit page 0 line).tagCheck page 2 (l1dSet line)
  if s.tainted page 1 line then
    match s.l1dLine n line with
    | some l =>
      if l.st = .m then (s.found page 1 line).modL1d n line (fun l => some { l with poison := true })
      else (s.foundClean page line).modL1d n line (fun _ => none)
    | none => s
  else s

/-- The same for a line of an L2. -/
def State.checkL2 (s : State) (b line : Nat) : State :=
  let page := benchPage b 0 0
  let s := (s.checkUnit page 0 line).tagCheck page 2 (l2Set line)
  if s.tainted page 1 line then
    match s.l2Line b line with
    | some l =>
      if l.st = .m || l.st = .o then (s.found page 1 line).modL2 b line (fun l => some { l with poison := true })
      else ((s.foundClean page line).include b line).modL2 b line (fun _ => none) |>.homeRequest b line opEvCl 0 0 0 false false
    | none => s
  else s

/-- Take a line that the L2 holds into the L1D of a core for reading (R227); a tag-only line's data comes from where it is
newest (R224). -/
def State.l1FromL2 (s : State) (n line hint : Nat) : State :=
  let b := n / 8
  let v := s.newest line
  let s := s.settleL1 b line (some n) false
  match s.l2Line b line with
  | none => s
  | some l =>
    let st := if (l.st = .m || l.st = .e) && s.soleL1 n line then LineSt.e else .s
    s.fillL1d n
      { line := line, st := st, data := if l.tagOnly then v.1 else l.data, poison := if l.tagOnly then v.2 else l.poison } (hint != 2)

/-- A read of a line in the eviction buffer is served from there, and the line is allocated again in S in the reader's ways, as the hint
says; a NAL access leaves a tag-only entry (R224, R243). -/
def State.again (s : State) (b : Nat) (e : EvLine) (part : PartId) (hint : Nat) : Bool × State :=
  s.fillL2 b { line := e.line, st := .s, data := if hint = 3 then 0 else e.data, poison := e.poison, tagOnly := hint = 3 } part (hint = 0)

/-- The line in the eviction buffer of a bench or slice: the victim that went last, where there are several. -/
def State.evLine (s : State) (x line : Nat) : Option EvLine := (s.evb x).reverse.find? (fun e => e.line == line)

/-- What has come for the access of a core to a line: delivered without allocation, or the data of its fill. -/
def State.delivered (s : State) (n line hint : Nat) : Option (BitVec 512 × Bool) :=
  match (s.core n).given.find? (fun g => g.line == line && !g.un && !g.fetch) with
  | some g => some (g.data, g.poison)
  | none =>
    s.coh.misses.findSome? (fun m =>
      if m.core == n && m.line == line && !m.fetch && m.hint != 5 && (m.hint == 4) == (hint == 4) then m.got.map (fun g => (g.1, g.2.1)) else none)

/-- A read of a line that no cache of the bench serves: what has been delivered for it, or a request to home. -/
def State.loadMiss (s : State) (n line hint : Nat) (arch : Bool := true) : Option (BitVec 512 × Bool) × State :=
  match s.delivered n line hint with
  | some x => (some x, s)
  | none => (none, s.missL2 n line false false hint 0 arch)

/-- Does the L2 of a bench serve requests: it is ready and enabled (R244, 02 R29)? -/
def State.l2Up (s : State) (b : Nat) : Bool := s.enabled (benchPage b 0 0) && s.cacheReady (benchPage b 0 0)

/-- A load of a core from a line of visible DRAM: what it reads, none while it waits for home, and the state after (R218, R222,
R224, R227, R243). -/
def State.loadLine (s : State) (n line hint : Nat) : Option (BitVec 512 × Bool) × State :=
  let b := n / 8
  let s := s.checkL1d n line
  match s.l1dLine n line with
  | some l => (some (l.data, l.poison || s.setDead (corePage n 0) 2 (l1dSet line)), s.hitL1d n line hint)
  | none =>
    if !s.l2Up b then (none, s)
    else
    let s := s.checkL2 b line
    if s.setDead (corePage n 0) 2 (l1dSet line) || s.setDead (benchPage b 0 0) 2 (l2Set line) then (some ((s.newest line).1, true), s)
    else
      match s.l2Line b line with
      | some l =>
        if l.tagOnly && !(benchCores b).any (fun j => (s.l1dLine j line).isSome) then s.loadMiss n line hint
        else (some (s.newest line), (s.hitL2 b line).l1FromL2 n line hint)
      | none =>
        match s.evLine b line with
        | some e =>
          let r := (s.lookL2 b true).again b e (s.core n).part hint
          (some (e.data, e.poison),
            if r.1 then r.2.fillL1d n { line := line, st := .s, data := e.data, poison := e.poison } (hint != 2) else r.2)
        | none => s.loadMiss n line hint

/-- A read of the walker, which looks in the L2 and then asks home, for an architectural access or in speculation (07 R195; R218). -/
def State.walkLine (s : State) (n line : Nat) (arch : Bool := true) : Option (BitVec 512 × Bool) × State :=
  let b := n / 8
  if !s.l2Up b then (none, s)
  else
    let s := s.checkL2 b line
    if s.setDead (benchPage b 0 0) 2 (l2Set line) then (some ((s.newest line).1, true), s)
    else
      let s := s.settleL1 b line none false
      match s.l2Line b line with
      | some l => if l.tagOnly then s.loadMiss n line 4 arch else (some (l.data, l.poison), s.hitL2 b line arch)
      | none =>
        match s.evLine b line with
        | some e => (some (e.data, e.poison), ((s.lookL2 b true).again b e (s.core n).part (if arch then 0 else 2)).2)
        | none => s.loadMiss n line 4 arch

/-- A fetch of a line, for an instruction that is wanted or ahead of it: its poison mark where it is there now, none while it waits, and the
state after (R217, R222, R227, R233, R243; 06 R153, R177). -/
def State.fetchLine (s : State) (n va line : Nat) (arch : Bool) : Option Bool × State :=
  let b := n / 8
  let page := corePage n 0
  let set := l1iSet va
  let s := if s.tainted page 0 (deadKey line) then (s.found page 0 (deadKey line)).dropL1i n line else s
  match (s.core n).l1i.way 4 set line with
  | some w =>
    (some (match (s.core n).l1i.at 4 set w with
      | some l => l.poison
      | none => false), if arch then s.updCore n (fun k => { k with l1i := k.l1i.touch 4 set w }) else s)
  | none =>
    match (s.core n).given.find? (fun g => g.line == line && g.fetch) with
    | some g => (some g.poison, s.updCore n (fun k => { k with given := k.given.erase g }))
    | none =>
      if !s.l2Up b then (none, s)
      else
        let s := s.checkL2 b line
        if s.setDead (benchPage b 0 0) 2 (l2Set line) then (some true, s)
        else
          match s.l2Line b line with
          | some l =>
            if l.tagOnly then (none, s.missL2 n line false true 0 va arch)
            else
              (some l.poison, (s.hitL2 b line arch).fillL1i n va { line := line, st := .s, data := l.data, poison := l.poison } arch)
          | none =>
            match s.evLine b line with
            | some e =>
              let r := (s.lookL2 b true).again b e (s.core n).part (if arch then 0 else 2)
              (some e.poison,
                if r.1 then r.2.fillL1i n va { line := line, st := .s, data := e.data, poison := e.poison } arch else r.2)
            | none => (none, s.missL2 n line false true 0 va arch)

/-! ### Stores -/

/-- A line with bytes from `off` on replaced. -/
def lineBytes (d : BitVec 512) : List Byte := leBytes 64 d.toNat
def pasteLine (d : BitVec 512) (off : Nat) (l : List Byte) : BitVec 512 :=
  let x := lineBytes d
  BitVec.ofNat 512 (leNat (x.take off ++ l ++ x.drop (off + l.length)))

/-- The byte mask `[off + len - 1 : off]`. -/
def byteMask (off len : Nat) : W64 := BitVec.ofNat 64 ((2 ^ len - 1) * 2 ^ off)

/-- Write bytes into a line that the L1D holds writable; a poisoned line whose every byte the core has rewritten loses its mark
(R534). -/
def CLine.store (l : CLine) (off : Nat) (bytes : List Byte) : CLine :=
  let w := if l.poison then l.written ||| byteMask off bytes.length else 0
  let done := l.poison && decide (w = BitVec.allOnes 64)
  { l with st := .m, data := pasteLine l.data off bytes, poison := l.poison && !done, written := if done then 0 else w }

/-- Is the line writable in the L1D of a core? -/
def State.writable (s : State) (n line : Nat) : Bool :=
  match s.l1dLine n line with
  | some l => l.st = .m || l.st = .e
  | none => false

/-- Make a line writable in the L1D of a core if its L2 may (R227); otherwise ask home for ownership.  A line in the L2's
eviction buffer must have been accepted by home first (R243). -/
def State.own (s : State) (n line hint : Nat) : State :=
  let b := n / 8
  if s.writable n line || !s.l2Up b then s
  else
    let s := s.checkL2 b line
    match s.l2Line b line with
    | some l =>
      if (l.st = .m || l.st = .e) && !l.tagOnly then
        let s := s.settleL1 b line none true
        match s.l2Line b line with
        | some l =>
          ((s.hitL2 b line).fillL1d n { line := line, st := .e, data := l.data, poison := l.poison } (hint != 2)).noteNt n line hint
        | none => s
      else s.missL2 n line true false hint 0
    | none => if (s.evLine b line).isSome then s else s.missL2 n line true false hint 0

/-- Write bytes within a line that is writable in the L1D. -/
def State.storeLine (s : State) (n line off : Nat) (bytes : List Byte) (hint : Nat) : State :=
  let page := corePage n 0
  let s := s.tagCheck page 2 (l1dSet line)
  let s := (s.taint page 0 line).taint page 1 line
  (s.modL1d n line (fun l => some (l.store off bytes))).hitL1d n line hint

/-! ### CACHE_FILL -/

/-- What a fill brings, given what the bench's L2 holds: a copy that the bench owns is the newer one (R228). -/
def fillMeets (own : Option CLine) (un : Bool) (d : BitVec 512) (poison : Bool) (st : LineSt) : BitVec 512 × Bool × LineSt :=
  match own with
  | some l =>
    if l.tagOnly || l.st = .s then (d, poison, st)
    else (l.data, l.poison, if l.st = .o && un then .m else l.st)
  | none => (d, poison, st)

/-- A fill with its data: state granted, and where it allocates (R221-R226).  A speculative one that finds its line in the L2 changes
nothing (06 R177). -/
def State.place (s : State) (m : Miss) (d : BitVec 512) (poison : Bool) (st : LineSt) : State :=
  let b := m.core / 8
  if m.spec && (s.l2Line b m.line).isSome then s
  else
  let s := if m.fetch then s else s.settleL1 b m.line none false
  let x := fillMeets (s.l2Line b m.line) m.un d poison st
  let d := x.1
  let poison := x.2.1
  let st := x.2.2
  let arch := !m.spec
  let r := s.fillL2 b
    { line := m.line, st := st, data := if m.hint = 3 then 0 else d, poison := poison, tagOnly := m.hint = 3 } m.part
    (arch && (m.hint = 0 || 4 ≤ m.hint))
  if !r.1 then
    -- the bench keeps nothing: home hears of it, with the data where it is newer
    let s := if st = .m then
        r.2.sendBack b m.line m.part d poison
      else r.2.homeRequest b m.line opEvCl m.part 0 0 false false
    if m.spec || m.un || m.hint = 5 then s
    else s.updCore m.core (fun c => { c with given := c.given ++ [⟨m.line, false, d, poison, m.fetch⟩] })
  else if 4 ≤ m.hint then r.2
  else if m.fetch then r.2.fillL1i m.core m.va { line := m.line, st := .s, data := d, poison := poison } arch
  else
    let s := if m.un then r.2.settleL1 b m.line (some m.core) true else r.2
    let s := if m.un then s else s.settleL1 b m.line (some m.core) false
    let l1 := if (st = .m || st = .e) && s.soleL1 m.core m.line then LineSt.e else .s
    -- a tag-only line's only data is the L1D's: it is written back from there when it is dirty (R224)
    let l1 := if m.hint = 3 && st = .m then LineSt.m else l1
    let s := s.fillL1d m.core { line := m.line, st := l1, data := d, poison := poison } (arch && m.hint != 2)
    if arch then s.noteNt m.core m.line m.hint else s

/-- CACHE_FILL: the data that has arrived for a core's line allocates (R221); a full eviction buffer or a cache that is not
ready makes it wait. -/
def cacheFill (n line : Nat) (s : State) : State :=
  match s.coh.misses.find? (fun m => m.core == n && m.line == line && m.got.isSome) with
  | none => s
  | some m =>
    match m.got with
    | none => s
    | some (d, p, st) =>
      if !s.cacheReady (benchPage (n / 8) 0 0) || 16 ≤ (s.evb (n / 8)).length then s
      else
        let s := { s with coh := { s.coh with misses := s.coh.misses.filter (fun x => x != m) } }
        s.place m d p st

/-- CACHE_FILL (R221). -/
def execCacheFill (n : Fin 192) (a : PAddr) (s : State) : Out := act s (cacheFill n.val (a.toNat / 64))

/-- CACHE_INIT_DONE: the invalidation of an L2 (0-23), a slice (24-55) or the L1s of a core (56-247) ends and READY sets
(R244). -/
def cachePage (e : Nat) : Nat :=
  if e < 24 then benchPage e 0 0 else if e < 56 then slicePage (e - 24) 0 0 else corePage (e - 56) 0

/-- CACHE_INIT_DONE: a cache whose domain runs is ready (R244). -/
def execCacheInitDone (e : Fin 248) (s : State) : Out :=
  act s (fun s => match pageOf (cachePage e.val) with
    | some p => if s.pageUp p then s.setBit (cachePage e.val + 0x10) 1 true else s
    | none => s)

/-! ### Stop and reset (R244, R245) -/

/-- Write every dirty L1D line of a core to its L2 and invalidate its L1s (R245). -/
def State.flushL1 (s : State) (n : Nat) : State :=
  let s := (s.core n).l1d.valid.foldl (fun s l => s.takeL1 n l.line (fun _ => none)) s
  s.updCore n (fun c => { c with l1i := {}, l1d := {} })

/-- The caches of a bench become invalid, dirty data lost (R244). -/
def State.dropBenchCaches (s : State) (b : Nat) : State :=
  let s := ((s.setL2 b {}).setEvb b []).leaveDirs b
  { s with coh := { s.coh with
    misses := s.coh.misses.filter (fun m => m.core / 8 != b), me := SMap.set none s.coh.me b none } }

/-- A slice and its directory become invalid (R244); its trace lines are discarded (R245). -/
def State.dropSlice (s : State) (k : Nat) : State :=
  let s := (s.setSlc k {}).setEvb (24 + k) []
  { s with coh := { s.coh with
    dir := SMap.set {} s.coh.dir k {}, txs := s.coh.txs.filter (fun t => t.slice != k)
    waitq := s.coh.waitq.filter (fun w => w.1 != k), me := SMap.set none s.coh.me (24 + k) none
    sink := s.coh.sink.filter (fun e => e.1 / 8192 != k) } }

/-- Is the domain not empty: an L2 with a valid line, a slice with a valid line or directory entry, a maintenance engine or sweep with
BUSY at 1, a transfer engine with a slot in use or a parked descriptor (17 R466 RESULT 3; R245)? -/
def State.notEmpty (s : State) (d : Nat) : Bool :=
  if 192 ≤ d ∧ d < 216 then !(s.l2 (d - 192)).valid.isEmpty || (SMap.get none s.coh.me (d - 192)).isSome
  else if 216 ≤ d ∧ d < 248 then
    !(s.slc (d - 216)).valid.isEmpty || (SMap.get {} s.coh.dir (d - 216)).ents.any (fun e => e.2.isSome)
      || (SMap.get none s.coh.me (24 + (d - 216))).isSome
  else if 248 ≤ d ∧ d < 264 then (SMap.get none s.mem.sw (d - 248)).isSome
  else if 288 ≤ d ∧ d < 296 then
    !(SMap.get [] s.te.slots (d - 288)).isEmpty || !(SMap.get [] s.te.parked (d - 288)).isEmpty
  else false

end Sys2Proof.Machine
end

