-- ==== Sys2Proof/Machine/Flags.lean ====
section
/-! DEFINITION. The condition flags, the conditions that test them, and integer arithmetic with its flags
(05 R117-R124, R127; 04 R94). -/

namespace Sys2Proof.Machine

/-- N, Z, C and V of STATUS (04 R72). -/
structure Nzcv where
  n : Bool
  z : Bool
  c : Bool
  v : Bool
  deriving DecidableEq, Repr

/-- The flags of a STATUS word. -/
def nzcvOf (st : W64) : Nzcv := ⟨bitOf st 3, bitOf st 2, bitOf st 0, bitOf st 1⟩

/-- STATUS with its four flags written; every other bit kept (R72). -/
def putNzcv (st : W64) (f : Nzcv) : W64 :=
  putField st 0 4 (b2n f.c + 2 * b2n f.v + 4 * b2n f.z + 8 * b2n f.n)

/-- Conditions 0 to 14 (R94). -/
def condHolds (code : Nat) (f : Nzcv) : Bool :=
  let base : Bool := match code % 8 with
    | 0 => f.z | 1 => f.c | 2 => f.n | 3 => f.v | 4 => f.c && !f.z | 5 => f.n == f.v | 6 => !f.z && f.n == f.v | _ => true
  if code < 8 then base else !base

/-- A result of width `w` with its flags. -/
structure AluRes where
  val : Nat
  flags : Nzcv
  deriving DecidableEq, Repr

/-- N and Z of a `w`-bit result (R117). -/
def resOf (w x : Nat) (c v : Bool) : AluRes := ⟨x, ⟨x.testBit (w - 1), x = 0, c, v⟩⟩

/-- `c + b + carry` (R117, R118). -/
def addRes (w c b : Nat) (carry : Bool) : AluRes :=
  let s := c + b + b2n carry
  let exact := sextNat c w + sextNat b w + b2n carry
  resOf w (s % 2 ^ w) (decide (2 ^ w ≤ s)) (exact != sextNat (s % 2 ^ w) w)

/-- `c - b - borrow`; C is 1 where there is no borrow (R117, R118). -/
def subRes (w c b : Nat) (borrow : Bool) : AluRes :=
  let d := (c + 2 ^ w - b + 2 ^ w - b2n borrow) % 2 ^ w
  let exact := sextNat c w - sextNat b w - b2n borrow
  resOf w d (decide (b + b2n borrow ≤ c)) (exact != sextNat d w)

/-- Logical results: C and V are 0 (R117). -/
def logicRes (w x : Nat) : AluRes := resOf w (x % 2 ^ w) false false

/-- Shift left by an unmasked count (R120). -/
def shlRes (w x k : Nat) : AluRes :=
  if w < k then resOf w 0 false false
  else resOf w (x * 2 ^ k % 2 ^ w) (decide (0 < k) && x.testBit (w - k)) false

/-- Logical shift right (R120). -/
def shrRes (w x k : Nat) : AluRes :=
  if w < k then resOf w 0 false false else resOf w (x / 2 ^ k) (decide (0 < k) && x.testBit (k - 1)) false

/-- Arithmetic shift right (R120). -/
def sarRes (w x k : Nat) : AluRes :=
  let sign := x.testBit (w - 1)
  let fill := if sign then 2 ^ w - 1 else 0
  if w ≤ k then resOf w fill sign false
  else resOf w ((x / 2 ^ k) ||| (fill - fill / 2 ^ k)) (decide (0 < k) && x.testBit (k - 1)) false

/-- Rotate right (R121). -/
def rorRes (w x k : Nat) : AluRes :=
  let r := k % w
  let y := if r = 0 then x else (x / 2 ^ r) + (x % 2 ^ r) * 2 ^ (w - r)
  resOf w y (y.testBit (w - 1)) false

/-- Leading zero bits of a `w`-bit value (R123). -/
def clzNat : Nat → Nat → Nat
  | 0, _ => 0
  | w + 1, x => if x.testBit w then 0 else 1 + clzNat w x

/-- Trailing zero bits. -/
def ctzNat : Nat → Nat → Nat
  | 0, _ => 0
  | w + 1, x => if x % 2 = 1 then 0 else 1 + ctzNat w (x / 2)

/-- One bits. -/
def popNat : Nat → Nat → Nat
  | 0, _ => 0
  | w + 1, x => x % 2 + popNat w (x / 2)

/-- The bytes of a `w`-bit value reversed. -/
def bswapNat (w x : Nat) : Nat := leNat (leBytes (w / 8) x).reverse

/-- The low and the high half of a product (R124). -/
def mulLow (w c b : Nat) : Nat := c * b % 2 ^ w
def mulHighU (w c b : Nat) : Nat := c * b / 2 ^ w % 2 ^ w
def mulHighS (w c b : Nat) : Nat := ((sextNat c w * sextNat b w) % (2 ^ (2 * w) : Nat)).toNat / 2 ^ w

/-- The divide state in STATUS (R72). -/
structure DivState where
  dz : Bool
  dzp : Bool
  dsg : Bool
  dneg : Bool
  deriving DecidableEq, Repr

/-- STATUS[7:4]. -/
def divOf (st : W64) : DivState := ⟨bitOf st 4, bitOf st 5, bitOf st 6, bitOf st 7⟩

/-- STATUS with bits 7:4 written. -/
def putDiv (st : W64) (d : DivState) : W64 :=
  putField st 4 4 (b2n d.dz + 2 * b2n d.dzp + 4 * b2n d.dsg + 8 * b2n d.dneg)

/-- The negation of a `w`-bit value. -/
def negNat (w x : Nat) : Nat := (2 ^ w - x % 2 ^ w) % 2 ^ w

/-- What a divide instruction gives: A, C and the divide state. -/
structure DivRes where
  a : Nat
  c : Nat
  st : DivState
  deriving DecidableEq, Repr

/-- DIV.INIT and DIV.INITS (R127). -/
def divInitRes (w : Nat) (signed : Bool) (a b : Nat) (st : DivState) : DivRes :=
  let neg := signed && a.testBit (w - 1)
  ⟨if neg then negNat w a else a, 0, { st with dsg := signed, dneg := neg, dzp := decide (b = 0) }⟩

/-- One of the two steps of DSTEP: quotient and remainder. -/
def divStep1 (w d : Nat) (qr : Nat × Nat) : Nat × Nat :=
  let t := 2 * qr.2 + b2n (qr.1.testBit (w - 1))
  let q := 2 * qr.1 % 2 ^ w
  if d ≤ t then (q + 1, (t - d) % 2 ^ w) else (q, t % 2 ^ w)

/-- DSTEP (R127). -/
def dstepRes (w a b c : Nat) (st : DivState) : DivRes :=
  let d := if st.dsg && b.testBit (w - 1) then negNat w b else b
  let r := divStep1 w d (divStep1 w d (a, c))
  ⟨r.1, r.2, st⟩

/-- DIV.FIN (R127). -/
def divFinRes (w a b c : Nat) (st : DivState) : DivRes :=
  ⟨if st.dsg && (st.dneg != b.testBit (w - 1)) then negNat w a else a, if st.dneg then negNat w c else c,
    ⟨st.dzp, false, false, false⟩⟩

end Sys2Proof.Machine
end

