-- ==== Sys2Proof/Machine/OzDecode.lean ====
section
/-! DEFINITION. The Ozhorn-64 instruction decoder (04 R78-R94, R535): the bytes at the PC to an instruction, or to the
reason of an ILL exception. -/

namespace Sys2Proof.Machine

/-- The Ozhorn-64 instructions as the opcode table names them.  `mts` stands for every MTS; the event rows EVCLM_WRITE
and the like are MTS to those registers. -/
inductive OzOp where
  | ld | ldx | st | lea | fld | fst | vld | vst
  | add | sub | adc | sbc | and | or | xor | andn | shl | shr | sar | ror | mul | mulhu | mulhs | mov
  | cmp | tst | csel | sxt | clz | ctz | popc | bswap | mfs | mts
  | bc | b | bl | jr | jlr | ret | cbz | cbnz | loop | svc | hvc | mvc | brk | nop
  | amoswp | amoadd | amoand | amoor | amoxor | amomin | amomax | cas
  | divInit | divInits | dstep | divFin
  | fence | tlbi | tlbsync | wait | reti | rdfeat | rdtime | rdfrm | rdwin | pswitch | cmo | cmosw
  | fadd | fsub | fmul | fdiv | fsqrt | fmin | fmax | fma | fms | fnma | fabs | fneg | fcmp
  | fcvt | scvtf | fcvtzs | fmv | frint
  | vadd | vsub | vmul | vand | vor | vxor | vandn | vshl | vshr | vsar | vmin | vmax | vminu | vmaxu | vcmpeq | vcmpgt
  | vdup | vext | vins
  deriving DecidableEq, Repr

/-- The prefixes of an instruction, by class (R79): the low two bits of an operand-size, vector-element or ordering
prefix, bit 0 of a partition hint, and the low seven bits of a register extension. -/
structure Pfx where
  size : Option Nat := none
  vec : Option Nat := none
  ord : Option Nat := none
  hint : Option Nat := none
  ext : Option Nat := none
  deriving DecidableEq, Repr

/-- A decoded instruction.  `c` is the third register under R83; `w` is the operation width in bits; `imm` is
the immediate or displacement, sign-extended; `len` its length in bytes. -/
structure Insn where
  op : OzOp
  map : Nat
  opc : Nat
  pfx : Pfx := {}
  a : Nat := 0
  b : Nat := 0
  c : Nat := 0
  scale : Nat := 0
  imm : Int := 0
  hasImm : Bool := false
  flags : Bool := false
  len : Nat := 0
  deriving DecidableEq, Repr

/-- What decoding gives: an instruction, an ILL reason (CAUSE.SUB, R99), or that the bytes end too soon. -/
inductive Decoded where
  | ok (i : Insn)
  | ill (sub : Nat)
  | short
  deriving DecidableEq, Repr

/-- The class of a byte in prefix position (R79): 1 operand size, 2 vector element, 3 ordering, 4 hint, 5 register
extension; 0 for an opcode or escape byte. -/
def pfxClass (x : Nat) : Nat :=
  if 0x60 ≤ x ∧ x < 0x64 then 1 else if 0x64 ≤ x ∧ x < 0x68 then 2 else if 0x68 ≤ x ∧ x < 0x6C then 3
  else if x = 0x6C ∨ x = 0x6D then 4 else if 0x80 ≤ x then 5 else 0

/-- Has the class appeared already? -/
def Pfx.has (p : Pfx) (cls : Nat) : Bool :=
  match cls with
  | 1 => p.size.isSome | 2 => p.vec.isSome | 3 => p.ord.isSome | 4 => p.hint.isSome | _ => p.ext.isSome

/-- Record a prefix byte. -/
def Pfx.add (p : Pfx) (cls x : Nat) : Pfx :=
  match cls with
  | 1 => { p with size := some (x % 4) } | 2 => { p with vec := some (x % 4) } | 3 => { p with ord := some (x % 4) }
  | 4 => { p with hint := some (x % 2) } | _ => { p with ext := some (x % 128) }

/-- Read the prefixes byte by byte under R80 and R535: SUB 3 before SUB 4, and 0x63 otherwise SUB 2. `n` counts the
prefixes read. -/
def readPfx : List Nat → Nat → Pfx → Except Decoded (Pfx × Nat × List Nat)
  | [], _, _ => .error .short
  | x :: xs, n, p =>
    if pfxClass x = 0 then .ok (p, n, x :: xs)
    else if p.has (pfxClass x) ∨ 4 ≤ n then .error (.ill 3)
    else if p.ext.isSome then .error (.ill 4)
    else if x = 0x63 then .error (.ill 2)
    else readPfx xs (n + 1) (p.add (pfxClass x) x)

/-- The shape of an opcode's operands: an operand byte, a memory form, and the length of a displacement or
immediate. -/
inductive Form where
  | none | rr | mem | imm (n : Nat) | rrImm (n : Nat)
  deriving DecidableEq, Repr

/-- An opcode's form and instruction; for the immediate operations and SYSC the instruction is settled by the operand
byte (R89-R92). -/
def map0 (x : Nat) : Option (Form × OzOp) :=
  if x < 0x40 then some (.mem, match x / 16 with | 0 => .ld | 1 => .ldx | 2 => .st | _ => .lea)
  else
    match x with
    | 0x40 => some (.rr, .add) | 0x41 => some (.rr, .sub) | 0x42 => some (.rr, .adc) | 0x43 => some (.rr, .sbc)
    | 0x44 => some (.rr, .and) | 0x45 => some (.rr, .or) | 0x46 => some (.rr, .xor) | 0x47 => some (.rr, .andn)
    | 0x48 => some (.rr, .shl) | 0x49 => some (.rr, .shr) | 0x4A => some (.rr, .sar) | 0x4B => some (.rr, .ror)
    | 0x4C => some (.rr, .mul) | 0x4D => some (.rr, .mulhu) | 0x4E => some (.rr, .mulhs) | 0x4F => some (.rr, .mov)
    | 0x50 => some (.rrImm 1, .add) | 0x51 => some (.rrImm 2, .add) | 0x52 => some (.rrImm 4, .add) | 0x53 => some (.rrImm 8, .add)
    | 0x54 => some (.rr, .cmp) | 0x55 => some (.rr, .tst) | 0x56 => some (.rrImm 1, .csel) | 0x57 => some (.rr, .sxt)
    | 0x58 => some (.rr, .clz) | 0x59 => some (.rr, .ctz) | 0x5A => some (.rr, .popc) | 0x5B => some (.rr, .bswap)
    | 0x5D => some (.rrImm 2, .mfs) | 0x5E => some (.rrImm 2, .mts)
    | 0x70 => some (.rrImm 1, .bc) | 0x71 => some (.rrImm 2, .bc) | 0x72 => some (.rrImm 4, .bc)
    | 0x73 => some (.imm 1, .b) | 0x74 => some (.imm 2, .b) | 0x75 => some (.imm 4, .b) | 0x76 => some (.imm 4, .bl)
    | 0x77 => some (.rr, .jr) | 0x78 => some (.rr, .jlr) | 0x79 => some (.none, .ret)
    | 0x7A => some (.rrImm 2, .cbz) | 0x7B => some (.rrImm 2, .cbnz) | 0x7C => some (.rrImm 2, .loop)
    | 0x7D => some (.rrImm 2, .svc) | 0x7E => some (.none, .brk) | 0x7F => some (.none, .nop)
    | _ => none

/-- Map 1 (R91). -/
def map1 (x : Nat) : Option (Form × OzOp) :=
  if x < 0x40 then some (.mem, match x / 16 with | 0 => .fld | 1 => .fst | 2 => .vld | _ => .vst)
  else
    match x with
    | 0x40 => some (.rr, .add) | 0x41 => some (.rr, .sub) | 0x42 => some (.rr, .adc) | 0x43 => some (.rr, .sbc)
    | 0x44 => some (.rr, .and) | 0x45 => some (.rr, .or) | 0x46 => some (.rr, .xor) | 0x47 => some (.rr, .andn)
    | 0x48 => some (.rr, .shl) | 0x49 => some (.rr, .shr) | 0x4A => some (.rr, .sar) | 0x4B => some (.rr, .ror)
    | 0x50 => some (.rrImm 1, .add) | 0x51 => some (.rrImm 2, .add) | 0x52 => some (.rrImm 4, .add) | 0x53 => some (.rrImm 8, .add)
    | 0x60 => some (.rr, .amoswp) | 0x61 => some (.rr, .amoadd) | 0x62 => some (.rr, .amoand) | 0x63 => some (.rr, .amoor)
    | 0x64 => some (.rr, .amoxor) | 0x65 => some (.rr, .amomin) | 0x66 => some (.rr, .amomax) | 0x67 => some (.rr, .cas)
    | 0x68 => some (.rr, .divInit) | 0x69 => some (.rr, .divInits) | 0x6A => some (.rr, .dstep) | 0x6B => some (.rr, .divFin)
    | 0x70 => some (.imm 1, .fence) | 0x71 => some (.rrImm 1, .tlbi) | 0x72 => some (.none, .tlbsync) | 0x73 => some (.rr, .wait)
    | 0x74 => some (.none, .reti) | 0x75 => some (.rrImm 1, .rdfeat) | 0x76 => some (.rr, .rdtime) | 0x77 => some (.rr, .rdfrm)
    | 0x78 => some (.rr, .rdwin) | 0x79 => some (.rr, .pswitch) | 0x7A => some (.rrImm 1, .cmo) | 0x7B => some (.rrImm 1, .cmosw)
    | _ => none

/-- Map 2 (R92). -/
def map2 (x : Nat) : Option (Form × OzOp) :=
  match x with
  | 0x00 => some (.rr, .fadd) | 0x01 => some (.rr, .fsub) | 0x02 => some (.rr, .fmul) | 0x03 => some (.rr, .fdiv)
  | 0x04 => some (.rr, .fsqrt) | 0x05 => some (.rr, .fmin) | 0x06 => some (.rr, .fmax) | 0x07 => some (.rr, .fma)
  | 0x08 => some (.rr, .fms) | 0x09 => some (.rr, .fnma) | 0x0A => some (.rr, .fabs) | 0x0B => some (.rr, .fneg)
  | 0x0C => some (.rr, .fcmp) | 0x10 => some (.rr, .fcvt) | 0x11 => some (.rr, .fcvt) | 0x12 => some (.rr, .scvtf)
  | 0x13 => some (.rr, .fcvtzs) | 0x14 => some (.rr, .fmv) | 0x15 => some (.rr, .fmv) | 0x16 => some (.rr, .frint)
  | 0x20 => some (.rr, .vadd) | 0x21 => some (.rr, .vsub) | 0x22 => some (.rr, .vmul) | 0x23 => some (.rr, .vand)
  | 0x24 => some (.rr, .vor) | 0x25 => some (.rr, .vxor) | 0x26 => some (.rr, .vandn) | 0x27 => some (.rr, .vshl)
  | 0x28 => some (.rr, .vshr) | 0x29 => some (.rr, .vsar) | 0x2A => some (.rr, .vmin) | 0x2B => some (.rr, .vmax)
  | 0x2C => some (.rr, .vminu) | 0x2D => some (.rr, .vmaxu) | 0x2E => some (.rr, .vcmpeq) | 0x2F => some (.rr, .vcmpgt)
  | 0x30 => some (.rrImm 1, .vdup) | 0x31 => some (.rrImm 1, .vext) | 0x32 => some (.rrImm 1, .vins)
  | _ => none

/-- Is the operand-size prefix `z` accepted (R81)? -/
def sizeOk (map opc z : Nat) : Bool :=
  match map with
  | 0 => decide (opc < 0x30) || (decide (0x40 ≤ opc) && decide (opc ≤ 0x55)) || (decide (0x57 ≤ opc) && decide (opc ≤ 0x5B))
  | 1 =>
    if opc < 0x20 then z = 0
    else if 0x40 ≤ opc ∧ opc ≤ 0x53 then true
    else if 0x60 ≤ opc ∧ opc ≤ 0x6B then z = 0
    else false
  | _ => decide (opc ≤ 0x16) && z = 0

/-- Is the vector-element prefix `z` accepted (R81)? -/
def vecOk (map opc z : Nat) : Bool :=
  map = 2 && ((decide (opc ≤ 0x0C) && decide (2 ≤ z)) || (decide (0x20 ≤ opc) && decide (opc ≤ 0x32)))

/-- Is the ordering prefix `z` (0 ACQ, 1 REL, 2 ACQREL, 3 NT) accepted (R81)? -/
def ordOk (op : OzOp) (map opc z : Nat) : Bool :=
  let atomic := map = 1 && decide (0x60 ≤ opc) && decide (opc ≤ 0x67)
  match z with
  | 0 => op = .ld || op = .ldx || op = .fld || op = .vld || atomic
  | 1 => op = .st || op = .fst || op = .vst || atomic
  | 2 => atomic
  | _ => op = .ld || op = .ldx || op = .st || op = .fld || op = .fst || op = .vld || op = .vst

/-- Is a partition hint accepted (R81)? -/
def hintOk (op : OzOp) : Bool :=
  op = .ld || op = .ldx || op = .st || op = .fld || op = .fst || op = .vld || op = .vst

/-- Does the form have an operand byte? -/
def Form.hasOperand : Form → Bool
  | .none => false | .imm _ => false | _ => true

/-- Every prefix is accepted and every required one is present (R81). -/
def pfxOk (p : Pfx) (map opc : Nat) (f : Form) (op : OzOp) : Bool :=
  (match p.size with | some z => sizeOk map opc z | none => true)
    && (match p.vec with | some z => vecOk map opc z | none => true)
    && (match p.ord with | some z => ordOk op map opc z | none => true)
    && (match p.hint with | some _ => hintOk op | none => true)
    && (p.ext.isNone || f.hasOperand)
    && !(map = 0 && (op = .ldx || op = .sxt) && p.size.isNone)
    && !(map = 2 && decide (0x20 ≤ opc) && p.vec.isNone)
    && !(map = 2 && p.size.isSome && p.vec.isSome)

/-- The operation that B selects in the immediate forms (R90). -/
def immOp (b : Nat) : Option OzOp :=
  match b with
  | 0 => some .add | 1 => some .and | 2 => some .or | 3 => some .xor | 4 => some .shl | 5 => some .shr | 6 => some .sar
  | 7 => some .ror | 8 => some .mov | 9 => some .cmp | 10 => some .tst | 11 => some .mul | _ => none

/-- Settle the instruction of an immediate operation or a SYSC from the operand byte; SUB 1 where the field
selects none (R89-R91). -/
def subOp (map opc a b : Nat) (op : OzOp) : Option OzOp :=
  if (map = 0 ∨ map = 1) ∧ 0x50 ≤ opc ∧ opc ≤ 0x53 then
    (if map = 1 ∧ 8 ≤ b % 16 then none else immOp (b % 16))
  else if map = 0 ∧ opc = 0x7D then
    (match a % 16 with | 0 => some .svc | 1 => some .hvc | 2 => some .mvc | _ => none)
  else some op

/-- Which of A, B and C an instruction reads or writes; a register field it does not must be 0 (R84).  `aSub` and `bSub`
mark A or B as a sub-opcode, whose extension bit must be 0. -/
structure Uses where
  a : Bool := true
  b : Bool := true
  c : Bool := true
  aSub : Bool := false
  bSub : Bool := false
  deriving DecidableEq, Repr

/-- The register fields of an instruction (R84, R89-R92). -/
def usesOf (map opc : Nat) (op : OzOp) : Uses :=
  if (map = 0 ∨ map = 1) ∧ 0x50 ≤ opc ∧ opc ≤ 0x53 then
    match op with
    | .mov => { bSub := true, c := false }
    | .cmp | .tst => { bSub := true, a := false }
    | _ => { bSub := true }
  else
    match op with
    | .mov | .sxt | .clz | .ctz | .popc | .bswap | .jlr | .fsqrt | .fabs | .fneg | .fcvt | .scvtf | .fcvtzs | .fmv | .frint
    | .vdup | .vext | .vins => { c := false }
    | .cmp | .tst | .fcmp => { a := false }
    | .mfs | .mts | .cbz | .cbnz | .loop | .tlbi | .wait | .rdfeat | .rdtime | .rdfrm | .rdwin | .pswitch | .cmo | .cmosw =>
      { b := false, c := false }
    | .bc => { a := false, bSub := true, c := false }
    | .jr => { a := false, c := false }
    | .svc | .hvc | .mvc => { aSub := true, b := false, c := false }
    | _ => {}

/-- The number of lanes at the vector width of an element prefix. -/
def laneCount (z : Nat) : Nat := 16 / 2 ^ z

/-- SUB 5 reasons of the operand byte and the prefix fields: a field that must be 0 (R84, R85, R94). -/
def mustBeZero (i : Insn) (u : Uses) (f : Form) : Bool :=
  let ext := i.pfx.ext.isSome
  let aBad := if u.aSub then decide (16 ≤ i.a) else if u.a then false else if ext then i.a != 0 else (i.op = .bc || i.op = .jr) && i.a != 0
  let bBad := if u.bSub then decide (16 ≤ i.b) else !u.b && i.b != 0
  let cBad := ext && !u.c && i.c != 0
  let cond := (i.op = .bc && i.b % 16 = 15)
  let scale := f = .mem && !ext && i.scale != 0
  aBad || bBad || cBad || cond || scale

/-- A SUB 5 reason of the immediate: the condition of CSEL (R89, R94). -/
def immZero (i : Insn) : Bool := i.op = .csel && (decide (16 ≤ (i.imm % 256).toNat) || (i.imm % 16).toNat = 15)

/-- SUB 7 reasons of the register fields: the rules of the divide instructions (R126). -/
def badRegs (i : Insn) : Bool :=
  match i.op with
  | .divInit | .divInits | .dstep | .divFin => i.pfx.ext.isNone || i.c = i.a || i.a = 0 || i.c = 0
  | _ => false

/-- SUB 7 reasons of the displacement or the immediate: a displacement of LOOP that is 0 or less, a FENCE kind, TLBI
scope, feature number, CMO or CMOSW operation or lane index that does not exist (R93, R97, R106, R108, R109, R234, R236). -/
def badValue (i : Insn) : Bool :=
  let v := (i.imm % 256).toNat
  match i.op with
  | .loop => decide (i.imm ≤ 0)
  | .fence => decide (5 ≤ v)
  | .tlbi => decide (7 ≤ v)
  | .rdfeat => decide (8 ≤ v)
  | .cmo => decide (5 ≤ v)
  | .cmosw => decide (3 ≤ v)
  | .vdup | .vext | .vins => decide (laneCount (i.pfx.vec.getD 0) ≤ v)
  | _ => false

/-- The displacement length of a memory form's DS field (R85). -/
def dispLen (ds : Nat) : Nat := match ds with | 0 => 0 | 1 => 1 | 2 => 2 | _ => 4

/-- The little-endian number of `n` bytes, sign-extended. -/
def readSigned (n : Nat) (xs : List Nat) : Int :=
  if n = 0 then 0 else sextNat ((xs.take n).foldr (fun x acc => x + 256 * acc) 0) (8 * n)

/-- The bytes after the opcode that the form needs. -/
def Form.tailLen (f : Form) (opc : Nat) : Nat :=
  match f with
  | .none => 0 | .rr => 1 | .mem => 1 + dispLen (opc % 4) | .imm n => n | .rrImm n => 1 + n

/-- Decode what follows the opcode: the operand byte with the prefix fields, then the displacement and the immediate, each with its
reasons in the order SUB 1, SUB 5, SUB 7; what raises ILL at the operand byte needs no later byte (R535). -/
def decodeTail (p : Pfx) (map opc n : Nat) (f : Form) (op : OzOp) (xs : List Nat) : Decoded :=
  if f.hasOperand && xs.isEmpty then .short
  else
    let x := p.ext.getD 0
    let operand := if f.hasOperand then xs.headD 0 else 0
    let rest := if f.hasOperand then xs.drop 1 else xs
    let a := operand / 16 + 16 * (x / 64)
    let b := operand % 16 + 16 * (x / 32 % 2)
    let c := if p.ext.isSome then x % 32 else if f = .mem then 0 else a
    let immLen := match f with | .imm k => k | .rrImm k => k | .mem => dispLen (opc % 4) | _ => 0
    match subOp map opc a b op with
    | none => .ill 1
    | some op' =>
      let flags := map = 1 && decide (0x40 ≤ opc) && decide (opc ≤ 0x53)
      let i : Insn :=
        { op := op', map, opc, pfx := p, a, b, c, scale := if f = .mem then opc / 4 % 4 else 0,
          imm := readSigned immLen rest, hasImm := match f with | .rrImm _ => true | _ => false, flags,
          len := n + f.tailLen opc }
      if mustBeZero i (usesOf map opc op') f then .ill 5
      else if badRegs i then .ill 7
      else if xs.length < f.tailLen opc then .short
      else if immZero i then .ill 5
      else if badValue i then .ill 7
      else .ok i

/-- Decode an opcode of one map: SUB 1 for an undefined opcode, then SUB 2 for its prefixes (R535). -/
def decodeOpcode (p : Pfx) (map opc n : Nat) (row : Option (Form × OzOp)) (xs : List Nat) : Decoded :=
  match row with
  | none => .ill 1
  | some (f, op) => if pfxOk p map opc f op then decodeTail p map opc n f op xs else .ill 2

/-- Decode the bytes at the PC. -/
def ozDecode (bytes : List Byte) : Decoded :=
  match readPfx (bytes.map BitVec.toNat) 0 {} with
  | .error d => d
  | .ok (p, n, x :: xs) =>
    if x = 0x6F then
      (match xs with
       | [] => .short
       | y :: ys => decodeOpcode p 1 y (n + 2) (map1 y) ys)
    else if x = 0x6E then
      (match xs with
       | [] => .short
       | y :: ys => decodeOpcode p 2 y (n + 2) (map2 y) ys)
    else decodeOpcode p 0 x (n + 1) (map0 x) xs
  | .ok (_, _, []) => .short

/-- The operation width in bits that the operand-size prefix selects (R88, R91). -/
def Insn.w (i : Insn) : Nat := match i.pfx.size with | some 0 => 32 | some 1 => 16 | some 2 => 8 | _ => 64

/-- The lane width in bits of a vector-element prefix (R79). -/
def Insn.laneW (i : Insn) : Nat := 8 * 2 ^ (i.pfx.vec.getD 3)

/-- Does the access carry the ordering prefix of code `z`? -/
def Insn.ordIs (i : Insn) (z : Nat) : Bool := i.pfx.ord = some z

end Sys2Proof.Machine
end

