-- ==== Sys2Proof/Machine/Power.lean ====
section
/-! DEFINITION. Power domains, Stop, wake, operating points, temperature, resets and the balls of the AOC (17, 19). -/

namespace Sys2Proof.Machine

/-! ### Operating points -/

/-- The point in force and the target of a cabinet: millivolts and megahertz (17 R488). -/
def State.curMv (s : State) (c : Nat) : Nat := s.fld (cabCtl c 0x44) 0 10
def State.curMhz (s : State) (c : Nat) : Nat := s.fld (cabCtl c 0x44) 16 12
def State.tgtMv (s : State) (c : Nat) : Nat := s.fld (cabCtl c 0x48) 0 10
def State.tgtMhz (s : State) (c : Nat) : Nat := s.fld (cabCtl c 0x48) 16 12

/-- Is a pair of voltage and clock within a compute cabinet's range (17 R482)? -/
def dvfsRange (mv mhz : Nat) : Bool :=
  mv % 5 == 0 && decide (550 ≤ mv) && decide (mv ≤ 900) && mhz % 25 == 0 && decide (600 ≤ mhz) && decide (mhz ≤ 2600)
    && decide (mhz ≤ 600 + (mv - 550) * 40 / 7)

/-- Is a cabinet in Run: its common, or the AOC? -/
def State.cabRuns (s : State) (c : Nat) : Bool := c = 7 || s.domState (264 + c) = 3

/-- Would the voltage differ by more than 350 mV from the target of another cabinet in Run (01 R12)? -/
def State.mvTooFar (s : State) (c mv : Nat) : Bool :=
  (List.range 8).any (fun k => k != c && s.cabRuns k && (decide (350 + s.tgtMv k < mv) || decide (350 + mv < s.tgtMv k)))

/-- The DVFS step in progress. -/
def State.dvfsStep (s : State) (c : Nat) : Option DvfsStep := SMap.get none s.power.dvfs c
def State.setDvfs (s : State) (c : Nat) (x : Option DvfsStep) : State :=
  { s with power := { s.power with dvfs := SMap.set none s.power.dvfs c x } }

/-- Write a voltage code to the PMIC, if PMIC_CFG.EN is 1 (19 R519). -/
def State.pmicWrite (s : State) (c mv : Nat) : State :=
  let g := s.reg (pwc 0x80)
  if bitOf g 31 then
    { s with power := { s.power with pmic := some (fieldOf g 0 7, s.fld (pwc (0x84 + 4 * c)) 0 8, (mv - 500) / 5) } }
  else s

/-- The next step of a DVFS sequence, or its end (17 R483): raising the clock moves the voltage first; lowering it moves the
clock first. -/
def State.dvfsNext (s : State) (c : Nat) : State :=
  let volt := (s.setDvfs c (some (.voltage (s.tgtMv c)))).pmicWrite c (s.tgtMv c)
  let clk := s.setDvfs c (some (.clock (s.tgtMhz c)))
  if s.tgtMhz c < s.curMhz c then clk
  else if s.tgtMv c ≠ s.curMv c then volt
  else if s.tgtMhz c ≠ s.curMhz c then clk
  else ((s.setDvfs c none).setBit (cabCtl c 0x44) 31 false).fire (0x308 + c)

/-- A write of DVFS_REQ (17 R482; 01 R12, R13). -/
def State.writeDvfsReq (s : State) (c : Nat) (v : W32) : State :=
  let mv := fieldOf v 0 10
  let mhz := fieldOf v 16 12
  if 4 ≤ c then
    if mv = s.curMv c && mhz = s.curMhz c then s else s.raise (cabCtl c 0) 0
  else if !dvfsRange mv mhz || s.mvTooFar c mv then s.raise (cabCtl c 0) 0
  else
    let s := s.setNat (cabCtl c 0x48) (mv + 65536 * mhz)
    if (s.dvfsStep c).isSome then s else (s.setBit (cabCtl c 0x44) 31 true).dvfsNext c

/-- DVFS_STEP_DONE: the step in progress completes (17 R483); with PMIC_CFG.EN 0 a voltage step never does (19 R519). -/
def dvfsStepDone (c : Nat) (s : State) : State :=
  match s.dvfsStep c with
  | some (.voltage mv) => if s.bit (pwc 0x80) 31 then (s.setFld (cabCtl c 0x44) 0 10 mv).dvfsNext c else s
  | some (.clock mhz) => (s.setFld (cabCtl c 0x44) 16 12 mhz).dvfsNext c
  | none => s

/-- DVFS_STEP_DONE (17 R483). -/
def execDvfsStepDone (c : Fin 4) (s : State) : Out := act s (dvfsStepDone c.val)

/-- PMIC_STATUS_POLL: the power controller reads STREG; `r` is the byte, none a NACK.  BIT 1 ends the voltage step (19
R519). -/
def pmicPoll (c : Nat) (r : Option Byte) (s : State) : State :=
  match s.dvfsStep c, r with
  | some (.voltage _), some b => if bitOf b (s.fld (pwc (0x84 + 4 * c)) 8 3) then dvfsStepDone c s else s
  | _, _ => s

/-- PMIC_STATUS_POLL (19 R519). -/
def execPmicStatusPoll (c : Fin 4) (r : Option Byte) (s : State) : Out := act s (pmicPoll c.val r)

/-- DVFS_TIMEOUT: the sequence stops at the point in force (17 R483). -/
def dvfsTimeout (c : Nat) (s : State) : State :=
  match s.dvfsStep c with
  | some _ =>
    let s := (s.setDvfs c none).setBit (cabCtl c 0x44) 31 false
    let s := s.setReg (cabCtl c 0x48) (s.reg (cabCtl c 0x44))
    (s.raise (cabCtl c 0) 1).fire (0x30C + c)
  | none => s

/-- DVFS_TIMEOUT (17 R483). -/
def execDvfsTimeout (c : Fin 4) (s : State) : Out := act s (dvfsTimeout c.val)

/-! ### Temperature -/

/-- A temperature reading as a signed number of sixteenths of a degree. -/
def tempOf (t : List W16) (c : Nat) : Int := sextNat (t.getD c 0).toNat 16

/-- The index of the greatest value of `f` below `n`, the lowest such index. -/
def argMax (f : Nat → Int) : Nat → Nat
  | 0 => 0
  | n + 1 => let k := argMax f n; if f k < f n then n else k

/-- TEMPERATURE_SAMPLE: TJ_c of the 8 cabinets; two that differ by more than 45 °C write TDIFF, report and fire 0x304 (01
R14, 17 R484).  Of several such pairs it names the hottest and the coolest cabinet, the lowest number on a tie, and it truncates the difference
to whole degrees (DESIGN CHOICE, assumption log 86). -/
def temperatureSample (t : List W16) (s : State) : State :=
  let s := (List.range 8).foldl (fun s c => s.setNat (pwt (0x40 + 4 * c)) (t.getD c 0).toNat) s
  let s := s.force (pwt 0) 0
  let hot := argMax (tempOf t) 8
  let cool := argMax (fun c => - tempOf t c) 8
  let d := tempOf t hot - tempOf t cool
  if 720 < d then
    ((s.setNat (pwt 0x60) (hot + 16 * cool + 256 * (d.toNat / 16 % 256) + 2147483648)).raise (pwt 0) 0).fire 0x304
  else s

/-- TEMPERATURE_SAMPLE (17 R484). -/
def execTemperatureSample (t : List W16) (s : State) : Out := act s (temperatureSample t)

/-- THERMTRIP_SAMPLE: also in reset, freeze and chip Stop.  With PORST_N high a sample at or above 135 °C asserts the ball
until the next power-on reset; with PORST_N low it follows the samples (19 R529).  A reset that PORST_N started counts as PORST_N low until its
release: no command is its rise (DEDUCED, assumption log 88). -/
def thermtripSample (t : List W16) (s : State) : State :=
  let hot := (List.range 8).any (fun c => decide (2160 ≤ tempOf t c))
  let cool := (List.range 8).all (fun c => decide (tempOf t c < 2080))
  let set := fun b => { s with power := { s.power with thermtrip := b } }
  if hot then set true else if s.power.porst && cool then set false else s

/-- THERMTRIP_SAMPLE (19 R529). -/
def execThermtripSample (t : List W16) (s : State) : Out := .next (thermtripSample t s)

/-! ### Domains -/

/-- The parent of a domain (17 R463). -/
def domParent (d : Nat) : Option Nat :=
  if d < 192 then some (192 + d / 8)
  else if d < 216 then some (264 + (d - 192) / 6)
  else if d < 248 then some (268 + (d - 216) / 16)
  else if d < 264 then some (268 + (d - 248) / 8)
  else if d < 279 then none
  else if d < 296 then some 270
  else none

/-- The children of a domain. -/
def domChildren (d : Nat) : List Nat := (List.range 296).filter (fun k => domParent k = some d)

/-- The domain of a control-space offset. -/
def regDomain (a : Nat) : Option Nat :=
  match pageOf a with
  | some p => p.domain
  | none => none

/-- Is the register on its domain's save list (17 R475)? -/
def savedReg (a : Nat) : Bool :=
  match pageOf a with
  | none => false
  | some p =>
    let o := a % 4096
    if p.kind = .dbg then false
    else if o < 0x40 then [0x0C, 0x14, 0x18, 0x20, 0x24].contains o
    else
      let wr := match p.row o with
        | some r => r.rw != 0 || r.rwl != 0
        | none => false
      match p.kind with
      | .stool => wr && o != 0x40
      | .l2 | .slc => wr || (decide (0x58 ≤ o) && decide (o ≤ 0x68)) || o = 0x74 || decide (0x200 ≤ o)
      | .router => o != 0x40 && o != 0x78
      | .rg => decide (0x48 ≤ o)
      | .probe => wr || (decide (0x78 ≤ o) && decide (o < 0xE0) && o % 0x20 = 0x18) || o = 0x104
      | .mc => wr || o = 0x48 || o = 0x4C
      | .ipe => wr || o = 0x44
      | .frr | .cmr | .win => true
      | .vf => wr || o = 0x40
      | _ => wr

/-- What a page keeps of a register while its LOCK is 1, whatever else is lost: LOCK itself, PG_OWNER and the other RWL fields (00 R5; 02
R35; 17 R487); `look` gives the registers of the page. -/
def lockedReg (look : Nat → W32) (r : Nat × W32) : Option (Nat × W32) :=
  let base := r.1 / 4096 * 4096
  match (pageOf r.1).bind (fun p => p.row (r.1 % 4096)) with
  | none => none
  | some row =>
    let m := BitVec.ofNat 32 (if r.1 % 4096 = 0xC then 4 else row.rwl)
    let v := (resetValue r.1 &&& ~~~m) ||| (r.2 &&& m)
    if bitOf (look (base + 0xC)) 2 && v ≠ resetValue r.1 then some (r.1, v) else none

/-- What an image keeps of a cell's core (17 R476); a WAIT that did not retire is executed again (17 R469), and a core that a
double fault or a broken pair stopped stays stopped (04 R105; 09 R264; assumption log 75). -/
def Core.imageOf (c : Core) : Core :=
  { g := c.g, f := c.f, sys := c.sys, pc := c.pc, level := c.level, held := c.held, run := c.run, bunk := { halted := c.bunk.halted } }

/-- The stools of a domain. -/
def domStools (d : Nat) : List Nat :=
  if 192 ≤ d ∧ d < 216 then [d - 192] else if 264 ≤ d ∧ d < 271 then [24 + (d - 264)] else []

/-- The engine-local registers on the save list: LCTL, XW, CNTO, EEN (17 R475). -/
def savedLreg (o : Nat) : Bool := o = 0 || o = 4 || o = 8 || (decide (0x40 ≤ o) && decide (o < 0x60))

/-- The save image of a domain (17 R475); a locked page that is not on the save list keeps what its lock holds (00 R5; assumption log
10). -/
def State.imageOf (s : State) (d : Nat) : Image :=
  { regs := s.regs.filterMap (fun r =>
      if regDomain r.1 ≠ some d then none else if savedReg r.1 then some r else lockedReg s.reg r)
    core := if d < 192 then some (s.core d).imageOf else none
    lregs := (if d < 216 then domStools d else []).map (fun k => (k, (s.stool k).lreg.filter (fun r => savedLreg r.1)))
    commit := s.reg (cmt 0x4C), tick := s.reg64 (frm 0x50) }

/-- The pool's allocation, shown on engine 0's page, belongs to the IOC common's saved state (17 R475; 13 R351). -/
def poolReg (a : Nat) : Bool :=
  decide (tePage 0 0x400 ≤ a ∧ a < tePage 0 0xC00) || decide (a = tePage 0 0x10C)

/-- What a unit without a register for it loses with power or at its reset: queues of the engines and the switch, link state, a
controller's caches and sweeps (17 R475, R487). -/
def State.dropUnit (s : State) (d : Nat) : State :=
  let te := fun (s : State) (e : Nat) =>
    { s with te := { s.te with
      slots := SMap.set [] s.te.slots e [], parked := SMap.set [] s.te.parked e [], charged := SMap.set 0 s.te.charged e 0 } }
  if 248 ≤ d ∧ d < 264 then
    let m := d - 248
    { s with mem := { s.mem with
      training := s.mem.training.filter (· ≠ m)
      tagCache := SMap.set [] s.mem.tagCache m [], ctrCache := SMap.set [] s.mem.ctrCache m []
      queue := s.mem.queue.filter (fun q => q.mc ≠ m), reenc := s.mem.reenc.filter (fun r => r.mc ≠ m), sw := SMap.set none s.mem.sw m none } }
  else if d = 270 then
    { s with
      te := { s.te with pf := none, soft := [] }
      ev := { fires := s.ev.fires.filter (fun f => match f with | .source _ => false | _ => true), groups := [] }
      port := { s.port with tx := [], rx := [], busy := [], xspi := false, ufs := false, trace := [] } }
  else if d = 279 then
    let s := te (te s 8) 9
    { s with port := { s.port with
      tables := [], tblOp := none, stamps := [], stamp := [], gates := [], gatePend := [], egress := [], gd := [] } }
  else if 280 ≤ d ∧ d < 284 then
    let i := d - 280
    let s := { s with port := { s.port with pcie := s.port.pcie.filter (fun r => r.port ≠ i) } }
    match s.port.lanes with
    | some b => s.setBit (pciePage i 0x48) 9 ((b = 0 && i ≠ 0) || (b = 1 && i ≠ 0 && i ≠ 2))
    | none => s
  else if 284 ≤ d ∧ d < 288 then
    { s with port := { s.port with
      sent := SMap.set none s.port.sent (d - 284) none, t1 := SMap.set none s.port.t1 (d - 284) none
      phase := d = 284 || s.port.phase } }
  else if 288 ≤ d then te s (d - 288)
  else s

/-- A stool that has lost power: its local SRAM holds undefined contents (17 R475, R487), free bytes. -/
def State.blankStool (s : State) (k : Nat) : State :=
  { s.setStool k { sram := Memory.writeN [] 0 ((List.range 262144).map (fun i => Config.byte (s.fresh + i))) } with
    fresh := s.fresh + 262144 }

/-- A cell that loses its state awaits no fill any more. -/
def State.dropFills (s : State) (n : Nat) : State :=
  { s with coh := { s.coh with misses := s.coh.misses.filter (fun m => m.core ≠ n) } }

/-- Has the cell drained: its core has completed what has issued, its store buffer is empty, and every response that it awaits has
come or timed out (10 R283; 17 R468)? -/
def State.drained (s : State) (n : Nat) : Bool :=
  let c := s.core n
  !c.issued && c.sb.isEmpty && c.tlbis.isEmpty && !s.coh.misses.any (fun m => m.core = n && m.got.isNone)

/-- The local router ports at which a domain's own units stand (10 R267; 17 R463). -/
def domainPorts (d : Nat) : List (Nat × Nat) :=
  if 192 ≤ d ∧ d < 216 then [(8 * ((d - 192) / 6) + (d - 192) % 6, 0)]
  else if 216 ≤ d ∧ d < 248 then [(sliceRouter (d - 216), 0)]
  else if 248 ≤ d ∧ d < 264 then [(sliceRouter (2 * (d - 248)), 1), (sliceRouter (2 * (d - 248) + 1), 1)]
  else if 264 ≤ d ∧ d < 271 then
    [(gatewayRouter (d - 264) 0, 0), (gatewayRouter (d - 264) 1, 0)] ++ (if d = 270 then [(68, 1), (68, 2)] else [])
  else if d = 279 then [(68, 0)]
  else if 280 ≤ d ∧ d < 284 then [(69, d - 280)]
  else if 284 ≤ d ∧ d < 288 then [(70, 0)]
  else if 288 ≤ d ∧ d < 292 then [(70, 1)]
  else if 292 ≤ d ∧ d < 296 then [(70, 2)]
  else []

/-- Is anything under way at a local port: a response that the unit there awaits, a packet that has reached it and that it has not acted on,
a response of its own that has not left (10 R283)? -/
def State.portWorks (s : State) (r q : Nat) : Bool :=
  s.net.outs.any (fun p => p.src.toNat = r && p.srcp.val = q)
    || s.net.flights.any (fun f => f.rtr = r && f.port = q && (f.out || isResponse f.pkt))

/-- Has the slice a request under way: a transaction, one that waits for it, a write-back without an answer (08 R229-R232, R243)? -/
def State.sliceWorks (s : State) (k : Nat) : Bool :=
  s.coh.txs.any (fun t => t.slice = k) || s.coh.waitq.any (fun w => w.1 = k) || !(SMap.get [] s.coh.evb (24 + k)).isEmpty
    || s.portWorks (sliceRouter k) 0

/-- Has the L2 a request under way: a fill, a TLBI, a line in its eviction buffer (08 R243; 07 R212)? -/
def State.l2Works (s : State) (b : Nat) : Bool :=
  let r := 8 * (b / 6) + b % 6
  s.coh.misses.any (fun m => m.core / 8 = b && m.got.isNone) || s.coh.tlbis.any (fun t => t.1.dst.toNat = r)
    || !(SMap.get [] s.coh.evb b).isEmpty || s.portWorks r 0

/-- Has the controller a request that it has accepted and not performed (11 R306)? -/
def State.mcWorks (s : State) (m : Nat) : Bool :=
  s.mem.queue.any (fun q => q.mc = m) || s.mem.reenc.any (fun r => r.mc = m) || s.portWorks (sliceRouter (2 * m)) 1 || s.portWorks (sliceRouter (2 * m + 1)) 1

/-- Has a domain that is stopping something to wait for before its fences close (10 R283; 17 R466-R468; 08 R245)? -/
def State.domWorks (s : State) (d : Nat) : Bool :=
  if d < 192 then !s.drained d
  else
    s.notEmpty d || (domainPorts d).any (fun x => s.portWorks x.1 x.2)
      || (if d < 216 then s.l2Works (d - 192)
          else if d < 248 then s.sliceWorks (d - 216)
          else if d < 264 then s.mcWorks (d - 248)
          else if d < 271 then
            s.net.bridges.any (fun b => b.gw = gatewayRouter (d - 264) 0 || b.gw = gatewayRouter (d - 264) 1)
              || (d < 268 && (SMap.get none s.power.dvfs (d - 264)).isSome)
          else if 280 ≤ d ∧ d < 284 then s.port.pcie.any (fun r => r.port = d - 280)
          else if 284 ≤ d ∧ d < 288 then !s.port.reads.isEmpty
          else false)

/-- The routers of a domain lose what they hold: packets, arbiters, trace records; and so do the units at its ports, what they await. -/
def State.dropNet (s : State) (d : Nat) : State :=
  let rs := (List.range 82).filter (fun r => routerDomain r = some d)
  let ps := domainPorts d
  { s with
    net := { s.net with
      flights := s.net.flights.filter (fun f => !rs.contains f.rtr && !(f.out && ps.contains (f.rtr, f.port)))
      outs := s.net.outs.filter (fun p => !ps.contains (p.src.toNat, p.srcp.val))
      bridges := s.net.bridges.filter (fun b => !rs.contains b.gw)
      arb := s.net.arb.filter (fun a => !rs.contains (a.1 / 8))
      trace := s.net.trace.filter (fun t => !rs.contains t.1) }
    coh := { s.coh with tlbis := s.coh.tlbis.filter (fun t => !rs.contains t.1.dst.toNat) } }

/-- A domain loses power: its registers, core and stool are lost. -/
def State.powerOff (s : State) (d : Nat) : State :=
  let s := { s with
    regs := s.regs.filter (fun r => regDomain r.1 ≠ some d || poolReg r.1)
    soft := s.soft.filter (fun p => regDomain (4096 * p) ≠ some d) }
  let s := if d < 192 then (s.setCore d {}).dropFills d else s
  let s := if 264 ≤ d ∧ d < 268 then (List.range 48).foldl (fun s k => s.setWins (48 * (d - 264) + k) []) s else s
  let s := if 192 ≤ d ∧ d < 216 then s.dropBenchCaches (d - 192) else if 216 ≤ d ∧ d < 248 then s.dropSlice (d - 216) else s
  let s := { s with err := { s.err with flaws := s.err.flaws.filter (fun f => regDomain f.page ≠ some d) } }
  (((domStools d).foldl State.blankStool s).dropUnit d).dropNet d

/-- Set fields of DSTAT. -/
def State.setDom (s : State) (d st : Nat) : State := s.setFld (dstat d) 0 2 st

/-- DCMD_STAT.BUSY: a sequence runs or an event wake is queued (17 R466). -/
def State.pwrBusy (s : State) : Bool := s.power.seq.isSome || !s.power.wakeq.isEmpty

/-- The domains of a wake, ancestors first (17 R464). -/
def State.wakeChain (s : State) (d : Nat) : List Nat :=
  let up := match domParent d with
    | some p => (match domParent p with
      | some q => [q, p]
      | none => [p])
    | none => []
  (up.filter (fun k => s.domState k ≠ 3)) ++ [d]

/-- Start a chained wake (17 R471 step 1 of its first domain). -/
def State.startWake (s : State) (d src : Nat) (dcmd : Bool) : State :=
  let ch := s.wakeChain d
  let s := { s with power := { s.power with seq := some (.wake ch d src dcmd) } }
  match ch with
  | k :: _ => s.setDom k 1
  | [] => s

/-- Restart a core after a core reset: at RT_RVBAR, at M, every counter of its predictor being set (04 R77, 15 R411, 06
R182). -/
def State.freshCore (s : State) (n : Nat) : State :=
  s.setCore n { pc := BitVec.ofNat 64 (s.reg64 (rts 0x4C)) }

/-- The restored image of a cell: it resumes at the saved PC, level and PARTID (17 R471); a WAIT that it executes again completes
where an enabled bit is pending (17 R469). -/
def State.restoreCore (s : State) (n : Nat) (c : Core) : State :=
  (s.setCore n { c with pl := s.reg (corePage n 0x100), bunk := { halted := c.bunk.halted } }).endWait n

/-- The pages of a domain that stand in the image or have reset values now: the bases of pages with shadow banks in a
domain. -/
def domBankPages (d : Nat) : List Nat :=
  if 192 ≤ d ∧ d < 216 then [benchPage (d - 192) 0 0, benchPage (d - 192) 4 0]
  else if 216 ≤ d ∧ d < 248 then [slicePage (d - 216) 0 0]
  else if 248 ≤ d ∧ d < 264 then [mcPage (d - 248) 2 0]
  else if 264 ≤ d ∧ d < 271 then
    let c := d - 264
    (if c < 4 then (List.range 12).map (fun k => pageBase c 2 (3 + k)) else []) ++ [pageBase c 4 2, pageBase c 5 2]
  else []

/-- The routers of a domain. -/
def domRouters (d : Nat) : List Nat := (List.range 82).filter (fun r => routerDomain r = some d)

/-- The regulators of a domain. -/
def domRegulators (d : Nat) : List Nat :=
  if 192 ≤ d ∧ d < 216 then [benchPage (d - 192) 4 0]
  else if 248 ≤ d ∧ d < 264 then [mcPage (d - 248) 2 0]
  else if 264 ≤ d ∧ d < 271 then [pageBase (d - 264) 4 2, pageBase (d - 264) 5 2]
  else []

/-- The epoch that the routers in Run hold. -/
def State.runEpoch (s : State) : Bool :=
  match (List.range 82).find? (fun r => match routerDomain r with
    | some d => s.domState d = 3
    | none => false) with
  | some r => s.epoch r
  | none => false

/-- A router of a woken domain, after a commit it missed: both banks take RTE_SH, its EPOCH the others' (17 R472). -/
def State.wakeRouter (s : State) (r : Nat) : State :=
  let s := (List.range 82).foldl
    (fun s d =>
      let v := s.reg (routerPage r (0x100 + 4 * d))
      (s.setReg (routerPage r (0x300 + 4 * d)) v).setReg (routerPage r (0x500 + 4 * d)) v) s
  let s := (s.setReg (routerPage r 0x70) (s.reg (routerPage r 0x68))).setReg (routerPage r 0x74) (s.reg (routerPage r 0x6C))
  s.setBit (routerPage r 0x44) 0 s.runEpoch

/-- What a wake with an image does about commits and ticks that passed (17 R472). -/
def State.catchUp (s : State) (d : Nat) (img : Image) : State :=
  let s := if img.commit = s.reg (cmt 0x4C) then s
    else
      let s := (domBankPages d).foldl (fun s b => s.commitPage b) s
      (domRouters d).foldl (fun s r => s.wakeRouter r) s
  if img.tick = s.reg64 (frm 0x50) then s
  else (domRegulators d).foldl
    (fun s rg => (s.clearRegs (rg + 0x700) (rg + 0xA00)).clearRegs (rg + 0x48) (rg + 0x58)) s

/-- A frame receiver that leaves reset takes CMR.ARMED from the master (03 R64), and its cabinet's windows are those of its
tables. -/
def State.startReceiver (s : State) (c : Nat) : State :=
  let s := s.setNat (cmr c 0x44) (b2n s.armed)
  if c < 4 then (List.range 48).foldl (fun s k => s.rejoinWindows (48 * c + k)) s else s

/-- A woken frame receiver takes FNUM, LAST and CMR.ARMED from the master; CMR.LAST after a missed commit (17 R471, R472; 03
R64). -/
def State.alignReceiver (s : State) (c : Nat) (missed : Bool) : State :=
  let s := ((s.setReg (frr c 0x40) s.fnum).setReg (frr c 0x44) (s.reg (frm 0x50))).setReg (frr c 0x48) (s.reg (frm 0x54))
  let s := s.startReceiver c
  if missed then s.setReg (cmr c 0x40) (s.reg (cmt 0x4C)) else s

/-- Queues of VFs wake disabled (17 R475): Q_CFG.EN clears. -/
def State.disableQueues (s : State) : State :=
  (s.regs.filter (fun r =>
      match pageOf r.1 with
      | some p => p.kind = .vf && decide (0x400 ≤ r.1 % 4096) && r.1 % 32 = 0x10
      | none => false)).foldl (fun s r => s.setBit r.1 0 false) s

/-- The offsets of the gPTP domains in force after a wake: those that the restored registers hold (17 R475 values that the block recomputes,
DEDUCED; 14 R375). -/
def State.recallGptp (s : State) : State :=
  [0, 1].foldl (fun s k =>
    { s with port := { s.port with gd := SMap.set 0 s.port.gd k (BitVec.ofNat 64 (s.reg64 (tsw (0x44 + 8 * k)))) } }) s

/-- Steps 3 to 6 of a wake (17 R471): registers from the image or at reset values, the receiver aligned, STATE Run. -/
def State.wakeUp (s : State) (d src : Nat) : State :=
  let img : Option Image := SMap.get none s.power.images d
  let s := match img with
    | some i =>
      let s := i.regs.foldl (fun (s : State) (r : Nat × W32) => s.setReg r.1 r.2) s
      let s := i.lregs.foldl (fun (s : State) (k : Nat × SMap W32) => s.setStool k.1 { s.stool k.1 with lreg := k.2 }) s
      let s := match i.core with
        | some c => s.restoreCore d c
        | none => s
      let s := if d = 270 then s.disableQueues else if d = 279 then s.recallGptp else s
      s.catchUp d i
    | none =>
      let s := (SMap.get [] s.power.locks d).foldl (fun (s : State) (r : Nat × W32) => s.setReg r.1 r.2) s
      if d < 192 then s.freshCore d else s
  let missed := match img with
    | some i => i.commit != s.reg (cmt 0x4C)
    | none => false
  let s := if 264 ≤ d ∧ d < 271 then s.alignReceiver (d - 264) missed else s
  let s := if 248 ≤ d ∧ d < 264 then
      { s.setBit (ipe (d - 248) 0x40) 0 (s.bit (ipe (d - 248) 0x44) 0 || s.bit (ipe (d - 248) 0x44) 1) with
        mem := { s.mem with selfRefresh := s.mem.selfRefresh.filter (· ≠ d - 248) } }
    else s
  let s := { s with power := { s.power with images := SMap.set none s.power.images d none, locks := SMap.set [] s.power.locks d [] } }
  let s := (s.setDom d 3).setBit (dstat d) 2 false
  s.setFld (dstat d) 4 4 src

/-- The Chest page, and the key of the image of domain `d` among the Chest's words (17 R474; 18 R504). -/
def chs : Nat := pageBase 7 0x11 0
def chestImage (d : Nat) : Nat := 1048576 + d

/-- Latch the failure of a wake in DSTAT (17 R473, R489). -/
def State.latchFail (s : State) (d cause : Nat) : State :=
  ((s.setDom d 0).setBit (dstat d) 3 true).setFld (dstat d) 8 4 cause

/-- WAKE_FAILURE: the wake of the first domain of the chain fails with cause 1, 2 or 3; those below fail with cause 4 (17 R473).  The sequence
ends there, so that of a DCMD fires 0x300 too (R466, R536); a later failure overwrites what an earlier one left in DSTAT and WF_DOM (DEDUCED,
assumption log 88). -/
def wakeFailure (d cause : Nat) (s : State) : State :=
  match s.power.seq with
  | some (.wake (k :: rest) _ _ dcmd) =>
    if k ≠ d ∨ cause = 0 then s
    else
      let s := s.latchFail d cause
      let s := rest.foldl (fun s j => s.latchFail j 4) s
      let s := s.setNat (pwq 0x48) (d + 4096 * cause + 2147483648)
      let s := s.setReg64 (pwq 0x4C) s.time
      let s := { s with power := { s.power with seq := none } }
      let s := (((s.raise (pwq 0) 1).fire 0x302).fireStool 32 3 63).fireStool 33 3 63
      if dcmd then s.fire 0x300 else s
  | _ => s

/-- WAKE_DONE: the wake of the first domain of the chain succeeds; the next one starts, or the sequence ends (17 R471). -/
def wakeDone (d : Nat) (s : State) : State :=
  match s.power.seq with
  | some (.wake (k :: rest) t src dcmd) =>
    if k ≠ d then s
    else
      let r := if (SMap.get none s.power.images d).isSome then s.eccRead chs 0 1 (chestImage d) else (false, s)
      let s := r.2
      if r.1 then wakeFailure d 3 s
      else
        let s := s.wakeUp d (if d = t then src else 3)
        match rest with
        | [] => ({ s with power := { s.power with seq := none } }).fire 0x300
        | j :: _ => ({ s with power := { s.power with seq := some (.wake rest t src dcmd) } }).setDom j 1
  | _ => s

/-! ### Resets -/

/-- Reset a page: a locked page keeps LOCK, PG_OWNER and its other RWL fields (00 R5; 17 R487; assumption log 10). -/
def State.resetPage (s : State) (base : Nat) : State :=
  { s with
    err := { s.err with flaws := s.err.flaws.filter (fun f => f.page != base) }
    soft := s.soft.filter (fun n => n != base / 4096)
    regs := s.regs.filterMap (fun r => if r.1 < base ∨ base + 0x1000 ≤ r.1 then some r else lockedReg s.reg r) }

/-- The register pages of a domain (17 R463, 02 R27). -/
def domPages (d : Nat) : List Nat :=
  if d < 192 then [corePage d 0, corePage d 0 + 4096]
  else if d < 216 then (List.range 6).map (fun p => benchPage (d - 192) p 0)
  else if 264 ≤ d ∧ d < 268 then
    let c := d - 264
    [cabCtl c 0, pageBase c 1 0, pageBase c 3 0] ++ (List.range 15).map (pageBase c 2)
      ++ [pageBase c 4 0, pageBase c 4 1, pageBase c 4 2, pageBase c 5 0, pageBase c 5 1, pageBase c 5 2]
  else []

/-- A save image is given up: what locked pages in it keep stays (00 R5; 02 R35; 17 R487; assumption log 10). -/
def State.dropImage (s : State) (d : Nat) : State :=
  match (SMap.get none s.power.images d : Option Image) with
  | none => s
  | some i =>
    let l := i.regs.filterMap (lockedReg (fun a => SMap.get (resetValue a) i.regs a))
    { s with power := { s.power with images := SMap.set none s.power.images d none, locks := SMap.set [] s.power.locks d l } }

/-- One domain in the scope of a cabinet, bench or core reset (17 R486): a domain in Run comes back in Run; one in Stop
stays there with IMG 0. -/
def State.resetDomain (s : State) (d rkind : Nat) : State :=
  let s := ({ s with power := { s.power with wakeq := s.power.wakeq.filter (· ≠ d) } }).dropImage d
  let s := if d < 192 then s.breakPair d else s
  let s := (s.setBit (dstat d) 2 false).setFld (dstat d) 12 3 rkind
  if s.domState d = 3 then
    let s := (domPages d).foldl (fun s b => s.resetPage b) s
    let s := if d < 192 then (s.freshCore d).dropFills d else s
    let s := if 192 ≤ d ∧ d < 216 then s.dropBenchCaches (d - 192) else s
    let s := (domStools d).foldl (fun s k => s.setStool k { sram := (s.stool k).sram }) s
    let s := s.dropNet d
    let s := if 264 ≤ d ∧ d < 268 then s.setDvfs (d - 264) none else s
    let s := if 264 ≤ d ∧ d < 271 then s.startReceiver (d - 264) else s
    s.setFld (dstat d) 4 4 4
  else s

/-- A bench reset: the bench and its 8 cells (17 R485). -/
def State.resetBench (s : State) (b rkind : Nat) : State :=
  (List.range 8).foldl (fun s k => s.resetDomain (8 * b + k) rkind) (s.resetDomain (192 + b) rkind)

/-- A cabinet reset: the common, its benches and their cells (17 R485). -/
def State.resetCabinet (s : State) (c : Nat) : State :=
  (List.range 6).foldl (fun s b => s.resetBench (6 * c + b) 2) (s.resetDomain (264 + c) 2)

/-- Does a sequence of the power controller act on a domain of the cabinet? -/
def State.seqIn (s : State) (c : Nat) : Bool :=
  let dom := fun d => decide (d = 264 + c) || (decide (192 + 6 * c ≤ d) && decide (d < 198 + 6 * c)) || (decide (48 * c ≤ d) && decide (d < 48 * c + 48))
  match s.power.seq with
  | some (.stop d) => dom d
  | some (.wake ch _ _ _) => ch.any dom
  | none => false

/-- A write of CAB.CRST (17 R485, R486). -/
def State.writeCrst (s : State) (c : Nat) (v : W32) : State :=
  if !bitOf v 0 then s
  else if 4 ≤ c then s.raise (cabCtl c 0) 2
  else if s.seqIn c then { s with power := { s.power with crst := insertOnce c s.power.crst } }
  else s.resetCabinet c

/-- A sequence has ended: cabinet resets that waited for it are performed (17 R486). -/
def State.runCrst (s : State) : State :=
  let l := s.power.crst.filter (fun c => !s.seqIn c)
  let s := { s with power := { s.power with crst := s.power.crst.filter (fun c => !l.contains c) } }
  l.foldl (fun s c => s.resetCabinet c) s

/-- WAKE_DONE (17 R471). -/
def execWakeDone (d : Fin 296) (s : State) : Out := act s (fun s => (wakeDone d.val s).runCrst)

/-- WAKE_FAILURE (17 R473). -/
def execWakeFailure (d : Fin 296) (cause : Fin 4) (s : State) : Out := act s (fun s => (wakeFailure d.val cause.val s).runCrst)

/-! ### Commands -/

/-- RESULT of a DCMD, in the order of R466; 0 where it is accepted. -/
def State.dcmdResult (s : State) (d op : Nat) : Nat :=
  if 295 < d then 5
  else if (op = 1 ∧ s.domState d ≠ 3) ∨ (op = 2 ∧ s.domState d ≠ 0) then 1
  else if op = 1 ∧ (domChildren d).any (fun k => s.domState k ≠ 0) then 2
  else if op = 1 ∧ s.notEmpty d then 3
  else if op = 1 ∧ d < 192 ∧ (s.core d).bunk.bound then 4
  else if op = 0 ∨ (op = 3 ∧ 216 ≤ d) then 5
  else 0

/-- A write of PWQ.DCMD by initiator code `i` (17 R466, R469). -/
def State.writeDcmd (s : State) (i : Nat) (v : W32) : State :=
  let d := fieldOf v 0 9
  let op := fieldOf v 12 2
  if s.pwrBusy then (s.raise (pwq 0) 0).fire 0x301
  else
    let r := s.dcmdResult d op
    let s := s.setNat (pwq 0x44) (2 * r + 65536 * d)
    if r ≠ 0 then (s.raise (pwq 0) 0).fire 0x301
    else if op = 1 then
      ({ s with power := { s.power with seq := some (.stop d), selfLeft := if i = d then 4 else 0 } }).setDom d 2
    else if op = 2 then s.startWake d 1 true
    else if d < 192 then (s.resetDomain d 4).fire 0x300
    else (s.resetBench (d - 192) 3).fire 0x300

/-- STOP_SEQUENCE_DONE: the domain has drained, has sent what it owes and received what it awaits, and a compute cabinet's DVFS sequence has
ended; its fences close, its save list is written and STATE becomes Stop (17 R467, R468; 10 R283; 08 R245).  A controller's domain has
its channels in self-refresh, and the dirty blocks of its counter cache written (11 R315, R321). -/
def stopDone (d : Nat) (s : State) : State :=
  match s.power.seq with
  | some (.stop k) =>
    if k ≠ d || s.domWorks d then s
    else
      let s := if d < 192 then s.flushL1 d
        else if 248 ≤ d ∧ d < 264 then
          let t := s.ctrFlush (d - 248)
          { t.setBit (ipe (d - 248) 0x44) 2 false with mem := { t.mem with selfRefresh := insertOnce (d - 248) t.mem.selfRefresh } }
        else s
      let img := s.imageOf d
      let s := s.eccWrite chs 0 1 (chestImage d) true
      let s := s.powerOff d
      let s := { s with power := { s.power with seq := none, selfLeft := 0, images := SMap.set none s.power.images d (some img) } }
      let s := ((s.setDom d 0).setBit (dstat d) 2 true).fire 0x300
      let s := if 264 ≤ d ∧ d < 268 then s.pmicWrite (d - 264) 550 else s
      if d < 192 then s.checkImage d else s
  | _ => s

/-- STOP_SEQUENCE_DONE (17 R468). -/
def execStopSequenceDone (d : Fin 296) (s : State) : Out := act s (fun s => (stopDone d.val s).runCrst)

/-- EVENT_WAKE: the first queued event wake is performed when no sequence is in progress (17 R467, R470). -/
def eventWake (s : State) : State :=
  match s.power.seq, s.power.wakeq with
  | none, n :: rest =>
    let s := { s with power := { s.power with wakeq := rest } }
    if s.domState n = 0 then s.startWake n 2 false else s
  | _, _ => s

/-- EVENT_WAKE (17 R470). -/
def execEventWake (s : State) : Out := act s eventWake

/-! ### Chip Stop -/

/-- Is every switched domain in Stop? -/
def State.allStop (s : State) : Bool := (List.range 296).all (fun d => s.domState d = 0)

/-- The key store after a reset: the device secret and the persistent handles (15 R420). -/
def RotSt.kept (r : RotSt) : RotSt :=
  { uds := r.uds
    handles := r.handles.filter (fun e => match e.2 with
      | some k => k.persist
      | none => false) }

/-- What a power-on or system reset leaves: the reset state with the queue, the free values drawn and the eMRAM's contents
(17 R487; 15 R405, R409, R420). -/
def State.fullReset (s : State) : State :=
  { State.reset with
    pending := s.pending, fresh := s.fresh, mem := { State.reset.mem with emram := s.mem.emram }, otp := s.otp, rot := s.rot.kept }

/-- A system reset (17 R485-R487): TIME and the always-on count run on, the software drawers, stool SRAMs and the DRAM array
(whose keys are erased, 11 R321) are kept, and
RKIND is 1 in every domain. -/
def State.sysReset (s : State) : State :=
  let t := s.fullReset
  let t := { t with
    clock := { t.clock with time := s.clock.time, acc := s.clock.acc }
    mem := { t.mem with dram := s.mem.dram, tags := s.mem.tags, trees := s.mem.trees }
    power := { t.power with aon := s.power.aon, chest := s.power.chest, thermtrip := s.power.thermtrip } }
  let t := (List.range 34).foldl (fun t k => t.setStool k { sram := (s.stool k).sram }) t
  (List.range 296).foldl (fun t d => t.setFld (dstat d) 12 3 1) t

/-- A write of CHIP_CMD; `c` is the always-on count at the entry edge (17 R478, R485). -/
def State.writeChipCmd (s : State) (v : W32) (c : BitVec 48) : State :=
  if bitOf v 1 then s.sysReset
  else if bitOf v 0 then
    if !s.allStop || s.pwrBusy then s.raise (pwc 0) 0
    else
      let s := s.setReg64 (pwc 0x60) s.time
      { s with
        power := { s.power with chip := .stop, aon := c, aonEntry := c, pwrReqLow := true }
        clock := { s.clock with locked := false } }
  else s

/-- Start a chip wake from source `src` (17 R479, 19 R523). -/
def State.chipWake (s : State) (src : Nat) : State :=
  if s.err.frozen.isNone && s.power.chip = .stop then
    { (s.setNat (pwc 0x48) src) with power := { s.power with chip := .waitGood, pwrReqLow := false } }
  else s

/-- WAKE_N_FALL (17 R479); WAKE_N is ignored while frozen (18 R508). -/
def execWakeNFall (s : State) : Out := .next (s.chipWake 1)

/-- AON_TIMER_MATCH: the always-on count equals AON_WAKE with EN set (17 R479). -/
def aonTimerMatch (s : State) : State :=
  let t := (s.reg (pwc 0x58)).toNat + 4294967296 * s.fld (pwc 0x5C) 0 16
  if s.bit (pwc 0x5C) 31 && !s.power.inReset then
    ({ s with power := { s.power with aon := BitVec.ofNat 48 t } }).chipWake 2
  else s

/-- AON_TIMER_MATCH (17 R479). -/
def execAonTimerMatch (s : State) : Out := .next (aonTimerMatch s)

/-- PWR_GOOD_RISE: the power controller restarts the time PLL (19 R523). -/
def execPwrGoodRise (s : State) : Out :=
  .next (if s.err.frozen.isNone && s.power.chip = .waitGood then { s with power := { s.power with chip := .waitPll } } else s)

/-- A chip wake fails: the chip stays in Stop and CHIP_WFAIL latches the cause (17 R479, 19 R523). -/
def State.chipWakeFail (s : State) (cause : Nat) : State :=
  let s := s.setNat (pwc 0x4C) (cause + 2147483648)
  let s := { s with power := { s.power with chip := .stop } }
  s.raise (pwc 0) 1

/-- PWR_GOOD_TIMEOUT: PWR_GOOD stayed low for 2 ms; PWR_REQ is driven low again (19 R523). -/
def execPwrGoodTimeout (s : State) : Out :=
  .next (if s.err.frozen.isNone && s.power.chip = .waitGood then
      (({ s with power := { s.power with pwrReqLow := true } }).chipWakeFail 1)
    else s)

/-- CHIP_WAKE_PLL_FAIL: the time PLL did not lock in 500 µs; source 0x302 is owed to a later chip wake (17 R479). -/
def execChipWakePllFail (s : State) : Out :=
  .next (if s.err.frozen.isNone && s.power.chip = .waitPll then
      (({ s with power := { s.power with owe302 := true } }).chipWakeFail 2)
    else s)

/-- Frames resume at whole boundaries of the frame in progress (17 R481). -/
def State.resumeFrames (s : State) : State :=
  if s.running then
    let last := s.reg64 (frm 0x50)
    let per := s.period
    let k := (s.time - last) / per + 1
    let s := s.setReg (frm 0x48) (s.fnum + BitVec.ofNat 32 (k - 1))
    { s with frame := { s.frame with expected := some (BitVec.ofNat 64 (last + k * per)), late := false, events := [], due := none } }
  else s

/-- TIME_PLL_LOCK: at an always-on edge with count `c` the time PLL is found locked; TIME is corrected and the AOC runs again
(17 R479-R481). -/
def timePllLock (c : BitVec 48) (s : State) : State :=
  if s.err.frozen.isNone && s.power.chip = .waitPll then
    let corr := (c - s.power.aonEntry).toNat * 1000000000 / 32768
    let old := s.time
    let owed := s.power.owe302
    let s := { s with
      clock := { s.clock with time := BitVec.ofNat 64 (s.reg64 (pwc 0x60) + corr), locked := true }
      power := { s.power with chip := .run, aon := c, owe302 := false } }
    let s := (s.setReg64 (tim 0x58) corr).setBit (tim 0x4C) 0 true
    let s := s.hbTick old
    let s := s.resumeFrames.fire 0x303
    if owed then s.fire 0x302 else s
  else s

/-- TIME_PLL_LOCK (17 R480). -/
def execTimePllLock (c : BitVec 48) (s : State) : Out := .next (timePllLock c s)

/-- A power-on reset starts: everything but the eMRAM's contents takes its reset value, and the device is held in reset
until the release (17 R487, 19 R521); `low` tells whether PORST_N started it. -/
def State.powerOnReset (s : State) (low : Bool) : State :=
  let t := s.fullReset
  { t with power := { t.power with inReset := true, porst := low || s.power.porst } }

/-- PORST_N_LOW (19 R521). -/
def execPorstNLow (s : State) : Out := .next (s.powerOnReset true)

/-- AON_SUPPLY_DIP (19 R521). -/
def execAonSupplyDip (s : State) : Out := .next (s.powerOnReset false)

/-- SYSRST_N_LOW: low for at least 1 µs; a power-on reset governs (19 R528); a freeze is released (18 R508). -/
def execSysrstNLow (s : State) : Out := .next (if s.power.inReset then s else s.sysReset)

/-- POWER_ON_RESET_RELEASE: the reset is released and the self-tests begin (19 R521, 15 R410). -/
def execPowerOnResetRelease (s : State) : Out := .next { s with power := { s.power with inReset := false, porst := false } }

end Sys2Proof.Machine
end

