-- ==== Sys2Proof/Machine/Home.lean ====
section
/-! DEFINITION. Home slices: directory, SLC, snoops and recalls, and what the fabric's packets do at slices, controllers and
benches (08 R220-R243, 10 R271). -/

namespace Sys2Proof.Machine

/-! ### SLC data -/

/-- Key of a directory set among the flaws of a slice. -/
def dirKey (set : Nat) : Nat := 8796093022208 + set

/-- Has an uncorrectable error taken the line's data set or directory set out of use (R233)? -/
def State.setLost (s : State) (k line : Nat) : Bool :=
  s.setDead (slicePage k 0 0) 2 (slcSet line) || s.setDead (slicePage k 0 0) 2 (dirKey (dirSet line))

/-- A slice asks its own memory controller for a line. -/
def State.ctrlRead (s : State) (k line : Nat) (part : PartId) : State :=
  s.request (sliceRouter k) 0
    { op := opRdSh, part := part, dst := BitVec.ofNat 7 (sliceRouter k), dstp := 1, addr := BitVec.ofNat 42 (64 * line) }

/-- A slice sends a write-back to its own controller; INLINE tells the engine's, which a regulator may hold (R239; assumption log 15). -/
def State.ctrlWrite (s : State) (k line : Nat) (part : PartId) (d : BitVec 512) (poison eng : Bool) : State :=
  s.request (sliceRouter k) 0
    { op := opWrBk, part := part, dst := BitVec.ofNat 7 (sliceRouter k), dstp := 1, addr := BitVec.ofNat 42 (64 * line),
      inl := if eng then 1 else 0, line := d, poison := poison }

/-- Write a line to DRAM through the eviction buffer of the slice (R243). -/
def State.toDram (s : State) (k line : Nat) (part : PartId) (d : BitVec 512) (poison : Bool) (eng : Bool := false) : State :=
  (s.setEvb (24 + k) (s.evb (24 + k) ++ [⟨line, d, poison, part⟩])).ctrlWrite k line part d poison eng

/-- Allocate a line in the SLC in the ways of a partition; a dirty victim goes to DRAM (R221, R223, R231).  A dirty line that
finds no way goes to DRAM itself. -/
def State.fillSlc (s : State) (k line : Nat) (dirty : Bool) (d : BitVec 512) (poison : Bool) (part : PartId) (mru : Bool) : State :=
  let page := slicePage k 0 0
  let set := slcSet line
  let s := s.tagCheck page 2 set
  let x : CLine := { line := line, st := if dirty then .m else .e, data := d, poison := poison }
  match (s.slc k).way 16 set line with
  | some w => s.setSlc k (((s.slc k).put 16 set w (some x)).touch 16 set w)
  | none =>
    match (if s.setLost k line then none else (s.slc k).victim 16 set (s.mayUse page part.toNat)) with
    | none => if dirty then s.toDram k line part d poison else s
    | some w =>
      let s := match (s.slc k).at 16 set w with
        | some v => if v.st = LineSt.m then (s.count (page + 0x88)).toDram k v.line part v.data v.poison else s
        | none => s
      let s := ((s.taint page 0 line).taint page 1 line).taint page 2 set
      let s := s.setSlc k ((s.slc k).put 16 set w (some x))
      if mru then s.setSlc k ((s.slc k).touch 16 set w) else s

/-- The line in the SLC or in the slice's eviction buffer, after the checks of its array (R233, R243). -/
def State.slcRead (s : State) (k line : Nat) : Option (BitVec 512 × Bool) :=
  match (s.slc k).find 16 (slcSet line) line with
  | some l => some (l.data, l.poison || s.tainted (slicePage k 0 0) 1 line)
  | none => (s.evLine (24 + k) line).map (fun v => (v.data, v.poison))

/-- The checks of a lookup in the SLC and its directory: counted, and injected errors found (R233, R238). -/
def State.slcLook (s : State) (k line : Nat) : State :=
  let page := slicePage k 0 0
  let s := s.count (page + 0x80)
  let s := if (s.slcRead k line).isSome then s else s.count (page + 0x84)
  let s := ((s.checkUnit page 0 line).tagCheck page 2 (slcSet line)).tagCheck page 2 (dirKey (dirSet line))
  if s.tainted page 1 line then
    let s := s.found page 1 line
    s.setSlc k ((s.slc k).modify 16 (slcSet line) line (fun l => some { l with poison := true }))
  else s

/-! ### Transactions at home -/

/-- The slice of a router, where it is a slice router. -/
def sliceOf (r : Nat) : Option Nat :=
  if 32 ≤ r ∧ r < 68 ∧ (r - 32) % 18 < 16 then some (16 * ((r - 32) / 18) + (r - 32) % 18) else none

/-- The transaction on a line at a slice. -/
def State.tx (s : State) (k line : Nat) : Option HomeTx :=
  s.coh.txs.find? (fun t => t.slice == k && pktLine t.req == line)

/-- Replace, or end, the transaction on a line. -/
def State.setTx (s : State) (k line : Nat) (x : Option HomeTx) : State :=
  let rest := s.coh.txs.filter (fun t => !(t.slice == k && pktLine t.req == line))
  { s with coh := { s.coh with txs := match x with
    | some t => rest ++ [t]
    | none => rest } }

/-- What a snoop asks: 0 share, 1 invalidate, 2 clean, in INLINE[1:0] (DESIGN CHOICE, assumption log 15). -/
def snoopKind (q : Packet) : Nat :=
  if q.op = opRdUn ∨ q.op = opWrLn ∨ q.op = opWrPt then 1
  else if q.op = opCmo then (if q.inl.toNat % 8 = 0 then 2 else 1)
  else 0

/-- Does the request need a directory entry: a bench reads the line (R230)? -/
def needsEntry (q : Packet) : Bool := (q.op = opRdSh || q.op = opRdUn) && (benchOf q).isSome

/-- The benches that home snoops for a request (R229, R232): for an invalidation every sharer, otherwise the one that may hold
newer data; not the bench whose L2 asks for the line itself. -/
def DirEnt.targets (e : DirEnt) (q : Packet) : List Nat :=
  let me := if needsEntry q then benchOf q else none
  let l := if q.op = opCmo ∧ q.inl.toNat % 8 = 4 then []
    else if snoopKind q = 1 ∨ e.uniq then e.benches
    else match e.owner with
      | some o => [o.val]
      | none => []
  l.filter (fun b => me != some b)

/-- Home sends a snoop or a recall to a bench. -/
def State.snoopTo (s : State) (k line b : Nat) (op : BitVec 8) (kind : Nat) (part : PartId) : State :=
  s.request (sliceRouter k) 0
    { op := op, part := part, dst := BitVec.ofNat 7 (benchRtr b), dstp := 0, addr := BitVec.ofNat 42 (64 * line),
      inl := BitVec.ofNat 256 kind }

/-- Does the request need the line's data? -/
def needsData (q : Packet) : Bool :=
  q.op = opRdSh || q.op = opRdUn || q.op = opRdNc || q.op = opWrPt || (q.op = opWrLn && q.be != BitVec.allOnes 64)

/-- Merge written bytes into a line under byte enables.  WR_PT carries its bytes in INLINE from the address on; WR_LN a whole
line (10 R270, R271). -/
def mergeWrite (q : Packet) (d : BitVec 512) : BitVec 512 :=
  let old := lineBytes d
  let off := q.addr.toNat % 64
  let new := if q.op = opWrLn then lineBytes q.line
    else List.replicate off 0 ++ leBytes 32 q.inl.toNat
  let n := min 32 (q.size.toNat + 1)
  let hit := fun i => if q.op = opWrLn then bitOf q.be i else bitOf q.be i && decide (off ≤ i) && decide (i < off + n)
  BitVec.ofNat 512 (leNat ((List.range 64).map (fun i => if hit i then new.getD i 0 else old.getD i 0)))

/-- Home writes a line: into the SLC where it is there, else to DRAM (R231). -/
def State.homeWrite (s : State) (k line : Nat) (d : BitVec 512) (poison : Bool) (part : PartId) : State :=
  if ((s.slc k).find 16 (slcSet line) line).isSome then s.fillSlc k line true d poison part true
  else s.toDram k line part d poison

/-- An engine's write-back is counted and its poison noted (R238, R246; 18 R504). -/
def State.wroteBack (s : State) (page : Nat) (poison : Bool) : State :=
  let s := (s.count (page + 0x68)).force page 4
  if poison then s.raise page 4 else s

/-- Home acts on a line for a CMO, or for its own engine (R234, R238): 0 clean, 1 invalidate, 2 both, 4 the L1Is.  INLINE[3] lets dirty
data be discarded. -/
def State.finishCmo (s : State) (k line : Nat) (t : HomeTx) : State :=
  let op := t.req.inl.toNat % 8
  let discard := t.req.inl.toNat.testBit 3 && decide (op = 1)
  if op = 4 then (List.range 192).foldl (fun s n => s.dropL1i n line) s
  else
    let inSlc := match (s.slc k).find 16 (slcSet line) line with
      | some l => if l.st = .m then some (l.data, l.poison) else none
      | none => none
    let s := match t.data.or inSlc with
      | some (d, p) =>
        if discard then s
        else (if t.eng then s.wroteBack (slicePage k 0 0) p else s).toDram k line t.req.part d p t.eng
      | none => s
    let s := s.setSlc k ((s.slc k).modify 16 (slcSet line) line
      (fun l => if op = 0 then
          some (match t.data with
            | some (d, p) => { l with st := .e, data := d, poison := p }
            | none => { l with st := .e })
        else none))
    if op = 0 then s.modDir k line (fun e => some { e with owner := none })
    else s.modDir k line (fun _ => none)

/-- Does a request still wait for its response? -/
def State.awaits (s : State) (q : Packet) : Bool :=
  s.net.outs.any (fun x => x.tag == q.tag && x.src == q.src && x.srcp == q.srcp)

/-- A bench holds a line no more: it leaves the line's entry, which stays while a transaction fills it (R229, R230). -/
def State.unlist (s : State) (k line b : Nat) : State :=
  s.modDir k line (fun e =>
    match e.without b with
    | some e => some e
    | none => if (s.tx k line).any (fun t => needsEntry t.req) then some { e with sharers := 0, owner := none, uniq := false } else none)

/-- Home ends a read by a bench: the directory entry, and the grant (R228, R229).  A bench whose request has expired is not listed. -/
def State.grantRead (s : State) (k line b : Nat) (t : HomeTx) : LineSt × State :=
  let e := (s.dir k).find line
  let alone := fun (e : DirEnt) => some { e with sharers := putBit 0 b true, owner := none, uniq := true }
  let r : LineSt × State :=
    if t.req.op = opRdUn then (if t.data.isSome then .m else .e, s.modDir k line alone)
    else
      match e with
      | none => (.s, s)
      | some e =>
        let others := e.benches.filter (· ≠ b)
        if others.isEmpty then (.e, s.modDir k line alone)
        else
          let own : Option (Fin 24) :=
            if t.data.isSome && e.owner.isNone then
              match others with
              | o :: _ => if h : o < 24 then some ⟨o, h⟩ else none
              | [] => none
            else e.owner
          (.s, s.modDir k line (fun e => some { e with sharers := putBit e.sharers b true, owner := own, uniq := false }))
  if s.awaits t.req then r else (r.1, r.2.unlist k line b)

/-- A read that allocates nothing has shared a line that one bench held alone: that bench holds it in O where it gave data, else in S
(R228, R229, R232). -/
def State.sharedOut (s : State) (k line : Nat) (gave : Bool) : State :=
  s.modDir k line (fun e =>
    some (if e.uniq then
      { e with uniq := false, owner := if gave then (match e.benches with
        | o :: _ => if h : o < 24 then some ⟨o, h⟩ else none
        | [] => none) else none }
    else e))

/-- A transaction of the slice's own engine, or of a CMO, waits for the acceptance of what it wrote, or ends (R235, R240). -/
def State.endCmo (s : State) (k line : Nat) (t : HomeTx) : State :=
  if (s.evLine (24 + k) line).isSome then s.setTx k line (some { t with snooped := true, flush := true })
  else if t.eng then s
  else s.respond t.req opAck 0 0 false

/-- Home completes the transaction whose data and answers it has. -/
def State.finishTx (s : State) (k line : Nat) (t : HomeTx) (d : BitVec 512) (p : Bool) : State :=
  let q := t.req
  let s := s.setTx k line none
  if q.op = opRdSh ∨ q.op = opRdUn then
    match benchOf q with
    | some b =>
      let g := s.grantRead k line b t
      g.2.respond q opData (BitVec.ofNat 256 (grantCode g.1)) d p
    | none => (s.sharedOut k line t.data.isSome).respond q opData 0 d p
  else if q.op = opRdNc then
    let off := q.addr.toNat % 64
    let l := (lineBytes d).drop off
    (s.sharedOut k line t.data.isSome).respond q opDataS (BitVec.ofNat 256 (leNat (l.take (min 32 (q.size.toNat + 1))))) 0 p
  else if q.op = opCmo then (s.finishCmo k line t).endCmo k line t
  else
    let full := q.op = opWrLn && q.be == BitVec.allOnes 64
    let s := s.modDir k line (fun _ => none)
    (s.homeWrite k line (mergeWrite q d) (if full then q.poison else p || q.poison) q.part).respond q opAck 0 0 false

/-- Is a write-back of the line on its way from a bench?  Home takes it as the line's data, so it waits for it (R243). -/
def State.incoming (s : State) (line : Nat) : Bool :=
  s.net.flights.any (fun f => f.pkt.op = opWrBk && pktLine f.pkt == line && (benchOf f.pkt).isSome)

/-- Is a grant of the line on its way to a bench, or there and not filled yet?  The next request for the line waits for it (assumption log
81). -/
def State.granting (s : State) (line : Nat) : Bool :=
  s.net.flights.any (fun f => f.pkt.op = opData && pktLine f.pkt == line && routerKind f.pkt.dst.toNat = .bench)

/-- Is a bench getting a line: has its grant been sent, or come? -/
def State.getting (s : State) (b line : Nat) : Bool :=
  s.net.flights.any (fun f => f.pkt.op = opData && pktLine f.pkt == line && f.pkt.dst.toNat = benchRtr b)
    || s.coh.misses.any (fun m => m.core / 8 == b && m.line == line && m.got.isSome)

/-- Is home busy with a line: a transaction works on it or recalls it, or a grant of it is on its way? -/
def State.lineBusy (s : State) (k line : Nat) : Bool :=
  s.coh.txs.any (fun t => t.slice == k && (pktLine t.req == line || t.recalling == some line)) || s.granting line

/-- The way whose entry a new line's entry replaces: the least recently used of those the partition may use, whose line home is not busy
with (R230). -/
def State.recallWay (s : State) (k set : Nat) (allow : Nat → Bool) : Option Nat :=
  ((s.dir k).recency set).reverse.find? (fun w => allow w && (match (s.dir k).at set w with
    | some e => !s.lineBusy k e.line
    | none => false))

/-- Home gives a line an entry of its directory; where the set has none free, it recalls one (R230).  The transaction is `t`. -/
def State.makeEntry (s : State) (k line : Nat) (t : HomeTx) : State :=
  let dset := dirSet line
  let d := s.dir k
  let page := slicePage k 0 0
  let allow := s.mayUse page t.req.part.toNat
  match firstWhere 16 (fun w => allow w && (d.at dset w).isNone) with
  | some w =>
    let e : DirEnt := { line := line, sharers := 0, owner := none, uniq := false }
    (s.taint page 2 (dirKey dset)).setDir k ((d.put dset w (some e)).touch dset w)
  | none =>
    match s.recallWay k dset allow with
    | none => s
    | some w =>
      match d.at dset w with
      | none => s
      | some e =>
        let s := s.count (page + 0x8C)
        let l := e.benches
        let s := l.foldl (fun s b => s.snoopTo k e.line b opRcl 1 t.req.part) s
        s.setTx k line (some { t with recalling := some e.line, left := l })

/-- Home looks its line up in the directory and snoops the benches that its request concerns (R229). -/
def State.snoopAll (s : State) (k line : Nat) (t : HomeTx) : State :=
  let d := s.dir k
  let l := match d.find line with
    | some e => e.targets t.req
    | none => []
  let s := match d.way line with
    | some w => if t.req.spec then s else s.setDir k (d.touch (dirSet line) w)
    | none => s
  let s := l.foldl (fun s b => s.snoopTo k line b opSnp (snoopKind t.req) t.req.part) s
  s.setTx k line (some { t with snooped := true, left := l })

/-- A recall has its answers: the dirty data goes into the slice and the entry is freed (R230). -/
def State.endRecall (s : State) (k line v : Nat) (t : HomeTx) : State :=
  let s := s.modDir k v (fun _ => none)
  let s := match t.data with
    | some (d, p) => s.fillSlc k v true d p t.req.part true
    | none => s
  s.setTx k line (some { t with recalling := none, data := none })

/-- Home takes the line's data from the SLC, or asks its controller (R221, R231, R233). -/
def State.fetchData (s : State) (k line : Nat) (t : HomeTx) : State :=
  let s := s.slcLook k line
  let set := slcSet line
  match s.slcRead k line with
  | some (d, p) =>
    let s := match (s.slc k).way 16 set line with
      | some w => if t.req.spec then s else s.setSlc k ((s.slc k).touch 16 set w)
      | none => s
    s.finishTx k line t d (p || s.setLost k line)
  | none => (s.ctrlRead k line t.req.part).setTx k line (some { t with dram := true })

/-- Carry a transaction on as far as it goes: recall, snoops, data, end (R230-R232).  `fuel` bounds the stages. -/
def State.proceed (s : State) (k line : Nat) : Nat → State
  | 0 => s
  | fuel + 1 =>
    match s.tx k line with
    | none => s
    | some t =>
      if !t.left.isEmpty || t.dram || t.flush then s
      else
        match t.recalling with
        | some v => if s.incoming v then s else (s.endRecall k line v t).proceed k line fuel
        | none =>
          if !t.snooped then
            if needsEntry t.req && ((s.dir k).way line).isNone then (s.makeEntry k line t).proceed k line fuel
            else (s.snoopAll k line t).proceed k line fuel
          else if s.incoming line then s
          else
            match t.data with
            | some (d, p) => s.finishTx k line t d p
            | none => if needsData t.req then s.fetchData k line t else s.finishTx k line t 0 false

/-- A read in speculation of a line that another bench holds unique is dropped without a snoop or a response (06 R178). -/
def State.specDrop (s : State) (k : Nat) (q : Packet) : Bool :=
  q.spec && (match (s.dir k).find (pktLine q) with
    | some e => e.uniq && (match benchOf q with
      | some b => !bitOf e.sharers b
      | none => true)
    | none => false)

/-- Forget a request and the miss it serves. -/
def State.forget (s : State) (q : Packet) : State :=
  { s with
    net := { s.net with outs := s.net.outs.filter (fun x => !(x.tag == q.tag && x.src == q.src && x.srcp == q.srcp)) }
    coh := { s.coh with misses := s.coh.misses.filter (fun m => !(m.tag == q.tag && benchOf q == some (m.core / 8))) } }

/-- Begin to work on a request. -/
def State.beginTx (s : State) (k : Nat) (q : Packet) (eng : Bool := false) : State :=
  let t : HomeTx :=
    { slice := k, req := q, left := [], data := none, recalling := none, snooped := false, dram := false, eng := eng }
  ({ s with coh := { s.coh with txs := s.coh.txs ++ [t] } }).proceed k (pktLine q) 8

/-- Start the request that has waited longest for a line, where home is not busy with it. -/
def State.startNext (s : State) (k line : Nat) : State :=
  if s.lineBusy k line then s
  else
    match s.coh.waitq.findIdx? (fun w => w.1 == k && pktLine w.2 == line) with
    | none => s
    | some j =>
      match s.coh.waitq[j]? with
      | none => s
      | some w =>
        let s := { s with coh := { s.coh with waitq := s.coh.waitq.eraseIdx j } }
        if s.specDrop k w.2 then s.forget w.2 else s.beginTx k w.2

/-- Advance a line's transaction, then the slice's requests that waited for it: for its line, or for an entry of the directory. -/
def State.pump (s : State) (k line : Nat) : State :=
  let s := s.proceed k line 8
  let idle := (s.coh.txs.filter (fun t => t.slice == k && !t.snooped && t.left.isEmpty && t.recalling.isNone)).map (fun t => pktLine t.req)
  let s := idle.foldl (fun s l => s.proceed k l 8) s
  (s.coh.waitq.filter (fun w => w.1 == k)).foldl (fun s w => s.startNext k (pktLine w.2)) s

/-- Advance what waits for a line: its own transaction, or one that recalls it. -/
def State.pumpLine (s : State) (k line : Nat) : State :=
  match s.coh.txs.find? (fun t => t.slice == k && t.recalling == some line) with
  | some t => s.pump k (pktLine t.req)
  | none => s.pump k line

/-- A write-back of a bench arrives at home: the line goes into the SLC, and the bench stays listed only where it has the line again (R229,
R231, R243). -/
def State.takeBack (s : State) (k : Nat) (q : Packet) : State :=
  let line := pktLine q
  let s := match benchOf q with
    | some b =>
      match s.l2Line b line with
      | some l => s.modDir k line (fun e => some { e with owner := none, uniq := l.st = LineSt.m || l.st = LineSt.e })
      | none =>
        if s.getting b line then s.modDir k line (fun e => some { e with owner := if e.owner.map Fin.val = some b then none else e.owner })
        else s.unlist k line b
    | none => s
  (s.fillSlc k line true q.line q.poison q.part true).respond q opAck 0 0 false

/-- A request arrives at its home slice (R229-R232). -/
def State.homeArrive (s : State) (k : Nat) (q : Packet) : State :=
  let line := pktLine q
  if s.specDrop k q then s.forget q
  else if q.op = opEvCl then
    let s := match benchOf q with
      | some b => if (s.l2Line b line).isSome || s.getting b line then s else s.unlist k line b
      | none => s
    s.respond q opAck 0 0 false
  else if q.op = opWrBk then (s.takeBack k q).pumpLine k line
  else if s.lineBusy k line then { s with coh := { s.coh with waitq := s.coh.waitq ++ [(k, q)] } }
  else (s.beginTx k q).pump k line

/-- Does a slice serve requests: it is ready and enabled (R244, 02 R29)? -/
def State.sliceUp (s : State) (k : Nat) : Bool := s.cacheReady (slicePage k 0 0) && s.enabled (slicePage k 0 0)

/-- A read or write of a line arrives at a slice router: port 0 is the slice, port 1 its controller, which accepts a request for
its own visible lines (10 R266, 11 R308). -/
def State.sliceArrive (s : State) (k : Nat) (q : Packet) : State :=
  let m := k / 2
  if q.dstp.val = 1 then
    if !s.serves m (pktLine q) then s.arrive q
    else if !s.enabled (mcPage m 0 0) then s
    else
      let s := (s.arrive q)
      let s := { s with mem := { s.mem with queue := s.mem.queue ++ [⟨m, q, s.slotOf m (64 * pktLine q)⟩] } }
      if q.op = opWrBk ∨ q.op = opWrLn then s.respond q opAck 0 0 false else s
  else if !s.sliceUp k || 16 ≤ (s.evb (24 + k)).length then s
  else if !s.isDram (64 * pktLine q) || homeSlice (64 * pktLine q) != k then s.arrive q
  else (s.arrive q).homeArrive k q

/-- A packet arrives at the slice that its destination names; elsewhere nothing answers it (10 R269). -/
def atSlice (q : Packet) (s : State) : State :=
  if s.atGate q then s
  else
    match sliceOf q.dst.toNat with
    | some k => s.sliceArrive k q
    | none => s.arrive q

/-- RD_SH (10 R271). -/
def execRdSh (k : Packet) (s : State) : Out := act s (atSlice { k with op := opRdSh })
/-- RD_UN (10 R271). -/
def execRdUn (k : Packet) (s : State) : Out := act s (atSlice { k with op := opRdUn })
/-- WR_BK (10 R271). -/
def execWrBk (k : Packet) (s : State) : Out := act s (atSlice { k with op := opWrBk })
/-- EV_CL (R229). -/
def execEvCl (k : Packet) (s : State) : Out := act s (atSlice { k with op := opEvCl })
/-- CMO_PACKET (R234). -/
def execCmoPacket (k : Packet) (s : State) : Out := act s (atSlice { k with op := opCmo })

/-! ### Snoops and recalls at a bench -/

/-- A snoop at a bench (R227, R228, R243): the dirty line it gives, and the state after. -/
def State.snoopBench (s : State) (b line kind : Nat) : Option (BitVec 512 × Bool) × State :=
  let s := s.settleL1 b line none false
  match s.l2Line b line with
  | some l =>
    let out := if (l.st = .m || l.st = .o) && !l.tagOnly then some (l.data, l.poison) else none
    if kind = 1 then (out, (s.include b line).modL2 b line (fun _ => none))
    else
      let st : LineSt := match kind, l.st with
        | 0, .m => .o
        | 0, .e => .s
        | 2, .m => .e
        | 2, .o => .s
        | _, x => x
      (out, s.modL2 b line (fun l => some { l with st := st }))
  | none => (none, s)

/-- Has a bench data of a line that has come and not been filled?  A snoop waits for the fill (R243). -/
def State.unfilled (s : State) (b line : Nat) : Bool := s.coh.misses.any (fun m => m.core / 8 == b && m.line == line && m.got.isSome)

/-- A snoop or recall arrives at a bench, which answers it (10 R271). -/
def snoopArrive (q : Packet) (s : State) : State :=
  let r := q.dst.toNat
  let b := 6 * (r / 8) + r % 8
  if s.atGate q then s
  else if routerKind r ≠ .bench then s.arrive q
  else if !s.cacheReady (benchPage b 0 0) || s.unfilled b (pktLine q) then s
  else
    let x := (s.arrive q).snoopBench b (pktLine q) (if q.op = opRcl then 1 else q.inl.toNat % 4)
    match x.1 with
    | some (d, p) => x.2.respond q opSnpData 0 d p
    | none => x.2.respond q opSnpAck 0 0 false

/-- SNP (R227). -/
def execSnp (k : Packet) (s : State) : Out := act s (snoopArrive { k with op := opSnp })
/-- RCL (R230). -/
def execRcl (k : Packet) (s : State) : Out := act s (snoopArrive { k with op := opRcl })

/-- The answer of a bench, to a snoop under a PARTID, reaches the transaction that waits for it. -/
def State.snoopAnswer (s : State) (k line b : Nat) (part : PartId) (x : Option (BitVec 512 × Bool)) : State :=
  match s.coh.txs.find? (fun t => t.slice == k && (t.recalling == some line || (t.recalling.isNone && pktLine t.req == line)) && t.left.contains b) with
  | some t =>
    let t' := { t with left := t.left.filter (· ≠ b), data := x.or t.data }
    (s.setTx k (pktLine t.req) (some t')).pump k (pktLine t.req)
  | none =>
    match x with
    | some (d, p) => s.fillSlc k line true d p part true
    | none => s

/-- The answer to a snoop or recall arrives at home (10 R271). -/
def snoopAnswerArrive (p : Packet) (s : State) : State :=
  s.landed p (fun s =>
    match s.answered p, sliceOf p.dst.toNat, benchOf p with
    | some (q, s), some k, some b => s.snoopAnswer k (pktLine q) b q.part (if p.op = opSnpData then some (p.line, p.poison) else none)
    | none, _, _ => s.lateResponse p
    | some (_, s), _, _ => s)

/-- SNP_ACK (10 R271). -/
def execSnpAck (k : Packet) (s : State) : Out := act s (snoopAnswerArrive { k with op := opSnpAck })
/-- SNP_DATA (10 R271). -/
def execSnpData (k : Packet) (s : State) : Out := act s (snoopAnswerArrive { k with op := opSnpData })

/-! ### Lines that arrive -/

/-- The line a slice asked its controller for: it fills the SLC and the transaction goes on (R223, R231, R233).  A NAL request allocates
nothing there; an EVF, non-temporal or speculative one leaves the order alone (R221, R224). -/
def State.dramData (s : State) (k line : Nat) (d : BitVec 512) (poison : Bool) : State :=
  match s.tx k line with
  | some t =>
    if !t.dram then s
    else
      let hint := if t.req.op = opRdSh ∨ t.req.op = opRdUn then t.req.inl.toNat % 4 else 0
      let s := if hint = 3 then s else s.fillSlc k line false d poison t.req.part (hint = 0 && !t.req.spec)
      let t := { t with dram := false }
      ((s.setTx k line (some t)).finishTx k line t d (poison || s.setLost k line)).pump k line
  | none => s

/-- A grant has come to its bench, or is lost: home goes on with the line. -/
def State.grantEnd (s : State) (p : Packet) : State := s.pumpLine (homeSlice (64 * pktLine p)) (pktLine p)

/-- DATA arrives at a bench: the misses that its request serves have their data (R226). -/
def State.benchData (s : State) (q p : Packet) : State :=
  let st := grantOf p.inl
  State.grantEnd { s with coh := { s.coh with misses := s.coh.misses.map (fun m =>
      if m.tag == q.tag && benchOf q == some (m.core / 8) && m.line == pktLine q then
        { m with got := some (p.line, p.poison, st) } else m) } } p

/-- A grant that comes too late is discarded: the bench does not hold the line (R229; 10 R288). -/
def State.lateGrant (s : State) (p : Packet) : State :=
  let r := p.dst.toNat
  let b := 6 * (r / 8) + r % 8
  if routerKind r ≠ .bench then s
  else
    let k := homeSlice (64 * pktLine p)
    (if (s.l2Line b (pktLine p)).isSome || s.getting b (pktLine p) then s else s.unlist k (pktLine p) b).grantEnd p

/-- DATA: a response with a line arrives at its initiator (10 R271, R288). -/
def dataArrive (p : Packet) (s : State) : State :=
  s.landed p (fun s =>
    match s.answered p with
    | none => (s.lateResponse p).lateGrant p
    | some (q, s) =>
      match sliceOf q.src.toNat with
      | some k => s.dramData k (pktLine q) p.line p.poison
      | none => s.benchData q p)

/-- DATA (10 R271). -/
def execData (k : Packet) (s : State) : Out := act s (dataArrive { k with op := opData })

/-- The first store buffer entry that waits under a tag leaves the buffer. -/
def Core.ackStore (c : Core) (tag : W16) : Core :=
  match c.sb with
  | e :: rest => if e.sent = some tag then { c with sb := rest } else c
  | [] => c

/-- A controller has accepted a write of a slice: the line leaves the eviction buffer, and a CMO or engine that waited for it ends (R235,
R243). -/
def State.accepted (s : State) (k line : Nat) : State :=
  let s := s.setEvb (24 + k) ((s.evb (24 + k)).eraseP (fun v => v.line == line))
  match s.tx k line with
  | some t => if t.flush then (((s.setTx k line none).endCmo k line t)).pump k line else s
  | none => s

/-- ACK: a write, a CMO, a write-back or an eviction report has been completed (10 R271). -/
def ackArrive (p : Packet) (s : State) : State :=
  s.landed p (fun s =>
    match s.answered p with
    | none => s.lateResponse p
    | some (q, s) =>
      match sliceOf q.src.toNat, benchOf q with
      | some k, _ => s.accepted k (pktLine q)
      | none, some b =>
        if q.op = opWrBk then s.setEvb b ((s.evb b).eraseP (fun v => v.line == pktLine q))
        else (benchCores b).foldl (fun s n => s.updCore n (fun c => c.ackStore q.tag)) s
      | none, none => s)

/-- ACK (10 R271). -/
def execAck (k : Packet) (s : State) : Out := act s (ackArrive { k with op := opAck })

/-- The read under a tag has its data. -/
def Core.answer (c : Core) (tag : W16) (d : BitVec 256) (poison : Bool) : Core :=
  { c with ext := c.ext.map (fun x => if x.tag = tag then { x with got := some (d, poison) } else x) }

/-- DATA_S: a response with up to 32 bytes arrives at its initiator: the core that reads outside has its data (10 R271). -/
def dataSArrive (p : Packet) (s : State) : State :=
  s.landed p (fun s =>
    match s.answered p with
    | none => s.lateResponse p
    | some (q, s) =>
      match benchOf q with
      | none => s
      | some b => (benchCores b).foldl (fun s n => s.updCore n (fun c => c.answer q.tag p.inl p.poison)) s)

/-- DATA_S (10 R271). -/
def execDataS (k : Packet) (s : State) : Out := act s (dataSArrive { k with op := opDataS })

/-! ### Trace lines (10 R293, 14 R403) -/

/-- A sink slice stores a trace line, or discards it: with STOP where it would overwrite unread records, of which a full sink holds 8,192 and
any other as many as lie from RPTR to WPTR. -/
def State.sinkTrace (s : State) (k : Nat) (d : BitVec 512) : State :=
  let b := probePage (sliceRouter k)
  let wp := s.fld (b 0x104) 0 13
  let rp := s.fld (b 0x108) 0 13
  let unread := if s.coh.sinkFull.contains k then 8192 else (wp + 8192 - rp) % 8192
  if s.fld (slicePage k 0 0x74) 0 16 = 0 || !s.bit (b 0x100) 0 || (s.bit (b 0x100) 1 && decide (8192 < unread + 4)) then
    s.count (b 0x110) 4
  else
    let m := (List.range 4).foldl
      (fun m j => SMap.set 0 m (k * 8192 + (wp + j) % 8192) (BitVec.ofNat 128 (d.toNat >>> (128 * j)))) s.coh.sink
    let full := s.coh.sinkFull.filter (· ≠ k)
    let full := if (wp + 4) % 8192 = rp then insertOnce k full else full
    ({ s with coh := { s.coh with sink := m, sinkFull := full } }).setNat (b 0x104) ((wp + 4) % 8192)

/-! ### Engines (R239-R242) -/

def State.engine (s : State) (e : Nat) : Option Sweep := SMap.get none s.coh.me e
def State.setEngine (s : State) (e : Nat) (x : Option Sweep) : State :=
  { s with coh := { s.coh with me := SMap.set none s.coh.me e x } }

/-- Page of engine `e`: of L2 `e`, or of slice `e - 24`; its completion source (12 R326). -/
def enginePage (e : Nat) : Nat := if e < 24 then benchPage e 0 0 else slicePage (e - 24) 0 0
def engineSource (e : Nat) : Nat := if e < 24 then 0x140 + e else 0x160 + (e - 24)

/-- The range of the engine's registers. -/
def State.meRange (s : State) (page : Nat) : Nat × Nat :=
  ((s.reg (page + 0x40)).toNat + 4294967296 * s.fld (page + 0x44) 0 10,
    (s.reg (page + 0x48)).toNat + 4294967296 * s.fld (page + 0x4C) 0 10)

/-- The REFCODE of a GO, 0 where it is accepted (R238, R239). -/
def State.refCode (s : State) (page : Nat) : Nat :=
  let r := s.meRange page
  if s.fld (page + 0x50) 0 2 = 0 then 1
  else if 0x40000000000 < r.1 + r.2 then 2
  else if !s.bit (page + 0x10) 1 then 3
  else if !s.bit (page + 0xC) 0 then 4
  else 0

/-- Number of sets that an engine's set mode walks (R240). -/
def meSets (e : Nat) (scope : Bool) : Nat := if e < 24 then 4096 else if scope then 8192 else 2048

/-- Where a sweep ends: after the last set, or after the last line of the range (R240). -/
def State.meEnd (s : State) (e : Nat) (w : Sweep) : Nat :=
  if s.bit (enginePage e + 0x58) 4 then meSets e w.scope else (w.lo + w.len + 63) / 64

/-- ABORT stops a sweep after the line or set in progress, which is an unpredictable one (R242; assumption log 14). -/
def State.meAbort (s : State) (e : Nat) : State :=
  match s.engine e with
  | some w =>
    if w.abort then s
    else
      let stop := w.pos + Config.place s.fresh % (s.meEnd e w - w.pos + 1)
      ({ s with fresh := s.fresh + 1 }).setEngine e (some { w with abort := true, stop := some stop })
  | none => s

/-- A write of ME_CMD (R239, R242). -/
def State.writeMeCmd (s : State) (e : Nat) (v : W32) : State :=
  let page := enginePage e
  let go := fun (s : State) =>
    if (s.engine e).isSome then s.raise page 3
    else
      let r := s.meRange page
      let clear := fun (s : State) => (s.setNat (page + 0x64) 0).setNat (page + 0x68) 0
      if r.2 = 0 then (clear (s.setNat (page + 0x58) 2)).fire (engineSource e)
      else
        let c := s.refCode page
        if c ≠ 0 then ((s.setNat (page + 0x58) (8 + 256 * c)).raise page 3).fire (engineSource e)
        else
          let lines := (r.1 + r.2 + 63) / 64 - r.1 / 64
          let setMode := decide ((if e < 24 then 65536 else 32768) < lines)
          let w : Sweep :=
            { lo := r.1, len := r.2, op := s.fld (page + 0x50) 0 2, scope := s.bit (page + 0x50) 4,
              part := BitVec.ofNat 6 (s.fld (page + 0x24) 0 6), abort := false, pos := if setMode then 0 else r.1 / 64 }
          ((clear (s.setNat (page + 0x58) (1 + 16 * b2n setMode))).setNat (page + 0x5C) (if setMode then 0 else r.1 / 64 * 64)).setNat
            (page + 0x60) (if setMode then 0 else r.1 / 4294967296) |>.setEngine e (some w)
  let s := if bitOf v 0 then go s else s
  if bitOf v 1 then s.meAbort e else s

/-- Is a line in the range of a sweep? -/
def Sweep.covers (w : Sweep) (line : Nat) : Bool := decide (w.lo < 64 * line + 64) && decide (64 * line < w.lo + w.len)

/-- An engine acts on a line of its range: the line is counted, and POISONED tells that it was poisoned (R238). -/
def State.meAct (s : State) (e : Nat) (poison : Bool) : State :=
  let page := enginePage e
  let s := s.count (page + 0x64)
  if poison then s.setBit (page + 0x58) 5 true else s

/-- Is a copy of the line in a bench, in its L2 or an L1D, poisoned? -/
def State.benchPoison (s : State) (b line : Nat) : Bool :=
  (match s.l2Line b line with
    | some l => l.poison && !l.tagOnly
    | none => false)
    || (benchCores b).any (fun n => match s.l1dLine n line with
      | some l => l.poison
      | none => false)

/-- Is the line poisoned in the slice, or with SCOPE 1 in a bench that the directory shows? -/
def State.slicePoison (s : State) (k line : Nat) (scope : Bool) : Bool :=
  (match (s.slc k).find 16 (slcSet line) line with
    | some l => l.poison
    | none => false)
    || (scope && (match (s.dir k).find line with
      | some d => d.benches.any (fun b => s.benchPoison b line)
      | none => false))

/-- Does the operation write dirty data back: not an invalidation for PARTID 0 (R241)? -/
def Sweep.writes (w : Sweep) : Bool := !(w.op = 2 && w.part = 0)

/-- An L2 acts on a line for an engine or a CMOSW under a partition: 1 clean, 2 invalidate, 3 both; `writes` tells whether dirty data goes
to home, through the eviction buffer (R236, R238, R241). -/
def State.actL2 (s : State) (b line op : Nat) (part : PartId) (writes : Bool) : State :=
  let kill := decide (op ≠ 1)
  let s := s.settleL1 b line none false
  match s.l2Line b line with
  | none => s
  | some l =>
    let dirty := (l.st = .m || l.st = .o) && !l.tagOnly
    let s := if dirty && writes then s.sendBack b line part l.data l.poison
      else if kill then s.homeRequest b line opEvCl part 0 0 false false else s
    if kill then ((s.include b line).modL2 b line (fun _ => none)).count (benchPage b 0 0x88)
    else s.modL2 b line (fun l => some { l with st := if l.st = .m then .e else if l.st = .o then .s else l.st })

/-- Is the line dirty in the L2 of a bench, or in an L1D over it? -/
def State.benchDirty (s : State) (b line : Nat) : Option Bool :=
  match (benchCores b).findSome? (fun n => match s.l1dLine n line with
    | some l => if l.st = .m then some l.poison else none
    | none => none), s.l2Line b line with
  | some p, some _ => some p
  | none, some l => if (l.st = .m || l.st = .o) && !l.tagOnly then some l.poison else none
  | _, none => none

/-- An L2 engine acts on a line of its cache, or with SCOPE 1 on the L1 copies only (R238). -/
def State.meLineL2 (s : State) (e : Nat) (w : Sweep) (line : Nat) : State :=
  let s := s.meAct e (s.benchPoison e line)
  let kill := decide (w.op ≠ 1)
  if w.scope then
    let s := if kill && !w.writes then
        (benchCores e).foldl (fun s n => s.modL1d n line (fun _ => none)) s
      else s.settleL1 e line none kill
    if kill then (benchCores e).foldl (fun s n => s.dropL1i n line) s else s
  else
    let s := match s.benchDirty e line with
      | some p => if w.writes then s.wroteBack (enginePage e) p else s
      | none => s
    s.actL2 e line w.op w.part w.writes

/-- The request under which a slice's engine acts on a line and every copy of it: the CMO of its operation (R238, R241). -/
def meRequest (k : Nat) (w : Sweep) (line : Nat) : Packet :=
  let code := if w.op = 1 then 0 else if w.op = 3 then 2 else if w.writes then 1 else 9
  { op := opCmo, part := w.part, src := BitVec.ofNat 7 (sliceRouter k), srcp := 0, dst := BitVec.ofNat 7 (sliceRouter k), dstp := 0,
    addr := BitVec.ofNat 42 (64 * line), inl := BitVec.ofNat 256 code }

/-- A slice's engine acts on a line of the slice, with SCOPE 1 on every copy too (R238). -/
def State.meLineSlc (s : State) (e : Nat) (w : Sweep) (line : Nat) : State :=
  let k := e - 24
  let s := s.meAct e (s.slicePoison k line w.scope)
  let q := meRequest k w line
  if w.scope then (s.beginTx k q true).pump k line
  else s.finishCmo k line
    { slice := k, req := q, left := [], data := none, recalling := none, snooped := true, dram := false, eng := true }

/-- The lines of the range that an engine finds, in the order in which it takes them (R240). -/
def State.meLines (s : State) (e : Nat) (w : Sweep) : List Nat :=
  if e < 24 then
    (if w.scope then (benchCores e).flatMap (fun n => ((s.core n).l1d.valid ++ (s.core n).l1i.valid).map (fun l => l.line))
      else (s.l2 e).valid.map (fun l => l.line)).eraseDups.filter w.covers
  else
    let k := e - 24
    ((s.slc k).valid.map (fun l => l.line)
      ++ (if w.scope then (s.dir k).ents.filterMap (fun x => x.2.map (fun d => d.line)) else [])).eraseDups.filter w.covers

/-- Sort numbers into rising order by a key. -/
def insertBy (f : Nat → Nat) (x : Nat) : List Nat → List Nat
  | [] => [x]
  | y :: l => if f x ≤ f y then x :: y :: l else y :: insertBy f x l
def sortBy (f : Nat → Nat) (l : List Nat) : List Nat := l.foldr (insertBy f) []

/-- The line or set of a line, as the sweep takes them. -/
def State.meKey (s : State) (e : Nat) (w : Sweep) (line : Nat) : Nat :=
  if s.bit (enginePage e + 0x58) 4 then (if e < 24 then l2Set line else if w.scope then dirSet line else slcSet line) else line

/-- Lines of the range whose fill into the engine's cache is outstanding: an engine in address mode waits for them (R243). -/
def State.meFills (s : State) (e : Nat) (w : Sweep) : List Nat :=
  if s.bit (enginePage e + 0x58) 4 then []
  else if e < 24 then ((s.coh.misses.filter (fun m => m.core / 8 == e)).map (fun m => m.line)).filter w.covers
  else ((s.coh.txs.filter (fun t => t.slice == e - 24 && t.dram)).map (fun t => pktLine t.req)).filter w.covers

/-- The next line that an engine takes: the first at or after its position that it has not acted on (R240, R243). -/
def State.meNext (s : State) (e : Nat) (w : Sweep) : Option Nat :=
  let stop := w.stop.getD (s.meEnd e w)
  (sortBy (s.meKey e w) ((s.meLines e w ++ s.meFills e w).eraseDups)).find?
    (fun x => decide (w.pos ≤ s.meKey e w x) && decide (s.meKey e w x < stop) && !w.acted.contains x)

/-- How many write-backs and recalls of the engine's cache are outstanding (R240). -/
def State.meLoad (s : State) (e : Nat) : Nat :=
  (s.evb e).length + (if e < 24 then 0 else (s.coh.txs.filter (fun t => t.slice == e - 24 && t.eng)).length)

/-- Must the engine wait before it acts on a line: 16 write-backs and recalls are outstanding, a fill of the line is, or home is busy with
it (R240, R243)? -/
def State.meStalls (s : State) (e line : Nat) : Bool :=
  decide (16 ≤ s.meLoad e)
    || (if e < 24 then s.coh.misses.any (fun m => m.core / 8 == e && m.line == line) || s.leaving e line else s.lineBusy (e - 24) line)

/-- A sweep goes on, line by line, to its end or to a line before which it must wait (R240).  `fuel` bounds the lines. -/
def State.meRun (s : State) (e : Nat) : Nat → State
  | 0 => s
  | fuel + 1 =>
    match s.engine e with
    | none => s
    | some w =>
      match s.meNext e w with
      | none => s.setEngine e (some { w with pos := w.stop.getD (s.meEnd e w), acted := [] })
      | some x =>
        let k := s.meKey e w x
        let w := if k = w.pos then w else { w with pos := k, acted := [] }
        if s.meStalls e x then s.setEngine e (some w)
        else
          let t := if e < 24 then s.meLineL2 e w x else s.meLineSlc e w x
          (t.setEngine e (some { w with acted := w.acted ++ [x], out := w.out ++ [x] })).meRun e fuel

/-- Are write-backs or recalls of the engine's sweep outstanding? -/
def State.meOutstanding (s : State) (e : Nat) (w : Sweep) : Bool :=
  w.out.any (fun l => (s.evLine e l).isSome) || (decide (24 ≤ e) && s.coh.txs.any (fun t => t.slice == e - 24 && t.eng))

/-- ME_POS shows where the sweep stands: the next line address, or the next set (R238, R240). -/
def State.mePlace (s : State) (e : Nat) (w : Sweep) : State :=
  let page := enginePage e
  let pos := if s.bit (page + 0x58) 4 then w.pos else 64 * (w.pos + b2n (!w.acted.isEmpty))
  (s.setNat (page + 0x5C) pos).setNat (page + 0x60) (pos / 4294967296 % 1024)

/-- The sweep goes on; at its end, with every write-back accepted, BUSY clears and the completion source is raised (R240, R242). -/
def State.endSweep (s : State) (e : Nat) (stopped : Bool) : State :=
  let page := enginePage e
  let n := match s.engine e with
    | some w => (s.meLines e w).length + (s.meFills e w).length + 1
    | none => 0
  let s := s.meRun e n
  match s.engine e with
  | none => s
  | some w =>
    let s := s.mePlace e w
    if (stopped || decide (w.pos = s.meEnd e w)) && !s.meOutstanding e w then
      let st := s.reg (page + 0x58)
      ((s.setReg (page + 0x58) (putField st 0 4 (if stopped then 4 else 2))).setEngine e none).fire (engineSource e)
    else s.setEngine e (some { w with stop := if stopped then some w.pos else none })

/-- ME_SWEEP_DONE: the sweep goes on as far as it can, to its end where nothing holds it (R240; assumption log 14). -/
def execMeSweepDone (e : Fin 56) (s : State) : Out :=
  act s (fun s => match s.engine e.val with
    | some w => if w.abort then s else s.endSweep e.val false
    | none => s)

/-- ME_ABORT_DONE (R242). -/
def execMeAbortDone (e : Fin 56) (s : State) : Out :=
  act s (fun s => match s.engine e.val with
    | some w => if w.abort then s.endSweep e.val true else s
    | none => s)

/-- PACKET_SWITCH at a router; where a packet on its way to or from a home slice is lost, home goes on with the line (10 R272-R277, R283). -/
def switchPacket (r : Nat) (k : Packet) (e : FlitError) (s : State) : State :=
  let t := packetSwitch r k e s
  if t.net.flights.length < s.net.flights.length && (k.op = opData || k.op = opWrBk) then t.grantEnd k else t

/-- PACKET_SWITCH (10 R277). -/
def execPacketSwitch (r : Fin 82) (k : Switched) (s : State) : Out := act s (switchPacket r.val k.pkt k.found)

/-! ### Accesses of other initiators, performed whole (R232; assumption log 62) -/

/-- What becomes of a packet of an access performed whole: it gets there, it must wait, at a regulator or for something else, or it is
lost. -/
inductive Way where
  | there | held (at_ : Option (Nat × Meter)) | lost
  deriving DecidableEq, Repr

/-- Carry such a packet on from router `r`: regulators, probes, fences and route tables as a packet switched step by step meets them (03
R56-R59; 10 R272-R283).  `fuel` bounds the routers. -/
def State.travel (s : State) (p : Packet) : Nat → Nat → Way × State
  | 0, _ => (.lost, s)
  | fuel + 1, r =>
    let g := s.gateRg r p
    let m := pktMeter p
    match g.filter (fun rg => s.exhausted rg m p.part.toNat && holdable m p) with
    | some rg => (.held (some (rg, m)), s)
    | none =>
      let s := match g with
        | some rg => (s.force rg 0).charge rg m p.part.toNat (pktFlits p)
        | none => s
      if !s.enabled (routerPage r 0) then (.held none, s)
      else
        let s := (s.force (routerPage r 0) 1).force (routerPage r 0) 2
        if s.strayed r p then (.lost, s.hopDrop r)
        else
          let s := s.probe r p
          if s.fenced (s.intoDomains r p) then (.lost, s.fenceDrop r p)
          else if !isResponse p && s.closing (s.intoDomains r p) then (.held none, s)
          else
            match s.nextRouter r p with
            | none => (.there, s)
            | some q => s.travel { p with hops := p.hops + 1 } fuel q

/-- Does a bench hold newer data of the line than home, or the slice the line: need its controller not read it? -/
def State.fromDram (s : State) (line : Nat) : Bool :=
  let k := homeSlice (64 * line)
  (s.slcRead k line).isNone && (s.dirtyL1 line).isNone && (s.dirtyL2 line).isNone

/-- Can home serve the line at once: the slice and, where it is needed, its controller are up, and nothing is under way on the line
(R243, R244)? -/
def State.homeOpen (s : State) (line : Nat) (dram : Bool) : Bool :=
  let k := homeSlice (64 * line)
  s.sliceUp k && !s.lineBusy k line && !s.incoming line && !(List.range 24).any (fun b => s.unfilled b line)
    && decide ((s.evb (24 + k)).length < 16)
    && (!dram || (s.enabled (mcPage (k / 2) 0 0) && s.serves (k / 2) line && s.lineFree (k / 2) line))

/-- The bytes that a controller's meter counts for a line of its DRAM (03 R57). -/
def State.chargeDram (s : State) (line : Nat) (part : PartId) : State :=
  let rg := mcPage (mcOf (64 * line)) 2 0
  (s.force rg 0).charge rg .bytes part.toNat 64

/-- What home has of its snoops: whether one of them cannot get through yet, the newest data that an answer brought, and the state. -/
structure Snooped where
  held : Bool := false
  data : Option (BitVec 512 × Bool) := none
  st : State

/-- A snoop travels to a bench, and its answer back to home (R232; 10 R271); a lost one times out (10 R287). -/
def Snooped.ask (a : Snooped) (k b line : Nat) (part : PartId) (kill : Bool) : Snooped :=
  let sr := sliceRouter k
  let br := 8 * (b / 6) + b % 6
  let q := a.st.stamp sr 0
    { op := opSnp, vc := 2, part := part, dst := BitVec.ofNat 7 br, dstp := 0, addr := BitVec.ofNat 42 (64 * line) }
  match a.st.travel q 16 sr with
  | (.held _, _) => { a with held := true }
  | (.lost, t) => { a with st := t.timeoutAt sr 0 (64 * line) part }
  | (.there, t) =>
    let x := t.snoopBench b line (if kill then 1 else 0)
    let back := x.2.stamp br 0
      { op := if x.1.isSome then opSnpData else opSnpAck, vc := 1, part := part, dst := BitVec.ofNat 7 sr, dstp := 0
        addr := BitVec.ofNat 42 (64 * line) }
    match x.2.travel back 16 br with
    | (.held _, _) => { a with held := true }
    | (.lost, u) => { a with st := u.timeoutAt sr 0 (64 * line) part }
    | (.there, u) => { a with data := x.1.or a.data, st := u }

/-- Home snoops the benches that may hold newer data of the line, or invalidates every copy (R232). -/
def State.homeSnoop (s : State) (line : Nat) (part : PartId) (kill : Bool) : Snooped :=
  let k := homeSlice (64 * line)
  let l := match (s.dir k).find line with
    | some e => if kill || e.uniq then e.benches else (e.owner.map Fin.val).toList
    | none => []
  let r := l.foldl (fun (a : Snooped) b => a.ask k b line part kill) { st := s }
  { r with st := if kill then r.st.modDir k line (fun _ => none) else r.st.sharedOut k line r.data.isSome }

/-- The line at home, once no bench has newer data: from the SLC, or from DRAM, which fills the SLC (R221, R223, R231, R233). -/
def State.homeLine (s : State) (line : Nat) (part : PartId) : (BitVec 512 × Bool) × State :=
  let k := homeSlice (64 * line)
  let s := s.slcLook k line
  match s.slcRead k line with
  | some (d, p) =>
    ((d, p || s.setLost k line),
      match (s.slc k).way 16 (slcSet line) line with
      | some w => s.setSlc k ((s.slc k).touch 16 (slcSet line) w)
      | none => s)
  | none =>
    let r := (s.chargeDram line part).dramRead (k / 2) line {}
    ((r.1, r.2.1 || r.2.2.setLost k line), r.2.2.fillSlc k line false r.1 r.2.1 part true)

/-- Home serves a read of a line (R232): its data and poison; none while a snoop cannot get through. -/
def State.homeRead (s : State) (line : Nat) (part : PartId) : Option ((BitVec 512 × Bool) × State) :=
  let r := s.homeSnoop line part false
  if r.held then none
  else
    match r.data with
    | some x => some (x, r.st)
    | none => some (r.st.homeLine line part)

/-- Home serves a write of bytes of one line from an offset; a write of part of a line keeps its poison, and poisoned bytes poison the line
(R231, R232, R534). -/
def State.homeStore (s : State) (line off : Nat) (bytes : List Byte) (bad : Bool) (part : PartId) : Option State :=
  let k := homeSlice (64 * line)
  let full := decide (bytes.length = 64)
  let r := s.homeSnoop line part true
  if r.held then none
  else
    let old : (BitVec 512 × Bool) × State :=
      match r.data with
      | some x => (x, r.st)
      | none => if full then ((0, false), r.st) else r.st.homeLine line part
    let d := pasteLine old.1.1 off bytes
    let p := bad || (old.1.2 && !full)
    some (if ((old.2.slc k).find 16 (slcSet line) line).isSome then old.2.fillSlc k line true d p part true
      else (old.2.chargeDram line part).dramWrite (k / 2) line d p)

/-- Why an access waits: at a regulator's meter or for something else, and its PARTID. -/
abbrev Held := Option (Nat × Meter) × PartId

/-- A regulator holds an access: a meter of budget 0 is exhausted by it (03 R58). -/
def State.holdFor (s : State) (h : Held) : State :=
  match h.1 with
  | some x => s.holdAt x.1 x.2 h.2.toNat
  | none => s

/-- What an access performed whole gives: it must wait, or its bytes, whether any was poisoned, and whether a request of it was lost. -/
inductive WholeOut where
  | held (at_ : Option (Nat × Meter))
  | done (bytes : List Byte) (bad lost : Bool)
  deriving DecidableEq, Repr

/-- The request of an access performed whole: a read of a line, or a write of bytes within it (10 R270, R271). -/
def State.wholeRequest (s : State) (r port : Nat) (part : PartId) (a : Nat) (w : Option (List Byte)) : Packet :=
  let k := homeSlice a
  s.stamp r port
    { op := if w.isSome then opWrLn else opRdSh, part := part, dst := BitVec.ofNat 7 (sliceRouter k), dstp := 0,
      addr := BitVec.ofNat 42 a }

/-- The access of one line: bytes from address `a` on, at most to the line's end; its request travels to home, home serves it, and the
response travels back (10 R269, R285, R287). -/
def State.wholeLine (s : State) (r port : Nat) (part : PartId) (a n : Nat) (w : Option (List Byte × Bool)) : WholeOut × State :=
  let line := a / 64
  let k := homeSlice a
  let q := s.wholeRequest r port part a (w.map Prod.fst)
  match (s.force (routerPage r 0) 0).travel q 16 r with
  | (.held h, _) => (.held h, s)
  | (.lost, t) => (.done (List.replicate n 0) false true, t.timeoutAt r port a part)
  | (.there, t) =>
    let dram := match w with
      | some _ => ((t.slc k).find 16 (slcSet line) line).isNone
      | none => t.fromDram line
    if !t.homeOpen line dram then (.held none, s)
    else if dram && t.exhausted (mcPage (k / 2) 2 0) .bytes part.toNat then (.held (some (mcPage (k / 2) 2 0, .bytes)), s)
    else
      let served : Option ((BitVec 512 × Bool) × State) :=
        match w with
        | some (l, bad) => (t.homeStore line (a % 64) l bad part).map (fun u => ((0, false), u))
        | none => t.homeRead line part
      match served with
      | none => (.held none, s)
      | some x =>
      let back := x.2.stamp (sliceRouter k) 0
        { op := if w.isSome then opAck else opData, vc := replyVc q, part := part, dst := BitVec.ofNat 7 r, dstp := Fin.ofNat 8 port }
      match x.2.travel back 16 (sliceRouter k) with
      | (.held h, _) => (.held h, s)
      | (.lost, t) => (.done (List.replicate n 0) false true, t.timeoutAt r port a part)
      | (.there, t) => (.done (((lineBytes x.1.1).drop (a % 64)).take n) x.1.2 false, t)

/-- An access performed whole, line by line from address `a`: where one line must wait, none is accessed.  `fuel` bounds the lines. -/
def State.wholeLines (s : State) (r port : Nat) (part : PartId) (w : Option (List Byte × Bool)) : Nat → Nat → Nat → WholeOut × State
  | 0, _, _ => (.done [] false false, s)
  | fuel + 1, a, n =>
    if n = 0 then (.done [] false false, s)
    else
      let m := min n (64 - a % 64)
      match s.wholeLine r port part a m (w.map (fun x => (x.1.take m, x.2))) with
      | (.held h, _) => (.held h, s)
      | (.done l p lost, t) =>
        match t.wholeLines r port part (w.map (fun x => (x.1.drop m, x.2))) fuel (a + m) (n - m) with
        | (.held h, _) => (.held h, s)
        | (.done l' p' lost', t) => (.done (l ++ l') (p || p') (lost || lost'), t)

/-- An access to visible DRAM of an initiator at a router's local port. -/
def State.wholeAccess (s : State) (r port : Nat) (part : PartId) (a n : Nat) (w : Option (List Byte × Bool)) : WholeOut × State :=
  s.wholeLines r port part w (n / 64 + 2) a n

/-- Would such an access have to wait, and why? -/
def State.wouldWait (s : State) (r port : Nat) (part : PartId) (a n : Nat) (write : Bool) : Option Held :=
  match (s.wholeAccess r port part a n (if write then some (List.replicate n 0, false) else none)).1 with
  | .held h => some (h, part)
  | .done _ _ _ => none

end Sys2Proof.Machine
end

