-- ==== Sys2Proof/Machine/Xlate.lean ====
section
/-! DEFINITION. Address translation, TLBs and the walker (07), and what an address reaches (02 R18-R24). -/

namespace Sys2Proof.Machine

/-! ### The map (02 R18) -/

def inPcie (a : Nat) : Bool := decide (0x10000000000 ≤ a) && decide (a < 0x20000000000)
def inParraha (a : Nat) : Bool := decide (0x20000000000 ≤ a) && decide (a < 0x30000000000)
def inEmram (a : Nat) : Bool := decide (0x3E000000000 ≤ a) && decide (a < 0x3E002000000)
def inControl (a : Nat) : Bool := decide (0x3F000000000 ≤ a) && decide (a < 0x3F010000000)
def inRom (a : Nat) : Bool := decide (0x3FFF0000000 ≤ a) && decide (a < 0x3FFF0040000)

/-- Port of the PCIe range (14 R384). -/
def peOf (a : Nat) : Nat := a / 0x4000000000 % 4

/-- The outbound window of the Parraha link that holds an address: the lowest-numbered valid one (14 R391). -/
def State.prlWindow (s : State) (a : Nat) : Option Nat :=
  let off := a % 0x10000000000
  firstWhere 16 (fun w =>
    let b := prlPage 0 (0x200 + 16 * w)
    let base := s.fld b 0 19 * 2097152
    s.bit b 31 && decide (base ≤ off) && decide (off < base + 2097152 * s.fld (b + 4) 0 16))

/-- Is an address mapped (02 R21)? -/
def State.mapped (s : State) (a : Nat) : Bool :=
  s.isDram a || inEmram a || inRom a || (inPcie a && !s.bit (pciePage (peOf a) 0x48) 9)
    || (inParraha a && (s.prlWindow a).isSome) || (inControl a && (pageOf (a - 0x3F000000000)).isSome)

/-- The type that an access of a given translated type has at a physical address (02 R20). -/
def typeAt (a : Nat) (mt : MemType) : MemType :=
  if inControl a then .dev
  else if mt = .wb ∧ (inPcie a ∨ inParraha a ∨ inEmram a ∨ inRom a) then .nc
  else mt

/-- The type with the H-regime disabled (R184). -/
def State.plainType (s : State) (a : Nat) : MemType := if s.isDram a then .wb else if inControl a then .dev else .nc

/-! ### Confidential ranges (15 R422, R423) -/

/-- The owner of the confidential entry that holds any byte of `[a, a + n)`. -/
def State.confOwner (s : State) (a n : Nat) : Option Nat :=
  (List.range 16).findSome? (fun e =>
    let b := rts (0x500 + 16 * e)
    if s.bit b 31 && decide (s.fld (b + 4) 0 21 ≤ (a + n - 1) / 2097152) && decide (a / 2097152 ≤ s.fld (b + 8) 0 21) then
      some (s.fld b 24 6)
    else none)

/-- Does a confidential entry of another PARTID hold any byte of `[a, a + n)` (15 R423, R424, R427)? -/
def State.confBars (s : State) (a n : Nat) (p : PartId) : Bool :=
  (List.range 16).any (fun e =>
    let b := rts (0x500 + 16 * e)
    s.bit b 31 && decide (s.fld (b + 4) 0 21 ≤ (a + n - 1) / 2097152) && decide (a / 2097152 ≤ s.fld (b + 8) 0 21)
      && s.fld b 24 6 != p.toNat)

/-- A refused access is counted in RT_CONFCNT, and is the latest that RT_REFADDR names (15 R424, R426). -/
def State.noteConf (s : State) (a : Nat) (p : PartId) : State :=
  let s := s.count (rts 0x68)
  let s := s.setNat (rts 0x6C) a
  s.setNat (rts 0x70) (a / 4294967296 % 1024 + 65536 * p.toNat + 16777216)

/-- Count and record a refusal of an architectural access (15 R423). -/
def State.refuseConf (s : State) (a : Nat) (p : PartId) : State := (s.noteConf a p).raise (rts 0) 1 (some p)

/-! ### Table entries -/

/-- Fault of a translation: its cause, CAUSE.SUB, FAR, and FAR2_H where it is written (R199, R200). -/
structure Flt where
  cause : Nat
  sub : Nat
  far : W64
  far2 : Option W64
  deriving DecidableEq, Repr

/-- What stops a walk's evaluation: an access whose answer is not there yet, or a fault. -/
inductive WStop where
  | read (pa : Nat) (stg lv : Nat)
  | swap (pa : Nat) (old new : W64)
  | fault (f : Flt)
  deriving DecidableEq, Repr

/-- Fields of an entry (R188). -/
def teV (e : W64) : Bool := bitOf e 0
def teT (e : W64) : Bool := bitOf e 1
def teOa (e : W64) : Nat := fieldOf e 12 30 * 4096
def teMt (e : W64) : MemType := match fieldOf e 2 3 with | 0 => .wb | 1 => .nc | _ => .dev
def teRights (e : W64) : BitVec 6 := BitVec.ofNat 6 (fieldOf e 52 6)

/-- A table entry has T at 1 above level 3; a leaf is the rest (R188, R189). -/
def teIsTable (e : W64) (l : Nat) : Bool := decide (l < 3) && teT e

/-- Format faults (R190). -/
def teBad (e : W64) (l : Nat) : Bool :=
  if teIsTable e l then
    bitOf e 63 || fieldOf e 52 6 != 0 || fieldOf e 42 10 != 0 || fieldOf e 2 10 != 0
  else
    bitOf e 63 || fieldOf e 42 10 != 0 || fieldOf e 9 3 != 0 || decide (3 ≤ fieldOf e 2 3)
      || (!teT e && (l = 0 || l = 3))
      || (!teT e && l = 1 && fieldOf e 12 18 != 0) || (!teT e && l = 2 && fieldOf e 12 9 != 0)

/-- Rights bits of R, W, X for a level: U uses UR, UW, UX, the others SR, SW, SX (R191). -/
def needs (acc : Acc) (lv : Nat) : List Nat :=
  let b := if lv = 0 then 0 else 3
  match acc with
  | .fetch => [b + 2] | .read => [b] | .write => [b + 1] | .rmw => [b, b + 1]

/-- Does the access miss a right (R191)? -/
def rightsMissing (r : BitVec 6) (acc : Acc) (lv : Nat) : Bool := (needs acc lv).any (fun i => !bitOf r i)

/-- Does the access write? -/
def Acc.writes : Acc → Bool
  | .write => true | .rmw => true | _ => false

/-- The stricter of two types (R192). -/
def stricter (a b : MemType) : MemType :=
  if a = .dev ∨ b = .dev then .dev else if a = .nc ∨ b = .nc then .nc else .wb

/-- Bits of an address below the page of size code `z`. -/
def pageBits (z : Nat) : Nat := 12 + 9 * z

/-- Index of an address at a level (R189). -/
def tableIndex (a l : Nat) : Nat := a / 2 ^ (39 - 9 * l) % 512

/-! ### The walk (R196) -/

/-- What a walk reads of its core and of the map. -/
structure WalkEnv where
  s1root : W64
  s1ctl : W64
  s2root : W64
  s2ctl : W64
  hxroot : W64
  hxctl : W64
  vtop : Nat
  /-- Addresses of confidential entries that the walker's reads may not touch (15 R423). -/
  barred : Nat → Bool
  va : W64
  fetch : Bool

/-- The causes of stage 1 and stage 2 faults. -/
def WalkEnv.fault1 (v : WalkEnv) (kind l : Nat) : WStop :=
  .fault ⟨if v.fetch then 0x10 else 0x12, 16 * kind + l, v.va, none⟩
def WalkEnv.fault2 (v : WalkEnv) (kind tbl l ipa : Nat) : WStop :=
  .fault ⟨if v.fetch then 0x11 else 0x13, 16 * kind + 8 * tbl + 4 + l, v.va, some (BitVec.ofNat 64 ipa)⟩
def WalkEnv.walkFault (v : WalkEnv) (kind tbl stg l : Nat) (ipa : Option Nat) : WStop :=
  .fault ⟨0x14, 16 * kind + 8 * tbl + 4 * stg + l, v.va, ipa.map (BitVec.ofNat 64)⟩

/-- A step of the walk: its result and the answers not used yet, or what stops it. -/
abbrev WRes (α : Type) := Except WStop (α × List WalkReply)

/-- read_entry of R196; `tbl` is 1 while stage 2 translates the address of a stage 1 entry (R199). -/
def WalkEnv.readEntry (v : WalkEnv) (pa tbl stg l : Nat) (ipa : Option Nat) (rs : List WalkReply) : WRes W64 :=
  if inControl pa then .error (v.walkFault 2 tbl stg l ipa)
  else if v.vtop ≤ pa then .error (v.walkFault 3 tbl stg l ipa)
  else if v.barred pa then .error (v.walkFault 4 tbl stg l ipa)
  else
    match rs with
    | [] => .error (.read pa stg l)
    | .word e :: r => .ok (e, r)
    | .bus :: _ => .error (v.walkFault 1 tbl stg l ipa)
    | .poison :: _ => .error (v.walkFault 4 tbl stg l ipa)
    | .swapped :: _ => .error (.read pa stg l)

/-- The leaf of a stage: its entry as it stands now, its address and level. -/
structure Leaf where
  e : W64
  at_ : Nat
  l : Nat
  deriving DecidableEq, Repr

/-- What a stage gives. -/
structure StageOut where
  pa : Nat
  mt : MemType
  rights : BitVec 6
  size : Nat
  leaf : Option Leaf
  deriving DecidableEq, Repr

/-- The update of a leaf (R193, R194): its entry after, or the fault, or the compare-and-swap to make. -/
def updateLeaf (f : Nat → WStop) (had : Bool) (lf : Leaf) (dirty : Bool) (rs : List WalkReply) : WRes Leaf :=
  let a := bitOf lf.e 6
  let d := bitOf lf.e 7
  if a && (d || !dirty) then .ok (lf, rs)
  else if !had then .error (f (if a then 6 else 5))
  else
    let e := putBit lf.e 6 true
    let e := if dirty then putBit e 7 true else e
    match rs with
    | .swapped :: r => .ok ({ lf with e := e }, r)
    | _ => .error (.swap lf.at_ lf.e e)

/-- One stage's descent from a table at level `l` to its leaf; `rd` reads an entry, `bad` names a fault. -/
def descend (rd : Nat → Nat → List WalkReply → WRes (W64 × Nat)) (bad : Nat → Nat → WStop) (a : Nat) :
    Nat → Nat → Nat → List WalkReply → WRes Leaf
  | 0, _, l, _ => .error (bad 3 l)
  | fuel + 1, t, l, rs =>
    match rd (t + 8 * tableIndex a l) l rs with
    | .error x => .error x
    | .ok ((e, pa), rs) =>
      if !teV e then .error (bad 2 l)
      else if teBad e l then .error (bad 3 l)
      else if teIsTable e l then descend rd bad a fuel (teOa e) (l + 1) rs
      else .ok (⟨e, pa, l⟩, rs)

/-- The output address of a leaf. -/
def leafAddr (lf : Leaf) (a : Nat) : Nat := teOa lf.e + a % 2 ^ pageBits (3 - lf.l)

/-- stage2 of R196. -/
def WalkEnv.stage2 (v : WalkEnv) (ipa : Nat) (acc : Acc) (lv tbl : Nat) (mt1 : MemType) (r1 : BitVec 6) (size1 : Nat)
    (rs : List WalkReply) : WRes StageOut :=
  if !bitOf v.s2ctl 0 then .ok (⟨ipa, mt1, r1, size1, none⟩, rs)
  else
    let rd := fun pa l rs =>
      match v.readEntry pa tbl 1 l (some ipa) rs with
      | .error x => .error x
      | .ok (e, rs) => .ok ((e, pa), rs)
    match descend rd (fun k l => v.fault2 k tbl l ipa) ipa 4 (fieldOf v.s2root 12 30 * 4096) 0 rs with
    | .error x => .error x
    | .ok (lf, rs) =>
      if rightsMissing (teRights lf.e) acc lv then .error (v.fault2 4 tbl lf.l ipa)
      else
        match updateLeaf (fun k => v.fault2 k tbl lf.l ipa) (bitOf v.s2ctl 1) lf acc.writes rs with
        | .error x => .error x
        | .ok (lf, rs) =>
          .ok (⟨leafAddr lf ipa, stricter mt1 (teMt lf.e), r1 &&& teRights lf.e, min size1 (3 - lf.l), some lf⟩, rs)

/-- The update of a stage 1 leaf writes its table page, which needs SW and D there (R194). -/
def WalkEnv.updateStage1 (v : WalkEnv) (lf : Leaf) (page : Option Leaf) (acc : Acc) (ea : Nat) (rs : List WalkReply) : WRes Leaf :=
  let a := bitOf lf.e 6
  let d := bitOf lf.e 7
  if a && (d || !acc.writes) then .ok (lf, rs)
  else if !bitOf v.s1ctl 1 then .error (v.fault1 (if a then 6 else 5) lf.l)
  else
    match page with
    | none => updateLeaf (fun k => v.fault1 k lf.l) true lf acc.writes rs
    | some p =>
      if rightsMissing (teRights p.e) .write 1 then .error (v.fault2 4 1 p.l ea)
      else
        match updateLeaf (fun k => v.fault2 k 1 p.l ea) (bitOf v.s2ctl 1) p true rs with
        | .error x => .error x
        | .ok (_, rs) => updateLeaf (fun k => v.fault1 k lf.l) true lf acc.writes rs

/-- Is a virtual address canonical (R185)? -/
def canonical (va : W64) : Bool := fieldOf va 47 17 = 0 || fieldOf va 47 17 = 131071

/-- One table entry of stage 1, with the stage 2 leaf of its page. -/
def WalkEnv.readStage1 (v : WalkEnv) (ea l : Nat) (rs : List WalkReply) : WRes (W64 × Nat × Option Leaf) :=
  match v.stage2 ea .read 1 1 .wb 63 3 rs with
  | .error x => .error x
  | .ok (p, rs) =>
    if p.mt = .dev then .error (v.walkFault 2 0 0 l none)
    else
      match v.readEntry p.pa 0 0 l none rs with
      | .error x => .error x
      | .ok (e, rs) => .ok ((e, p.pa, p.leaf), rs)

/-- The stage 1 descent, which keeps the stage 2 leaf of the page of the last entry read. -/
def WalkEnv.descend1 (v : WalkEnv) (a : Nat) : Nat → Nat → Nat → List WalkReply → WRes (Leaf × Nat × Option Leaf)
  | 0, _, l, _ => .error (v.fault1 3 l)
  | fuel + 1, t, l, rs =>
    let ea := t + 8 * tableIndex a l
    match v.readStage1 ea l rs with
    | .error x => .error x
    | .ok ((e, pa, p2), rs) =>
      if !teV e then .error (v.fault1 2 l)
      else if teBad e l then .error (v.fault1 3 l)
      else if teIsTable e l then v.descend1 a fuel (teOa e) (l + 1) rs
      else .ok ((⟨e, pa, l⟩, ea, p2), rs)

/-- The hint SEAL of a leaf. -/
def Leaf.seal (o : Option Leaf) : Bool := match o with | some l => bitOf l.e 8 | none => false

/-- The dirty state of a leaf: a stage that is off needs none. -/
def Leaf.dirty (o : Option Leaf) : Bool := match o with | some l => bitOf l.e 7 | none => true

/-- The TLB entry that a finished translation installs (R202). -/
def WalkEnv.entry (v : WalkEnv) (h : Bool) (o1 o2 : Option Leaf) (a ipa : Nat) (out : StageOut) : TlbEntry :=
  let low := fun x z => x / 2 ^ pageBits z * 2 ^ pageBits z
  { hreg := h, vmid := if h then 0 else BitVec.ofNat 16 (fieldOf v.s2root 48 16)
    asid := if h then 0 else BitVec.ofNat 16 (fieldOf v.s1root 48 16)
    glob := !h && (match o1 with | some l => bitOf l.e 5 | none => false)
    va := low a out.size, sz := out.size, pa := low out.pa out.size, mt := out.mt
    mt1 := match o1 with | some l => teMt l.e | none => .wb
    hint := Leaf.seal o1 || Leaf.seal o2
    r1 := match o1 with | some l => teRights l.e | none => 63
    l1 := match o1 with | some l => l.l | none => 0
    r2 := match o2 with | some l => teRights l.e | none => 63
    l2 := match o2 with | some l => l.l | none => 0
    ipa := low ipa out.size
    ipaSz := match o2 with | some l => 3 - l.l | none => out.size
    dirty := Leaf.dirty o1 && Leaf.dirty o2 }

/-- translate of R196 for an address that needs a walk, over the answers so far. -/
def WalkEnv.run (v : WalkEnv) (acc : Acc) (lv : Nat) (rs : List WalkReply) : Except WStop TlbEntry :=
  let a := v.va.toNat % 2 ^ 48
  if 2 ≤ lv then
    let rd := fun pa l rs =>
      match v.readEntry pa 0 0 l none rs with
      | .error x => .error x
      | .ok (e, rs) => .ok ((e, pa), rs)
    match descend rd v.fault1 a 4 (fieldOf v.hxroot 12 30 * 4096) 0 rs with
    | .error x => .error x
    | .ok (lf, rs) =>
      if rightsMissing (teRights lf.e) acc lv then .error (v.fault1 4 lf.l)
      else
        match updateLeaf (fun k => v.fault1 k lf.l) (bitOf v.hxctl 1) lf acc.writes rs with
        | .error x => .error x
        | .ok (lf, _) =>
          .ok (v.entry true (some lf) none a 0 ⟨leafAddr lf a, teMt lf.e, teRights lf.e, 3 - lf.l, none⟩)
  else if !bitOf v.s1ctl 0 then
    match v.stage2 (v.va.toNat % 2 ^ 42) acc lv 0 .wb 63 3 rs with
    | .error x => .error x
    | .ok (o, _) => .ok (v.entry false none o.leaf a (v.va.toNat % 2 ^ 42) o)
  else
    match v.descend1 a 4 (fieldOf v.s1root 12 30 * 4096) 0 rs with
    | .error x => .error x
    | .ok ((lf, ea, page), rs) =>
      if rightsMissing (teRights lf.e) acc lv then .error (v.fault1 4 lf.l)
      else
        match v.updateStage1 lf page acc ea rs with
        | .error x => .error x
        | .ok (lf, rs) =>
          let ipa := leafAddr lf a
          match v.stage2 ipa acc lv 0 (teMt lf.e) (teRights lf.e) (3 - lf.l) rs with
          | .error x => .error x
          | .ok (o, _) => .ok (v.entry false (some lf) o.leaf a ipa o)

/-! ### TLBs (R201-R204) -/

/-- Does a guest or H-regime entry match the address (R202)? -/
def TlbEntry.matches (e : TlbEntry) (c : Core) (h : Bool) (a : Nat) : Bool :=
  e.hreg == h && a / 2 ^ pageBits e.sz == e.va / 2 ^ pageBits e.sz
    && (h || (e.vmid == BitVec.ofNat 16 (fieldOf (c.sysReg 0x8010) 48 16)
      && (e.glob || e.asid == BitVec.ofNat 16 (fieldOf (c.sysReg 0x4010) 48 16))))

/-- Set of an entry in the second-level TLB (R201). -/
def tlbSet (a z : Nat) : Nat := a / 2 ^ pageBits z % 256

/-- The entries of the second-level TLB that one lookup probes. -/
def Core.l2Probe (c : Core) (a : Nat) : List TlbEntry :=
  (List.range 3).flatMap (fun z => (List.range 8).filterMap (fun w => SMap.get none c.l2tlb (tlbSet a z * 8 + w)))

/-- Put an entry into an L1 TLB of 64: the oldest installed goes (R201). -/
def tlbPush (l : List TlbEntry) (e : TlbEntry) : List TlbEntry := (if 64 ≤ l.length then l.drop 1 else l) ++ [e]

/-- Fill the TLB that missed. -/
def Core.fillL1Tlb (c : Core) (fetch : Bool) (e : TlbEntry) : Core :=
  if fetch then { c with itlb := tlbPush c.itlb e } else { c with dtlb := tlbPush c.dtlb e }

/-- Install a walk's result in the second-level TLB, whose set's pointer advances, and in the TLB that missed (R201). -/
def Core.installTlb (c : Core) (fetch : Bool) (e : TlbEntry) : Core :=
  let set := tlbSet e.va e.sz
  let w := SMap.get 0 c.l2rr set
  let c := { c with l2tlb := SMap.set none c.l2tlb (set * 8 + w) (some e), l2rr := SMap.set 0 c.l2rr set ((w + 1) % 8) }
  c.fillL1Tlb fetch e

/-- The outcome of a translation. -/
inductive Xl where
  | ok (pa : Nat) (mt : MemType)
  | fault (f : Flt)
  /-- A walk is needed. -/
  | walk
  deriving DecidableEq, Repr

/-- Is the regime's translation off, so that no table is read (R184)? -/
def Core.xlOff (c : Core) (lv : Nat) : Bool :=
  if 2 ≤ lv then !bitOf (c.sysReg 0x8013) 0 else !bitOf (c.sysReg 0x4011) 0 && !bitOf (c.sysReg 0x8011) 0

/-- The address-size checks that come before any table (R184, R185). -/
def Core.sizeBad (c : Core) (lv : Nat) (va : W64) : Bool :=
  let on := if 2 ≤ lv then bitOf (c.sysReg 0x8013) 0 else bitOf (c.sysReg 0x4011) 0
  if on then !canonical va else fieldOf va 42 22 != 0

/-- The fault of a TLB hit from its stored rights and levels (R191, R203). -/
def TlbEntry.permFault (e : TlbEntry) (acc : Acc) (lv : Nat) (va : W64) : Option Flt :=
  let f := decide (acc = .fetch)
  if rightsMissing e.r1 acc lv then some ⟨if f then 0x10 else 0x12, 64 + e.l1, va, none⟩
  else if !e.hreg && rightsMissing e.r2 acc lv then
    some ⟨if f then 0x11 else 0x13, 64 + 4 + e.l2, va, some (BitVec.ofNat 64 (e.ipa + va.toNat % 2 ^ pageBits e.sz))⟩
  else none

/-- The checks after translation: no fetch from device memory, control space or an unmapped address (R196), and the
confidential ranges at H and M (15 R423).  `s2` is the IPA where stage 2 is enabled and stage 1 gave no device type (R200). -/
def State.afterXlate (s : State) (acc : Acc) (lv : Nat) (va : W64) (pa n : Nat) (mt : MemType) (s2 : Option Nat) (l : Nat) : Xl :=
  let mt := typeAt pa mt
  if acc = .fetch ∧ (mt = .dev ∨ inControl pa ∨ !s.mapped pa) then
    .fault ⟨if s2.isSome then 0x11 else 0x10, 128 + (if s2.isSome then 4 else 0) + l, va, s2.map (BitVec.ofNat 64)⟩
  else if 2 ≤ lv ∧ (s.confOwner pa n).isSome then .fault ⟨if acc = .fetch then 0x10 else 0x12, 112, va, none⟩
  else .ok pa mt

/-- The same, with the record of a confidential refusal of an architectural access (15 R423). -/
def State.finishXl (s : State) (arch : Bool) (acc : Acc) (lv : Nat) (part : PartId) (va : W64) (pa n : Nat) (mt : MemType)
    (s2 : Option Nat) (l : Nat) : Xl × State :=
  let s := if arch then s.force (rts 0) 1 else s
  let x := s.afterXlate acc lv va pa n mt s2 l
  let conf := match x with
    | .fault f => decide (f.sub = 112)
    | _ => false
  (x, if arch && conf then s.refuseConf pa part else s)

/-- Does the access hit a TLB entry with D at 0 that it may not use to write (R203, R207)? -/
def State.hitsClean (s : State) (n : Nat) (va : W64) (lv : Nat) : Bool :=
  let c := s.core n
  let a := va.toNat % 2 ^ 48
  (c.dtlb ++ c.l2Probe a).any (fun e => e.matches c (decide (2 ≤ lv)) a && !e.dirty)

/-- Translate an access of `n` bytes that lies in one page, for the architecture or in speculation (R183-R205, R207).  The lookups of an
access that comes back after its wait for the walker are counted once (R216). -/
def State.translate (s : State) (n : Nat) (va : W64) (acc : Acc) (lv bytes : Nat) (arch : Bool := true) : Xl × State :=
  let c := s.core n
  let fetch := decide (acc = .fetch)
  if c.sizeBad lv va then (.fault ⟨if fetch then 0x10 else 0x12, 16, va, none⟩, s)
  else if c.xlOff lv then
    let pa := va.toNat % 2 ^ 42
    s.finishXl arch acc lv c.part va pa bytes (if 2 ≤ lv then s.plainType pa else .wb) none 0
  else
    let a := va.toNat % 2 ^ 48
    let h := decide (2 ≤ lv)
    let use := fun (e : TlbEntry) => e.matches c h a && (e.dirty || !acc.writes || (e.permFault acc lv va).isSome)
    let l1 := (if fetch then c.itlb else c.dtlb).filter use
    let l2 := (c.l2Probe a).filter use
    let miss1 := l1.isEmpty
    let again := arch && decide (c.xlWait = some (va, acc))
    let s := if miss1 && !again then s.count (corePage n (if fetch then 0x140 else 0x144)) else s
    let s := if miss1 && l2.isEmpty && !again then s.count (corePage n 0x148) else s
    let cand := if miss1 then l2 else l1
    let j := if cand.length ≤ 1 then 0 else Config.place s.fresh % cand.length
    let s := if cand.length ≤ 1 then s else { s with fresh := s.fresh + 1 }
    match cand[j]? with
    | none => (.walk, if arch then s.updCore n (fun c => { c with xlWait := some (va, acc) }) else s)
    | some e =>
      let s := if miss1 then s.updCore n (fun c => c.fillL1Tlb fetch e) else s
      match e.permFault acc lv va with
      | some f => (.fault f, s)
      | none =>
        let off := a % 2 ^ pageBits e.sz
        let s2 := !h && bitOf (c.sysReg 0x8011) 0 && e.mt1 != .dev
        s.finishXl arch acc lv c.part va (e.pa + off) bytes e.mt (if s2 then some (e.ipa + off) else none) (if s2 then e.l2 else e.l1)

/-! ### The walker -/

/-- What the walk of a core reads (R195, 15 R423). -/
def State.walkEnv (s : State) (n : Nat) (va : W64) (acc : Acc) (lv : Nat) : WalkEnv :=
  let c := s.core n
  { s1root := c.sysReg 0x4010, s1ctl := c.sysReg 0x4011, s2root := c.sysReg 0x8010, s2ctl := c.sysReg 0x8011,
    hxroot := c.sysReg 0x8012, hxctl := c.sysReg 0x8013, vtop := s.mem.vtop
    barred := fun pa => match s.confOwner pa 8 with
      | some o => decide (2 ≤ lv) || o != c.part.toNat
      | none => false
    va := va, fetch := decide (acc = .fetch) }

/-- Start a walk, once the walker is free (R197): nothing else of the instruction happens yet. -/
def State.startWalk (s : State) (n : Nat) (va : W64) (acc : Acc) (lv sz : Nat) : State :=
  s.updCore n (fun c => { c with walk := c.walk.or (some ⟨va, acc, lv, sz, [], false⟩) })

/-- The walker takes an entry in (R201, R202). -/
def State.walkDone (s : State) (n : Nat) (w : Walk) (e : TlbEntry) : State :=
  (s.updCore n (fun c => { c.installTlb (decide (w.acc = .fetch)) e with walk := none })).count (corePage n 0x14C)

/-- A walk is abandoned; nothing is raised (R207, R216). -/
def State.walkDrop (s : State) (n : Nat) : State := (s.updCore n (fun c => { c with walk := none })).count (corePage n 0x150)

/-- A speculative walk goes on as far as the L2 holds its table entries, and then waits; a fault, an update or poison ends it (06 R174;
R207).  Answers whether it has installed its entry. -/
def State.specWalk (s : State) (n : Nat) (w : Walk) : Nat → Bool × State
  | 0 => (false, s.updCore n (fun c => { c with walk := some w }))
  | fuel + 1 =>
    match (s.walkEnv n w.va w.acc w.lv).run w.acc w.lv w.replies with
    | .ok e => (true, s.walkDone n w e)
    | .error (.read pa _ _) =>
      match s.walkLine n (pa / 64) false with
      | (none, s) => (false, s.updCore n (fun c => { c with walk := some w }))
      | (some (d, p), s) =>
        let v := BitVec.ofNat 64 (leNat (((lineBytes d).drop (pa % 64)).take 8))
        s.specWalk n { w with replies := w.replies ++ [if p then .poison else .word v] } fuel
    | .error _ => (false, s.walkDrop n)

/-- Accesses that one walk makes at most, both stages on (R198). -/
def walkFuel : Nat := 32

/-- A speculative access that misses in both TLBs starts a walk if the walker is free (06 R174). -/
def State.walkAhead (s : State) (n : Nat) (va : W64) (acc : Acc) (lv : Nat) : Bool × State :=
  if (s.core n).walk.isSome then (false, s) else s.specWalk n ⟨va, acc, lv, 0, [], true⟩ walkFuel

/-- The bytes that a TLBI's operand and scope match (R109, R212, R213).  `h`: the TLBI acts on H-regime entries. -/
structure TlbiOp where
  scope : Nat
  h : Bool
  vmid : W16
  a : W64
  deriving DecidableEq, Repr

/-- Does a TLBI match an entry (R109, R212, R213)? -/
def TlbiOp.hits (t : TlbiOp) (e : TlbEntry) : Bool :=
  let page := e.va / 2 ^ pageBits e.sz == fieldOf t.a 12 36 * 4096 / 2 ^ pageBits e.sz
  let asid := e.asid == BitVec.ofNat 16 (fieldOf t.a 48 16)
  if t.scope = 6 then true
  else if t.scope = 5 then !e.hreg && e.vmid == BitVec.ofNat 16 (fieldOf t.a 0 16)
  else if t.scope = 4 then
    !e.hreg && e.vmid == t.vmid && e.ipa / 2 ^ pageBits e.ipaSz == fieldOf t.a 12 30 * 4096 / 2 ^ pageBits e.ipaSz
  else if t.h then e.hreg && (decide (2 ≤ t.scope) || page)
  else
    !e.hreg && e.vmid == t.vmid &&
      (match t.scope with
       | 0 => page && (asid || e.glob)
       | 1 => page
       | 2 => asid && !e.glob
       | _ => true)

/-- What the table reads of an abandoned walk bring is discarded (R214). -/
def State.dropTableReads (s : State) (n : Nat) : State :=
  let s := s.updCore n (fun c => { c with given := c.given.filter (fun g => g.un || g.fetch) })
  { s with coh := { s.coh with misses := s.coh.misses.map (fun m => if m.core = n ∧ m.hint = 4 then { m with hint := 5 } else m) } }

/-- A core performs a TLBI: matching entries go, a walk in progress is abandoned (R110, R212, R214). -/
def State.performTlbi (s : State) (n : Nat) (t : TlbiOp) : State :=
  let s := s.count (corePage n 0x154)
  let s := if (s.core n).walk.isSome then (s.walkDrop n).dropTableReads n else s
  s.updCore n (fun c => { c with
    itlb := c.itlb.filter (fun e => !t.hits e), dtlb := c.dtlb.filter (fun e => !t.hits e)
    l2tlb := c.l2tlb.filter (fun x => match x.2 with
      | some e => !t.hits e
      | none => false) })

end Sys2Proof.Machine
end

