-- ==== Sys2Proof/Machine/Oz.lean ====
section
/-! DEFINITION. The Ozhorn-64 core as a machine that issues instructions: exceptions and interrupts (04 R99-R105, 12
R341-R346), fetch, retirement, and the log that drives a shadow (09 R252-R256). -/

namespace Sys2Proof.Machine

/-! ### Registers -/

/-- A general register; g0 reads 0 (04 R70). -/
def Core.gr (c : Core) (i : Nat) : W64 := if i = 0 then 0 else SMap.get 0 c.g i

/-- Write a general register; a write to g0 is discarded (04 R70). -/
def Core.setG (c : Core) (i : Nat) (v : W64) : Core := if i = 0 then c else { c with g := SMap.set 0 c.g i v }

/-- An f register (04 R71). -/
def Core.fr (c : Core) (i : Nat) : W128 := SMap.get 0 c.f i
def Core.setF (c : Core) (i : Nat) (v : W128) : Core := { c with f := SMap.set 0 c.f i v }

/-- STATUS (04 R72). -/
def Core.status (c : Core) : W64 := c.sysReg 0

/-! ### Exceptions -/

/-- A synchronous exception (04 R99): its cause code, default level, CAUSE.SUB and INFO, FAR, FAR2_H where it is written, and
CAUSE.WR and SZ. -/
structure Exc where
  code : Nat
  level : Nat := 1
  sub : Nat := 0
  info : Nat := 0
  far : W64 := 0
  far2 : Option W64 := none
  wr : Bool := false
  sz : Nat := 0
  deriving DecidableEq, Repr

/-- ILL with a reason (04 R99). -/
def ill (sub : Nat) : Exc := { code := 1, sub := sub }

/-- PRIV at a level; at M it is ILL with SUB 6 (04 R100). -/
def privExc (level info : Nat) : Exc :=
  if level = 3 then { code := 1, sub := 6, info := info } else { code := 2, level := level + 1, info := info }

/-- TRAP of a control: SCTL_S traps to S, HCTL to H (04 R99). -/
def trapExc (level bit : Nat) : Exc := { code := 9, level := level, info := bit }

/-- The default level of a cause code (04 R99), for a core at level `cur`; `info` tells SCTL_S.UTD from the controls of
HCTL. -/
def causeLevel (code cur info : Nat) : Nat :=
  match code with
  | 0x02 => cur + 1 | 0x06 => 2 | 0x07 => 3 | 0x09 => if info = 0 then 1 else 2 | 0x0A => cur | 0x0B => cur + 1
  | 0x11 => 2 | 0x13 => 2 | 0x14 => 2 | 0x18 => 2 | _ => 1

/-- A translation fault as an exception (07 R199, R200). -/
def Flt.exc (f : Flt) (wr : Bool) (sz : Nat) : Exc :=
  { code := f.cause, level := causeLevel f.cause 0 0, sub := f.sub, far := f.far, far2 := f.far2, wr := wr, sz := sz }

/-- The CAUSE word (04 R102). -/
def Exc.word (x : Exc) : W64 :=
  BitVec.ofNat 64 (x.code + 256 * x.sub + 65536 * b2n x.wr + 131072 * x.sz + 4294967296 * (x.info % 65536))

/-- The system registers of a level: EPC, ESTAT, CAUSE, FAR, VBAR at 0 to 4 (04 R76). -/
def lvlReg (t k : Nat) : Nat := 0x4000 * t + k

/-- ESTAT as an entry writes it (04 R102). -/
def estatOf (status : W64) (level : Nat) : W64 := BitVec.ofNat 64 (65536 * fieldOf status 0 16 + level)

/-- Entry to level `t`: the steps of R102, with the vector offset of R101. -/
def Core.enter (c : Core) (t : Nat) (ret cause far : W64) (far2 : Option W64) (off : Nat) : Core :=
  let st := c.status
  let c := (((c.setSys (lvlReg t 0) ret).setSys (lvlReg t 1) (estatOf st c.level.val)).setSys (lvlReg t 2) cause).setSys (lvlReg t 3) far
  let c := match far2 with
    | some a => c.setSys 0x8007 a
    | none => c
  let c := c.setSys 0 (putBit st 8 false)
  { c.settled.redirect with level := Fin.ofNat 4 t, pc := c.sysReg (lvlReg t 4) + BitVec.ofNat 64 off, vec := true }

/-- A write to PL_CTL takes effect at an exception entry, RETI or PSWITCH (06 R181). -/
def State.applyPl (s : State) (n : Nat) : State := s.updCore n (fun c => { c with pl := s.reg (corePage n 0x100) })

/-- Vector offset of a synchronous exception taken at `t` from level `cur` (04 R101). -/
def syncOffset (t cur : Nat) : Nat := if t = cur then 0 else 0x80

/-- A core takes a synchronous exception whose CAUSE word, FAR and FAR2_H are given (04 R100-R102).  A primary logs it, or sends
the snapshot that is due (09 R249, R253). -/
def State.enterSync (s : State) (n t : Nat) (ret : W64) (cause far : W64) (far2 : Option W64) : State :=
  let s := s.force (corePage n 0) 3
  let cur := (s.core n).level.val
  let s := (s.updCore n (fun c => c.enter t ret cause far far2 (syncOffset t cur))).applyPl n
  let b := (s.core n).bunk
  if b.bound && b.due then s.sendSnapshot n
  else s.logRec n true
    [ctlSlot 2 b.brpos (4294967296 * fieldOf cause 0 8), cause, far, (s.core n).sysReg 0x8007]

/-- A core raises an exception: double faults under R105, the others at the greater of their level and the current one
(R100). -/
def State.raiseExc (s : State) (n : Nat) (x : Exc) : State :=
  let c := s.core n
  let cur := c.level.val
  if c.vec then
    if cur = 3 then (s.updCore n (fun c => { c with run := .dead })).raise (corePage n 0) 3
    else
      let d : Exc := { code := 0x0B, info := x.code, far := x.far }
      s.enterSync n (cur + 1) c.pc d.word d.far none
  else s.enterSync n (max x.level cur) c.pc x.word x.far x.far2

/-! ### Interrupts -/

/-- Target level of event level `k` (04 R104). -/
def Core.target (c : Core) (k : Nat) : Nat := fieldOf (c.sysReg 0x8009) (2 * k) 2

/-- Is any bit of level `k` active? -/
def Core.levelActive (c : Core) (k : Nat) : Bool := (List.range 16).any (fun w => c.sysReg (evAct k w) != 0)

/-- Is level `k` deliverable to a core that runs at `lv` (12 R341)?  `free` is a level whose hold counts as 0. -/
def Core.deliverable (c : Core) (lv : Nat) (free : Option Nat) (k : Nat) : Bool :=
  let t := c.target k
  c.levelReady k
    && (List.range 4).all (fun j => decide (j < k) || !c.levelActive j)
    && !bitOf (c.sysReg 0x8100) 0
    && !(t = 1 && bitOf (c.sysReg 0x4200) 0)
    && decide (lv ≤ t)
    && (lv != t || free = some t || !bitOf (c.sysReg 0x8101) t)
    && !(c.bunk.bound && c.bunk.shadow)

/-- The highest deliverable level (12 R341). -/
def Core.highest (c : Core) (lv : Nat) (free : Option Nat) : Option Nat :=
  [3, 2, 1, 0].find? (fun k => c.deliverable lv free k)

/-- The hold of level `t` (12 R333 EVHOLD). -/
def Core.setHold (c : Core) (t : Nat) (v : Bool) : Core := c.setSys 0x8101 (putBit (c.sysReg 0x8101) t v)

/-- CAUSE of an interrupt. -/
def intCause (k : Nat) : W64 := BitVec.ofNat 64 (0x20 + k)
def intOffset (k : Nat) : Nat := 0x100 + 0x80 * k

/-- An entry for event level `k`: a full one (12 R343), or the redirect of an entry to the same target whose handler has not
issued (12 R344). -/
def Core.enterInt (c : Core) (k : Nat) : Core :=
  let t := c.target k
  match c.entered with
  | some _ =>
    if c.level.val = t then
      let c := c.setSys (lvlReg t 2) (putField (c.sysReg (lvlReg t 2)) 0 8 (0x20 + k))
      { c.redirect with pc := c.sysReg (lvlReg t 4) + BitVec.ofNat 64 (intOffset k), entered := some (Fin.ofNat 4 k) }
    else { (c.enter t c.pc (intCause k) 0 none (intOffset k)).setHold t true with entered := some (Fin.ofNat 4 k) }
  | none => { (c.enter t c.pc (intCause k) 0 none (intOffset k)).setHold t true with entered := some (Fin.ofNat 4 k) }

/-- A primary logs an interrupt entry (09 R253). -/
def State.logInt (s : State) (n k : Nat) : State :=
  s.logRec n true [ctlSlot 1 (s.core n).bunk.brpos (281474976710656 * k)]

/-- A core enters level `k`. -/
def State.enterInt (s : State) (n k : Nat) : State :=
  let s := s.force (corePage n 0) 3
  ((s.updCore n (fun c => c.enterInt k)).applyPl n).logInt n k

/-- The level that an interrupt entry would take now: with a handler that has not issued, only a higher one, whatever the new
hold says (12 R341, R344). -/
def Core.nextInt (c : Core) : Option Nat :=
  match c.entered with
  | none => c.highest c.level.val none
  | some k =>
    match c.highest c.level.val (some (c.target k.val)) with
    | some j => if k.val < j then some j else none
    | none => none

/-- A chained entry in the place of a RETI at `t` that would return to `p` (12 R346). -/
def Core.chain (c : Core) (k p : Nat) : Core :=
  let t := c.level.val
  let t2 := c.target k
  let c := if t2 = t then c
    else
      let e := c.sysReg (lvlReg t 0)
      let st := BitVec.ofNat 64 (65536 * fieldOf (c.sysReg (lvlReg t 1)) 16 16 + p)
      (c.setSys (lvlReg t2 0) e).setSys (lvlReg t2 1) st
  let c := ((c.setSys (lvlReg t2 2) (intCause k)).setSys (lvlReg t2 3) 0).setHold t2 true
  let c := c.setSys 0 (putBit c.status 8 false)
  { c.redirect with
    level := Fin.ofNat 4 t2, pc := c.sysReg (lvlReg t2 4) + BitVec.ofNat 64 (intOffset k), vec := true,
    entered := some (Fin.ofNat 4 k) }

/-! ### The shadow's log (09 R255, R256) -/

/-- Is core `n` bound as a shadow? -/
def Core.isShadow (c : Core) : Bool := c.bunk.bound && c.bunk.shadow
/-- Is it bound as a primary that still sends? -/
def Core.isPrimary (c : Core) : Bool := c.bunk.bound && !c.bunk.shadow

/-- A core takes an interrupt as its log says. -/
def State.replayInt (s : State) (n k : Nat) : State := (s.updCore n (fun c => c.enterInt k)).applyPl n

/-- A core takes an exception as its log says: the level follows from the cause (04 R99, R100). -/
def State.replayExc (s : State) (n : Nat) (cause far far2 : W64) : State :=
  let c := s.core n
  let cur := c.level.val
  let t := max (causeLevel (fieldOf cause 0 8) cur (fieldOf cause 32 16)) cur
  (s.updCore n (fun c => c.enter (min 3 t) c.pc cause far (some far2) (syncOffset t cur))).applyPl n

/-- What one look at the log's head does: whether there is more to do, and the state.  With `sigs` only comparisons are
made. -/
def State.logStep (s : State) (n : Nat) (sigs : Bool) : Bool × State :=
  let c := s.core n
  let b := c.bunk
  match b.head with
  | .empty => (false, s.logOut n)
  | .bad => (false, s.diverge n)
  | .slot w ctl rest =>
    if !ctl then (false, s)
    else
      let at_ := fieldOf w 0 32
      let own := fieldOf b.brpos 0 32
      if at_ ≠ own then (false, if (own + 4294967296 - at_) % 4294967296 < 2147483648 then s.diverge n else s)
      else
        match fieldOf w 60 4 with
        | 1 =>
          if sigs then (false, s) else
            if c.run = .ready then (true, (s.eatSlots n 1).replayInt n (fieldOf w 48 2)) else (false, s.diverge n)
        | 2 =>
          if sigs then (false, s) else
            match rest with
            | cause :: far :: far2 :: _ =>
              if c.run = .ready then (true, (s.eatSlots n 4).replayExc n cause far far2) else (false, s.diverge n)
            | _ => (false, s.diverge n)
        | 3 =>
          match rest with
          | ps :: pb :: _ => (true, (s.eatSlots n 3).compareSigs n ps pb false)
          | _ => (false, s.diverge n)
        | 4 =>
          match rest with
          | ps :: pb :: _ => (true, (s.eatSlots n 3).compareSigs n ps pb true)
          | _ => (false, s.diverge n)
        | 5 =>
          match c.run with
          | .waiting _ seq => (true, (s.eatSlots n 1).completeWait n seq)
          | _ => (false, s)
        | 6 => (false, (s.eatSlots n 1).updBunk n (fun b => { b with halted := true, bound := false }))
        | _ => (false, s.diverge n)

/-- A shadow works off the control records that it has reached. -/
def State.pumpLog (s : State) (n : Nat) (sigs : Bool) : Nat → State
  | 0 => s
  | fuel + 1 =>
    let b := (s.core n).bunk
    if !(b.bound && b.shadow && b.loaded) || b.halted then s
    else
      match s.logStep n sigs with
      | (true, s) => s.pumpLog n sigs fuel
      | (false, s) => s

/-- The number of records that a shadow's log can hold. -/
def State.logFuel (s : State) (n : Nat) : Nat := 7 * (s.core n).bunk.lines.length + 1

/-- The drawers of a cell's save image, 16 doublewords each, up to the event state: the snapshot and 5 zeros, then EVEN, EVACT, EVPEND and the
HELD flags of levels 0 to 3, EVSCTL, EVHCTL, EVHOLD and 13 zeros (17 R476); the core page's registers follow. -/
def Core.cellDrawers (c : Core) : List (List W64) :=
  let words := fun (f : Nat → Nat → W64) => (List.range 4).map (fun k => (List.range 16).map (f k))
  let first := c.snapshot ++ List.replicate 5 0
  (List.range 9).map (fun i => (first.drop (16 * i)).take 16)
    ++ words (fun k w => c.sysReg (evEn k w)) ++ words (fun k w => c.sysReg (evAct k w)) ++ words (fun k w => c.sysReg (evPend k w))
    ++ words c.heldWord
    ++ [[c.sysReg 0x4200, c.sysReg 0x8100, c.sysReg 0x8101] ++ List.replicate 13 0]

/-- The first of a domain's drawers, and how many it has (17 R474). -/
def domDrawers (d : Nat) : Nat × Nat :=
  if d < 192 then (32 * d, 32)
  else if d < 216 then (6144 + 48 * (d - 192), 48)
  else if d < 248 then (7296 + 24 * (d - 216), 24)
  else if d < 264 then (8064 + 32 * (d - 248), 32)
  else if d < 268 then (8576 + 320 * (d - 264), 320)
  else if d < 270 then (9856 + 64 * (d - 268), 64)
  else if d = 270 then (9984, 1280)
  else if d < 279 then (11264 + 16 * (d - 271), 16)
  else if d = 279 then (11392, 64)
  else if d < 284 then (11456 + 16 * (d - 280), 16)
  else if d < 288 then (11520 + 32 * (d - 284), 32)
  else (11648 + 8 * (d - 288), 8)

/-- The doublewords of a snapshot (09 R249). -/
def snapLength : Nat := 139

/-- A shadow that has the whole snapshot and has drained its store buffer loads it and begins at its PC, at BRPOS 0 (09 R249). -/
def State.readyShadow (s : State) (n : Nat) : State :=
  let c := s.core n
  if c.isShadow && !c.bunk.loaded && decide (snapLength ≤ c.bunk.snap.length) && c.sb.isEmpty then
    let s := (s.updCore n (fun c => c.loadSnapshot c.bunk.snap)).updBunk n (fun b => { b with snap := [], loaded := true, brpos := 0 })
    s.pumpLog n false (s.logFuel n)
  else s

/-- A shadow consumes the next data record of `k` doublewords. -/
def State.takeData (s : State) (n k : Nat) : Option (List W64 × State) :=
  match (s.core n).bunk.head with
  | .slot w false rest =>
    if k - 1 ≤ rest.length then some (w :: rest.take (k - 1), s.eatSlots n k) else none
  | _ => none

/-! ### Retirement -/

/-- An instruction retires: the PC moves on as `f` says, and everything that counts retirements follows. -/
def State.retireBy (s : State) (n : Nat) (f : Core → Core) : State :=
  (((s.updCore n (fun c => (f c).settled)).useLast n).retired n).bunkRetire n

/-- The same, after which a shadow works off its log. -/
def State.retireInsn (s : State) (n : Nat) (f : Core → Core) : State :=
  let s := s.retireBy n f
  if (s.core n).isShadow then s.pumpLog n false (s.logFuel n) else s

/-- What an instruction's own effect asks of the core. -/
inductive Eff where
  /-- It cannot complete yet: the state as it stands, and the instruction is to be issued again. -/
  | wait (s : State)
  /-- It retires, and the next instruction follows, after any loop-back. -/
  | next (s : State)
  /-- It retires without a loop-back (04 R107). -/
  | hold (s : State)
  /-- It retires as a taken branch. -/
  | jump (s : State) (target : W64)
  /-- It raises an exception and does not retire. -/
  | trap (s : State) (x : Exc)
  /-- It retires, and then its own exception is taken (SYSC). -/
  | call (s : State) (x : Exc)
  /-- Everything has been done. -/
  | done (s : State)

/-- SYSC on a shadow: it retires and its log must hold the exception; otherwise the pair has diverged (09 R256).  With the
record not arrived, nothing happens yet. -/
def State.shadowCall (s s0 : State) (n : Nat) (seq : W64) : State :=
  let s := s.retireBy n (fun c => c.loopBack seq)
  let s := s.pumpLog n true (s.logFuel n)
  match (s.core n).bunk.head with
  | .empty => if (s.core n).bunk.halted then s else s0
  | .slot w true _ =>
    if fieldOf w 60 4 = 2 && fieldOf w 0 32 = fieldOf (s.core n).bunk.brpos 0 32 then s.pumpLog n false (s.logFuel n)
    else s.diverge n
  | _ => s.diverge n

/-- Carry out what an instruction asks; `s0` is the state before it, `seq` the next sequential address. -/
def State.carry (s0 : State) (n : Nat) (seq : W64) (e : Eff) : State :=
  let shadow := (s0.core n).isShadow
  match e with
  | .wait s => s
  | .next s => s.retireInsn n (fun c => c.loopBack seq)
  | .hold s => s.retireInsn n (fun c => { c with pc := seq })
  | .jump s t => s.retireInsn n (fun c => { c with pc := t })
  | .trap s x => if shadow then s0.diverge n else s.raiseExc n x
  | .call s x =>
    if shadow then s.shadowCall s0 n seq else (s.retireBy n (fun c => c.loopBack seq)).raiseExc n x
  | .done s => s

/-! ### Fetch -/

/-- What fetching the bytes of an instruction answers. -/
inductive Fetched where
  | ok | wait | exc (x : Exc)
  deriving DecidableEq, Repr

/-- POISON for a load or a fetch (04 R99; 08 R233). -/
def poisonExc (a : W64) (wr : Bool) (sz : Nat) : Exc := { code := 0x18, level := 2, far := a, wr := wr, sz := sz }

/-- The destination of an access: none where the address is unmapped (10 R269). -/
def State.destOf (s : State) (pa : Nat) : Option (Nat × Nat) :=
  if s.isDram pa then some (sliceRouter (homeSlice pa), 0) else if s.mapped pa then ioDest pa else none

/-- The tag of the next request of a core. -/
def State.nextTag (s : State) : W16 := s.net.tag

/-- Hold a request that has no destination until it times out (02 R21; 10 R269).  TOUT is forced at it like at any other (18
R504). -/
def State.holdRequest (s : State) (r : Nat) (p : Packet) : State :=
  let s := s.force (routerPage r 0) 0
  let p := { p with tag := s.net.tag, src := BitVec.ofNat 7 r, srcp := 0 }
  { s with net := { s.net with tag := s.net.tag + 1, outs := s.net.outs ++ [p] } }

/-- Send a core's request to an address. -/
def State.sendTo (s : State) (n pa : Nat) (p : Packet) : State :=
  match s.destOf pa with
  | some (r, q) => s.request (benchRouter n) 0 { p with dst := BitVec.ofNat 7 r, dstp := Fin.ofNat 8 q, addr := BitVec.ofNat 42 pa }
  | none => s.holdRequest (benchRouter n) { p with addr := BitVec.ofNat 42 pa }

/-- Ask for bytes of one line outside the caches, as data or as a block of instructions. -/
def State.sendRead (s : State) (n pa len : Nat) (fetch spec : Bool := false) : State :=
  let tag := s.nextTag
  let s := s.sendTo n pa
    { op := if inControl pa then opRdCs else opRdNc, part := (s.core n).part, size := BitVec.ofNat 6 (len - 1), spec := spec }
  s.updCore n (fun c => { c with ext := c.ext ++ [{ addr := pa, tag := tag, got := none, fetch := fetch }] })

/-- Do the caches serve the part: normal write-back memory in visible DRAM? -/
def State.cached (s : State) (mt : MemType) (pa : Nat) : Bool := mt = .wb && s.isDram pa

/-- The first byte of the aligned block of 16 that holds an address (06 R152). -/
def blockOf (va : W64) : W64 := BitVec.ofNat 64 (va.toNat / 16 * 16)

/-- Fetch a block that the caches do not serve: its poison mark once the read has been answered (06 R152). -/
def State.fetchOut (s : State) (n pa : Nat) (arch : Bool) : Option Bool × State :=
  match (s.core n).ext.find? (fun x => x.fetch && x.addr == pa) with
  | some x =>
    match x.got with
    | some g => (some g.2, s.updCore n (fun c => { c with ext := c.ext.filter (fun y => !(y.fetch && y.addr == pa)) }))
    | none => (none, s)
  | none => (none, s.sendRead n pa 16 true (!arch))

/-- F1 and F2: fetch the block that holds `va` into the prefetch queue, for an instruction that is wanted or ahead of it (06 R152-R154;
07 R196, R207; 15 R423).  A fault, a walk or a refusal leaves nothing in the queue. -/
def State.fetchBlock (s : State) (n : Nat) (va : W64) (arch : Bool) : Fetched × State :=
  let c := s.core n
  let lv := c.level.val
  let len := 16 - va.toNat % 16
  match s.translate n va .fetch lv len arch with
  | (.fault f, s) => (.exc (f.exc false 0), s)
  | (.walk, s) => (.wait, if arch then s.startWalk n va .fetch lv 0 else (s.walkAhead n va .fetch lv).2)
  | (.ok pa mt, s) =>
    let barred := match s.confOwner pa len with
      | some o => o != c.part.toNat
      | none => false
    if barred then (.exc (poisonExc va false 0), if arch then s.refuseConf pa c.part else s)
    else
      let r := if s.cached mt pa then s.fetchLine n va.toNat (pa / 64) arch else s.fetchOut n (pa / 16 * 16) arch
      match r with
      | (none, s) => (.wait, s.updCore n (fun c => { c with fetchWait := some (pa / 64) }))
      | (some bad, s) =>
        (.ok, s.updCore n (fun c => { c with
          queue := c.queue ++ [⟨blockOf va, bad⟩], fetchWait := if c.fetchWait = some (pa / 64) then none else c.fetchWait }))

/-- Have the block that holds `va` in the queue, and report its poison where the instruction that is wanted lies in it; FAR is the lowest
byte of the instruction, or of its part in a second page (04 R99; 08 R233).  CAUSE.SZ of a fetch is 0 (DESIGN CHOICE, assumption log 82). -/
def State.needBlock (s : State) (n : Nat) (va : W64) : Fetched × State :=
  let judge := fun (s : State) => match (s.core n).queue.find? (fun b => b.va == blockOf va) with
    | some b => if b.poison then Fetched.exc (poisonExc (if va.toNat % 4096 = 0 then va else (s.core n).pc) false 0) else .ok
    | none => .ok
  if (s.core n).queue.any (fun b => b.va == blockOf va) then (judge s, s)
  else
    match s.fetchBlock n va true with
    | (.ok, s) => (judge s, s)
    | r => r

/-- Blocks that D1 has used up leave the queue. -/
def Core.trimQueue (c : Core) : Core := { c with queue := c.queue.dropWhile (fun b => b.va != blockOf c.pc) }

/-- Fetch the bytes of an instruction, the lower-addressed first (04 R103; 06 R152). -/
def State.fetchInsn (s : State) (n len : Nat) : Fetched × State :=
  let s := s.updCore n Core.trimQueue
  let pc := (s.core n).pc
  let next := blockOf pc + 16
  match s.needBlock n pc with
  | (.ok, s) => if pc.toNat % 16 + len ≤ 16 then (.ok, s) else s.needBlock n next
  | r => r

/-! ### Fetch ahead (06 R152-R154, R160, R165) -/

/-- Blocks of the prefetch queue. -/
def queueSize : Nat := 8

/-- Where the front end fetches after `va`: its own copies of the loop registers take it back from LEND to LSTART (06 R165). -/
def frontNext (c : Core) (va : W64) (count : W64) : W64 × W64 :=
  let stop := blockOf va + 16
  let lend := c.sysReg 4
  if bitOf c.status 8 && count != 0 && decide (va < lend) && decide (lend ≤ stop) then
    if count = 1 then (stop, 0) else (c.sysReg 3, count - 1)
  else (stop, count)

/-- The addresses of the next blocks from `va` on. -/
def frontPath (c : Core) (va count : W64) : Nat → List W64
  | 0 => []
  | k + 1 =>
    let x := frontNext c va count
    va :: frontPath c x.1 x.2 k

/-- Fetch goes on along a path until the queue is full, a block waits or a block cannot be fetched. -/
def State.fetchAhead (s : State) (n : Nat) : List W64 → State
  | [] => s
  | va :: rest =>
    match s.fetchBlock n va false with
    | (.ok, s) => s.fetchAhead n rest
    | (.wait, s) => s
    | (.exc _, s) => s.updCore n (fun c => { c with stuck := true })

/-- Where fetch goes after an instruction: on sequentially, at the target that D1 predicts, or nowhere until the instruction is resolved
(06 R160, R163, R164). -/
inductive Path where
  | on | at_ (t : W64) | stop
  deriving DecidableEq, Repr

/-- Fill the queue of core `n` from `va` on, as far as the queue does not hold these blocks (06 R152; assumption log 83). -/
def State.fillQueue (s : State) (n : Nat) (va : W64) : State :=
  let c := s.core n
  if c.stuck || c.walk.isSome then s
  else s.fetchAhead n ((frontPath c va (c.sysReg 2) queueSize).drop c.queue.length)

/-- Fetch goes on after an instruction whose bytes are in the queue, while it executes: on a wrong path it leaves behind what it read (06
R160, R177). -/
def State.follow (s : State) (n : Nat) (p : Path) : State :=
  match p with
  | .on => s.fillQueue n (s.core n).pc
  | .at_ t => (s.updCore n Core.redirect).fillQueue n t
  | .stop => s.updCore n Core.redirect

/-- Is the initialisation of the direction counters in progress (06 R182)? -/
def State.pclrb (s : State) (n : Nat) : Bool := s.bit (corePage n 0x108) 0

/-- The direction counter of an address; every counter starts at 0b01 (06 R163, R182). -/
def Core.counter (c : Core) (pc : W64) : BitVec 2 := SMap.get 1 c.pred (fieldOf pc 0 14)

/-- Does the prediction take the conditional branch at the PC (06 R163)? -/
def State.predicts (s : State) (n : Nat) : Bool :=
  let c := s.core n
  bitOf c.pl 0 && !s.pclrb n && decide (2 ≤ (c.counter c.pc).toNat)

/-- The target of a branch with a displacement (04 R89). -/
def Insn.dest (i : Insn) (seq : W64) : W64 := seq + BitVec.ofInt 64 i.imm

/-- Where D1 sends fetch after an instruction (06 R160, R163, R164).  After one that changes what a fetch means, fetch starts again when it
has retired (04 R108, R113; 07 R187; DESIGN CHOICE, assumption log 83). -/
def State.pathOf (s : State) (n : Nat) (i : Insn) (seq : W64) : Path :=
  let guess := fun b => if b then Path.at_ (i.dest seq) else .on
  match i.op with
  | .b | .bl => guess true
  | .bc => guess (i.b % 16 = 7 || s.predicts n)
  | .cbz | .cbnz => guess (s.predicts n)
  | .ret =>
    match (if bitOf (s.core n).pl 1 then (s.core n).rstack.head? else none) with
    | some t => .at_ t
    | none => .stop
  | .jr | .jlr | .loop | .mts | .pswitch | .reti | .tlbsync | .svc | .hvc | .mvc | .brk => .stop
  | .fence => if (i.imm % 256).toNat = 3 then .stop else .on
  | _ => .on

/-- The front end's work for an instruction: its bytes come into the queue, and fetch goes on along the predicted path. -/
def State.fetchFor (s : State) (n : Nat) (i : Insn) : Fetched × State :=
  match s.fetchInsn n i.len with
  | (.ok, s) => (.ok, s.follow n (s.pathOf n i ((s.core n).pc + BitVec.ofNat 64 i.len)))
  | r => r

/-- How many bytes the decoder examines (04 R535). -/
def examined (bytes : List Byte) : Nat :=
  match firstWhere (bytes.length + 1) (fun k => decide (ozDecode (bytes.take k) ≠ .short)) with
  | some k => k
  | none => bytes.length

/-! ### Issue -/

/-- Is the core released, powered, ready and running (15 R410; 17 R469; 02 R31; 04 R105, R111)?  In a stop it completes what has
issued (17 R468). -/
def State.coreRuns (s : State) (n : Nat) : Bool :=
  (s.domState n = 3 || (s.domState n = 2 && (decide (0 < s.power.selfLeft) || (s.core n).issued))) && s.bit (corePage n 0x10) 1
    && s.enabled (corePage n 0) && s.bit (rts 0x44) 0 && !s.bit (rts 0x44) 1
    && !(match (s.core n).run with | .dead => true | _ => false)

/-- Does the walker work for an access of the architecture, which waits for it (07 R197)? -/
def Core.walks (c : Core) : Bool :=
  match c.walk with
  | some w => !w.spec
  | none => false

/-- Is the core at an instruction boundary where it could go on: not in WAIT, run-ahead or a walk (06 R175, R179; 07 R197)? -/
def State.atBoundary (s : State) (n : Nat) : Bool :=
  let c := s.core n
  s.coreRuns n && c.run = .ready && c.ra.isNone && !c.walks && !c.bunk.halted && !(c.isShadow && !c.bunk.loaded)

/-- May the core issue an instruction now: a load under a partial overlap waits (06 R167)? -/
def State.mayIssue (s : State) (n : Nat) : Bool :=
  let c := s.core n
  s.atBoundary n && c.replay.isEmpty

/-- An interrupt is deliverable and must be entered before the next instruction (04 R103); a load or atomic that has issued
completes first (06 R179). -/
def Core.mustEnter (c : Core) : Bool :=
  c.entered.isNone && !c.issued && (c.highest c.level.val none).isSome

/-- A shadow waits while its next record has not arrived, and diverges on a WAKE that its instruction does not expect (09
R256, R260). -/
inductive LogGate where
  | go | wait | diverge
  deriving DecidableEq, Repr

/-- May the shadow's next instruction execute? -/
def Core.logGate (c : Core) (isWait : Bool) : LogGate :=
  if !c.isShadow then .go
  else
    match c.bunk.head with
    | .empty => .wait
    | .bad => .diverge
    | .slot w ctl _ =>
      let wake := ctl && fieldOf w 60 4 = 5 && fieldOf w 0 32 = fieldOf c.bunk.brpos 0 32
      if wake = isWait then .go else .diverge

/-- The effect of one decoded instruction on core `n`, whose next sequential address is given. -/
abbrev Sem := Nat → Insn → W64 → State → Eff

/-- Execute a decoded instruction whose bytes have been fetched. -/
def State.execInsn (s : State) (n : Nat) (i : Insn) (f : Sem) : State :=
  let seq := (s.core n).pc + BitVec.ofNat 64 i.len
  s.carry n seq (f n i seq s)

/-- Issue an instruction: its fetch, its decoding and its effect, with the exceptions of each in the order of R103. -/
def State.issue (s : State) (n : Nat) (bytes : List Byte) (is : Insn → Bool) (f : Sem) : Out :=
  if s.stalled then .next s
  else
  let s := s.readyShadow n
  if !s.mayIssue n || (s.core n).mustEnter then .next s
  else if s.stalledPrimary n then .next (s.count (corePage n 0x180))
  else
    match ozDecode bytes with
    | .short => .next s
    | .ill k =>
      match (s.core n).logGate false with
      | .wait => .next s
      | .diverge => .next (s.diverge n)
      | .go =>
        .next (match s.fetchInsn n (examined bytes) with
          | (.ok, t) => s.carry n 0 (.trap t (ill k))
          | (.wait, t) => t
          | (.exc x, t) => s.carry n 0 (.trap t x))
    | .ok i =>
      if !is i then .refused .otherEncoding
      else
        match (s.core n).logGate (i.op = .wait) with
        | .wait => .next s
        | .diverge => .next (s.diverge n)
        | .go =>
          .next (match s.fetchFor n i with
            | (.ok, t) => t.execInsn n i f
            | (.wait, t) => t
            | (.exc x, t) => s.carry n 0 (.trap t x))

/-- An Ozhorn-64 row of one operation. -/
def ozRow (n : Fin 192) (bytes : List Byte) (op : OzOp) (f : Sem) (s : State) : Out :=
  s.issue n.val bytes (fun i => i.op = op) f

/-! ### Instructions that only compute on the core's registers -/

/-- What a register instruction answers: the core after it, or an exception. -/
abbrev CEff := Except Exc Core

/-- A register instruction as an effect on the whole block: nothing but its core changes. -/
def regSem (f : Insn → W64 → Core → CEff) : Sem := fun n i seq s =>
  match f i seq (s.core n) with
  | .ok c => .next (s.setCore n c)
  | .error x => .trap s x

/-- A row whose instruction only computes on registers. -/
def regRow (n : Fin 192) (bytes : List Byte) (op : OzOp) (f : Insn → W64 → Core → CEff) (s : State) : Out :=
  ozRow n bytes op (regSem f) s

/-! ### Interrupt entry -/

/-- INTERRUPT_ENTRY: the highest deliverable level of a core is entered at an instruction boundary (12 R341-R344). -/
def interruptEntry (n : Nat) (s : State) : State :=
  let c := s.core n
  if !s.atBoundary n || c.issued then s
  else
    match c.nextInt with
    | some k => s.enterInt n k
    | none => s

/-- INTERRUPT_ENTRY (12 R343, R344). -/
def execInterruptEntry (n : Fin 192) (s : State) : Out := act s (interruptEntry n.val)

end Sys2Proof.Machine
end

