-- ==== Sys2Proof/Machine/Sha.lean ====
section
/-! DEFINITION. SHA-2, SHA-3, HMAC and HKDF (13 R350; 15 R414-R418).  The spec names the standards (FIPS 180-4, 202; RFC 5869); their
contents are PRESUMED (assumption log 18). -/

namespace Sys2Proof.Machine

/-! ### SHA-2 -/

/-- The primes from which the constants come. -/
def shaPrimes : List Nat := (List.range 410).filter (fun p => decide (2 ≤ p) && (List.range 20).all (fun d => d < 2 || d = p || p % d != 0))

/-- The greatest number below 2^`bits` whose `e`-th power is at most `x`. -/
def intRoot (e bits x : Nat) : Nat :=
  (List.range bits).foldl (fun r i => let t := r + 2 ^ (bits - 1 - i); if t ^ e ≤ x then t else r) 0

/-- The first `w` bits of the fraction of an `e`-th root. -/
def rootFraction (e w p : Nat) : BitVec w := BitVec.ofNat w (intRoot e (w + 5) (p * 2 ^ (e * w)))

def sha256K : List (BitVec 32) := (shaPrimes.take 64).map (rootFraction 3 32)
def sha512K : List (BitVec 64) := shaPrimes.map (rootFraction 3 64)
def sha256H : List (BitVec 32) := (shaPrimes.take 8).map (rootFraction 2 32)
def sha384H : List (BitVec 64) := ((shaPrimes.drop 8).take 8).map (rootFraction 2 64)
def sha512H : List (BitVec 64) := (shaPrimes.take 8).map (rootFraction 2 64)

/-- The exclusive or of two rotations and of a rotation or a shift to the right. -/
def shaMixing {w : Nat} (a b c : Nat) (shift : Bool) (x : BitVec w) : BitVec w :=
  x.rotateRight a ^^^ x.rotateRight b ^^^ (if shift then x >>> c else x.rotateRight c)

/-- The message schedule, newest word first. -/
def shaSchedule {w : Nat} (m : List (BitVec w)) : Nat → List (BitVec w)
  | 0 => m.reverse
  | n + 1 =>
    let l := shaSchedule m n
    let s0 := if w = 32 then shaMixing 7 18 3 true (l.getD 14 0) else shaMixing 1 8 7 true (l.getD 14 0)
    let s1 := if w = 32 then shaMixing 17 19 10 true (l.getD 1 0) else shaMixing 19 61 6 true (l.getD 1 0)
    (s1 + l.getD 6 0 + s0 + l.getD 15 0) :: l

/-- One round on the eight working words. -/
def shaRound {w : Nat} (v : List (BitVec w)) (kw : BitVec w) : List (BitVec w) :=
  match v with
  | [a, b, c, d, e, f, g, h] =>
    let s1 := if w = 32 then shaMixing 6 11 25 false e else shaMixing 14 18 41 false e
    let s0 := if w = 32 then shaMixing 2 13 22 false a else shaMixing 28 34 39 false a
    let t1 := h + s1 + ((e &&& f) ^^^ (~~~e &&& g)) + kw
    [t1 + s0 + ((a &&& b) ^^^ (a &&& c) ^^^ (b &&& c)), a, b, c, d + t1, e, f, g]
  | _ => v

/-- The digest of a message: constants and initial words give the function. -/
def sha2 {w : Nat} (k h0 : List (BitVec w)) (msg : List Byte) : List Byte :=
  let wb := w / 8
  let pad := (16 * wb - (msg.length + 1 + 2 * wb) % (16 * wb)) % (16 * wb)
  let text := msg ++ [0x80] ++ List.replicate pad 0 ++ beBytesOf (2 * wb) (8 * msg.length)
  let out := (pieces (16 * wb) text).foldl
    (fun h blk =>
      let ws := (shaSchedule ((pieces wb blk).map (fun b => BitVec.ofNat w (beNat b))) (k.length - 16)).reverse
      h.zipWith (· + ·) ((k.zipWith (· + ·) ws).foldl shaRound h)) h0
  out.flatMap (fun x => beBytesOf wb x.toNat)

def sha256 (msg : List Byte) : List Byte := sha2 sha256K sha256H msg
def sha384 (msg : List Byte) : List Byte := (sha2 sha512K sha384H msg).take 48
def sha512 (msg : List Byte) : List Byte := sha2 sha512K sha512H msg

/-- HMAC-SHA-384. -/
def hmac384 (key msg : List Byte) : List Byte :=
  let k := fit 128 (if 128 < key.length then sha384 key else key)
  sha384 (k.map (· ^^^ 0x5C) ++ sha384 (k.map (· ^^^ 0x36) ++ msg))

/-- HKDF-SHA-384 without a salt: `n` bytes for an info string. -/
def hkdf384 (secret info : List Byte) (n : Nat) : List Byte :=
  let prk := hmac384 (List.replicate 48 0) secret
  ((List.range ((n + 47) / 48)).foldl
    (fun (r : List Byte × List Byte) i => let t := hmac384 prk (r.1 ++ info ++ [BitVec.ofNat 8 (i + 1)]); (t, r.2 ++ t)) ([], [])).2.take n

/-! ### SHA-3 -/

/-- The round constants of Keccak. -/
def keccakRC : List (BitVec 64) :=
  [0x0000000000000001, 0x0000000000008082, 0x800000000000808A, 0x8000000080008000, 0x000000000000808B, 0x0000000080000001,
   0x8000000080008081, 0x8000000000008009, 0x000000000000008A, 0x0000000000000088, 0x0000000080008009, 0x000000008000000A,
   0x000000008000808B, 0x800000000000008B, 0x8000000000008089, 0x8000000000008003, 0x8000000000008002, 0x8000000000000080,
   0x000000000000800A, 0x800000008000000A, 0x8000000080008081, 0x8000000000008080, 0x0000000080000001, 0x8000000080008008]

/-- The rotations of its lanes, lane x + 5y. -/
def keccakRot : List Nat := [0, 1, 62, 28, 27, 36, 44, 6, 55, 20, 3, 10, 43, 25, 39, 41, 45, 15, 21, 8, 18, 2, 61, 56, 14]

/-- One round on 25 lanes. -/
def keccakRound (a : List (BitVec 64)) (rc : BitVec 64) : List (BitVec 64) :=
  let c := (List.range 5).map (fun x => (List.range 5).foldl (fun r y => r ^^^ a.getD (x + 5 * y) 0) 0)
  let a := (List.range 25).map (fun i => a.getD i 0 ^^^ c.getD ((i + 4) % 5) 0 ^^^ (c.getD ((i + 1) % 5) 0).rotateLeft 1)
  let b := (List.range 25).map (fun i =>
    let x := (i % 5 + 3 * (i / 5)) % 5
    let y := i % 5
    (a.getD (x + 5 * y) 0).rotateLeft (keccakRot.getD (x + 5 * y) 0))
  let a := (List.range 25).map (fun i =>
    let y := i / 5 * 5
    b.getD i 0 ^^^ (~~~(b.getD (y + (i + 1) % 5) 0) &&& b.getD (y + (i + 2) % 5) 0))
  (a.headD 0 ^^^ rc) :: a.drop 1

def keccak (a : List (BitVec 64)) : List (BitVec 64) := keccakRC.foldl keccakRound a

/-- The bytes of the rate of a state. -/
def laneBytes (a : List (BitVec 64)) (rate : Nat) : List Byte := (a.take (rate / 8)).flatMap (fun x => leBytes 8 x.toNat)

/-- Squeeze `n` bytes. -/
def squeeze (rate : Nat) (a : List (BitVec 64)) : Nat → List Byte
  | 0 => []
  | k + 1 => laneBytes a rate ++ squeeze rate (keccak a) k

/-- The sponge: rate in bytes, the byte that ends the message, and the length of the output. -/
def sponge (rate : Nat) (suffix : Byte) (msg : List Byte) (n : Nat) : List Byte :=
  let pad := rate - msg.length % rate
  let tail := if pad = 1 then [suffix ^^^ 0x80] else suffix :: List.replicate (pad - 2) 0 ++ [0x80]
  let a := (pieces rate (msg ++ tail)).foldl
    (fun a blk => keccak (a.zipWith (· ^^^ ·) ((pieces 8 (fit 200 blk)).map (fun b => BitVec.ofNat 64 (leNat b)))))
    (List.replicate 25 0)
  (squeeze rate a ((n + rate - 1) / rate)).take n

def sha3_256 (msg : List Byte) : List Byte := sponge 136 0x06 msg 32
def sha3_384 (msg : List Byte) : List Byte := sponge 104 0x06 msg 48
def sha3_512 (msg : List Byte) : List Byte := sponge 72 0x06 msg 64
def shake128 (msg : List Byte) (n : Nat) : List Byte := sponge 168 0x1F msg n
def shake256 (msg : List Byte) (n : Nat) : List Byte := sponge 136 0x1F msg n

/-- The digest of a message: 0 SHA-256, 1 SHA-384, 2 SHA-512, 4 SHA3-256, 5 SHA3-384, 6 SHA3-512 (13 R358). -/
def digest (k : Nat) (msg : List Byte) : List Byte :=
  match k with
  | 0 => sha256 msg
  | 1 => sha384 msg
  | 2 => sha512 msg
  | 4 => sha3_256 msg
  | 5 => sha3_384 msg
  | _ => sha3_512 msg

end Sys2Proof.Machine
end

