-- ==== Sys2Proof/Machine/Ecdsa.lean ====
section
/-! DEFINITION. ECDSA on curve P-384 (13 R350, R358; 15 R413-R425).  The spec names the standard (FIPS 186-5); its contents are PRESUMED
(assumption log 18). -/

namespace Sys2Proof.Machine

/-- The field of P-384, its coefficient b, its base point and the order of that point. -/
def p384P : Nat := 2 ^ 384 - 2 ^ 128 - 2 ^ 96 + 2 ^ 32 - 1
def p384B : Nat := 0xb3312fa7e23ee7e4988e056be3f82d19181d9c6efe8141120314088f5013875ac656398d8a2ed19d2a85c8edd3ec2aef
def p384X : Nat := 0xaa87ca22be8b05378eb1c71ef320ad746e1d3b628ba79b9859f741e082542a385502f25dbf55296c3a545e3872760ab7
def p384Y : Nat := 0x3617de4a96262c6f5d9e98bf9292dc29f8f41dbd289a147ce9da3113b5f0b8c00a60b1ce1d7e819d7a431d7c90ea0e5f
def p384N : Nat := 0xffffffffffffffffffffffffffffffffffffffffffffffffc7634d81f4372ddf581a0db248b0a77aecec196accc52973

/-- A power modulo `m`, by the bits of the exponent below 2^`bits`. -/
def powMod (m bits a e : Nat) : Nat :=
  (List.range bits).foldl (fun r i => let r := r * r % m; if e.testBit (bits - 1 - i) then r * a % m else r) 1
/-- The inverse modulo a prime below 2^384. -/
def invMod (m a : Nat) : Nat := powMod m 384 (a % m) (m - 2)

/-- A point of the curve; none is the point at infinity. -/
abbrev Point := Option (Nat × Nat)

/-- The sum of two points. -/
def addPoint (p q : Point) : Point :=
  match p, q with
  | none, q => q
  | p, none => p
  | some (x, y), some (u, v) =>
    if x = u ∧ (y + v) % p384P = 0 then none
    else
      let l := if x = u then (3 * (x * x + p384P - 1)) * invMod p384P (2 * y) % p384P else (v + p384P - y) * invMod p384P (u + p384P - x) % p384P
      let w := (l * l + 2 * p384P - x - u) % p384P
      some (w, (l * (x + p384P - w) + p384P - y) % p384P)

/-- A multiple of a point. -/
def mulPoint (k : Nat) (p : Point) : Point :=
  (List.range 384).foldl (fun r i => let r := addPoint r r; if k.testBit (383 - i) then addPoint r p else r) none

def basePoint : Point := some (p384X, p384Y)

/-- Is the pair a point of the curve? -/
def onCurve (x y : Nat) : Bool :=
  decide (x < p384P) && decide (y < p384P) && (y * y) % p384P = (x * x * x + (p384P - 3) * x + p384B) % p384P

/-- A private key from random or derived bytes, more than the order has: a number from 1 to the order less 1. -/
def scalarOf (l : List Byte) : Nat := beNat l % (p384N - 1) + 1

/-- The public key X and Y of a private key. -/
def ecPublic (d : Nat) : List Byte :=
  match mulPoint d basePoint with
  | some (x, y) => beBytesOf 48 x ++ beBytesOf 48 y
  | none => List.replicate 96 0

/-- A signature r and s of a 48-byte digest with a nonce; none where r or s would be 0. -/
def ecSignWith (d k : Nat) (dig : List Byte) : Option (List Byte) :=
  match mulPoint k basePoint with
  | none => none
  | some (x, _) =>
    let r := x % p384N
    let s := invMod p384N k * (beNat dig + r * d) % p384N
    if r = 0 ∨ s = 0 then none else some (beBytesOf 48 r ++ beBytesOf 48 s)

/-- A signature with the nonces that random bytes give, 56 to each: the first that serves. -/
def ecSign (d : Nat) (dig rnd : List Byte) : List Byte :=
  ((pieces 56 rnd).findSome? (fun l => ecSignWith d (scalarOf l) dig)).getD (List.replicate 96 0)

/-- Does a signature of a 48-byte digest verify under the public key X and Y? -/
def ecVerify (pub dig sig : List Byte) : Bool :=
  let x := beNat (pub.take 48)
  let y := beNat ((pub.drop 48).take 48)
  let r := beNat (sig.take 48)
  let s := beNat ((sig.drop 48).take 48)
  onCurve x y && decide (1 ≤ r) && decide (r < p384N) && decide (1 ≤ s) && decide (s < p384N)
    && (let w := invMod p384N s
        match addPoint (mulPoint (beNat dig * w % p384N) basePoint) (mulPoint (r * w % p384N) (some (x, y))) with
        | some (u, _) => u % p384N == r
        | none => false)

end Sys2Proof.Machine
end

