-- ==== Sys2Proof/Machine/MlKem.lean ====
section
/-! DEFINITION. Polynomials of 256 coefficients, and ML-KEM-768 and ML-KEM-1024 (13 R350, R358; 15 R420).  The spec names the standard
(FIPS 203); its contents are PRESUMED (assumption log 18). -/

namespace Sys2Proof.Machine

/-! ### Polynomials modulo q, as lists of 256 numbers -/

abbrev Poly := List Nat

/-- The lowest `n` bits of a number in reverse order. -/
def bitRev (n x : Nat) : Nat := (List.range n).foldl (fun r i => 2 * r + b2n (x.testBit i)) 0

def addPoly (q : Nat) (a b : Poly) : Poly := a.zipWith (fun x y => (x + y) % q) b
def subPoly (q : Nat) (a b : Poly) : Poly := a.zipWith (fun x y => (x + q - y) % q) b

/-- One layer of the number theoretic transform, of butterflies `len` apart: `z` gives the roots. -/
def nttLayer (q : Nat) (z : Nat → Nat) (f : Poly) (len : Nat) : Poly :=
  let a := f.toArray
  (List.range 256).map (fun x =>
    let w := z (128 / len + x / (2 * len))
    if x % (2 * len) < len then (a.getD x 0 + w * a.getD (x + len) 0) % q else (a.getD (x - len) 0 + q - w * a.getD x 0 % q) % q)

/-- One layer of its inverse. -/
def unnttLayer (q : Nat) (z : Nat → Nat) (f : Poly) (len : Nat) : Poly :=
  let a := f.toArray
  (List.range 256).map (fun x =>
    let w := z (256 / len - 1 - x / (2 * len))
    if x % (2 * len) < len then (a.getD x 0 + a.getD (x + len) 0) % q else w * (a.getD x 0 + q - a.getD (x - len) 0) % q)

/-- Numbers of `d` bits as bytes, the lowest bit first, and back. -/
def packBits (d : Nat) (l : List Nat) : List Byte := leBytes (l.length * d / 8) (l.foldr (fun x r => x + 2 ^ d * r) 0)
def unpackBits (d : Nat) (b : List Byte) : List Nat :=
  let x := leNat b
  (List.range (8 * b.length / d)).map (fun i => x >>> (d * i) % 2 ^ d)

/-- The sum of products of a row and a column. -/
def dotPoly (q : Nat) (mul : Poly → Poly → Poly) (a b : List Poly) : Poly :=
  (a.zipWith mul b).foldl (addPoly q) (List.replicate 256 0)

/-! ### ML-KEM -/

def kemQ : Nat := 3329
def kemZetas : Array Nat := ((List.range 128).map (fun i => powMod' 17 (bitRev 7 i))).toArray
where powMod' (a e : Nat) : Nat := (List.range 7).foldl (fun r i => let r := r * r % 3329; if e.testBit (6 - i) then r * a % 3329 else r) 1

def kemZeta (i : Nat) : Nat := kemZetas.getD i 0

def kemNtt (f : Poly) : Poly := [128, 64, 32, 16, 8, 4, 2].foldl (nttLayer kemQ kemZeta) f
def kemUnntt (f : Poly) : Poly := ([2, 4, 8, 16, 32, 64, 128].foldl (unnttLayer kemQ kemZeta) f).map (fun x => x * 3303 % kemQ)

/-- The product in the transform's domain: 128 products modulo a quadratic. -/
def kemMul (f g : Poly) : Poly :=
  let a := f.toArray
  let b := g.toArray
  (List.range 256).map (fun x =>
    let i := x / 2 * 2
    let z := kemZeta (64 + i / 4)
    let g := if i / 2 % 2 = 0 then z else kemQ - z
    if x % 2 = 0 then (a.getD i 0 * b.getD i 0 + a.getD (i + 1) 0 * b.getD (i + 1) 0 % kemQ * g) % kemQ
    else (a.getD i 0 * b.getD (i + 1) 0 + a.getD (i + 1) 0 * b.getD i 0) % kemQ)

/-- An element of the matrix: numbers of 12 bits below q from an expanded seed. -/
def kemUniform (seed : List Byte) : Poly :=
  (((unpackBits 12 (shake128 seed 1008)).filter (fun x => decide (x < kemQ))) ++ List.replicate 256 0).take 256

/-- The matrix of a seed, row by row; transposed where `t`. -/
def kemMatrix (k : Nat) (t : Bool) (rho : List Byte) : List (List Poly) :=
  (List.range k).map (fun i => (List.range k).map (fun j =>
    kemUniform (rho ++ (if t then [BitVec.ofNat 8 i, BitVec.ofNat 8 j] else [BitVec.ofNat 8 j, BitVec.ofNat 8 i]))))

/-- A small polynomial from a seed and a number: each coefficient a difference of two sums of two bits. -/
def kemSmall (seed : List Byte) (n : Nat) : Poly :=
  (unpackBits 4 (shake256 (seed ++ [BitVec.ofNat 8 n]) 128)).map (fun x => (x % 2 + x / 2 % 2 + kemQ - x / 4 % 2 - x / 8) % kemQ)

def kemCompress (d x : Nat) : Nat := (2 ^ (d + 1) * x + kemQ) / (2 * kemQ) % 2 ^ d
def kemDecompress (d y : Nat) : Nat := (2 * kemQ * y + 2 ^ d) / 2 ^ (d + 1)

/-- A parameter set: rows, and the bits of the two parts of a ciphertext. -/
structure KemSet where
  k : Nat
  du : Nat
  dv : Nat

/-- SET 0 is ML-KEM-768, 1 ML-KEM-1024 (13 R357). -/
def kemSet (set : Nat) : KemSet := if set = 0 then ⟨3, 10, 4⟩ else ⟨4, 11, 5⟩

/-- Decode the polynomials of an encoding, 384 bytes to each. -/
def kemVector (b : List Byte) : List Poly := (pieces 384 b).map (fun x => (unpackBits 12 x).map (· % kemQ))

/-- The key pair of two 32-byte seeds: ek and dk. -/
def kemKeys (p : KemSet) (d z : List Byte) : List Byte × List Byte :=
  let g := sha3_512 (d ++ [BitVec.ofNat 8 p.k])
  let rho := g.take 32
  let sigma := g.drop 32
  let s := (List.range p.k).map (fun i => kemNtt (kemSmall sigma i))
  let e := (List.range p.k).map (fun i => kemNtt (kemSmall sigma (p.k + i)))
  let t := (kemMatrix p.k false rho).zipWith (fun row e => addPoly kemQ (dotPoly kemQ kemMul row s) e) e
  let ek := (t.flatMap (packBits 12)) ++ rho
  (ek, (s.flatMap (packBits 12)) ++ ek ++ sha3_256 ek ++ z)

/-- The encryption of a 32-byte message under ek with 32 bytes of randomness. -/
def kemEncrypt (p : KemSet) (ek msg r : List Byte) : List Byte :=
  let t := kemVector (ek.take (384 * p.k))
  let y := (List.range p.k).map (fun i => kemNtt (kemSmall r i))
  let u := (kemMatrix p.k true (ek.drop (384 * p.k))).zipIdx.map (fun row =>
    addPoly kemQ (kemUnntt (dotPoly kemQ kemMul row.1 y)) (kemSmall r (p.k + row.2)))
  let mu := (unpackBits 1 msg).map (kemDecompress 1)
  let v := addPoly kemQ (addPoly kemQ (kemUnntt (dotPoly kemQ kemMul t y)) (kemSmall r (2 * p.k))) mu
  u.flatMap (fun f => packBits p.du (f.map (kemCompress p.du))) ++ packBits p.dv (v.map (kemCompress p.dv))

/-- The decryption of a ciphertext. -/
def kemDecrypt (p : KemSet) (dk c : List Byte) : List Byte :=
  let u := (pieces (32 * p.du) (c.take (32 * p.du * p.k))).map (fun b => (unpackBits p.du b).map (kemDecompress p.du))
  let v := (unpackBits p.dv (c.drop (32 * p.du * p.k))).map (kemDecompress p.dv)
  let w := subPoly kemQ v (kemUnntt (dotPoly kemQ kemMul (kemVector (dk.take (384 * p.k))) (u.map kemNtt)))
  packBits 1 (w.map (kemCompress 1))

/-- The standard's check of an encapsulation key: it is an encoding of reduced numbers. -/
def kemKeyOk (p : KemSet) (ek : List Byte) : Bool := (kemVector (ek.take (384 * p.k))).flatMap (packBits 12) == ek.take (384 * p.k)

/-- Encapsulation with a 32-byte message: ciphertext and shared secret. -/
def kemEncaps (p : KemSet) (ek msg : List Byte) : List Byte :=
  let g := sha3_512 (msg ++ sha3_256 ek)
  kemEncrypt p ek msg (g.drop 32) ++ g.take 32

/-- The encapsulation key in a decapsulation key. -/
def kemEk (p : KemSet) (dk : List Byte) : List Byte := (dk.drop (384 * p.k)).take (384 * p.k + 32)

/-- The standard's check of a decapsulation key: it holds the hash of its encapsulation key. -/
def kemDkOk (p : KemSet) (dk : List Byte) : Bool := sha3_256 (kemEk p dk) == (dk.drop (768 * p.k + 32)).take 32

/-- Decapsulation: the shared secret, or one that the ciphertext does not tell where it was not made under the key. -/
def kemDecaps (p : KemSet) (dk c : List Byte) : List Byte :=
  let msg := kemDecrypt p dk c
  let g := sha3_512 (msg ++ (dk.drop (768 * p.k + 32)).take 32)
  if kemEncrypt p (kemEk p dk) msg (g.drop 32) == c then g.take 32 else shake256 (dk.drop (768 * p.k + 64) ++ c) 32

end Sys2Proof.Machine
end

