-- ==== Sys2Proof/Machine/MlDsa.lean ====
section
/-! DEFINITION. ML-DSA-65, the signature of boot images and attestation reports (15 R413-R418).  The spec names the standard (FIPS 204);
its contents are PRESUMED, its context string empty (assumption log 18). -/

namespace Sys2Proof.Machine

def dsaQ : Nat := 8380417
def dsaZetas : Array Nat := ((List.range 256).map (fun i => pow 1753 (bitRev 8 i))).toArray
where pow (a e : Nat) : Nat := (List.range 8).foldl (fun r i => let r := r * r % 8380417; if e.testBit (7 - i) then r * a % 8380417 else r) 1
def dsaZeta (i : Nat) : Nat := dsaZetas.getD i 0

def dsaNtt (f : Poly) : Poly := [128, 64, 32, 16, 8, 4, 2, 1].foldl (nttLayer dsaQ dsaZeta) f
def dsaUnntt (f : Poly) : Poly := ([1, 2, 4, 8, 16, 32, 64, 128].foldl (unnttLayer dsaQ dsaZeta) f).map (fun x => x * 8347681 % dsaQ)
def dsaMul (f g : Poly) : Poly := f.zipWith (fun x y => x * y % dsaQ) g

/-- The number between -q/2 and q/2 that a residue stands for, and its size. -/
def dsaSigned (x : Nat) : Int := if x ≤ dsaQ / 2 then (x : Int) else (x : Int) - dsaQ
def dsaMod (x : Int) : Nat := (x % dsaQ).toNat
def dsaNorm (f : Poly) : Nat := f.foldl (fun r x => max r (dsaSigned x).natAbs) 0
def dsaNorms (v : List Poly) : Nat := v.foldl (fun r f => max r (dsaNorm f)) 0

/-- The matrix of a seed: 6 rows of 5. -/
def dsaUniform (seed : List Byte) : Poly :=
  ((((pieces 3 (shake128 seed 1008)).map (fun b => leNat b % 8388608)).filter (fun x => decide (x < dsaQ))) ++ List.replicate 256 0).take 256
def dsaMatrix (rho : List Byte) : List (List Poly) :=
  (List.range 6).map (fun r => (List.range 5).map (fun s => dsaUniform (rho ++ [BitVec.ofNat 8 s, BitVec.ofNat 8 r])))

/-- A secret polynomial: coefficients from -4 to 4. -/
def dsaSecret (seed : List Byte) (n : Nat) : Poly :=
  ((((unpackBits 4 (shake256 (seed ++ leBytes 2 n) 544)).filter (fun x => decide (x < 9))).map (fun x => (4 + dsaQ - x) % dsaQ))
    ++ List.replicate 256 0).take 256

/-- The product of the matrix and a vector in the transform's domain, brought back. -/
def dsaApply (a : List (List Poly)) (v : List Poly) : List Poly := a.map (fun row => dsaUnntt (dotPoly dsaQ dsaMul row v))

/-- A number as t1 2^13 + t0. -/
def dsaT0 (x : Nat) : Int := let r : Int := (x % 8192 : Nat); if r ≤ 4096 then r else r - 8192
def dsaT1 (x : Nat) : Nat := (((x : Int) - dsaT0 x) / 8192).toNat

/-- A number as w1 2γ + w0, with γ = (q - 1) / 32. -/
def dsaGamma : Nat := 261888
def dsaLow (x : Nat) : Int :=
  let r : Int := (x % (2 * dsaGamma) : Nat)
  let r := if r ≤ dsaGamma then r else r - 2 * dsaGamma
  if (x : Int) - r = dsaQ - 1 then r - 1 else r
def dsaHigh (x : Nat) : Nat :=
  let r : Int := (x % (2 * dsaGamma) : Nat)
  let r := if r ≤ dsaGamma then r else r - 2 * dsaGamma
  if (x : Int) - r = dsaQ - 1 then 0 else (((x : Int) - r) / (2 * dsaGamma)).toNat

/-- A high part corrected by a hint. -/
def dsaUse (h : Bool) (x : Nat) : Nat :=
  let w := dsaHigh x
  if !h then w else if 0 < dsaLow x then (w + 1) % 16 else (w + 15) % 16

/-- The challenge: 49 coefficients of 1 or -1. -/
def dsaBall (seed : List Byte) : Poly :=
  let b := shake256 seed 1088
  let signs := leNat (b.take 8)
  (((b.drop 8).foldl
    (fun (r : Nat × Poly) j =>
      let i := r.1
      if 256 ≤ i ∨ i < j.toNat then r
      else
        let f := listSet r.2 i (r.2.getD j.toNat 0)
        (i + 1, listSet f j.toNat (if signs.testBit (i - 207) then dsaQ - 1 else 1)))
    (207, List.replicate 256 0))).2

/-- The public key and the parts of the private key that a 32-byte seed gives. -/
structure DsaKey where
  rho : List Byte
  k : List Byte
  tr : List Byte
  s1 : List Poly
  s2 : List Poly
  t0 : List Poly
  pub : List Byte

def dsaKey (seed : List Byte) : DsaKey :=
  let g := shake256 (seed ++ [6, 5]) 128
  let rho := g.take 32
  let s1 := (List.range 5).map (dsaSecret ((g.drop 32).take 64))
  let s2 := (List.range 6).map (fun r => dsaSecret ((g.drop 32).take 64) (5 + r))
  let t := (dsaApply (dsaMatrix rho) (s1.map dsaNtt)).zipWith (addPoly dsaQ) s2
  let pub := rho ++ t.flatMap (fun f => packBits 10 (f.map dsaT1))
  { rho := rho, k := g.drop 96, tr := shake256 pub 64, s1 := s1, s2 := s2, t0 := t.map (fun f => f.map (fun x => dsaMod (dsaT0 x))), pub := pub }

/-- The message that is signed: of the empty context, hashed with the key's. -/
def dsaMu (tr msg : List Byte) : List Byte := shake256 (tr ++ [0, 0] ++ msg) 64

/-- The mask of an attempt. -/
def dsaMask (seed : List Byte) (n : Nat) : List Poly :=
  (List.range 5).map (fun r => (unpackBits 20 (shake256 (seed ++ leBytes 2 (n + r)) 640)).map (fun x => (524288 + dsaQ - x) % dsaQ))

/-- The encoding of the hint: the places of its ones, row by row, then where each row ends. -/
def dsaHint (h : List (List Bool)) : List Byte :=
  let ps := h.map (fun f => (List.range 256).filter (fun i => f.getD i false))
  let ends := (List.range 6).map (fun i => ((ps.take (i + 1)).map List.length).foldl (· + ·) 0)
  fit 55 (ps.flatten.map (BitVec.ofNat 8)) ++ ends.map (BitVec.ofNat 8)

/-- The hint of an encoding, where it is well formed: the places of a row rise, the ends do not fall, the rest is 0. -/
def dsaUnhint (b : List Byte) : Option (List (List Bool)) :=
  let ends := (0 :: (b.drop 55).map BitVec.toNat)
  let rows := (List.range 6).map (fun i => ((b.take (ends.getD (i + 1) 0)).drop (ends.getD i 0)).map BitVec.toNat)
  let rising := fun (l : List Nat) => (l.zip (l.drop 1)).all (fun x => decide (x.1 < x.2))
  if (ends.zip (ends.drop 1)).all (fun x => decide (x.1 ≤ x.2) && decide (x.2 ≤ 55)) && rows.all rising
      && ((b.take 55).drop (ends.getD 6 0)).all (· == 0) then
    some (rows.map (fun l => (List.range 256).map l.contains))
  else none

/-- One attempt at a signature; none where it must be made again. -/
def dsaAttempt (k : DsaKey) (a : List (List Poly)) (mu seed : List Byte) (n : Nat) : Option (List Byte) :=
  let y := dsaMask seed n
  let w := dsaApply a (y.map dsaNtt)
  let c := shake256 (mu ++ w.flatMap (fun f => packBits 4 (f.map dsaHigh))) 48
  let ch := dsaNtt (dsaBall c)
  let times := fun (v : List Poly) => v.map (fun f => dsaUnntt (dsaMul ch (dsaNtt f)))
  let z := y.zipWith (addPoly dsaQ) (times k.s1)
  let r := w.zipWith (subPoly dsaQ) (times k.s2)
  let ct := times k.t0
  let h := (r.zip ct).map (fun x => (x.1.zip x.2).map (fun y => dsaHigh y.1 != dsaHigh ((y.1 + y.2) % dsaQ)))
  if 524288 - 196 ≤ dsaNorms z || dsaGamma - 196 ≤ (r.foldl (fun m f => f.foldl (fun m x => max m (dsaLow x).natAbs) m) 0)
      || dsaGamma ≤ dsaNorms ct || 55 < (h.map (fun f => f.countP id)).foldl (· + ·) 0 then none
  else some (c ++ z.flatMap (fun f => packBits 20 (f.map (fun x => dsaMod (524288 - dsaSigned x)))) ++ dsaHint h)

/-- A signature of a message with 32 random bytes. -/
def dsaSign (k : DsaKey) (msg rnd : List Byte) : List Byte :=
  let mu := dsaMu k.tr msg
  let seed := shake256 (k.k ++ rnd ++ mu) 64
  let a := dsaMatrix k.rho
  ((List.range 814).findSome? (fun i => dsaAttempt k a mu seed (5 * i))).getD (List.replicate 3309 0)

/-- Does a signature verify? -/
def dsaVerify (pub msg sig : List Byte) : Bool :=
  let rho := pub.take 32
  let t1 := (pieces 320 (pub.drop 32)).map (fun b => (unpackBits 10 b).map (fun x => x * 8192 % dsaQ))
  let c := sig.take 48
  let z := (pieces 640 ((sig.drop 48).take 3200)).map (fun b => (unpackBits 20 b).map (fun x => (524288 + dsaQ - x) % dsaQ))
  match dsaUnhint (sig.drop 3248) with
  | none => false
  | some h =>
    let ch := dsaNtt (dsaBall c)
    let az := (dsaMatrix rho).map (fun row => dotPoly dsaQ dsaMul row (z.map dsaNtt))
    let w := (az.zipWith (fun x t => dsaUnntt (subPoly dsaQ x (dsaMul ch (dsaNtt t)))) t1)
    let w1 := (h.zip w).flatMap (fun x => packBits 4 (x.1.zipWith dsaUse x.2))
    decide (dsaNorms z < 524288 - 196) && c == shake256 (dsaMu (shake256 pub 64) msg ++ w1) 48

end Sys2Proof.Machine
end

