-- ==== Sys2Proof/Machine/Rot.lean ====
section
/-! DEFINITION. The root of trust: lifecycle, the eMRAM's rights, mailbox commands, boot, keys and confidential partitions
(15). -/

namespace Sys2Proof.Machine

/-! ### Algorithms that the spec names by their standards (assumption log 18) -/

/-- An info string as bytes. -/
def infoBytes (x : String) : List Byte := x.toList.map (fun c => BitVec.ofNat 8 c.toNat)

/-- A private key derived from a secret with an info string (R415): 0 DeviceID EC, 1 DeviceID ML, 2 alias EC, 3 alias ML.  An EC key is the
scalar that 56 derived bytes give, an ML key its seed (PRESUMED, assumption log 18). -/
def derive (k : Nat) (secret : List Byte) : List Byte :=
  let info := infoBytes (match k with | 0 => "RJ-DEVID-EC" | 1 => "RJ-DEVID-ML" | 2 => "RJ-ALIAS-EC" | _ => "RJ-ALIAS-ML")
  if k % 2 = 0 then beBytesOf 48 (scalarOf (hkdf384 secret info 56)) else hkdf384 secret info 32

/-- The public key of a private key: 1 ECDSA P-384, the uncompressed point; 2 ML-DSA-65; 5 ML-KEM-768; 6 ML-KEM-1024. -/
def publicKey (alg : Nat) (priv : List Byte) : List Byte :=
  match alg with
  | 1 => 0x04 :: ecPublic (beNat priv)
  | 2 => (dsaKey priv).pub
  | _ => kemEk (kemSet (alg - 5)) priv

/-- A signature, with the random bytes it draws, and how many. -/
def signature (alg : Nat) (priv msg rnd : List Byte) : List Byte :=
  if alg = 1 then ecSign (beNat priv) (sha384 msg) rnd else dsaSign (dsaKey priv) msg rnd
def sigDraw (alg : Nat) : Nat := if alg = 1 then 112 else 32

/-- Does a signature verify? -/
def verifies (alg : Nat) (pub msg sig : List Byte) : Bool :=
  if alg = 1 then pub.headD 0 == 0x04 && ecVerify (pub.drop 1) (sha384 msg) sig else dsaVerify pub msg sig

/-- Draw `n` random bytes. -/
def State.random (s : State) (n : Nat) : List Byte × State :=
  ((List.range n).map (fun i => Config.byte (s.fresh + i)), { s with fresh := s.fresh + n })

/-! ### Mailboxes (R427) -/

/-- Offset `o` of mailbox page `p`, 1 to 3. -/
def rtm (p o : Nat) : Nat := pageBase 7 0x12 p + o

/-- What an access to a mailbox buffer gives: the bytes and the state after, a failure, or a wait. -/
inductive MbGot where
  | ok (l : List Byte) (s : State)
  | bad (s : State)
  | held (s : State)

/-- An access to a mailbox buffer, over the AOC bridge (10 R285): it fails where the buffer, of BLEN bytes or to the access's end, does not lie
in visible DRAM, is refused under R423, is poisoned, or times out. -/
def State.mbAccess (s : State) (c : MbCmd) (a n : Nat) (w : Option (List Byte)) : MbGot :=
  let m := max (a - c.buf + n) c.len
  if n = 0 then .ok [] s
  else if !(rangeLines c.buf m).all (fun l => s.isDram (64 * l)) || s.confBars c.buf m c.part then .bad s
  else
    match s.wholeAccess 71 0 c.part a n (w.map (fun l => (l, false))) with
    | (.held h, _) => .held (s.holdFor (h, c.part))
    | (.done l bad lost, t) => if bad || lost then .bad t else .ok l t

/-- Read a mailbox buffer. -/
def State.mbRead (s : State) (c : MbCmd) (off n : Nat) : MbGot := s.mbAccess c (c.buf + off) n none

/-- Write a mailbox buffer. -/
def State.mbWrite (s : State) (c : MbCmd) (bytes : List Byte) : MbGot := s.mbAccess c c.buf bytes.length (some bytes)

/-- What a command answers: RESULT, OUT0 and OUT1, and the state; or that it waits for its buffer, and the state meanwhile. -/
structure MbRes where
  result : Nat
  out0 : W32 := 0
  out1 : W32 := 0
  st : State
  held : Bool := false

/-- A refusal. -/
def refuse (s : State) (k : Nat) : MbRes := { result := k, st := s }
def granted (s : State) : MbRes := { result := 0, st := s }

/-- Go on with what a buffer access gave, or refuse the command with RESULT 5. -/
def MbGot.use (g : MbGot) (f : List Byte → State → MbRes) : MbRes :=
  match g with
  | .ok l s => f l s
  | .bad s => refuse s 5
  | .held s => { result := 0, st := s, held := true }

/-- End a command with the write of its answer. -/
def MbGot.fin (g : MbGot) : MbRes := g.use (fun _ s => granted s)

/-- Argument `k` of a command. -/
def MbCmd.arg (c : MbCmd) (k : Nat) : Nat := (c.args.getD k 0).toNat

/-- Little-endian words of a byte string. -/
def wordAt (l : List Byte) (off n : Nat) : Nat := leNat ((l.drop off).take n)
def sliceAt (l : List Byte) (off n : Nat) : List Byte := (l.drop off).take n

/-! ### Identity and measurement (R415-R418) -/

/-- RT_STAT.LAYER. -/
def State.layer (s : State) : Nat := s.fld (rts 0x44) 4 3
/-- Measurement register `i`; one that nothing has set is 0. -/
def State.mr (s : State) (i : Nat) : List Byte := fit 48 (SMap.get [] s.rot.mrs i)
def State.setMr (s : State) (i : Nat) (v : List Byte) : State :=
  { s with rot := { s.rot with mrs := SMap.set [] s.rot.mrs i (if v.all (fun b => b == 0) then [] else v) } }
/-- The lifecycle code. -/
def State.lc (s : State) : Nat := s.otp.lc.val
/-- Counter `n` (R409). -/
def State.ctr (s : State) (n : Nat) : W32 := SMap.get 0 s.otp.ctrs n
def State.keyHash (s : State) (k : Nat) : KeyHash := SMap.get {} s.otp.hashes k
/-- RT_UID as bytes. -/
def uidBytes : List Byte := (List.range 4).flatMap (fun k => leBytes 4 (Config.uid k).toNat)
/-- The alias key of an algorithm (R415, R416). -/
def State.aliasKey (s : State) (alg : Nat) : List Byte := derive (1 + alg) s.rot.cdi
/-- The DeviceID key of an algorithm, as BOOTIMG derived it (R415). -/
def State.deviceKey (s : State) (alg : Nat) : List Byte := SMap.get [] s.rot.dev alg

/-- Does a public key match a valid, unrevoked slot (R414)? -/
def State.slotMatches (s : State) (k : Nat) (pub : List Byte) : Bool :=
  let h := s.keyHash k
  h.valid && !h.revoked && h.hash == sha384 pub

/-- ALGREQ and ORDER in force (R408, R412): in Manufacturing and Analysis the ROM uses its own. -/
def State.romMode (s : State) : Bool := s.lc = 0 || s.lc = 3
def State.algReq (s : State) : Nat :=
  let a := if s.romMode then 1 else fieldOf s.otp.bootcfg 16 2
  if a = 0 then 3 else a
/-- The media of ORDER. -/
def State.media (s : State) : List Nat :=
  if s.romMode then [1]
  else ((List.range 4).map (fun k => fieldOf s.otp.bootcfg (4 * k) 4)).takeWhile (fun m => decide (1 ≤ m) && decide (m ≤ 6))

/-- Does a public key match its hash slot; in Manufacturing and Analysis the ROM holds the hash of Fenavo's key (R405)? -/
def State.bootKeyOk (s : State) (k : Nat) (pub : List Byte) : Bool :=
  if s.romMode then sha384 pub == fit 48 Config.romKeyHash else s.slotMatches k pub

/-- The check of R414 on the header that an image fails first, as its code; 0 where it passes all. -/
def State.headCode (s : State) (hdr : List Byte) : Nat :=
  let alg := wordAt hdr 6 1
  let kidx := wordAt hdr 7 1
  let len := wordAt hdr 0x10 4
  let entry := wordAt hdr 0x14 4
  let zero := fun (o n : Nat) => (sliceAt hdr o n).all (fun b => b == 0)
  let ec := alg % 2 = 1
  let ml := alg / 2 % 2 = 1
  let req := s.algReq
  if wordAt hdr 0 4 ≠ 0x4E524A42 ∨ wordAt hdr 4 2 ≠ 1 then 1
  else if !(zero 0xD 3 && zero 0x18 40 && zero 0x70 144) || decide (4 ≤ alg) || decide (4 ≤ kidx) || decide (64 ≤ wordAt hdr 0xC 1) || len = 0
      || decide (0x3C00000 < len) || entry % 4 ≠ 0 || decide (len ≤ entry) then 2
  else if (req % 2 = 1 && !ec) || (req / 2 % 2 = 1 && !ml) then 8
  else if (ec && !s.bootKeyOk kidx (sliceAt hdr 0x100 97)) || (ml && !s.bootKeyOk (4 + kidx) (sliceAt hdr 0x200 1952)) then 3
  else if (ec && !verifies 1 (sliceAt hdr 0x100 97) (sliceAt hdr 0 256) (sliceAt hdr 0x180 96))
      || (ml && !verifies 2 (sliceAt hdr 0x200 1952) (sliceAt hdr 0 256) (sliceAt hdr 0x9A0 3309)) then 4
  else 0

/-- The same for the checks that follow, which need the body. -/
def State.bodyCode (s : State) (hdr body : List Byte) : Nat :=
  if sha384 body != sliceAt hdr 0x40 48 then 5
  else if wordAt hdr 8 4 < (s.ctr (wordAt hdr 0xC 1)).toNat then 6
  else 0

/-- A refused BOOTIMG: RT_BOOTSTAT counts it; the medium it names is a free value; with every medium of ORDER failed BOOTFAIL is
set (R412; assumption log 19). -/
def State.bootFailed (s : State) (code : Nat) : State :=
  let d := s.draw
  let s := d.2
  let a := rts 0x48
  let n := satInc 15 (s.fld a 4 4)
  let s := ((s.setFld a 4 4 n).setFld a 8 4 code).setFld a 12 4 (Config.place d.1 % 7)
  if n = s.media.length then (s.raise (rts 0) 2).fire 0x708 else s

/-- A successful BOOTIMG (R415). -/
def State.booted (s : State) (hdr : List Byte) : State :=
  let d := s.draw
  let s := d.2
  let s := { s with rot := { s.rot with mrs := [] } }
  let m := sha384 (sliceAt hdr 0 256)
  let s := s.setMr 0 m
  let c := hmac384 s.rot.uds (m ++ [BitVec.ofNat 8 s.lc, BitVec.ofNat 8 s.dbg] ++ leBytes 8 s.otp.bootcfg.toNat)
  let s := { s with rot := { s.rot with
    cdi := c, dev := SMap.set [] (SMap.set [] s.rot.dev 1 (derive 0 s.rot.uds)) 2 (derive 1 s.rot.uds) } }
  let s := s.setFld (rts 0x48) 0 4 (1 + Config.place d.1 % 6)
  ((s.setFld (rts 0x44) 4 3 1).setBit (rts 0x44) 2 true).setBit (rts 0x44) 3 true

/-- BOOTIMG (R414, R415). -/
def mbBootImg (c : MbCmd) (s : State) : MbRes :=
  if c.page ≠ 1 then refuse s 1
  else if s.bit (rts 0x44) 2 then refuse s 6
  else
    (s.mbRead c 0 0x1700).use fun hdr s =>
      let code := s.headCode hdr
      if code ≠ 0 then refuse (s.bootFailed code) 4
      else
        (s.mbRead c 0x1700 (wordAt hdr 0x10 4)).use fun body s =>
          let code := s.bodyCode hdr body
          if code ≠ 0 then refuse (s.bootFailed code) 4
          else
            let e := c.buf + 0x1700 + wordAt hdr 0x14 4
            { result := 0, out0 := BitVec.ofNat 32 e, out1 := BitVec.ofNat 32 (e / 4294967296), st := s.booted hdr }

/-- DICE_NEXT (R416). -/
def mbDiceNext (c : MbCmd) (s : State) : MbRes :=
  if c.page ≠ 1 then refuse s 1
  else if s.layer = 7 ∨ s.layer = 0 then refuse s 6
  else if c.len < 48 then refuse s 2
  else
    (s.mbRead c 0 48).use fun m s =>
      let n := s.layer
      let s := s.setMr (n + 1) m
      granted ({ s with rot := { s.rot with cdi := hmac384 s.rot.cdi m } }.setFld (rts 0x44) 4 3 (n + 1))

/-- MR_EXTEND (R417). -/
def mbMrExtend (c : MbCmd) (s : State) : MbRes :=
  let i := c.arg 0
  if i < 8 then refuse s 1
  else if 15 < i ∨ c.len < 48 then refuse s 2
  else
    (s.mbRead c 0 48).use fun d s => granted (s.setMr i (sha384 (s.mr i ++ d)))

/-- The report of ATTEST (R418). -/
def State.report418 (s : State) (c : MbCmd) (nonce : List Byte) : List Byte :=
  nonce ++ uidBytes ++ [BitVec.ofNat 8 s.lc, BitVec.ofNat 8 s.dbg, BitVec.ofNat 8 s.layer, BitVec.setWidth 8 c.part, BitVec.ofNat 8 (c.arg 0)]
    ++ List.replicate 11 0 ++ (List.range 16).flatMap s.mr ++ (List.range 64).flatMap (fun n => leBytes 4 (s.ctr n).toNat)
    ++ sha384 ((List.range 64).flatMap (fun k => leBytes 4 (s.reg (rts (0x500 + 4 * k))).toNat))

/-- ATTEST (R418). -/
def mbAttest (c : MbCmd) (s : State) : MbRes :=
  let alg := c.arg 0
  if alg ≠ 1 ∧ alg ≠ 2 then refuse s 2
  else if c.len < (if alg = 1 then 1232 else 4445) then refuse s 2
  else if s.layer = 0 then refuse s 6
  else
    (s.mbRead c 0 32).use fun nonce s =>
      let r := s.random (sigDraw alg)
      let rep := s.report418 c nonce
      (r.2.mbWrite c (rep ++ signature alg (s.aliasKey alg) rep r.1)).fin

/-- GETPUB (R418). -/
def mbGetPub (c : MbCmd) (s : State) : MbRes :=
  let k := c.arg 0
  let alg := k % 2 + 1
  if 3 < k then refuse s 2
  else if s.layer = 0 then refuse s 6
  else
    let r := s.random (sigDraw alg)
    let out := if k < 2 then publicKey alg (s.deviceKey alg)
      else
        let pub := publicKey alg (s.aliasKey alg)
        pub ++ signature alg (s.deviceKey alg) (pub ++ [BitVec.ofNat 8 s.layer] ++ (List.range 8).flatMap s.mr) r.1
    if c.len < out.length then refuse s 2 else (r.2.mbWrite c out).fin

/-- RNG (R427). -/
def mbRng (c : MbCmd) (s : State) : MbRes :=
  if 4096 < c.len then refuse s 2
  else
    let r := s.random c.len
    (r.2.mbWrite c r.1).fin

/-! ### Keys (R419-R421) -/

/-- Does a valid confidential entry name the slot? -/
def State.confSlot (s : State) (slot : Nat) : Bool :=
  (List.range 16).any (fun e => s.bit (rts (0x500 + 16 * e)) 31 && s.fld (rts (0x500 + 16 * e)) 0 10 = slot)

/-- Is the caller page 1 under PARTID 0? -/
def MbCmd.admin (c : MbCmd) : Bool := c.page = 1 && c.part = 0

/-- SLOT_INSTALL: fresh keys in all engines (R419). -/
def mbSlotInstall (c : MbCmd) (s : State) : MbRes :=
  let k := c.arg 0
  if !c.admin then refuse s 1
  else if 1023 < k then refuse s 2
  else if SMap.get 0 s.mem.keys k ≠ 0 then refuse s 3
  else
    let key := s.fresh + 1
    let own := (BitVec.ofNat 6 (c.arg 1), Nat.testBit (c.arg 1) 8)
    granted { s with
      fresh := s.fresh + 128
      mem := { s.mem with keys := SMap.set 0 s.mem.keys k key }
      rot := { s.rot with
        slots := SMap.set none s.rot.slots k (some own), treeKey := if s.rot.treeKey = 0 && k = 0 then key + 96 else s.rot.treeKey } }

/-- Empty a slot in all engines (R419). -/
def State.eraseSlot (s : State) (k : Nat) : State :=
  { s with
    mem := { s.mem with keys := SMap.set 0 s.mem.keys k 0 }
    rot := { s.rot with slots := SMap.set none s.rot.slots k none } }

/-- SLOT_ERASE (R419). -/
def mbSlotErase (c : MbCmd) (s : State) : MbRes :=
  let k := c.arg 0
  if !c.admin then refuse s 1
  else if 1023 < k then refuse s 2
  else if s.confSlot k then refuse s 3
  else granted (s.eraseSlot k)

/-- The random bytes that a key of a type draws, and the key that they give (R420): an ECDSA key is the scalar of 56 bytes, an ML-KEM dk that
of two seeds. -/
def keyDraw (t : Nat) : Nat := match t with | 1 => 16 | 2 => 32 | 4 => 56 | _ => 64
def keyOf (t : Nat) (rnd : List Byte) : List Byte :=
  match t with
  | 4 => beBytesOf 48 (scalarOf rnd)
  | 5 => (kemKeys (kemSet 0) (rnd.take 32) (rnd.drop 32)).2
  | 6 => (kemKeys (kemSet 1) (rnd.take 32) (rnd.drop 32)).2
  | _ => rnd

/-- A key handle. -/
def State.handle (s : State) (h : Nat) : Option KeyH := SMap.get none s.rot.handles h

/-- KEY_GEN (R420). -/
def mbKeyGen (c : MbCmd) (s : State) : MbRes :=
  let h := c.arg 0
  let t := c.arg 1
  let f := c.arg 2
  let owner : PartId := BitVec.ofNat 6 f
  if (c.part ≠ 0 ∧ owner ≠ c.part) ∨ (Nat.testBit f 9 ∧ c.part ≠ 0) then refuse s 1
  else if 255 < h ∨ t = 0 ∨ 6 < t then refuse s 2
  else if (s.handle h).isSome then refuse s 3
  else
    let r := s.random (keyDraw t)
    let k : KeyH := ⟨t, owner, Nat.testBit f 8, Nat.testBit f 9, keyOf t r.1⟩
    granted { r.2 with rot := { r.2.rot with handles := SMap.set none r.2.rot.handles h (some k) } }

/-- KEY_ERASE (R420). -/
def mbKeyErase (c : MbCmd) (s : State) : MbRes :=
  let h := c.arg 0
  if 255 < h then refuse s 2
  else
    match s.handle h with
    | none => refuse s 3
    | some k =>
      if c.part ≠ 0 ∧ k.owner ≠ c.part then refuse s 1
      else granted { s with rot := { s.rot with handles := SMap.set none s.rot.handles h none } }

/-- KEY_PUB (R420). -/
def mbKeyPub (c : MbCmd) (s : State) : MbRes :=
  let h := c.arg 0
  if 255 < h then refuse s 2
  else
    match s.handle h with
    | none => refuse s 3
    | some k =>
      if c.part ≠ 0 ∧ k.owner ≠ c.part then refuse s 1
      else if k.type < 4 then refuse s 3
      else
        let pub := publicKey (if k.type = 4 then 1 else k.type) k.key
        if c.len < pub.length then refuse s 2 else (s.mbWrite c pub).fin

/-- The uses of a key by an engine (R421). -/
inductive KeyUse where
  | aes (k256 xts : Bool)
  | sign
  | decaps (set : Nat)
  deriving DecidableEq, Repr

/-- Does the type of a key suit a use (R421: with K256 an XTS operation needs the pair, type 3, and the others type 2, DEDUCED)? -/
def KeyUse.suits (u : KeyUse) (t : Nat) : Bool :=
  match u with
  | .aes false _ => t = 1
  | .aes true xts => t = if xts then 3 else 2
  | .sign => t = 4
  | .decaps set => t = 5 + set

/-- The key that a handle gives to a descriptor of PARTID `p`, or none: KEYREF (R421). -/
def State.engineKey (s : State) (h : Nat) (p : PartId) (u : KeyUse) : Option (List Byte) :=
  match s.handle h with
  | some k => if (k.owner = p || k.shared) && u.suits k.type then some k.key else none
  | none => none

/-! ### Confidential partitions (R422, R424) -/

/-- A window through which others reach physical addresses: base, bytes, PARTID. -/
abbrev Reach := Nat × Nat × PartId

/-- The enabled apertures of the virtual functions, and the inbound windows of the PCIe and Parraha ports (13 R354; 14 R386,
R392). -/
def State.apertures (s : State) (v : Nat) : List Reach :=
  (List.range 8).filterMap (fun a =>
    let b := vfPage v (0x80 + 32 * a)
    if s.fld b 0 2 = 0 then none
    else some (s.fld (b + 8) 12 20 * 4096 + s.fld (b + 12) 0 10 * 4294967296, 4096 * (s.reg (b + 16)).toNat,
      BitVec.ofNat 6 (s.fld (tePage 0 (0x400 + 8 * v)) 8 6)))
def State.pcieWindows (s : State) (i : Nat) : List Reach :=
  (List.range 8).filterMap (fun w =>
    let b := pciePage i (0x80 + 16 * w)
    some (s.fld (b + 8) 0 30 * 4096, 4096 * s.fld (b + 12) 0 24, BitVec.ofNat 6 (s.fld (b + 12) 24 6)))
def State.prlWindows (s : State) : List Reach :=
  (List.range 16).filterMap (fun w =>
    let b := prlPage 0 (0x300 + 16 * w)
    some (s.fld (b + 8) 0 21 * 2097152, 2097152 * s.fld (b + 4) 0 16, BitVec.ofNat 6 (s.fld (b + 4) 24 6)))

/-- Every window. -/
def State.reaches (s : State) : List Reach :=
  (List.range 256).flatMap s.apertures ++ (List.range 4).flatMap s.pcieWindows ++ s.prlWindows

/-- Do two ranges of bytes overlap? -/
def overlaps (a n b m : Nat) : Bool := decide (0 < n) && decide (0 < m) && decide (a < b + m) && decide (b < a + n)

/-- Does a window map any byte of a confidential range under another PARTID (R424)? -/
def State.reachBad (s : State) (r : Reach) : Bool :=
  (List.range 16).any (fun e =>
    let b := rts (0x500 + 16 * e)
    let lo := s.fld (b + 4) 0 21 * 2097152
    s.bit b 31 && overlaps r.1 r.2.1 lo ((s.fld (b + 8) 0 21 + 1) * 2097152 - lo) && s.fld b 24 6 != r.2.2.toNat)

/-- Does some key range that overlaps 2 MiB units `[lo, hi]` name another slot (R422)? -/
def State.rangeClash (s : State) (lo hi slot : Nat) : Bool :=
  (List.range 16).any (fun m => (List.range 64).any (fun r =>
    let b := ipe m (0x200 + 8 * r)
    s.bit b 31 && decide (s.fld b 0 21 ≤ hi) && decide (lo ≤ s.fld (b + 4) 0 21) && s.fld (b + 4) 22 10 != slot))

/-- CONF_SET: the entry's owner is its slot's (R422; assumption log 20). -/
def mbConfSet (c : MbCmd) (s : State) : MbRes :=
  let e := c.arg 0
  let lo := c.arg 1 % 2097152
  let hi := c.arg 2 % 2097152
  let slot := c.arg 3
  let b := rts (0x500 + 16 * e)
  if c.part ≠ 0 then refuse s 1
  else if 15 < e ∨ s.bit b 31 ∨ hi < lo then refuse s 2
  else
    match SMap.get none s.rot.slots slot with
    | some (owner, true) =>
      let clash := (List.range 16).any (fun j =>
        let x := rts (0x500 + 16 * j)
        s.bit x 31 && decide (s.fld (x + 4) 0 21 ≤ hi) && decide (lo ≤ s.fld (x + 8) 0 21))
      let leak := s.reaches.any (fun r =>
        overlaps r.1 r.2.1 (lo * 2097152) ((hi + 1 - lo) * 2097152) && r.2.2 != owner)
      if clash || s.rangeClash lo hi slot || leak then refuse s 2
      else granted (((s.setNat b (2147483648 + 16777216 * owner.toNat + slot)).setNat (b + 4) lo).setNat (b + 8) hi)
    | _ => refuse s 2

/-- Clear an entry: its slot is erased and it is invalidated (R422). -/
def State.confClear (s : State) (e : Nat) : State :=
  let b := rts (0x500 + 16 * e)
  if s.bit b 31 then (((s.eraseSlot (s.fld b 0 10)).setNat b 0).setNat (b + 4) 0).setNat (b + 8) 0 else s

/-- CONF_CLR (R422). -/
def mbConfClr (c : MbCmd) (s : State) : MbRes :=
  let e := c.arg 0
  let b := rts (0x500 + 16 * e)
  if 15 < e then refuse s 2
  else if !s.bit b 31 then refuse s 2
  else if c.part ≠ 0 ∧ s.fld b 24 6 ≠ c.part.toNat then refuse s 1
  else granted (s.confClear e)

/-! ### Counters, debug, lifecycle and provisioning (R405, R406, R408, R409, R425) -/

/-- CTR_ADV: a counter never decreases (R409). -/
def Otp.advance (o : Otp) (n : Nat) (v : W32) : Otp :=
  if (SMap.get 0 o.ctrs n).toNat < v.toNat then { o with ctrs := SMap.set 0 o.ctrs n v } else o

/-- CTR_ADV (R409). -/
def mbCtrAdv (c : MbCmd) (s : State) : MbRes :=
  if !c.admin then refuse s 1
  else if 63 < c.arg 0 then refuse s 2
  else granted { s with otp := s.otp.advance (c.arg 0) (c.args.getD 1 0) }

/-- DBG_CHAL (R425). -/
def mbDbgChal (c : MbCmd) (s : State) : MbRes :=
  if c.page ≠ 1 then refuse s 1
  else if c.len < 48 then refuse s 2
  else
    let r := s.random 32
    (r.2.mbWrite c (r.1 ++ uidBytes)).use fun _ s => granted { s with rot := { s.rot with challenge := some r.1 } }

/-- DBG_RESP (R425). -/
def mbDbgResp (c : MbCmd) (s : State) : MbRes :=
  let lv := c.arg 0 % 16
  if c.page ≠ 1 then refuse s 1
  else if c.len < 193 then refuse s 2
  else
    match s.rot.challenge with
    | none => refuse s 6
    | some chal =>
      (s.mbRead c 0 193).use fun b s =>
        let s := { s with rot := { s.rot with challenge := none } }
        let pub := sliceAt b 96 97
        let ok := verifies 1 pub (chal ++ uidBytes ++ [BitVec.ofNat 8 lv]) (sliceAt b 0 96)
          && ([8, 9, 10, 11].any (fun k => s.slotMatches k pub))
        if !ok then refuse s 4
        else
          let new := lv &&& (15 - s.dbg)
          let s := if new &&& 6 ≠ 0 then (List.range 16).foldl (fun s e => s.confClear e) s else s
          granted ((s.setFld (rts 0x44) 8 4 (s.fld (rts 0x44) 8 4 ||| lv)).fire 0x709)

/-- May the lifecycle move from `a` to `b` (R405)? -/
def lcNext (a b : Nat) : Bool := (a = 0 && b = 1) || (a = 1 && (b = 2 || b = 3)) || (a = 2 && b = 3)

/-- Does an algorithm that BOOTCFG requires have a valid, unrevoked boot key hash (R406)? -/
def State.bootKeysOk (s : State) : Bool :=
  let req := (let a := fieldOf s.otp.bootcfg 16 2; if a = 0 then 3 else a)
  let has := fun (k : Nat) => (List.range 4).any (fun i => (s.keyHash (k + i)).valid && !(s.keyHash (k + i)).revoked)
  (req % 2 = 0 || has 0) && (req / 2 % 2 = 0 || has 4)

/-- LC_ADV (R406).  The grants of Manufacturing, which stood from reset, last until the next one (R425: DEDUCED, assumption log 88). -/
def mbLcAdv (c : MbCmd) (s : State) : MbRes :=
  let t := c.arg 0
  let move := fun (s : State) => granted { s with otp := { s.otp with lc := Fin.ofNat 4 t } }
  if !c.admin then refuse s 1
  else if !lcNext s.lc t then refuse s 6
  else if t = 1 then
    if !((s.keyHash 0).valid || (s.keyHash 4).valid) then refuse s 6
    else
      let r := s.random 48
      move ({ r.2 with rot := { r.2.rot with uds := r.1 } }.setFld (rts 0x44) 8 4 15)
  else if t = 2 then
    if fieldOf s.otp.bootcfg 0 4 = 0 ∨ 6 < fieldOf s.otp.bootcfg 0 4 ∨ !s.bootKeysOk then refuse s 6 else move s
  else if !Nat.testBit s.dbg 0 then refuse s 1
  else
    let s := { s with
      rot := { s.rot with
        uds := []
        handles := s.rot.handles.filter (fun e => match e.2 with
          | some k => !k.persist
          | none => false) }
      otp := { s.otp with hashes := [] } }
    move s

/-- A key hash slot as PROV_HASH writes it. -/
def Otp.setHash (o : Otp) (k : Nat) (h : KeyHash) : Otp := { o with hashes := SMap.set {} o.hashes k h }

/-- PROV_HASH (R408, R427). -/
def mbProvHash (c : MbCmd) (s : State) : MbRes :=
  let k := c.arg 0
  if !c.admin || decide (2 ≤ s.lc) then refuse s 1
  else if 11 < k ∨ c.len < 48 then refuse s 2
  else if (s.keyHash k).revoked then refuse s 3
  else
    (s.mbRead c 0 48).use fun h s => granted { s with otp := s.otp.setHash k ⟨h, true, false⟩ }

/-- PROV_REVOKE (R408, R427). -/
def mbProvRevoke (c : MbCmd) (s : State) : MbRes :=
  let k := c.arg 0
  if !c.admin || !(s.lc = 1 || s.lc = 2) then refuse s 1
  else if 11 < k then refuse s 2
  else granted { s with otp := s.otp.setHash k { s.keyHash k with revoked := true } }

/-- PROV_CFG: the bits that BOOTCFG gives as 0 stay 0 (R408, R427). -/
def mbProvCfg (c : MbCmd) (s : State) : MbRes :=
  if !c.admin || decide (2 ≤ s.lc) then refuse s 1
  else granted { s with otp := { s.otp with bootcfg := BitVec.ofNat 64 (c.arg 0 + 4294967296 * c.arg 1) &&& 0x1FF000FFFFF } }

/-- A command by its OP (R427). -/
def mbRun (c : MbCmd) (s : State) : MbRes :=
  match c.op with
  | 0x01 => mbRng c s | 0x10 => mbBootImg c s | 0x20 => mbDiceNext c s | 0x21 => mbMrExtend c s | 0x22 => mbAttest c s
  | 0x23 => mbGetPub c s | 0x30 => mbSlotInstall c s | 0x31 => mbSlotErase c s | 0x32 => mbConfSet c s | 0x33 => mbConfClr c s
  | 0x40 => mbKeyGen c s | 0x41 => mbKeyErase c s | 0x42 => mbKeyPub c s | 0x50 => mbCtrAdv c s | 0x60 => mbDbgChal c s
  | 0x61 => mbDbgResp c s | 0x70 => mbLcAdv c s | 0x71 => mbProvHash c s | 0x72 => mbProvRevoke c s | 0x73 => mbProvCfg c s
  | _ => refuse s 2

/-- A write of MB_CMD (R427): the arguments stand as they are at the write.  With a failed test no command is accepted
(R410). -/
def State.writeMbCmd (s : State) (p : Nat) (v : W32) : State :=
  if s.bit (rts 0x44) 1 then s
  else if s.bit (rtm p 0x44) 0 then s.raise (rtm p 0) 0
  else
    let own : PartId := BitVec.ofNat 6 (s.fld (rtm p 0x24) 0 6)
    let c : MbCmd :=
      { page := p, op := fieldOf v 0 8, part := own, args := (List.range 4).map (fun k => s.reg (rtm p (0x48 + 4 * k)))
        buf := s.reg64 (rtm p 0x58), len := s.fld (rtm p 0x60) 0 16 }
    ({ s with rot := { s.rot with queue := s.rot.queue ++ [c] } }).setNat (rtm p 0x44) 1

/-- MAILBOX_COMMAND_DONE: the oldest command ends (R427). -/
def mailboxDone (s : State) : State :=
  match s.rot.queue with
  | [] => s
  | c :: rest =>
    if !s.bit (rts 0x44) 0 || s.bit (rts 0x44) 1 then s
    else
      let s := s.force (rts 0) 1
      let r := mbRun c { s with rot := { s.rot with queue := rest } }
      if r.held then { r.st with rot := s.rot } else
      let t := ((r.st.setReg (rtm c.page 0x64) r.out0).setReg (rtm c.page 0x68) r.out1).setNat (rtm c.page 0x44) (2 + 256 * r.result)
      (if r.result = 0 then t else t.raise (rtm c.page 0) 0).fire (0x6FF + c.page)

/-- MAILBOX_COMMAND_DONE (R427). -/
def execMailboxCommandDone (s : State) : Out := act s mailboxDone

/-- KAT_DONE: the known-answer tests end; core 0 leaves reset, or KATFAIL sets (R410; 17 R486). -/
def execKatDone (ok : Bool) (s : State) : Out :=
  act s (fun s =>
    if s.bit (rts 0x44) 0 then s
    else
      let s := s.setBit (rts 0x44) 0 true
      if ok then (if s.domState 0 = 0 then (s.freshCore 0).setDom 0 3 else s) else (s.setBit (rts 0x44) 1 true).raise (rts 0) 3)

/-- The reset address (R411). -/
def State.rvbar (s : State) : Nat := s.fld (rts 0x4C) 12 20 * 4096 + 4294967296 * s.fld (rts 0x50) 0 10

/-- A write of RT_RVBAR_LO or RT_RVBAR_HI; `v` has only implemented bits (R411). -/
def State.writeRvbar (s : State) (hi : Bool) (v : W32) : State :=
  let t := s.setReg (rts (if hi then 0x50 else 0x4C)) v
  if inRom t.rvbar || t.isDram t.rvbar then t else s.raise (rts 0) 4

/-! ### The eMRAM (R407) -/

/-- May a PARTID read, or write, an eMRAM offset (R407)? -/
def State.emRight (s : State) (p : PartId) (off : Nat) (write : Bool) : Bool :=
  if off < 0x10000 then false
  else if off < 0x11000 then !write
  else if off < 0x100000 then false
  else if off < 0xF00000 then !write || p = 0
  else if off < 0x1000000 then false
  else
    let g := s.reg (rts (0x100 + 4 * ((off - 0x1000000) / 65536)))
    p = 0 || (bitOf g 31 && fieldOf g 0 6 = p.toNat)

/-- A byte of the configuration area (R408). -/
def State.configByte (s : State) (off : Nat) : Byte :=
  let o := off - 0x10000
  if o < 0x200 then (if o % 8 < 4 then (leBytes 4 (s.ctr (o / 8)).toNat).getD (o % 8) 0 else 0)
  else if o < 0x208 then (leBytes 8 s.otp.bootcfg.toNat).getD (o - 0x200) 0
  else if o = 0x208 then BitVec.ofNat 8 s.lc
  else if 0x400 ≤ o ∧ o < 0x700 then
    let h := s.keyHash ((o - 0x400) / 64)
    let k := o % 64
    if k < 48 then h.hash.getD k 0 else if k = 48 then BitVec.ofNat 8 (b2n h.valid + 2 * b2n h.revoked) else 0
  else 0

/-- A byte of the eMRAM. -/
def State.emByte (s : State) (off : Nat) : Byte :=
  if 0x10000 ≤ off ∧ off < 0x11000 then s.configByte off else Memory.read s.mem.emram off

/-- A refused access (R407; 02 R23). -/
def State.emRefuse (s : State) (p : PartId) (off : Nat) : State :=
  let a := 0x3E000000000 + off
  let s := s.count (rts 0x64)
  let s := s.setNat (rts 0x6C) a
  let s := s.setNat (rts 0x70) (a / 4294967296 % 1024 + 65536 * p.toNat)
  s.raise (rts 0) 0 (some p)

/-- Read `n` bytes of the eMRAM: zeros where the access is refused (02 R23; 15 R407). -/
def State.emRead (s : State) (p : PartId) (off n : Nat) : List Byte × State :=
  let s := s.force (rts 0) 0
  if (List.range n).all (fun k => s.emRight p (off + k) false) then ((List.range n).map (fun k => s.emByte (off + k)), s)
  else (List.replicate n 0, s.emRefuse p off)

/-- Write to the eMRAM: 8 aligned bytes; other sizes are dropped and reported (02 R23; 15 R407).  They count as refused accesses too (DEDUCED:
R407 sends a refused access to R23 and back). -/
def State.emWrite (s : State) (p : PartId) (off : Nat) (bytes : List Byte) : State :=
  let s := s.force (rts 0) 0
  if bytes.length ≠ 8 ∨ off % 8 ≠ 0 ∨ !s.emRight p off true then s.emRefuse p off
  else { s with mem := { s.mem with emram := Memory.writeN s.mem.emram off bytes } }

/-- EMRAM_ACCESS; an access of the root of trust itself is not checked (15 R407). -/
def emramAccess (w : EmAccess) (s : State) : State :=
  let off := w.off.toNat
  match w.who, w.data with
  | some i, some d => s.emWrite (s.partOf i) off (leBytes w.size d.toNat)
  | some i, none => (s.emRead (s.partOf i) off w.size).2
  | none, some d =>
    if 0x10000 ≤ off ∧ off < 0x11000 then s
    else { s with mem := { s.mem with emram := Memory.writeN s.mem.emram off (leBytes (min 8 w.size) d.toNat) } }
  | none, none => s

/-- EMRAM_ACCESS (02 R23; 15 R407). -/
def execEmramAccess (w : EmAccess) (s : State) : Out := act s (emramAccess w)

end Sys2Proof.Machine
end

