-- ==== Sys2Proof/Machine/Links.lean ====
section
/-! DEFINITION. What the IOC's initiators reach: visible DRAM, PCIe ports, and the Parraha link with its routing, delivery and windows
(14 R384-R394). -/

namespace Sys2Proof.Machine

/-! ### Accesses of the IOC's initiators to visible DRAM (08 R232) -/

/-- Is every byte in visible DRAM? -/
def State.inDram (s : State) (a n : Nat) : Bool := (rangeLines a n).all (fun l => s.isDram (64 * l))

/-- The write in which a port sends a message to the event fabric, at IOC router 0, port 1 (12 R331); no window gives it a PARTID: 0 (DESIGN
CHOICE, assumption log 85). -/
def State.msiPacket (s : State) (r port : Nat) (m : MsiWrite) : Packet :=
  s.stamp r port
    { op := opWrPt, part := 0, dst := 68, dstp := 1, addr := BitVec.ofNat 42 (s.doorbell + m.off.toNat)
      size := BitVec.ofNat 6 (m.size - 1), inl := BitVec.setWidth 256 m.data }

/-- Would a message have to wait on its way, and why (03 R59)? -/
def State.msiHolder (s : State) (r port : Nat) (m : MsiWrite) : Option Held :=
  match (s.travel (s.msiPacket r port m) 16 r).1 with
  | .held h => some (h, 0)
  | _ => none

/-- A port sends a message: the event fabric takes it or refuses it, and answers; a lost one, or one whose answer is lost, times out (12 R331;
10 R285-R288). -/
def State.sendMsi (s : State) (r port : Nat) (m : MsiWrite) : State :=
  let q := s.msiPacket r port m
  match (s.force (routerPage r 0) 0).travel q 16 r with
  | (.held h, _) => s.holdFor (h, 0)
  | (.lost, t) => t.timeoutAt r port q.addr.toNat 0
  | (.there, t) =>
    let t := msiMessage m t
    let back := t.stamp 68 1 { op := opAck, vc := replyVc q, part := 0, dst := BitVec.ofNat 7 r, dstp := Fin.ofNat 8 port }
    match t.travel back 16 68 with
    | (.there, u) => u
    | (.lost, u) => u.timeoutAt r port q.addr.toNat 0
    | (.held h, _) => s.holdFor (h, 0)

/-! ### Requests that reach a port, and their answers -/

/-- The enabled bytes of a write packet as runs of rising addresses: each run's address and bytes (10 R270). -/
def writeRuns (q : Packet) : List (Nat × List Byte) :=
  let a := q.addr.toNat
  let at_ := if q.op = opWrLn then 64 * (a / 64) else a
  let bytes := if q.op = opWrLn then leBytes 64 q.line.toNat else leBytes (min 32 (q.size.toNat + 1)) q.inl.toNat
  let on := fun (i : Nat) => bitOf q.be ((at_ + i) % 64)
  ((List.range bytes.length).foldl
    (fun (l : List (Nat × List Byte)) i =>
      if !on i then l
      else
        let b := bytes.getD i 0
        match l.getLast? with
        | some (s, r) => if s + r.length = at_ + i then l.dropLast ++ [(s, r ++ [b])] else l ++ [(at_ + i, [b])]
        | none => [(at_ + i, [b])]) [])

/-- The bytes that a read packet asks for. -/
def readSize (q : Packet) : Nat := min 32 (q.size.toNat + 1)

/-- Answer a read with bytes. -/
def State.answerRead (s : State) (q : Packet) (l : List Byte) (poison : Bool) : State :=
  s.respond q opDataS (BitVec.ofNat 256 (leNat (fit (readSize q) l))) 0 poison

/-- Answer a write. -/
def State.answerWrite (s : State) (q : Packet) : State := s.respond q opAck 0 0 false

/-- A port reads or writes visible DRAM (08 R232; 03 R57, R59; 10 R285): the bytes and their poison, none while the access waits.  One that
is lost gives 0. -/
def State.portAccess (s : State) (r port pa n : Nat) (p : PartId) (data : Option (List Byte)) (bad : Bool) :
    Option (List Byte × Bool) × State :=
  match s.wholeAccess r port p pa n (data.map (fun l => (l, bad))) with
  | (.held h, _) => (none, s.holdFor (h, p))
  | (.done l b _, t) => (some (l, b), t)

/-- Is the domain of port PEi up? -/
def State.peUp (s : State) (i : Nat) : Bool := s.domUp (280 + i)

/-- Does an address of the PCIe range lie in its port's ECAM, and in the root port's own header (R384)? -/
def inEcam (a : Nat) : Bool := decide (a % 0x4000000000 < 0x10000000)
def ownHeader (a : Nat) : Bool := decide (a % 0x4000000000 < 0x1000)

/-- A failed outbound request is counted and recorded (R385). -/
def State.pcieError (s : State) (i a : Nat) : State :=
  let s := s.count (pciePage i 0x58)
  let s := s.setNat (pciePage i 0x5C) a
  let s := s.setNat (pciePage i 0x60) (a / 4294967296 % 1024)
  (s.raise (pciePage i 0) 0).fire (0x602 + 16 * i)

/-! ### The Parraha link: routing (R388-R390) -/

/-- Packet types (R390). -/
def tWr : Nat := 0x1
def tRd : Nat := 0x2
def tRdr : Nat := 0x3
def tMsg : Nat := 0x4
def tNack : Nat := 0x5
def tTick : Nat := 0x8
def tDlyReq : Nat := 0x9
def tDlyRsp : Nat := 0xA

/-- Where a packet goes: to this device, to a link, or nowhere (R388). -/
inductive PrlWay where
  | here
  | link (p : Nat)
  | nowhere
  deriving DecidableEq, Repr

/-- The routing of R388. -/
def prlRoute (me dst hops xn yn : Nat) (xwrap ywrap : Bool) : PrlWay :=
  let mx := me % 512
  let my := me / 512
  let tx := dst % 512
  let ty := dst / 512
  let dx := (tx + xn * 512 - mx) % xn
  let dy := (ty + yn * 512 - my) % yn
  if xn ≤ tx ∨ yn ≤ ty ∨ hops = 1023 then .nowhere
  else if dx ≠ 0 then (if xwrap then (if dx ≤ xn / 2 then .link 0 else .link 1) else if mx < tx then .link 0 else .link 1)
  else if dy ≠ 0 then (if ywrap then (if dy ≤ yn / 2 then .link 2 else .link 3) else if my < ty then .link 2 else .link 3)
  else .here

/-- The device's node ID, and the way of a packet (R388, R397). -/
def State.node (s : State) : Nat := s.fld (prlPage 0 0x100) 0 18
def State.prlWay (s : State) (k : PrlPacket) : PrlWay :=
  let d := prlPage 0 0x104
  prlRoute s.node k.dst.toNat k.hops.toNat (s.fld d 0 9 + 1) (s.fld d 16 9 + 1) (s.bit d 30) (s.bit d 31)

/-- Is the domain of port PLi up, and its link? -/
def State.plUp (s : State) (p : Nat) : Bool := s.domUp (284 + p)
def State.plLink (s : State) (p : Nat) : Bool := s.plUp p && s.bit (prlPage p 0x44) 0

/-- A packet goes out on a link, or is discarded where the link is down (R390). -/
def State.prlOut (s : State) (p type : Nat) (k : PrlPacket) : State :=
  if s.plLink p then { s with port := { s.port with sent := SMap.set none s.port.sent p (some ⟨type, k⟩) } }
  else (s.count (prlPage p 0x68)).raise (prlPage p 0) 1

/-! ### Inbound packets (R392-R394) -/

/-- The inbound window of a remote address, and what it allows (R392). -/
def State.iwTranslate (s : State) (a n : Nat) (src : Nat) (write : Bool) : Option (Nat × PartId) :=
  match firstWhere 16 (fun w =>
    let b := prlPage 0 (0x300 + 16 * w)
    let base := s.fld b 0 27 * 2097152
    decide (base ≤ a) && decide (a < base + 2097152 * s.fld (b + 4) 0 16)) with
  | none => none
  | some w =>
    let b := prlPage 0 (0x300 + 16 * w)
    let base := s.fld b 0 27 * 2097152
    let pa := s.fld (b + 8) 0 21 * 2097152 + (a - base)
    let ok := decide (a + n ≤ base + 2097152 * s.fld (b + 4) 0 16) && s.bit b (if write then 31 else 30)
      && (!s.bit (b + 12) 31 || s.fld (b + 12) 0 18 = src) && s.inDram pa n
    if ok then some (pa, BitVec.ofNat 6 (s.fld (b + 4) 24 6)) else none

/-- A refusal reaches the device that sent the request (R393). -/
def State.prlNack (s : State) (p : Nat) (k : PrlPacket) : State :=
  let s := s.count (prlPage p 0x6C)
  let s := s.setNat (prlPage p 0x70) (k.src.toNat + 1048576 * k.stat.val)
  (s.raise (prlPage p 0) 0).fire (0x642 + 16 * p)

/-- An answer to a packet: to its source, with its address and tag (R390). -/
def State.prlAnswer (s : State) (k : PrlPacket) (stat : Fin 4) (data : List Byte) : PrlPacket :=
  { dst := k.src, src := BitVec.ofNat 18 s.node, tag := k.tag, addr := k.addr, len := data.length, stat := stat, data := data }

/-- N of the message ring, its base and the slot at TAIL (R394). -/
def State.ringSize (s : State) : Nat := 2 ^ (s.fld (prlPage 0 0x10C) 0 4 + 4)
def State.ringBase (s : State) : Nat := (s.reg (prlPage 0 0x110)).toNat + 4294967296 * s.fld (prlPage 0 0x114) 0 10
def State.ringTail (s : State) : Nat := s.fld (prlPage 0 0x11C) 0 16

/-- Has the ring a slot for a message (R394)? -/
def State.ringTakes (s : State) : Bool :=
  s.bit (prlPage 0 0x10C) 31 && decide ((s.ringTail + 1) % s.ringSize ≠ s.fld (prlPage 0 0x118) 0 16)

/-- The 128 bytes of a message slot (R394). -/
def ringSlot (p : Nat) (k : PrlPacket) (phase : Bool) : List Byte :=
  fit 64 k.data ++ leBytes 4 k.src.toNat ++ [BitVec.ofNat 8 (k.data.length - 1), BitVec.ofNat 8 p, BitVec.ofNat 8 (b2n phase)]
    ++ List.replicate 57 0

/-- The message that a write to the doorbell page over the link is (12 R331, R332). -/
def prlMessage (p : Nat) (k : PrlPacket) : MsiWrite :=
  { port := Fin.ofNat 8 (4 + p), req := k.src, off := BitVec.ofNat 12 k.addr.toNat, size := k.data.length
    data := BitVec.ofNat 64 (leNat k.data) }

/-- What a delivered packet makes the device send back, if anything, as its type and fields (R392-R394).  Its caller has seen no
regulator hold the access; a WR with STAT POISON is stored poisoned (18 R493). -/
def State.prlDeliver (s : State) (p type : Nat) (k : PrlPacket) : Option (Nat × PrlPacket) × State :=
  let a := k.addr.toNat
  if type = tWr then
    if a / 4096 * 4096 = s.doorbell then
      (none, s.sendMsi 70 0 (prlMessage p k))
    else
      match s.iwTranslate a k.data.length k.src.toNat true with
      | some (pa, part) => (none, (s.portAccess 70 0 pa k.data.length part (some k.data) (k.stat = 2)).2)
      | none => (some (tNack, s.prlAnswer k 1 []), s)
  else if type = tRd then
    match s.iwTranslate a k.len k.src.toNat false with
    | none => (some (tRdr, s.prlAnswer k 1 []), s)
    | some (pa, part) =>
      let r := s.portAccess 70 0 pa k.len part none false
      let x := r.1.getD ([], false)
      (some (tRdr, if x.2 then s.prlAnswer k 2 [] else s.prlAnswer k 0 x.1), r.2)
  else if type = tRdr then
    let s := s.force (prlPage p 0) 0
    let s := if k.stat = 0 then s else s.prlNack p k
    match s.port.reads.findIdx? (fun r => r.tag = k.tag.toNat) with
    | some j =>
      match s.port.reads[j]? with
      | some r =>
        let s := { s with port := { s.port with reads := s.port.reads.eraseIdx j } }
        (none, s.answerRead r.pkt (if k.stat = 0 then k.data else []) (k.stat = 2))
      | none => (none, s)
    | none => (none, s)
  else if type = tMsg then
    let t := s.ringTail
    if s.ringTakes then
      let at_ := s.ringBase + 128 * t
      let s := if s.inDram at_ 128 then (s.portAccess 70 0 at_ 128 0 (some (ringSlot p k s.port.phase)) false).2 else s
      let n := (t + 1) % s.ringSize
      let s := if n = 0 then { s with port := { s.port with phase := !s.port.phase } } else s
      (none, (s.setNat (prlPage 0 0x11C) n).fire (0x641 + 16 * p))
    else (some (tNack, s.prlAnswer k 3 []), s)
  else if type = tNack then (none, (s.force (prlPage p 0) 0).prlNack p k)
  else (none, s)

/-- The access of visible DRAM that a packet delivered here makes: its address, its bytes and its PARTID (R392, R394). -/
def State.prlWants (s : State) (type : Nat) (k : PrlPacket) : Option (Nat × Nat × PartId) :=
  if type = tWr then
    if k.addr.toNat / 4096 * 4096 = s.doorbell then none
    else (s.iwTranslate k.addr.toNat k.data.length k.src.toNat true).map (fun x => (x.1, k.data.length, x.2))
  else if type = tRd then (s.iwTranslate k.addr.toNat k.len k.src.toNat false).map (fun x => (x.1, k.len, x.2))
  else if type = tMsg && s.ringTakes && s.inDram (s.ringBase + 128 * s.ringTail) 128 then some (s.ringBase + 128 * s.ringTail, 128, 0)
  else none

/-- Why that access would have to wait, and the packet with it (03 R59). -/
def State.prlHolder (s : State) (type : Nat) (k : PrlPacket) : Option Held :=
  match s.prlWants type k with
  | some (a, n, p) => s.wouldWait 70 0 p a n (type ≠ tRd)
  | none => if type = tWr ∧ k.addr.toNat / 4096 * 4096 = s.doorbell then s.msiHolder 70 0 (prlMessage 0 k) else none

/-- A packet sets out, or is delivered here, at arrival port `p`: looped back, it leaves by no link (R388).  `fuel` bounds the answers
that answers bring. -/
def State.prlSend (s : State) (p type : Nat) (k : PrlPacket) : Nat → State
  | 0 => s
  | fuel + 1 =>
    match s.prlWay k with
    | .nowhere => s.count (prlPage p 0x68)
    | .link q => s.prlOut q type k
    | .here =>
      let r := s.prlDeliver p type k
      match r.1 with
      | some (t, a) => r.2.prlSend p t a fuel
      | none => r.2

/-! ### Outbound windows of the Parraha link (R391) -/

/-- Is an outbound window a MSG window? -/
def State.prlMsgWindow (s : State) (w : Nat) : Bool := s.bit (prlPage 0 (0x200 + 16 * w)) 30

/-- The packet of an access through outbound window `w`: its node, its remote address and the length. -/
def State.prlTo (s : State) (w a n : Nat) : PrlPacket :=
  let b := prlPage 0 (0x200 + 16 * w)
  { dst := BitVec.ofNat 18 (s.fld (b + 8) 0 18), src := BitVec.ofNat 18 s.node, len := n
    addr := BitVec.ofNat 48 (s.fld (b + 12) 0 27 * 2097152 + (a % 0x10000000000 - s.fld b 0 19 * 2097152)) }

/-- A read through a MEM window; its tag is the next one. -/
def State.prlRead (s : State) (w a n : Nat) : PrlPacket := { s.prlTo w a n with tag := s.port.tag }

/-- A write: WR in a MEM window, MSG in a MSG window; poisoned data goes with STAT 2 (18 R493). -/
def State.prlWrite (s : State) (w a : Nat) (bytes : List Byte) (bad : Bool) : Nat × PrlPacket :=
  (if s.prlMsgWindow w then tMsg else tWr, { s.prlTo w a bytes.length with data := bytes, stat := if bad then 2 else 0 })

/-- Why one of the packets that come back here would have to wait. -/
def State.loopHolder (s : State) (ks : List (Nat × PrlPacket)) : Option Held :=
  ks.findSome? (fun k => if s.prlWay k.2 = .here then s.prlHolder k.1 k.2 else none)

/-! ### What an engine does beyond the ports (R384, R385, R391; assumption log 21) -/

/-- An access of consecutive bytes as its parts in lines: address and bytes of each. -/
def lineCuts (a : Nat) (bytes : List Byte) : List (Nat × List Byte) :=
  (rangeLines a bytes.length).map (fun l =>
    let lo := max a (64 * l)
    (lo, (bytes.drop (lo - a)).take (64 * l + 64 - lo)))

/-- The packets of an engine's write to the Parraha range. -/
def State.engineWrites (s : State) (a : Nat) (bytes : List Byte) (bad : Bool) : List (Nat × PrlPacket) :=
  (lineCuts a bytes).filterMap (fun r => if inParraha r.1 then (s.prlWindow r.1).map (fun w => s.prlWrite w r.1 r.2 bad) else none)

/-- The packets of an engine's read there that may come back here. -/
def State.engineReads (s : State) (a n : Nat) : List (Nat × PrlPacket) :=
  (lineCuts a (List.replicate n 0)).filterMap (fun r =>
    if inParraha r.1 then (s.prlWindow r.1).map (fun w => (tRd, s.prlRead w r.1 r.2.length)) else none)

/-- An engine reads `n` bytes of one line beyond a port; none where no answer can come.  What comes from outside the device is free.  A
PCIe port without a link gives all ones (R385); a MSG window gives 0 (R391); a read that comes back here reads this device's
memory, and a refused one is recorded and gives 0 (R392, R393). -/
def State.beyond (s : State) (a n : Nat) : Option (List Byte × Bool) × State :=
  let free := fun (s : State) =>
    let r := s.random n
    (some (r.1, false), r.2)
  if inPcie a then
    let i := peOf a
    if ownHeader a || s.bit (pciePage i 0x48) 0 then free s else (some (List.replicate n 0xFF, false), s.pcieError i a)
  else
    match s.prlWindow a with
    | none => (none, s)
    | some w =>
      if s.prlMsgWindow w then (some (List.replicate n 0, false), s)
      else
        let k := s.prlRead w a n
        let s := { s with port := { s.port with tag := k.tag + 1 } }
        match s.prlWay k with
        | .nowhere => (none, s.prlSend 0 tRd k 1)
        | .link q => if s.plLink q then free (s.prlSend 0 tRd k 1) else (none, s.prlSend 0 tRd k 1)
        | .here =>
          let r := s.prlDeliver 0 tRd k
          match r.1 with
          | some (_, x) => (some (fit n x.data, decide (x.stat = 2)), if x.stat = 0 then r.2 else r.2.prlNack 0 x)
          | none => (none, r.2)

/-- The same for consecutive bytes, in the order of their addresses. -/
def State.beyondAll (s : State) (a n : Nat) : Option (List Byte × Bool) × State :=
  (lineCuts a (List.replicate n 0)).foldl
    (fun (x : Option (List Byte × Bool) × State) r =>
      match x.1 with
      | none => x
      | some (l, bad) =>
        let y := x.2.beyond r.1 r.2.length
        match y.1 with
        | none => (none, y.2)
        | some (m, b) => (some (l ++ m, bad || b), y.2))
    (some ([], false), s)

end Sys2Proof.Machine
end

