-- ==== Sys2Proof/Machine/Te.lean ====
section
/-! DEFINITION. The physical function, virtual functions, queue pairs and transfer engines (13). -/

namespace Sys2Proof.Machine

/-! ### Virtual functions (R351, R370) -/

/-- VFINFO_A and VFINFO_B of function `v`, and their fields. -/
def vfA (v : Nat) : Nat := tePage 0 (0x400 + 8 * v)
def vfB (v : Nat) : Nat := tePage 0 (0x404 + 8 * v)
def State.vfExists (s : State) (v : Nat) : Bool := s.bit (vfA v) 31
def State.vfCompat (s : State) (v : Nat) : Bool := s.bit (vfA v) 30
def State.vfResetting (s : State) (v : Nat) : Bool := s.bit (vfA v) 29
def State.qbase (s : State) (v : Nat) : Nat := s.fld (vfA v) 16 10
def State.vfPart (s : State) (v : Nat) : PartId := BitVec.ofNat 6 (s.fld (vfA v) 8 6)
def State.nqp (s : State) (v : Nat) : Nat := s.fld (vfA v) 0 7
def State.vbase (s : State) (v : Nat) : Nat := s.fld (vfB v) 16 12
def State.nvec (s : State) (v : Nat) : Nat := s.fld (vfB v) 0 9

/-- Offset `o` of queue `q` of function `v`. -/
def qreg (v q o : Nat) : Nat := vfPage v (0x400 + 0x20 * q + o)
def State.qEn (s : State) (v q : Nat) : Bool := s.bit (qreg v q 0x10) 0
def State.qTgt (s : State) (v q : Nat) : Nat := s.fld (qreg v q 0x10) 8 4
def State.qSize (s : State) (v q : Nat) : Nat := 2 ^ (s.fld (qreg v q 0x10) 2 4 + 4)
def State.qBusy (s : State) (v q : Nat) : Bool := s.bit (qreg v q 0x1C) 0
def State.qHalt (s : State) (v q : Nat) : Bool := s.bit (qreg v q 0x1C) 1
def State.qTail (s : State) (v q : Nat) : Nat := s.fld (qreg v q 0x14) 0 16
def State.cqHead (s : State) (v q : Nat) : Nat := s.fld (qreg v q 0x14) 16 16
def State.qHead (s : State) (v q : Nat) : Nat := s.fld (qreg v q 0x18) 0 16
def State.cqProd (s : State) (v q : Nat) : Nat := s.fld (qreg v q 0x18) 16 16
def State.sqBase (s : State) (v q : Nat) : Nat := s.reg64 (qreg v q 0)
def State.cqBase (s : State) (v q : Nat) : Nat := s.reg64 (qreg v q 8)

/-- Descriptors in the slots of engine `e`, and parked ones. -/
def State.teSlots (s : State) (e : Nat) : List Desc := SMap.get [] s.te.slots e
def State.setSlots (s : State) (e : Nat) (l : List Desc) : State := { s with te := { s.te with slots := SMap.set [] s.te.slots e l } }
def State.teParked (s : State) (e : Nat) : List Desc := SMap.get [] s.te.parked e
def State.setParked (s : State) (e : Nat) (l : List Desc) : State :=
  { s with te := { s.te with parked := SMap.set [] s.te.parked e l } }

/-- An engine sets a PG_ERR bit of its page and fires its source (R372). -/
def State.teErr (s : State) (e bit : Nat) : State := (s.raise (tePage e 0) bit).fire (0x408 + e)

/-- The router and port of an engine; the switch's for 8 and 9 (R350, R368; 10 R267). -/
def teAt (e : Nat) : Nat × Nat := if e < 4 then (70, 1) else if e < 8 then (70, 2) else (68, 0)

/-- May an engine, or the switch, act: its domain and the functions' are up and no soft reset runs on its page? -/
def State.teUp (s : State) (e : Nat) : Bool :=
  s.domUp 270 && (if e < 8 then s.domUp (288 + e) && !s.bit (tePage e 0x10) 0 else s.domUp 279 && !s.bit (tsw 0x10) 0)

/-- PG_CTL.EN of an engine's page or the switch's: new work is accepted (02 R29). -/
def State.teOn (s : State) (e : Nat) : Bool := s.teUp e && s.bit (if e < 8 then tePage e 0xC else tsw 0xC) 0

/-! ### The BYTES meter (R362) -/

/-- The regulator whose BYTES meter engines are charged on: IOC gateway 0's. -/
def teRg : Nat := routerPage 72 0x2000

/-- Is the PARTID exhausted for the engines? -/
def State.teSpent (s : State) (e : Nat) (p : PartId) : Bool := decide (e < 8) && s.exhausted teRg .bytes p.toNat

/-- Charge `n` bytes; TE_BCNT counts them in units of 64 (R362, R370). -/
def State.teCharge (s : State) (e : Nat) (p : PartId) (n : Nat) : State :=
  if e < 8 then
    let t := SMap.get 0 s.te.charged e + n
    let s := { s with te := { s.te with charged := SMap.set 0 s.te.charged e (t % 64) } }
    (s.count (tePage e 0x48) (t / 64)).charge teRg .bytes p.toNat n
  else s

/-! ### Apertures and accesses (R354, R364) -/

/-- DBASE, bytes and PBASE of aperture `a`. -/
def State.apBase (s : State) (v a : Nat) : Nat :=
  s.fld (vfPage v (0x80 + 32 * a)) 12 20 * 4096 + s.fld (vfPage v (0x84 + 32 * a)) 0 16 * 4294967296
def State.apLen (s : State) (v a : Nat) : Nat := 4096 * (s.reg (vfPage v (0x90 + 32 * a))).toNat
def State.apPhys (s : State) (v a : Nat) : Nat :=
  s.fld (vfPage v (0x88 + 32 * a)) 12 20 * 4096 + s.fld (vfPage v (0x8C + 32 * a)) 0 10 * 4294967296

/-- Translate `[da, da + n)`: the physical address, or the status 3 ADDR or 4 RIGHTS (R354). -/
def State.aperture (s : State) (v da n : Nat) (write : Bool) : Except Nat Nat :=
  match firstWhere 8 (fun a =>
    decide (s.fld (vfPage v (0x80 + 32 * a)) 0 2 ≠ 0) && decide (s.apBase v a ≤ da) && decide (da < s.apBase v a + s.apLen v a)) with
  | none => .error 3
  | some a =>
    if s.apBase v a + s.apLen v a < da + n then .error 3
    else if !s.bit (vfPage v (0x80 + 32 * a)) (if write then 1 else 0) then .error 4
    else .ok (s.apPhys v a + (da - s.apBase v a))

/-- What an access gives: bytes and whether they are poisoned, a status of R364, or that a regulator holds it. -/
inductive TeAcc where
  | ok (bytes : List Byte) (poison : Bool)
  | err (status : Nat)
  | held (h : Held)

/-- The detectors of a function's page are evaluated at each of its accesses (18 R504). -/
def State.vfForce (s : State) (v : Nat) : State := ((s.force (vfPage v 0) 2).force (vfPage v 0) 3).force (vfPage v 0) 4

/-- The outcome of an access that reaches no memory: it is unmapped or barred for an engine, and times out (02 R21, R24). -/
def State.teTimeout (s : State) (e v a : Nat) : TeAcc × State :=
  (.err 5, (s.timeoutAt (teAt e).1 (teAt e).2 a (s.vfPart v)).raise (vfPage v 0) 3)

/-- Is the address in the PCIe or Parraha range and mapped, with its port's domain up? -/
def State.teOutside (s : State) (a n : Nat) : Bool :=
  (rangeLines a n).all (fun l => ((inPcie (64 * l) && s.peUp (peOf (64 * l))) || inParraha (64 * l)) && s.mapped (64 * l))

/-- What an engine reads enters its buffers, whose injected errors are found as the data leaves them: corrected, or poison (18
R504). -/
def State.teBuffer (s : State) (e : Nat) : Bool × State :=
  let find := fun (s : State) (b : Nat) => if s.bit (tePage e 0x1C) b then (s.force (tePage e 0) b).fire (0x408 + e) else s
  if e < 8 then (s.bit (tePage e 0x1C) 2, find (find s 1) 2) else (false, s)

/-- An engine reads `n` bytes at a device address. -/
def State.teRead (s : State) (e v da n : Nat) : TeAcc × State :=
  let p := s.vfPart v
  match s.aperture v da n false with
  | .error st => (.err st, (s.vfForce v).raise (vfPage v 0) 2)
  | .ok a =>
    if s.inDram a n then
      match (s.vfForce v).wholeAccess (teAt e).1 (teAt e).2 p a n none with
      | (.held h, _) => (.held (h, p), s)
      | (.done l poison lost, t) =>
        if lost then (.err 5, t.raise (vfPage v 0) 3)
        else
          let x := (t.teCharge e p n).teBuffer e
          let bad := poison || x.1
          (.ok l bad, if bad then x.2.raise (vfPage v 0) 4 else x.2)
    else if s.teOutside a n then
      match s.loopHolder (s.engineReads a n) with
      | some h => (.held h, s)
      | none =>
        let r := (s.vfForce v).beyondAll a n
        match r.1 with
        | none => r.2.teTimeout e v a
        | some (l, poison) =>
          let x := (r.2.teCharge e p n).teBuffer e
          let bad := poison || x.1
          (.ok l bad, if bad then x.2.raise (vfPage v 0) 4 else x.2)
    else (s.vfForce v).teTimeout e v a

/-- An engine writes bytes at a device address; `bad` carries POISON (R364). -/
def State.teWrite (s : State) (e v da : Nat) (bytes : List Byte) (bad : Bool := false) : TeAcc × State :=
  let p := s.vfPart v
  let n := bytes.length
  match s.aperture v da n true with
  | .error st => (.err st, (s.vfForce v).raise (vfPage v 0) 2)
  | .ok a =>
    if s.inDram a n then
      match (s.vfForce v).wholeAccess (teAt e).1 (teAt e).2 p a n (some (bytes, bad)) with
      | (.held h, _) => (.held (h, p), s)
      | (.done _ _ lost, t) => if lost then (.err 5, t.raise (vfPage v 0) 3) else (.ok [] false, t.teCharge e p n)
    else if s.teOutside a n then
      let ks := s.engineWrites a bytes bad
      match s.loopHolder ks with
      | some h => (.held h, s)
      | none => (.ok [] false, ks.foldl (fun s k => s.prlSend 0 k.1 k.2 4) ((s.vfForce v).teCharge e p n))
    else (s.vfForce v).teTimeout e v a

/-! ### Descriptors (R357-R361) -/

/-- Fields of a descriptor. -/
def Desc.op (d : Desc) : Nat := wordAt d.bytes 0 1
def Desc.flags (d : Desc) : Nat := wordAt d.bytes 1 1
def Desc.tag (d : Desc) : Nat := wordAt d.bytes 2 2
def Desc.len (d : Desc) : Nat := wordAt d.bytes 4 4
def Desc.src (d : Desc) : Nat := wordAt d.bytes 8 8
def Desc.dst (d : Desc) : Nat := wordAt d.bytes 16 8
def Desc.aux (d : Desc) : Nat := wordAt d.bytes 24 8
/-- The ML-KEM parameter set. -/
def Desc.set (d : Desc) : Nat := d.flags / 16 % 4

/-- The operations that a target accepts (R358, R369). -/
def opAccepted (tgt op : Nat) : Bool :=
  if tgt < 8 then [0x01, 0x02, 0x10, 0x18, 0x20, 0x21, 0x28, 0x29, 0x2A].contains op
  else if tgt = 8 then op = 0x40
  else op = 0x41

/-- The fixed LEN of an operation (R358). -/
def fixedLen (op set : Nat) : Option Nat :=
  match op with
  | 0x20 => some 48
  | 0x21 => some 144
  | 0x28 => some (if set = 0 then 3584 else 4736)
  | 0x29 => some (if set = 0 then 1184 else 1568)
  | 0x2A => some (if set = 0 then 1088 else 1568)
  | _ => none

/-- A key reference that names a handle (R358). -/
def refIsHandle (ref : Nat) : Bool := Nat.testBit ref 63
def refHandle (ref : Nat) : Nat := ref % 65536
def refOk (ref : Nat) : Bool := !refIsHandle ref || ref / 65536 % 140737488355328 = 0

/-- Fields of the AES parameter block (R360). -/
def aesMode (b : List Byte) : Nat := wordAt b 0 1 % 4
def aesDec (b : List Byte) : Bool := Nat.testBit (wordAt b 0 1) 2
def aesK256 (b : List Byte) : Bool := Nat.testBit (wordAt b 0 1) 3
def aesAad (b : List Byte) : Nat := wordAt b 4 4
def aesRef (b : List Byte) : Nat := wordAt b 8 8

/-- The use that an operation makes of a key (R421). -/
def Desc.keyUse (d : Desc) : KeyUse :=
  if d.op = 0x10 then .aes (aesK256 d.par) (aesMode d.par = 3) else if d.op = 0x20 then .sign else .decaps d.set
/-- The key reference of an operation, and the bytes of the key. -/
def Desc.keyRef (d : Desc) : Nat := if d.op = 0x10 then aesRef d.par else d.aux
def Desc.keyLen (d : Desc) : Nat :=
  if d.op = 0x10 then (if aesK256 d.par then 32 else 16) * (if aesMode d.par = 3 then 2 else 1)
  else if d.op = 0x20 then 48
  else if d.set = 0 then 2400 else 3168

/-- The checks of FLAGS, of the fields that must be 0 and of fixed LENs (R357, R358, R361, R369). -/
def Desc.fieldsOk (d : Desc) : Bool :=
  decide (d.flags &&& 0xCE = 0) && decide (d.set < 2) && decide (d.src < 281474976710656) && decide (d.dst < 281474976710656)
    && (match d.op with
        | 0x01 | 0x28 | 0x29 | 0x41 => decide (d.aux = 0)
        | 0x18 => [0, 1, 2, 4, 5, 6].contains d.aux
        | 0x40 => decide (d.aux < 8) && decide (60 ≤ d.len) && decide (d.len ≤ 9216)
        | _ => true)
    && (match fixedLen d.op d.set with
        | some n => decide (d.len = n)
        | none => true)

/-- The check of the AES parameter block (R360). -/
def Desc.aesOk (d : Desc) (b : List Byte) : Bool :=
  let m := aesMode b
  let pay := d.len - aesAad b
  let zero := fun (o n : Nat) => (sliceAt b o n).all (fun x => x == 0)
  decide (wordAt b 0 1 < 16) && zero 1 3 && zero 48 16 && (m = 2 || aesAad b = 0) && decide (aesAad b ≤ d.len)
    && (!(m = 0 || m = 3) || pay % 16 = 0) && (m ≠ 3 || (decide (16 ≤ pay) && decide (pay ≤ 16777216)))

/-- The check of a key reference: 2 BADPARAM, 7 KEYREF, or 0 (R358, R364; 15 R421). -/
def State.keyCheck (s : State) (d : Desc) : Nat × State :=
  if d.op = 0x10 ∨ d.op = 0x20 ∨ d.op = 0x2A then
    let s := s.force (vfPage d.vf 0) 5
    if !refOk d.keyRef then (2, s)
    else if refIsHandle d.keyRef && (s.engineKey (refHandle d.keyRef) (s.vfPart d.vf) d.keyUse).isNone then
      (7, s.raise (vfPage d.vf 0) 5)
    else (0, s)
  else (0, s)

/-- The checks before an operation starts, in the order of R361; a descriptor that fails one is finished with its status.  An access
that a regulator holds makes the start wait. -/
def State.checkDesc (s : State) (e : Nat) (d : Desc) : Except Held (Desc × State) :=
  let d := { d with checked := true }
  let fin := fun (st : Nat) => { d with fin := some (st, 0) }
  if d.len = 0 then .ok (fin 0, s)
  else if !opAccepted e d.op then .ok (fin 1, s)
  else if !d.fieldsOk then .ok (fin 2, s)
  else if d.op ≠ 0x10 then
    let k := s.keyCheck d
    .ok (if k.1 = 0 then d else fin k.1, k.2)
  else if d.aux % 64 ≠ 0 then .ok (fin 2, s)
  else
    let r := s.teRead e d.vf d.aux 64
    match r.1 with
    | .held h => .error h
    | .err st => .ok (fin st, r.2)
    | .ok b bad =>
      if bad then .ok (fin 6, r.2)
      else if !d.aesOk b then .ok (fin 2, r.2)
      else
        let d := { d with par := b }
        let k := r.2.keyCheck d
        .ok (if k.1 = 0 then d else { d with fin := some (k.1, 0) }, k.2)

/-! ### Starting a descriptor (R361) -/

/-- Stop a queue with a cause (R365). -/
def State.haltQueue (s : State) (v q code : Nat) : State :=
  s.setReg (qreg v q 0x1C) (putField (putBit (s.reg (qreg v q 0x1C)) 1 true) 2 3 code)

/-- HCODE of a status: a timeout, poison, or the fault of the ring given. -/
def haltCode (st ring : Nat) : Nat := if st = 5 then 3 else if st = 6 then 4 else ring

/-- The queues of the existing functions, by global number: number, function, local number. -/
def State.queues (s : State) : List (Nat × Nat × Nat) :=
  ((List.range 256).filter s.vfExists).flatMap (fun v => (List.range (s.nqp v)).map (fun q => (s.qbase v + q, v, q)))

/-- May a queue start its next descriptor on engine `e`: it is enabled, not halted, not in reset, has work and, but for receive
queues, no descriptor in progress (R355, R356, R361, R366)? -/
def State.queueReady (s : State) (e v q : Nat) : Bool :=
  s.qTgt v q = e && s.qEn v q && !s.qHalt v q && !s.vfResetting v && decide (s.qHead v q ≠ s.qTail v q)
    && (e = 9 || !s.qBusy v q) && !s.teSpent e (s.vfPart v)

/-- The next queue in the round: the first ready one above the last started, else the first ready one. -/
def State.nextQueue (s : State) (e : Nat) : Option (Nat × Nat × Nat) :=
  let l := s.queues.filter (fun x => s.queueReady e x.2.1 x.2.2)
  let last := SMap.get 0 s.te.last e
  let least := fun (m : List (Nat × Nat × Nat)) =>
    m.foldl (fun (a : Option (Nat × Nat × Nat)) x => match a with
      | some y => if x.1 < y.1 then some x else some y
      | none => some x) none
  match least (l.filter (fun x => decide (last ≤ x.1))) with
  | some x => some x
  | none => least l

/-- Fetch and check the next descriptor of a queue; one whose fetch exhausts its partition is parked first (R362). -/
def State.startQueue (s : State) (e g v q : Nat) : State :=
  let h := s.qHead v q
  let r := s.teRead e v (s.sqBase v q + 32 * h) 32
  let s1 := { r.2 with te := { r.2.te with last := SMap.set 0 r.2.te.last e (g + 1) } }
  match r.1 with
  | .held h => s.holdFor h
  | .err st => s1.haltQueue v q (haltCode st 1)
  | .ok b bad =>
    if bad then s1.haltQueue v q 4
    else
      let s2 := (s1.setFld (qreg v q 0x18) 0 16 ((h + 1) % s.qSize v q)).setBit (qreg v q 0x1C) 0 true
      let d : Desc := { vf := v, q := q, idx := h, bytes := b }
      if s2.teSpent e (s2.vfPart v) then s2.setParked e (s2.teParked e ++ [d])
      else
        match s2.checkDesc e d with
        | .ok (d, t) => t.setSlots e (t.teSlots e ++ [d])
        | .error h => s.holdFor h

/-- A parked descriptor takes a slot again once its partition may go on; one that was parked before its checks is checked then (R362). -/
def State.resumeParked (s : State) (e : Nat) : Option State :=
  match (s.teParked e).findIdx? (fun d => !s.teSpent e (s.vfPart d.vf)) with
  | some j =>
    match (s.teParked e)[j]? with
    | some d =>
      let t := s.setParked e ((s.teParked e).eraseIdx j)
      if d.checked then some (t.setSlots e (s.teSlots e ++ [d]))
      else
        match t.checkDesc e d with
        | .ok (d, t) => some (t.setSlots e (t.teSlots e ++ [d]))
        | .error h => some (s.holdFor h)
    | none => none
  | none => none

/-- DESCRIPTOR_START: with a free slot, parked descriptors first, then the queues in their round (R361, R362). -/
def descriptorStart (e : Nat) (s : State) : State :=
  if !s.teUp e || (decide (e < 8) && decide (4 ≤ (s.teSlots e).length)) then s
  else
    match s.resumeParked e with
    | some t => t
    | none =>
      if !s.teOn e then s
      else
        match s.nextQueue e with
        | some (g, v, q) => s.startQueue e g v q
        | none => s

/-- DESCRIPTOR_START (R361). -/
def execDescriptorStart (e : Fin 10) (s : State) : Out := act s (descriptorStart e.val)

/-! ### Operations (R358, R360, R361) -/

/-- What a piece of an operation gives: held by a regulator, a status, or the descriptor as it goes on. -/
inductive TeOut where
  | held (h : Held)
  | fail (status : Nat) (s : State)
  | ok (d : Desc) (s : State)

/-- Go on with the bytes of a read that is not poisoned. -/
def onRead (r : TeAcc × State) (f : List Byte → State → TeOut) : TeOut :=
  match r.1 with
  | .held h => .held h
  | .err st => .fail st r.2
  | .ok b bad => if bad then .fail 6 r.2 else f b r.2

/-- Go on after a write. -/
def onWrite (r : TeAcc × State) (f : State → TeOut) : TeOut :=
  match r.1 with
  | .held h => .held h
  | .err st => .fail st r.2
  | .ok _ _ => f r.2

/-- Go on with the key that the descriptor holds; where it holds none, its next step is to get it: from its handle, or from memory as a
piece of its own (R358, R362, R421).  XTS without K256 takes a type 1 key by R421, and the spec does not say what its second half is: free
(DESIGN CHOICE, assumption log 18). -/
def State.withKey (s : State) (e : Nat) (d : Desc) (f : List Byte → State → TeOut) : TeOut :=
  match d.key with
  | some k => f k s
  | none =>
    if refIsHandle d.keyRef then
      match s.engineKey (refHandle d.keyRef) (s.vfPart d.vf) d.keyUse with
      | some k =>
        let r := s.random (d.keyLen - k.length)
        f (k ++ r.1) r.2
      | none => .fail 7 (s.raise (vfPage d.vf 0) 5)
    else onRead (s.teRead e d.vf d.keyRef d.keyLen) (fun k s => .ok { d with key := some k } s)

/-- The descriptor finished with status 0. -/
def Desc.ended (d : Desc) (result : W32 := 0) : Desc := { d with done := d.len, fin := some (0, result) }

/-- `n` more bytes are done; the descriptor is finished when LEN is reached. -/
def Desc.advance (d : Desc) (n : Nat) : Desc :=
  let d := { d with done := d.done + n }
  if d.len ≤ d.done then { d with fin := some (0, 0) } else d

/-- The same for a COPY: its status is POISON if any of its reads was poisoned (R364). -/
def Desc.copied (d : Desc) (n : Nat) (bad : Bool) : Desc :=
  let d := { d with done := d.done + n, psn := d.psn || bad }
  if d.len ≤ d.done then { d with fin := some (if d.psn then 6 else 0, 0) } else d

/-- The bytes to the next 4 KiB boundary. -/
def toPage (a : Nat) : Nat := 4096 - a % 4096

/-- Byte `i` of what a COPY's piece of bytes `x` writes, where source and destination overlap: its original source byte, or a byte that the
descriptor has already written there, in an earlier piece or in this one; software cannot predict which (R361; free choices from number `n`
on, assumption log 1).  `fuel` bounds the bytes. -/
def Desc.overlapByte (d : Desc) (x : List Byte) (n : Nat) : Nat → Nat → Byte
  | 0, i => x.getD i 0
  | fuel + 1, i =>
    let k := d.src + d.done + i
    if k < d.dst then x.getD i 0
    else if k < d.dst + d.done then (if Config.pick (n + i) then d.saved.getD (k - d.dst) 0 else x.getD i 0)
    else if k < d.dst + d.done + x.length ∧ Config.pick (n + i) = true then d.overlapByte x n fuel (k - d.dst - d.done)
    else x.getD i 0

/-- What a COPY writes of the bytes that a piece read (R361). -/
def Desc.overlapped (d : Desc) (x : List Byte) (s : State) : List Byte × State :=
  if d.src ≠ d.dst ∧ d.src < d.dst + d.len ∧ d.dst < d.src + d.len then
    ((List.range x.length).map (d.overlapByte x s.fresh x.length), { s with fresh := s.fresh + x.length })
  else (x, s)

/-- What `n` bytes at a device address hold before a COPY writes over them: in DRAM the newest copies; elsewhere free bytes. -/
def State.heldAt (s : State) (v da n : Nat) : List Byte × State :=
  match s.aperture v da n true with
  | .ok a => if s.inDram a n then ((List.range n).map (fun i => (lineBytes (s.newest ((a + i) / 64)).1).getD ((a + i) % 64) 0), s) else s.random n
  | .error _ => (List.replicate n 0, s)

/-- COPY: a piece is read and written; poisoned data is written with POISON, and the descriptor runs to its end and completes with
that status (R361, R364). -/
def copyPiece (e : Nat) (d : Desc) (s : State) : TeOut :=
  let a := d.src + d.done
  let b := d.dst + d.done
  let n := min (d.len - d.done) (min (toPage a) (toPage b))
  let r := s.teRead e d.vf a n
  match r.1 with
  | .held h => .held h
  | .err st => .fail st r.2
  | .ok x bad =>
    let y := d.overlapped x r.2
    let o := if d.src < d.dst ∧ d.dst < d.src + d.len then y.2.heldAt d.vf b n else ([], y.2)
    onWrite (o.2.teWrite e d.vf b y.1 bad) (fun s => .ok ({ d with saved := d.saved ++ o.1 }.copied n bad) s)

/-- FILL: byte DST + i is AUX byte i mod 8 (R358). -/
def fillPiece (e : Nat) (d : Desc) (s : State) : TeOut :=
  let b := d.dst + d.done
  let n := min (d.len - d.done) (toPage b)
  let x := (List.range n).map (fun i => BitVec.ofNat 8 (d.aux >>> (8 * ((d.done + i) % 8))))
  onWrite (s.teWrite e d.vf b x) (fun s => .ok (d.advance n) s)

/-- The next piece of an operation whose input is gathered and whose output is then written, each in pieces (R361): of the input, else of the
output, once computed.  The output is not empty. -/
def gatherPiece (e : Nat) (d : Desc) (input : Nat) (compute : Desc → State → TeOut) (s : State) : TeOut :=
  match d.out with
  | some out =>
    let b := d.dst + d.wrote
    let n := min (out.length - d.wrote) (toPage b)
    onWrite (s.teWrite e d.vf b ((out.drop d.wrote).take n)) (fun s =>
      if d.wrote + n < out.length then .ok { d with wrote := d.wrote + n, done := if input = 0 then d.wrote + n else d.done } s
      else .ok { d.ended with wrote := d.wrote + n } s)
  | none =>
    if d.done < input then
      let a := d.src + d.done
      let n := min (input - d.done) (toPage a)
      onRead (s.teRead e d.vf a n) (fun x s => .ok { d with acc := d.acc ++ x, done := d.done + n } s)
    else compute d s

/-- Go on at once with the first piece of an output. -/
def Desc.give (e : Nat) (d : Desc) (input : Nat) (out : List Byte) (s : State) : TeOut :=
  gatherPiece e { d with out := some out } input (fun d s => .ok d s) s

/-- HASH: the message is read, then the digest is written (R358). -/
def hashPiece (e : Nat) (d : Desc) (s : State) : TeOut :=
  gatherPiece e d d.len (fun d s => d.give e d.len (digest d.aux d.acc) s) s

/-- The output of an AES mode for as much of a payload as has been read: whole blocks of it in CBC and XTS (R350, R360). -/
def aesOut (b key pay : List Byte) : List Byte :=
  let ks := aesKeys key
  let bs := (pieces 16 pay).filter (fun x => decide (x.length = 16))
  let iv := sliceAt b 16 16
  match aesMode b, aesDec b with
  | 0, false => cbcEncrypt ks iv bs
  | 0, true => cbcDecrypt ks iv bs
  | 1, _ => ctrCrypt 16 ks iv pay
  | 2, _ => gcmCrypt ks (sliceAt b 16 12) pay
  | _, dec => xtsCrypt dec key iv bs.flatten

/-- How much output `n` bytes of payload give (R360): a block of CBC or XTS is whole before any of it is written. -/
def aesReady (b : List Byte) (n : Nat) : Nat := if aesMode b = 0 ∨ aesMode b = 3 then n / 16 * 16 else n

/-- The last 16 bytes of a string. -/
def lastBlock (l : List Byte) : List Byte := l.drop (l.length - 16)

/-- What the end of an AES operation writes into the parameter block, and where in it (R360): the next IV, the next counter block, or the
tag. -/
def aesBack (d : Desc) (key : List Byte) : Option (Nat × List Byte) :=
  let b := d.par
  let aad := d.acc.take (aesAad b)
  let pay := d.acc.drop (aesAad b)
  let out := aesOut b key pay
  match aesMode b, aesDec b with
  | 0, dec => some (16, lastBlock (if dec then pay else out))
  | 1, _ => some (16, ctrBlock 16 (sliceAt b 16 16) ((pay.length + 15) / 16))
  | 2, false => some (32, gcmTag (aesKeys key) (sliceAt b 16 12) aad out)
  | _, _ => none

/-- The descriptor of an AES operation that writes nothing back, finished: status 8 AUTH where the tag of a GCM decryption differs (R360). -/
def aesEnded (d : Desc) (key : List Byte) : Desc :=
  let b := d.par
  if aesMode b = 2 && gcmTag (aesKeys key) (sliceAt b 16 12) (d.acc.take (aesAad b)) (d.acc.drop (aesAad b)) != sliceAt b 32 16 then
    { d with done := d.len, fin := some (8, 0) }
  else d.ended

/-- An AES operation after its last piece: the write back to the parameter block is a piece of its own (R360, R362). -/
def aesFinish (e : Nat) (d : Desc) (key : List Byte) (s : State) : TeOut :=
  match aesBack d key with
  | some (o, l) => onWrite (s.teWrite e d.vf (d.aux + o) l) (fun s => .ok d.ended s)
  | none => .ok (aesEnded d key) s

/-- AES: a piece of the additional data is read, or a piece of the payload is read and the output that it completes is written: what a block
begun in the piece before leaves over, then the rest (R360, R361). -/
def aesPiece (e : Nat) (d : Desc) (s : State) : TeOut :=
  let aad := aesAad d.par
  s.withKey e d (fun key s =>
    let d := { d with key := some key }
    if d.len ≤ d.done then aesFinish e d key s
    else
      let a := d.src + d.done
      let inAad := decide (d.done < aad)
      let p := d.done - aad
      let n := if inAad then min (aad - d.done) (toPage a) else min (d.len - d.done) (min (toPage a) (toPage (d.dst + p)))
      onRead (s.teRead e d.vf a n) (fun x s =>
        let next := { d with acc := d.acc ++ x, done := d.done + n }
        let close := fun (s : State) =>
          if next.done < d.len || (aesBack next key).isSome then TeOut.ok next s else TeOut.ok (aesEnded next key) s
        if inAad then close s
        else
          let out := aesOut d.par key (next.acc.drop aad)
          let w := aesReady d.par p
          let r := aesReady d.par (p + n)
          let put := fun (lo hi : Nat) (f : State → TeOut) (s : State) =>
            if lo < hi then onWrite (s.teWrite e d.vf (d.dst + lo) ((out.take hi).drop lo)) f else f s
          put w (min p r) (put (max w p) r close) s))

/-- ECDSA_SIGN, with a nonce of the root of trust's generator (R350, R358); for a key in memory that is no private key of the curve the spec
states no result: free bytes (DESIGN CHOICE, assumption log 18). -/
def signOp (e : Nat) (d : Desc) (s : State) : TeOut :=
  gatherPiece e d 48 (fun d s =>
    s.withKey e d (fun key s =>
      let r := s.random 112
      let k := beNat key
      d.give e 48 (if k = 0 ∨ p384N ≤ k then fit 96 r.1 else ecSign k d.acc r.1) r.2)) s

/-- ECDSA_VERIFY: RESULT is 1 for a valid signature (R358, R363). -/
def verifyOp (e : Nat) (d : Desc) (s : State) : TeOut :=
  gatherPiece e d 144 (fun d s =>
    onRead (s.teRead e d.vf d.aux 96) (fun pub s =>
      .ok (d.ended (if ecVerify pub (d.acc.take 48) (d.acc.drop 48) then 1 else 0)) s)) s

/-- MLKEM_KEYGEN: ek and dk (R358). -/
def keygenOp (e : Nat) (d : Desc) (s : State) : TeOut :=
  gatherPiece e d 0 (fun d s =>
    let r := s.random 64
    let k := kemKeys (kemSet d.set) (r.1.take 32) (r.1.drop 32)
    d.give e 0 (k.1 ++ k.2) r.2) s

/-- MLKEM_ENCAPS: ciphertext and shared secret (R358); for an ek that fails the standard's check the spec states no result: free bytes (DESIGN
CHOICE, assumption log 18). -/
def encapsOp (e : Nat) (d : Desc) (s : State) : TeOut :=
  gatherPiece e d d.len (fun d s =>
    let p := kemSet d.set
    if kemKeyOk p d.acc then
      let r := s.random 32
      d.give e d.len (kemEncaps p d.acc r.1) r.2
    else
      let r := s.random ((if d.set = 0 then 1088 else 1568) + 32)
      d.give e d.len r.1 r.2) s

/-- MLKEM_DECAPS: the shared secret (R358); for a dk that fails the standard's check the spec states no result: free bytes (DESIGN CHOICE,
assumption log 18). -/
def decapsOp (e : Nat) (d : Desc) (s : State) : TeOut :=
  gatherPiece e d d.len (fun d s =>
    s.withKey e d (fun dk s =>
      let p := kemSet d.set
      if kemDkOk p dk then d.give e d.len (kemDecaps p dk d.acc) s
      else
        let r := s.random 32
        d.give e d.len r.1 r.2)) s

/-- The engine issues the next piece of the descriptor in slot `j`, if it is one of operation `op` that is not finished; a
partition whose BYTES meter is exhausted has it parked (R361, R362).  While its function is being reset, a piece is performed or not, and
software cannot predict which: any subset of the pieces stands performed (R366; free choice, assumption log 1). -/
def State.piece (s : State) (op : Nat) (run : Nat → Desc → State → TeOut) (e j : Nat) : State :=
  match (s.teSlots e)[j]? with
  | some d =>
    let put := fun (d : Desc) (t : State) => t.setSlots e (listSet (t.teSlots e) j d)
    if d.fin.isSome || d.op ≠ op || !s.teUp e then s
    else if s.teSpent e (s.vfPart d.vf) then
      let t := s.holdAt teRg .bytes (s.vfPart d.vf).toNat
      (t.setSlots e ((t.teSlots e).eraseIdx j)).setParked e (t.teParked e ++ (if s.vfResetting d.vf then [] else [d]))
    else
      let n := s.fresh
      let s := if s.vfResetting d.vf then { s with fresh := n + 1 } else s
      let lost := s.vfResetting d.vf && Config.pick n
      match run e d s with
      | .held h => s.holdFor h
      | .fail st t => put { d with fin := some (st, 0) } (if lost then s else t)
      | .ok d' t => put d' (if lost then { s with fresh := t.fresh } else t)
  | none => s

/-- COPY (R358). -/
def execCopy (e : Fin 10) (j : Nat) (s : State) : Out := act s (fun s => s.piece 0x01 copyPiece e.val j)
/-- FILL (R358). -/
def execFill (e : Fin 10) (j : Nat) (s : State) : Out := act s (fun s => s.piece 0x02 fillPiece e.val j)
/-- AES (R360). -/
def execAes (e : Fin 10) (j : Nat) (s : State) : Out := act s (fun s => s.piece 0x10 aesPiece e.val j)
/-- HASH (R358). -/
def execHash (e : Fin 10) (j : Nat) (s : State) : Out := act s (fun s => s.piece 0x18 hashPiece e.val j)
/-- ECDSA_SIGN (R358). -/
def execEcdsaSign (e : Fin 10) (j : Nat) (s : State) : Out := act s (fun s => s.piece 0x20 signOp e.val j)
/-- ECDSA_VERIFY (R358). -/
def execEcdsaVerify (e : Fin 10) (j : Nat) (s : State) : Out := act s (fun s => s.piece 0x21 verifyOp e.val j)
/-- MLKEM_KEYGEN (R358). -/
def execMlkemKeygen (e : Fin 10) (j : Nat) (s : State) : Out := act s (fun s => s.piece 0x28 keygenOp e.val j)
/-- MLKEM_ENCAPS (R358). -/
def execMlkemEncaps (e : Fin 10) (j : Nat) (s : State) : Out := act s (fun s => s.piece 0x29 encapsOp e.val j)
/-- MLKEM_DECAPS (R358). -/
def execMlkemDecaps (e : Fin 10) (j : Nat) (s : State) : Out := act s (fun s => s.piece 0x2A decapsOp e.val j)

/-! ### Completion (R363-R365) -/

/-- The 16 bytes of a completion entry (R363). -/
def Desc.entry (d : Desc) (status : Nat) (result : W32) (phase : Bool) : List Byte :=
  leBytes 2 d.idx ++ leBytes 2 d.tag ++ [BitVec.ofNat 8 status, BitVec.ofNat 8 (b2n phase), 0, 0] ++ leBytes 4 d.done ++ leBytes 4 result.toNat

/-- BUSY of a queue clears when no descriptor of it is left. -/
def State.clearBusy (s : State) (v q : Nat) : State :=
  if (List.range 10).any (fun e => (s.teSlots e ++ s.teParked e).any (fun d => d.vf = v && d.q = q)) then s
  else s.setBit (qreg v q 0x1C) 0 false

/-- The CQ producer index advances; when it wraps the phase inverts (R363). -/
def State.cqAdvance (s : State) (v q : Nat) : State :=
  let p := (s.cqProd v q + 1) % s.qSize v q
  let s := s.setFld (qreg v q 0x18) 16 16 p
  if p = 0 then s.setBit (qreg v q 0x1C) 5 (!s.bit (qreg v q 0x1C) 5) else s

/-- A finished descriptor leaves its slot with its entry written (R363, R365). -/
def State.complete (s : State) (e j : Nat) (d : Desc) (status : Nat) (result : W32) : State :=
  let v := d.vf
  let q := d.q
  let r := s.teWrite e v (s.cqBase v q + 16 * s.cqProd v q) (d.entry status result (s.bit (qreg v q 0x1C) 5))
  let drop := fun (s : State) => (s.setSlots e ((s.teSlots e).eraseIdx j)).clearBusy v q
  match r.1 with
  | .held h => s.holdFor h
  | .err st => drop (r.2.haltQueue v q (haltCode st 2))
  | .ok _ _ =>
    let s := drop (r.2.cqAdvance v q)
    let s := if e < 8 then s.count (tePage e 0x44) else s
    let s := if e < 8 ∧ status ≠ 0 then s.count (tePage e 0x4C) else s
    let s := if status ≠ 0 ∧ s.bit (qreg v q 0x10) 1 then s.haltQueue v q 5 else s
    if d.flags % 2 = 1 ∧ s.bit (qreg v q 0x10) 21 then s.fire (0x1000 + s.vbase v + s.fld (qreg v q 0x10) 12 9) else s

/-- DESCRIPTOR_COMPLETE: the finished descriptor of slot `j`, the oldest of its queue, completes; with the CQ full the queue waits,
with the partition exhausted the descriptor is parked (R355, R362, R363). -/
def descriptorComplete (e j : Nat) (s : State) : State :=
  match (s.teSlots e)[j]? with
  | some d =>
    match d.fin with
    | some (st, res) =>
      if !s.teUp e || s.vfResetting d.vf then s
      else if s.teSpent e (s.vfPart d.vf) then
        let t := s.holdAt teRg .bytes (s.vfPart d.vf).toNat
        (t.setSlots e ((t.teSlots e).eraseIdx j)).setParked e (t.teParked e ++ [d])
      else if decide ((s.cqProd d.vf d.q + 1) % s.qSize d.vf d.q = s.cqHead d.vf d.q)
          || ((s.teSlots e).take j).any (fun x => x.vf = d.vf && x.q = d.q) then s
      else s.complete e j d st res
    | none => s
  | none => s

/-- DESCRIPTOR_COMPLETE (R363). -/
def execDescriptorComplete (e : Fin 10) (j : Nat) (s : State) : Out := act s (descriptorComplete e.val j)

/-- A soft reset of an engine's page finishes the descriptors in its slots with ABORTED (R370). -/
def State.abortSlots (s : State) (e : Nat) : State :=
  s.setSlots e ((s.teSlots e).map (fun d => { d with fin := some (9, 0) }))

/-! ### Queue registers (R355, R356) -/

/-- Is queue `q` one of function `v`'s? -/
def State.queueOk (s : State) (v q : Nat) : Bool := s.vfExists v && decide (q < s.nqp v)

/-- A queue of a receive target that is switched off gives back the buffers that no frame has filled (assumption log 22). -/
def State.dropPosted (s : State) (v q : Nat) : State :=
  (s.setSlots 9 ((s.teSlots 9).filter (fun d => !(d.vf = v && d.q = q && d.fin.isNone)))).clearBusy v q

/-- A write of Q_CFG that the function's queue takes; `v` has only implemented bits (R356). -/
def State.writeQcfg (s : State) (f q : Nat) (v : W32) : State :=
  let a := qreg f q 0x10
  let o := s.reg a
  if !s.queueOk f q || decide (9 < fieldOf v 8 4) || decide (12 < fieldOf v 2 4)
      || (bitOf v 21 && decide (s.nvec f ≤ fieldOf v 12 9)) then s.raise (vfPage f 0) 0
  else if bitOf o 0 then
    let keep := putBit (putBit (putBit o 0 (bitOf v 0)) 1 (bitOf v 1)) 21 (bitOf v 21)
    let s := if keep = v then s else s.raise (vfPage f 0) 0
    let s := s.setReg a keep
    if bitOf v 0 then s else s.dropPosted f q
  else
    let s := s.setReg a v
    if bitOf v 0 then
      let st := putField (putBit (putBit (s.reg (qreg f q 0x1C)) 5 true) 1 false) 2 3 0
      ((s.setReg (qreg f q 0x14) 0).setReg (qreg f q 0x18) 0).setReg (qreg f q 0x1C) st
    else s

/-- A write of a ring's base (R356). -/
def State.writeQbase (s : State) (f q o : Nat) (v : W32) : State :=
  if !s.queueOk f q || s.qEn f q then s.raise (vfPage f 0) 0 else s.setReg (qreg f q o) v

/-- A write of Q_DB (R355, R356). -/
def State.writeQdb (s : State) (f q : Nat) (v : W32) : State :=
  if !s.queueOk f q then s.raise (vfPage f 0) 0
  else if s.qSize f q ≤ fieldOf v 0 16 ∨ s.qSize f q ≤ fieldOf v 16 16 then s.raise (vfPage f 0) 1
  else s.setReg (qreg f q 0x14) v

/-! ### Resetting a function (R366) -/

/-- The descriptors of a function leave a list of them by engine. -/
def dropDescs (v : Nat) (m : SMap (List Desc)) : SMap (List Desc) :=
  (List.range 10).foldl (fun m e => SMap.set [] m e ((SMap.get [] m e).filter (fun d => d.vf ≠ v))) m

/-- A VF reset begins: RSTBUSY sets, and parked descriptors are dropped.  Those in progress stay in their slots until the reset ends, for their
pieces may still be performed or not; none is given an entry (R366). -/
def State.startVfReset (s : State) (v : Nat) : State :=
  let s := s.setBit (vfA v) 29 true
  { s with te := { s.te with parked := dropDescs v s.te.parked } }

/-- A write of VF_RST (R366, R367). -/
def State.writeVfRst (s : State) (v : Nat) (w : W32) : State :=
  if bitOf w 0 && s.vfExists v && !s.vfResetting v then s.startVfReset v else s

/-- VF_RESET_DONE: what is left of the descriptors in progress is dropped, queue registers return to reset values, RSTBUSY clears, PF_RDONE sets; after a soft reset of the page the
apertures return too (R366, R371). -/
def vfResetDone (v : Nat) (s : State) : State :=
  if !s.vfResetting v then s
  else
    let s := { s with te := { s.te with slots := dropDescs v s.te.slots } }
    let s := s.clearRegs (vfPage v 0x400) (vfPage v 0xC00)
    let s := s.setBit (vfA v) 29 false
    let s := s.setBit (tePage 0 (0x120 + 4 * (v / 32))) (v % 32) true
    let s := if s.te.soft.contains v then
        ({ s with te := { s.te with soft := s.te.soft.filter (· ≠ v) } }).clearRegs (vfPage v 0x80) (vfPage v 0x180)
      else s
    s.fire 0x401

/-- VF_RESET_DONE (R366). -/
def execVfResetDone (f : BitVec 8) (s : State) : Out := act s (vfResetDone f.toNat)

/-! ### The physical function (R352, R353) -/

/-- Runs of the pool that functions hold: queue pairs, vectors. -/
def State.qRuns (s : State) : List (Nat × Nat) := ((List.range 256).filter s.vfExists).map (fun v => (s.qbase v, s.nqp v))
def State.vRuns (s : State) : List (Nat × Nat) :=
  (((List.range 256).filter s.vfExists).map (fun v => (s.vbase v, s.nvec v))).filter (fun r => decide (0 < r.2))

/-- Is `[b, b + n)` inside the pool and free? -/
def runFree (total : Nat) (runs : List (Nat × Nat)) (b n : Nat) : Bool :=
  decide (b + n ≤ total) && runs.all (fun r => decide (b + n ≤ r.1) || decide (r.1 + r.2 ≤ b))

/-- The lowest-numbered free run of `n` entries: it starts at 0 or where a run ends. -/
def lowestRun (total n : Nat) (runs : List (Nat × Nat)) : Option Nat :=
  if n = 0 then some 0
  else
    ((0 :: runs.map (fun r => r.1 + r.2)).filter (fun b => runFree total runs b n)).foldl
      (fun (a : Option Nat) b => match a with
        | some x => some (min x b)
        | none => some b) none

/-- Where a run of `len` at `b` goes when it becomes `n` long (R353). -/
def placeRun (total b len n : Nat) (runs : List (Nat × Nat)) : Option Nat :=
  if n ≤ len then some b
  else if 0 < len ∧ runFree total runs (b + len) (n - len) then some b
  else lowestRun total n runs

/-- Has a queue of the function EN or BUSY at 1? -/
def State.vfActive (s : State) (v : Nat) : Bool := (List.range (s.nqp v)).any (fun q => s.qEn v q || s.qBusy v q)

/-- The registers of a function's page at their reset values: apertures and queues. -/
def State.clearVf (s : State) (v : Nat) : State :=
  (s.clearRegs (vfPage v 0x80) (vfPage v 0x180)).clearRegs (vfPage v 0x400) (vfPage v 0xC00)

/-- Set what a function holds. -/
def State.setVf (s : State) (v : Nat) (compat : Bool) (part qb nq vb nv : Nat) : State :=
  (s.setNat (vfA v) (2147483648 + 1073741824 * b2n compat + 65536 * qb + 256 * part + nq)).setNat (vfB v) (65536 * vb + nv)

/-- RESULT and state of a PF command (R352, R353): the lowest-numbered reason that applies, or 0. -/
def State.pfRun (s : State) (op v : Nat) (arg : W32) : Nat × State :=
  let nq := fieldOf arg 0 7
  let nv := fieldOf arg 8 9
  let sizes := nq = 0 || decide (64 < nq) || decide (256 < nv)
  match op with
  | 1 =>
    if s.vfExists v then (1, s)
    else
      match lowestRun 1024 nq s.qRuns, lowestRun 4096 nv s.vRuns with
      | some qb, some vb =>
        if sizes then (5, s) else (0, (s.clearVf v).setVf v (bitOf arg 30) (fieldOf arg 24 6) qb nq vb nv)
      | _, _ => (2, s)
  | 2 =>
    if !s.vfExists v then (1, s)
    else if s.vfActive v || s.vfResetting v then (3, s)
    else (0, ((s.clearVf v).setNat (vfA v) 0).setNat (vfB v) 0)
  | 3 =>
    if !s.vfExists v then (1, s)
    else if s.vfResetting v then (3, s)
    else (0, s.startVfReset v)
  | 4 =>
    if !s.vfExists v then (1, s)
    else
      match placeRun 1024 (s.qbase v) (s.nqp v) nq s.qRuns, placeRun 4096 (s.vbase v) (s.nvec v) nv s.vRuns with
      | some qb, some vb =>
        if s.vfActive v || s.vfResetting v then (3, s)
        else if !s.vfCompat v then (4, s)
        else if sizes then (5, s)
        else
          let t := s.clearRegs (qreg v (min nq (s.nqp v)) 0) (vfPage v 0xC00)
          (0, t.setVf v true (s.vfPart v).toNat qb nq vb nv)
      | _, _ => (2, s)
  | _ => (0, s)

/-- POOL_FREE (R370). -/
def State.poolFree (s : State) : Nat :=
  let sum := fun (l : List (Nat × Nat)) => l.foldl (fun a r => a + r.2) 0
  (1024 - sum s.qRuns) + 65536 * (4096 - sum s.vRuns)

/-- A write of PF_CMD (R352). -/
def State.writePfCmd (s : State) (v : W32) : State :=
  if s.te.pf.isSome then s.teErr 0 0
  else
    let s := { s with te := { s.te with pf := some (v, s.reg (tePage 0 0x104)) } }
    s.setNat (tePage 0 0x108) (1 + 256 * fieldOf v 8 8)

/-- PF_COMMAND_DONE: the command takes effect, leaves RESULT and raises source 0x400 (R352). -/
def pfCommandDone (s : State) : State :=
  match s.te.pf with
  | none => s
  | some (c, arg) =>
    let v := fieldOf c 8 8
    let r := ({ s with te := { s.te with pf := none } }).pfRun (fieldOf c 0 3) v arg
    let t := r.2.setNat (tePage 0 0x108) (2 * r.1 + 256 * v)
    let t := t.setNat (tePage 0 0x10C) t.poolFree
    (if r.1 = 0 then t else t.teErr 0 0).fire 0x400

/-- PF_COMMAND_DONE (R352). -/
def execPfCommandDone (s : State) : Out := act s pfCommandDone

end Sys2Proof.Machine
end

