-- ==== Sys2Proof/Machine/Switch.lean ====
section
/-! DEFINITION. The Ethernet TSN switch (14 R373-R381, R404). -/

namespace Sys2Proof.Machine

/-- Does the switch's domain run? -/
def State.swUp (s : State) : Bool := s.domUp 279

/-! ### Time and timestamps (R375, R376) -/

/-- The port's gPTP time (R375). -/
def State.gptp (s : State) (p : Nat) : W64 := s.clock.time + SMap.get 0 s.port.gd (s.fld (tsp p 0x48) 0 1)

/-- A write of GDk_OFS_HI applies the whole offset in one step (R375), which is a gPTP step for the frame unit (03 R45). -/
def State.writeGdHi (s : State) (k : Nat) (v : W32) : State :=
  let s := s.setReg (tsw (0x48 + 8 * k)) v
  let o := BitVec.ofNat 64 ((s.reg (tsw (0x44 + 8 * k))).toNat + 4294967296 * v.toNat)
  let s := s.gptpStep k (SMap.get 0 s.port.gd k) o
  { s with port := { s.port with gd := SMap.set 0 s.port.gd k o } }

/-- A two-byte field of a frame, most significant byte first. -/
def be16 (l : List Byte) (o : Nat) : Nat := 256 * (l.getD o 0).toNat + (l.getD (o + 1) 0).toNat

/-- Is it an 802.1AS frame: EtherType 0x88F7 (R376)?  Its sequenceId stands 30 bytes into the message, after the 14 bytes of the
header (PRESUMED from IEEE 1588, assumption log 25). -/
def isPtp (l : List Byte) : Bool := be16 l 12 = 0x88F7
def ptpSeq (l : List Byte) : W16 := BitVec.ofNat 16 (be16 l 44)

/-- A timestamp enters the FIFO of a port, or is counted in TSDROP when the FIFO is full (R376). -/
def State.timestamp (s : State) (p : Nat) (sent : Bool) (l : List Byte) : State :=
  if !isPtp l then s
  else
    let q : List Stamp := SMap.get [] s.port.stamps p
    if 16 ≤ q.length then s.count (tsp p 0x7C)
    else
      ({ s with port := { s.port with
        stamps := SMap.set [] s.port.stamps p (q ++ [{ time := s.clock.time, sent := sent, seq := ptpSeq l : Stamp }]) } }).fire (0x508 + p)

/-- A read of TS_LO pops the oldest entry, which TS_HI and TS_INFO then return (R376). -/
def State.popStamp (s : State) (p : Nat) : W32 × State :=
  match SMap.get [] s.port.stamps p with
  | [] => (0, { s with port := { s.port with stamp := SMap.set none s.port.stamp p none } })
  | x :: rest =>
    (BitVec.setWidth 32 x.time, { s with port := { s.port with
      stamps := SMap.set [] s.port.stamps p rest, stamp := SMap.set none s.port.stamp p (some x) } })

/-- TS_HI and TS_INFO (R381). -/
def State.tsHi (s : State) (p : Nat) : W32 :=
  match SMap.get none s.port.stamp p with
  | some x => BitVec.ofNat 32 (x.time.toNat / 4294967296)
  | none => 0
def State.tsInfo (s : State) (p : Nat) : W32 :=
  match SMap.get none s.port.stamp p with
  | some x => BitVec.ofNat 32 (1 + 2 * b2n x.sent + 65536 * x.seq.toNat)
  | none => 0

/-! ### Gates and egress (R377) -/

/-- The operational list of a port. -/
def State.gateList (s : State) (p : Nat) : Option GateList := SMap.get none s.port.gates p

/-- Is the gate of a traffic class open: every gate is, while no list is in operation or QBV_CTL.EN is 0 (R377)? -/
def State.gateOpen (s : State) (p t : Nat) : Bool :=
  if !s.bit (tsp p 0x4C) 0 then true
  else
    match s.gateList p with
    | none => true
    | some g =>
      match g.entries[g.idx]? with
      | some e => bitOf e.1 t
      | none => true

/-- Frames that wait at a port. -/
def State.egress (s : State) (p : Nat) : List Egress := SMap.get [] s.port.egress p
def State.setEgress (s : State) (p : Nat) (l : List Egress) : State :=
  { s with port := { s.port with egress := SMap.set [] s.port.egress p l } }

/-- A frame leaves by a port (R376, R381); one of poisoned data leaves with its check sequence inverted and is counted in DROP (18
R493). -/
def State.transmit (s : State) (p : Nat) (l : List Byte) (bad : Bool := false) : State :=
  let s := (s.count (tsp p 0x84)).timestamp p true l
  if bad then s.count (tsp p 0x88) else s

/-- Bytes in the shared frame buffer (R373). -/
def State.buffered (s : State) : Nat :=
  s.port.egress.foldl (fun a x => a + x.2.foldl (fun b f => b + f.bytes.length) 0) 0

/-- A frame for an external port: it leaves at once through an open gate that no older frame of its class waits at, waits in the
shared buffer, or is dropped when that is full (R373, R377, R381). -/
def State.toPort (s : State) (p cls : Nat) (l : List Byte) (bad : Bool := false) : State :=
  if !s.bit (tsp p 0x44) 0 then s
  else if s.gateOpen p cls && !(s.egress p).any (fun f => f.cls = cls) then s.transmit p l bad
  else if 8388608 < s.buffered + l.length then s.count (tsp p 0x88)
  else s.setEgress p (s.egress p ++ [⟨cls, l, bad⟩])

/-- The frames whose gates are open leave, the highest class first (R373 strict priority, R377). -/
def State.releaseEgress (s : State) (p : Nat) : State :=
  [7, 6, 5, 4, 3, 2, 1, 0].foldl
    (fun s t =>
      if s.gateOpen p t then
        let go := (s.egress p).filter (fun f => f.cls = t)
        go.foldl (fun s f => s.transmit p f.bytes f.bad) (s.setEgress p ((s.egress p).filter (fun f => f.cls ≠ t)))
      else s)
    s

/-- Entry `i` of the administrative list of a port: gate states and interval (R377). -/
def State.admEntry (s : State) (p i : Nat) : Byte × Nat :=
  let w := SMap.get [] s.port.tables ((9 + p) * 16777216 + i)
  (BitVec.ofNat 8 (w.getD 0 0).toNat, fieldOf (w.getD 1 0) 0 27)

/-- The ConfigChangeTime of a list with base time `base` and cycle time `ct`: the base time, or, where that has passed, the first start of a
cycle from it on (R377; PRESUMED from IEEE 802.1Q, assumption log 26). -/
def configChangeTime (base ct now : Nat) : Nat :=
  if now ≤ base then base else base + (now - base + (max 1 ct - 1)) / max 1 ct * max 1 ct

/-- A write of QBV_CMD (R377). -/
def State.writeQbv (s : State) (p : Nat) (v : W32) : State :=
  if !bitOf v 0 then s
  else
    let n := s.fld (tsp p 0x58) 0 9
    let x : GatePend :=
      { ct := s.fld (tsp p 0x54) 0 27, entries := (List.range n).map (s.admEntry p)
        frame := if s.bit (tsp p 0x4C) 1 then some (s.reg (tsp p 0x64)) else none
        cct := configChangeTime (s.reg64 (tsp p 0x5C)) (s.fld (tsp p 0x54) 0 27) (s.gptp p).toNat }
    ({ s with port := { s.port with gatePend := SMap.set none s.port.gatePend p (some x) } }).setBit (tsp p 0x44) 2 true

/-- Has the moment of a pending change come: the tick that starts the named frame, or the ConfigChangeTime in the port's gPTP time
(R377)? -/
def State.gateDue (s : State) (p : Nat) (x : GatePend) : Bool :=
  match x.frame with
  | some _ => x.begun
  | none => decide (x.cct ≤ (s.gptp p).toNat)

/-- GATE_LIST_SWITCH: the pending list becomes operational (R377). -/
def gateListSwitch (p : Nat) (s : State) : State :=
  match SMap.get none s.port.gatePend p with
  | none => s
  | some x =>
    if !s.swUp || !s.gateDue p x then s
    else
      let s := { s with port := { s.port with
        gatePend := SMap.set none s.port.gatePend p none, gates := SMap.set none s.port.gates p (some ⟨x.ct, x.entries, 0, 0⟩) } }
      (((s.setNat (tsp p 0x50) x.ct).setBit (tsp p 0x44) 2 false).fire (0x510 + p)).releaseEgress p

/-- GATE_LIST_SWITCH (R377). -/
def execGateListSwitch (p : Fin 8) (s : State) : Out := act s (gateListSwitch p.val)

/-- The entry after the one in force: the next one, or the first one of the next cycle (R377). -/
def GateList.next (g : GateList) : GateList :=
  let spent := g.spent + (g.entries.getD g.idx (0, 0)).2
  if g.idx + 1 < g.entries.length ∧ spent < g.ct then { g with idx := g.idx + 1, spent := spent } else { g with idx := 0, spent := 0 }

/-- GATE_ENTRY_END (R377). -/
def gateEntryEnd (p : Nat) (s : State) : State :=
  match s.gateList p with
  | none => s
  | some g =>
    if !s.swUp then s
    else ({ s with port := { s.port with gates := SMap.set none s.port.gates p (some g.next) } }).releaseEgress p

/-- GATE_ENTRY_END (R377). -/
def execGateEntryEnd (p : Fin 8) (s : State) : Out := act s (gateEntryEnd p.val)

/-! ### Tables (R380) -/

/-- The entries of a table (R373, R380); a VLAN's entry is at its VID. -/
def tableSize (t : Nat) : Nat :=
  if t = 1 then 16384 else if t = 2 then 4095 else if t = 3 ∨ t = 8 then 512 else if 4 ≤ t ∧ t ≤ 16 then 256
  else if 17 ≤ t ∧ t ≤ 24 then 36 else 0

/-- A write of TBL_CMD: an operation starts; while BUSY is 1 it has no effect (R380). -/
def State.writeTblCmd (s : State) (v : W32) : State :=
  if s.port.tblOp.isSome || fieldOf v 0 2 = 0 then s
  else
    let data := if bitOf v 0 then none else some ((List.range 16).map (fun n => s.reg (tsw (0x80 + 4 * n))))
    let x : TblOp := ⟨s.fld (tsw 0x60) 0 8, s.fld (tsw 0x64) 0 24, data⟩
    ({ s with port := { s.port with tblOp := some x } }).setNat (tsw 0x6C) 1

/-- What a READ returns: no word of a SAK or an XPN salt (R380). -/
def tblReadable (t n : Nat) (w : W32) : W32 := if 17 ≤ t ∧ t ≤ 24 ∧ 6 ≤ n then 0 else w

/-- TABLE_OP_DONE (R380). -/
def tableOpDone (s : State) : State :=
  match s.port.tblOp with
  | none => s
  | some x =>
    let s := { s with port := { s.port with tblOp := none } }
    if tableSize x.table ≤ x.idx then s.setNat (tsw 0x6C) 2
    else
      let s := s.setNat (tsw 0x6C) 0
      let k := x.table * 16777216 + x.idx
      match x.data with
      | some d =>
        { s with port := { s.port with
          tables := SMap.set [] s.port.tables k (if d.all (fun w => w == 0) then [] else d) } }
      | none =>
        let w := SMap.get [] s.port.tables k
        (List.range 16).foldl (fun s n => s.setReg (tsw (0x80 + 4 * n)) (tblReadable x.table n (w.getD n 0))) s

/-- TABLE_OP_DONE (R380). -/
def execTableOpDone (s : State) : Out := act s tableOpDone

/-! ### Host port (R379) -/

/-- VID of a frame: that of its tag, or the ingress port's PVID, which the spec gives no place (free; assumption log 26). -/
def frameVid (n : Nat) (l : List Byte) : Nat :=
  if be16 l 12 = 0x8100 then be16 l 14 % 4096 else Config.place n % 4096

/-- The 2-byte field that ends a VLAN entry: HQ in [9:0], HQV in [15] (R380). -/
def State.vlanHq (s : State) (vid : Nat) : Nat :=
  let b := (SMap.get [] s.port.tables (2 * 16777216 + vid)).flatMap (fun w => leBytes 4 w.toNat)
  leNat ((b.drop (Config.vlanTail % 63)).take 2)

/-- The global receive queue that a VID selects; none where HQ_DEF is needed and not VALID (R379). -/
def State.hostQueue (s : State) (vid : Nat) : Option Nat :=
  let h := s.vlanHq vid
  if Nat.testBit h 15 then some (h % 1024)
  else if s.bit (tsw 0x54) 31 then some (s.fld (tsw 0x54) 0 10)
  else none

/-- The oldest posted buffer of a usable receive queue: its place in the receive slots, and the descriptor (R379). -/
def State.postedBuffer (s : State) (g : Nat) : Option (Nat × Desc) :=
  match s.queues.find? (fun x => x.1 = g) with
  | some (_, v, q) =>
    if s.qTgt v q = 9 && s.qEn v q && !s.qHalt v q && !s.vfResetting v && s.domUp 270 then
      match (s.teSlots 9).findIdx? (fun d => d.vf = v && d.q = q && d.posted && d.par.isEmpty && d.fin.isNone) with
      | some j => (s.teSlots 9)[j]?.map (fun d => (j, d))
      | none => none
    else none
  | none => none

/-- A frame that came in at `port` goes into a posted buffer; its length and port are the result (R369, R379). -/
def deliverFrame (d : Desc) (port : Nat) (l : List Byte) (s : State) : TeOut :=
  let n := min l.length d.len
  match s.teWrite 9 d.vf d.dst (l.take n) with
  | (.held h, _) => .held h
  | (.err st, t) => .fail st t
  | (.ok _ _, t) =>
    .ok { d with
      done := n, fin := some (if d.len < l.length then 0x0A else 0, BitVec.ofNat 32 (l.length % 65536 + 65536 * port)) } t

/-- The same for the buffer of slot `j`; while the write must wait, the frame waits with its buffer (03 R59; assumption log 24). -/
def State.fillBuffer (s : State) (j : Nat) (d : Desc) (port : Nat) (l : List Byte) : State :=
  let put := fun (d : Desc) (s : State) => s.setSlots 9 (listSet (s.teSlots 9) j d)
  match deliverFrame d port l s with
  | .held h => put { d with par := [BitVec.ofNat 8 port], acc := l } (s.holdFor h)
  | .fail st t => put { d with fin := some (st, 0) } t
  | .ok d t => put d t

/-- A frame reaches the host port: it fills the oldest posted buffer, or is dropped and counted in HQDROP (R369, R379). -/
def State.toHost (s : State) (port : Nat) (l : List Byte) : State :=
  let s := s.force (tsw 0) 0
  let s := { s with fresh := s.fresh + 1 }
  let lost := fun (s : State) => ((s.count (tsw 0x58)).raise (tsw 0) 0).fire 0x518
  match s.hostQueue (frameVid (s.fresh - 1) l) with
  | none => lost s
  | some g =>
    match s.postedBuffer g with
    | none => lost s
    | some (j, d) => s.fillBuffer j d port l

/-! ### Forwarding (R373, R380, R381) -/

/-- Forward a frame that came in at port `p`, 8 for the host port, in traffic class `cls`.  Which of the other ports it leaves by, and
whether a filter, gate or meter drops it, follow from the tables under IEEE 802.1Q, which the spec does not restate: both are free
(assumption log 26). -/
def State.forward (s : State) (p cls : Nat) (l : List Byte) (bad : Bool := false) : State :=
  let n := s.fresh
  let s := { s with fresh := s.fresh + 16 }
  if !s.bit (tsw 0x40) 0 then s
  else if p < 8 ∧ Config.pick n then s.count (tsp p 0x88)
  else
    let out := (List.range 9).filter (fun q => q ≠ p && Config.pick (n + 1 + q))
    out.foldl (fun s q => if q < 8 then s.toPort q cls l bad else s.toHost p l) s

/-- Has port `p` a security association? -/
def State.hasSa (s : State) (p : Nat) : Bool := (List.range 36).any (fun i => !(SMap.get [] s.port.tables ((17 + p) * 16777216 + i)).isEmpty)

/-- ETH_FRAME_RECEIVE: a frame arrives at an external port.  One whose check sequence fails is discarded; one longer than 9,216 bytes
is dropped; with an SA at the port, whether MACsec validation drops it is free (R373, R381; assumption log 26). -/
def ethFrameReceive (p : Nat) (x : EthFrame) (s : State) : State :=
  if !s.swUp || !s.bit (tsp p 0x44) 0 || !s.enabled (tsw 0) || !s.enabled (tsp p 0) || !x.fcsOk then s
  else
    let s := s.force (tsp p 0) 1
    let s := (s.count (tsp p 0x80)).timestamp p false x.bytes
    let n := s.fresh
    let s := { s with fresh := s.fresh + 2 }
    if 9216 < x.bytes.length then s.count (tsp p 0x88)
    else if s.hasSa p && Config.pick n then (s.count (tsp p 0x8C)).raise (tsp p 0) 1
    else s.forward p (Config.place (n + 1) % 8) x.bytes

/-- ETH_FRAME_RECEIVE (R373). -/
def execEthFrameReceive (p : Fin 8) (x : EthFrame) (s : State) : Out := act s (ethFrameReceive p.val x)

/-- ETH_LINK_CHANGE: going down clears SYNC and sets LINKDN (R375, R404).  Going up with preemption enabled, whether preemption is
verified with the peer is free (R381 PREV; assumption log 1). -/
def ethLinkChange (p : Nat) (up : Bool) (s : State) : State :=
  if !s.swUp || s.bit (tsp p 0x44) 0 = up || (up && s.fld (tsp p 0x40) 0 3 = 0) then s
  else
    let s := s.setBit (tsp p 0x44) 0 up
    let s := if up then
        (if s.bit (tsp p 0x40) 16 then ({ s with fresh := s.fresh + 1 }).setBit (tsp p 0x44) 1 (Config.pick s.fresh) else s)
      else ((((s.setBit (tsp p 0x44) 1 false).setBit (tsp p 0x48) 1 false).setEgress p []).raise (tsp p 0) 0)
    s.fire (0x500 + p)

/-- ETH_LINK_CHANGE (R404). -/
def execEthLinkChange (p : Fin 8) (up : Bool) (s : State) : Out := act s (ethLinkChange p.val up)

/-- TXF: the switch reads the frame, which then enters forwarding as if it arrived on the host port; one of poisoned data is sent all
the same (R369, R379; 18 R493). -/
def txfOp (e : Nat) (d : Desc) (s : State) : TeOut :=
  let r := s.teRead e d.vf d.src d.len
  match r.1 with
  | .held h => .held h
  | .err st => .fail st r.2
  | .ok x bad => .ok { d with done := d.len, fin := some (if bad then 6 else 0, 0) } (r.2.forward 8 (d.aux % 8) x bad)

/-- TXF (R369). -/
def execTxf (e : Fin 10) (j : Nat) (s : State) : Out := act s (fun s => s.piece 0x40 txfOp e.val j)

/-- RXB: a buffer is posted; a frame that waits with it is delivered (R369). -/
def rxbOp (_e : Nat) (d : Desc) (s : State) : TeOut :=
  match d.par with
  | port :: _ => deliverFrame d port.toNat d.acc s
  | [] => .ok { d with posted := true } s

/-- RXB (R369). -/
def execRxb (e : Fin 10) (j : Nat) (s : State) : Out := act s (fun s => s.piece 0x41 rxbOp e.val j)

end Sys2Proof.Machine
end

