-- ==== Sys2Proof/Machine/Ports.lean ====
section
/-! DEFINITION. PCIe root ports, the Parraha link, boot, storage and low-speed I/O, GPIO and the trace-port exporter (14
R382-R404, 19 R524). -/

namespace Sys2Proof.Machine

/-! ### PCIe (R382-R386) -/

/-- The width of port `i` under a lane division; 0 where it is absent (R382). -/
def peWidth (b i : Nat) : Nat :=
  if b = 0 then (if i = 0 then 16 else 0) else if b = 1 then (if i = 0 ∨ i = 2 then 8 else 0) else 4

/-- A write of PE_CTL.  The first write of 1 to any LINK_EN samples BIF, and BIF 3, which the spec does not list, divides as 2 does
(R382; assumption log 27); the first to a port starts its reference clock; PERSTi_N falls while LINK_EN is 0 (19 R524). -/
def State.writePeCtl (s : State) (i : Nat) (v : W32) : State :=
  let s := s.setReg (pciePage i 0x44) v
  let s := if bitOf v 0 && s.port.lanes.isNone then
      let b := s.fld (pciePage 0 0x40) 0 2
      let s := { s with port := { s.port with lanes := some b } }
      (List.range 4).foldl (fun s k => s.setBit (pciePage k 0x48) 9 (peWidth b k = 0)) s
    else s
  if bitOf v 0 then
    (if s.bit (pciePage i 0x48) 9 then s
      else { s with power := { s.power with refclk := insertOnce i s.power.refclk } })
  else { s with power := { s.power with perstHigh := s.power.perstHigh.filter (· ≠ i) } }

/-- PERST_RELEASE: 200 µs after PE_REFCLKi starts (19 R524). -/
def perstRelease (i : Nat) (s : State) : State :=
  if s.power.refclk.contains i && s.bit (pciePage i 0x44) 0 then
    { s with power := { s.power with perstHigh := insertOnce i s.power.perstHigh } }
  else s

/-- PERST_RELEASE (19 R524). -/
def execPerstRelease (p : Fin 4) (s : State) : Out := act s (perstRelease p.val)

/-- PCIE_LINK_CHANGE: the rate and width that the link trained to are free, at most MAXGEN and the port's lanes (R383, R386;
assumption log 1). -/
def pcieLinkChange (i : Nat) (up : Bool) (s : State) : State :=
  let a := pciePage i 0x48
  let may := s.bit (pciePage i 0x44) 0 && !s.bit (pciePage i 0x44) 1 && !s.bit a 9 && s.power.perstHigh.contains i
  if !s.peUp i || s.bit a 0 = up || (up && !may) then s
  else
    let n := s.fresh
    let s := { s with fresh := n + 2 }
    let gen := 1 + Config.place n % (max 1 (s.fld (pciePage i 0x40) 4 3))
    let width := 1 + Config.place (n + 1) % (max 1 (peWidth (s.port.lanes.getD 0) i))
    let s := if up then ((s.setBit a 0 true).setFld a 1 3 gen).setFld a 4 5 width
      else ((s.setBit a 0 false).setFld a 1 3 0).setFld a 4 5 0
    s.fire (0x600 + 16 * i)

/-- PCIE_LINK_CHANGE (R404). -/
def execPcieLinkChange (p : Fin 4) (up : Bool) (s : State) : Out := act s (pcieLinkChange p.val up)

/-- PCIE_AER_ERROR (R404). -/
def execPcieAerError (p : Fin 4) (_cls : Fin 3) (s : State) : Out :=
  act s (fun s => if s.peUp p.val then (s.raise (pciePage p.val 0) 2).fire (0x601 + 16 * p.val) else s)

/-- The PCIe memory address of an outbound request (R384). -/
def State.pcieAddr (s : State) (i a : Nat) : Nat := (s.reg64 (pciePage i 0x4C) + (a % 0x4000000000 - 0x10000000)) % 18446744073709551616

/-- A port sends a TLP. -/
def State.sendTlp (s : State) (i : Nat) (x : PcieSent) : State :=
  { s with port := { s.port with tlps := SMap.set none s.port.tlps i (some x) } }

/-- The TLP of an outbound request: to PCIe memory, or to configuration space at its offset in the ECAM; the enabled bytes of a write as one
run each, the last of which stands (R384; 18 R493). -/
def State.tlpOf (s : State) (i : Nat) (q : Packet) : State :=
  let at_ := fun (a : Nat) => if inEcam a then a % 0x10000000 else s.pcieAddr i a
  if q.op = opRdNc then s.sendTlp i (.read (at_ q.addr.toNat) (readSize q))
  else (writeRuns q).foldl (fun s r => s.sendTlp i (.write (at_ r.1) r.2 q.poison)) s

/-- An outbound request reaches its root port.  The port's own header is laid out by the PCIe specification, not by this one: a
read gives free bytes and a write is absorbed (assumption log 28).  A memory write is posted, so the port answers it at once; a
read or a write of configuration space waits for its completion (R384, R385). -/
def State.pcieArrive (s : State) (i : Nat) (q : Packet) : State :=
  let s := s.arrive q
  let a := q.addr.toNat
  let read := decide (q.op = opRdNc)
  if inEcam a && ownHeader a then
    if read then
      let r := s.random (readSize q)
      r.2.answerRead q r.1 false
    else s.answerWrite q
  else
    let s := s.tlpOf i q
    if read || inEcam a then { s with port := { s.port with pcie := s.port.pcie ++ [⟨i, q⟩] } } else s.answerWrite q

/-- The end of an outbound request that failed: all ones, counted and recorded (R385). -/
def State.pcieFailed (s : State) (i : Nat) (q : Packet) : State :=
  let s := s.pcieError i q.addr.toNat
  if q.op = opRdNc then s.answerRead q (List.replicate 32 0xFF) false else s.answerWrite q

/-- Take an outstanding request off the list. -/
def State.takePcie (s : State) (f : PcieReq → Bool) : Option (PcieReq × State) :=
  match s.port.pcie.findIdx? f with
  | some j =>
    match s.port.pcie[j]? with
    | some x => some (x, { s with port := { s.port with pcie := s.port.pcie.eraseIdx j } })
    | none => none
  | none => none

/-- PCIE_COMPLETION; one whose request has expired is discarded (R385). -/
def pcieCompletion (i : Nat) (x : Completion) (s : State) : State :=
  if !s.peUp i then s
  else
    let s := s.force (pciePage i 0) 0
    match s.takePcie (fun r => r.port = i && r.pkt.tag = x.tag) with
    | none => s
    | some (r, s) =>
      if !x.ok then s.pcieFailed i r.pkt
      else if r.pkt.op = opRdNc then s.answerRead r.pkt x.data x.poisoned
      else s.answerWrite r.pkt

/-- PCIE_COMPLETION (R385). -/
def execPcieCompletion (p : Fin 4) (x : Completion) (s : State) : Out := act s (pcieCompletion p.val x)

/-- PCIE_COMPLETION_TIMEOUT: CPL_TO expires for the j-th outstanding request (R385). -/
def pcieTimeout (i j : Nat) (s : State) : State :=
  match s.port.pcie[j]? with
  | some r =>
    if r.port = i then ({ s with port := { s.port with pcie := s.port.pcie.eraseIdx j } }).pcieFailed i r.pkt else s
  | none => s

/-- PCIE_COMPLETION_TIMEOUT (R385). -/
def execPcieCompletionTimeout (p : Fin 4) (j : Nat) (s : State) : Out := act s (pcieTimeout p.val j)

/-- The inbound window of a PCIe address: the lowest-numbered one that holds it (R386). -/
def State.ibWindow (s : State) (i a : Nat) : Option Nat :=
  firstWhere 8 (fun w =>
    let b := pciePage i (0x80 + 16 * w)
    let base := s.fld b 12 20 * 4096 + (s.reg (b + 4)).toNat * 4294967296
    decide (base ≤ a) && decide (a < base + 4096 * s.fld (b + 12) 0 24))

/-- Physical address and PARTID of an allowed inbound request (R386). -/
def State.ibTranslate (s : State) (i a n : Nat) (write : Bool) : Option (Nat × PartId) :=
  match s.ibWindow i a with
  | none => none
  | some w =>
    let b := pciePage i (0x80 + 16 * w)
    let base := s.fld b 12 20 * 4096 + (s.reg (b + 4)).toNat * 4294967296
    let pa := s.fld (b + 8) 0 30 * 4096 + (a - base)
    if a + n ≤ base + 4096 * s.fld (b + 12) 0 24 ∧ s.bit b (if write then 1 else 0) ∧ s.inDram pa n then
      some (pa, BitVec.ofNat 6 (s.fld (b + 12) 24 6))
    else none

/-- PCIE_INBOUND_REQUEST: the doorbell first, then the windows; what no window allows is refused: a posted write is dropped, a read gets UR
(12 R331; R386).  A read that is allowed gets its completion, with EP where its data is poisoned (18 R493). -/
def pcieInbound (i : Nat) (x : Tlp) (s : State) : State :=
  if !s.peUp i || !s.bit (pciePage i 0x48) 0 || !s.enabled (pciePage i 0) then s
  else
    let s := s.force (pciePage i 0) 1
    let a := x.addr.toNat
    let n := if x.write then x.data.length else x.len
    if x.write && decide (a / 4096 * 4096 = s.doorbell) then
      s.sendMsi 69 i
        { port := Fin.ofNat 8 i, req := BitVec.setWidth 18 x.req, off := BitVec.ofNat 12 a, size := n, data := BitVec.ofNat 64 (leNat x.data) }
    else
      match s.ibTranslate i a n x.write with
      | none =>
        let s := (s.raise (pciePage i 0) 1).fire (0x603 + 16 * i)
        if x.write then s else s.sendTlp i .ur
      | some (pa, p) =>
        let r := s.portAccess 69 i pa n p (if x.write then some x.data else none) x.poisoned
        match r.1 with
        | some (l, bad) => if x.write then r.2 else r.2.sendTlp i (.done l bad)
        | none => r.2

/-- PCIE_INBOUND_REQUEST (R386). -/
def execPcieInboundRequest (p : Fin 4) (x : Tlp) (s : State) : Out := act s (pcieInbound p.val x)

/-! ### The Parraha link: arrival at a port (R387-R394) -/

/-- The CRC check of a packet that a port receives (R387), with the injection of 18 R504. -/
def State.crcCheck (s : State) (p : Nat) (ok : Bool) : Bool × State :=
  let b := prlPage p 0
  if s.bit (b + 0x1C) 3 then (false, (s.force b 3).count (prlPage p 0x64))
  else if ok then (true, s)
  else (false, (s.raise b 3).count (prlPage p 0x64))

/-- A routed packet arrives at port `p` (R387, R388, R390).  One whose access a regulator holds waits. -/
def prlReceive (type p : Nat) (k : PrlPacket) (s : State) : State :=
  if !s.plLink p || !s.enabled (prlPage p 0) then s
  else if k.crcOk && s.prlWay k = .here && (s.prlHolder type k).isSome then
    match s.prlHolder type k with
    | some h => s.holdFor h
    | none => s
  else
    let c := s.crcCheck p k.crcOk
    if !c.1 then c.2
    else
      let s := c.2.count (prlPage p 0x60)
      match s.prlWay k with
      | .nowhere => s.count (prlPage p 0x68)
      | .link q => s.prlOut q type { k with hops := k.hops + 1 }
      | .here => s.prlSend p type k 4

/-- PARRAHA_WR (R392). -/
def execParrahaWr (p : Fin 4) (x : PrlPacket) (s : State) : Out := act s (prlReceive tWr p.val x)
/-- PARRAHA_RD (R392). -/
def execParrahaRd (p : Fin 4) (x : PrlPacket) (s : State) : Out := act s (prlReceive tRd p.val x)
/-- PARRAHA_RDR (R393). -/
def execParrahaRdr (p : Fin 4) (x : PrlPacket) (s : State) : Out := act s (prlReceive tRdr p.val x)
/-- PARRAHA_MSG (R394). -/
def execParrahaMsg (p : Fin 4) (x : PrlPacket) (s : State) : Out := act s (prlReceive tMsg p.val x)
/-- PARRAHA_NACK (R393). -/
def execParrahaNack (p : Fin 4) (x : PrlPacket) (s : State) : Out := act s (prlReceive tNack p.val x)

/-- A core's access reaches the Parraha ports.  A write is answered once accepted; in a MSG window a read gives 0; 256 reads may be
outstanding, more wait in the fabric (R391), and so does an access that comes back here to a regulator that holds it. -/
def State.prlArrive (s : State) (q : Packet) : State :=
  let a := q.addr.toNat
  match s.prlWindow a with
  | none => s.arrive q
  | some w =>
    if q.op = opRdNc then
      if s.prlMsgWindow w then (s.arrive q).answerRead q [] false
      else
        let k := s.prlRead w a (readSize q)
        match s.loopHolder [(tRd, k)] with
        | some h => s.holdFor h
        | none =>
          if 256 ≤ s.port.reads.length then s
          else
            let s := s.arrive q
            let s := { s with port := { s.port with tag := k.tag + 1, reads := s.port.reads ++ [{ tag := k.tag.toNat, pkt := q : PrlRead }] } }
            s.prlSend 0 tRd k 4
    else
      let ks := (writeRuns q).map (fun r => s.prlWrite w r.1 r.2 false)
      match s.loopHolder ks with
      | some h => s.holdFor h
      | none => ks.foldl (fun s k => s.prlSend 0 k.1 k.2 4) ((s.arrive q).answerWrite q)

/-! ### Delay, ticks and links (R395-R397) -/

/-- PARRAHA_LINK_CHANGE (R390, R404). -/
def prlLinkChange (p : Nat) (up : Bool) (s : State) : State :=
  if !s.plUp p || s.bit (prlPage p 0x44) 0 = up || (up && !s.bit (prlPage p 0x40) 0) then s
  else (s.setBit (prlPage p 0x44) 0 up).fire (0x640 + 16 * p)

/-- PARRAHA_LINK_CHANGE (R390). -/
def execParrahaLinkChange (p : Fin 4) (up : Bool) (s : State) : Out := act s (prlLinkChange p.val up)

/-- DELAY_MEASURE_TIMER: the port sends DLY_REQ and takes t1 (R395). -/
def delayTimer (p : Nat) (s : State) : State :=
  if s.plLink p && s.bit (prlPage p 0x40) 0 && decide (s.fld (prlPage p 0x4C) 0 16 ≠ 0) then
    ({ s with port := { s.port with t1 := SMap.set none s.port.t1 p (some s.clock.time) } }).prlOut p tDlyReq
      { src := BitVec.ofNat 18 s.node }
  else s

/-- DELAY_MEASURE_TIMER (R395). -/
def execDelayMeasureTimer (p : Fin 4) (s : State) : Out := act s (delayTimer p.val)

/-- A link-local packet arrives. -/
def linkLocal (p : Nat) (k : PrlPacket) (f : State → State) (s : State) : State :=
  if !s.plLink p then s
  else
    let c := s.crcCheck p k.crcOk
    if c.1 then f (c.2.count (prlPage p 0x60)) else c.2

/-- DLY_REQ is answered with DLY_RSP carrying t2 and t3 (R395). -/
def execDlyReq (p : Fin 4) (x : PrlPacket) (s : State) : Out :=
  act s (linkLocal p.val x (fun s =>
    s.prlOut p.val tDlyRsp
      { src := BitVec.ofNat 18 s.node, len := 16, data := leBytes 8 s.clock.time.toNat ++ leBytes 8 s.clock.time.toNat }))

/-- PL_DLY from the four times, truncated (R395). -/
def linkDelay (t1 t2 t3 t4 : W64) : Int := Int.tdiv ((t4 - t1).toInt - (t3 - t2).toInt) 2

/-- DLY_RSP sets PL_DLY and DVALID (R395). -/
def dlyRsp (p : Nat) (k : PrlPacket) (s : State) : State :=
  match SMap.get none s.port.t1 p with
  | none => s
  | some t1 =>
    let t2 := BitVec.ofNat 64 (leNat (k.data.take 8))
    let t3 := BitVec.ofNat 64 (leNat ((k.data.drop 8).take 8))
    let d := linkDelay t1 t2 t3 s.clock.time
    let s := { s with port := { s.port with t1 := SMap.set none s.port.t1 p none } }
    (s.setReg (prlPage p 0x48) (BitVec.setWidth 32 (BitVec.ofInt 16 d))).setBit (prlPage p 0x44) 1 true

/-- DLY_RSP (R395). -/
def execDlyRsp (p : Fin 4) (x : PrlPacket) (s : State) : Out := act s (linkLocal p.val x (dlyRsp p.val x))

/-- Fields of a TICK's payload: FNUM, RES, INSTANT (R390). -/
def tickFnum (k : PrlPacket) : W32 := BitVec.ofNat 32 (leNat (k.data.take 4))
def tickRes (k : PrlPacket) : Int := sextNat (leNat ((k.data.drop 4).take 4)) 32
def tickInstant (k : PrlPacket) : W64 := BitVec.ofNat 64 (leNat ((k.data.drop 8).take 8))

/-- PARRAHA_TICK: every TICK is counted; on the frame source's port it gives a tick event at the corrected time + 80 ns, or 20 ns
after receipt where that is too late, and PL_TOFS (03 R42; R396, R397). -/
def parrahaTick (p : Nat) (k : PrlPacket) (s : State) : State :=
  let s := (s.force (prlPage p 0) 2).count (prlPage p 0x58)
  if !(s.kind = 3 && s.srcPort = p) then s
  else
    let r := s.clock.time
    let i := r - BitVec.setWidth 64 (BitVec.ofNat 16 (s.fld (prlPage p 0x48) 0 16)) + BitVec.ofInt 64 (tickRes k) + 80
    let s := s.setReg64 (prlPage p 0x50) (i - tickInstant k).toNat
    let s := { s with port := { s.port with origin := tickInstant k } }
    if (i - r).toInt ≤ 20 then
      ((((s.count (prlPage p 0x5C)).raise (prlPage p 0) 2).fire (0x643 + 16 * p))).tickEvent 3 ⟨r + 20, some (tickFnum k)⟩
    else s.tickEvent 3 ⟨i, some (tickFnum k)⟩

/-- PARRAHA_TICK (R396). -/
def execParrahaTick (p : Fin 4) (x : PrlPacket) (s : State) : Out := act s (linkLocal p.val x (parrahaTick p.val x))

/-- The tick that the device announces: its instant and frame number.  An internal source announces the next tick from PX_TLEAD
before it on; another source the tick that it has established (R396). -/
def State.tickAhead (s : State) : Option (W64 × W32) :=
  if !s.running then none
  else if s.kind = 0 then
    match s.frame.expected with
    | some x => if x.toNat ≤ s.time + max 80 (s.fld (prlPage 0 0x108) 0 16) then some (x, s.fnum + 1) else none
    | none => none
  else
    match s.frame.due with
    | some e => some (e.instant, e.fnum.getD (s.fnum + 1))
    | none => none

/-- TICK_SEND: each tick instant is announced once (R396). -/
def tickSend (s : State) : State :=
  match s.tickAhead with
  | none => s
  | some (i, f) =>
    let res := BitVec.ofInt 32 ((i - s.clock.time).toInt - 80)
    let origin := if s.kind = 3 then s.port.origin else i
    let k : PrlPacket :=
      { src := BitVec.ofNat 18 s.node, len := 16, data := leBytes 4 f.toNat ++ leBytes 4 res.toNat ++ leBytes 8 origin.toNat }
    if s.port.ticked = some (i, f) then s
    else
      (List.range 4).foldl (fun s p => if s.bit (prlPage p 0x40) 1 && s.plLink p then s.prlOut p tTick k else s)
        { s with port := { s.port with ticked := some (i, f) } }

/-- TICK_SEND (R396). -/
def execTickSend (s : State) : Out := act s tickSend

/-- A write of PX_MRCFG: EN from 0 to 1 zeroes TAIL and PX_MRHEAD and starts the phase at 1 (R394, R397). -/
def State.writeMrCfg (s : State) (v : W32) : State :=
  let was := s.bit (prlPage 0 0x10C) 31
  let s := s.setReg (prlPage 0 0x10C) v
  if bitOf v 31 && !was then
    ({ s with port := { s.port with phase := true } }.setReg (prlPage 0 0x11C) 0).setReg (prlPage 0 0x118) 0
  else s

/-! ### Boot, storage and low-speed I/O (R398-R401) -/

/-- The PARTID of page 0's DMA: its PG_OWNER (R398, R399). -/
def State.bioPart (s : State) : PartId := BitVec.ofNat 6 (s.fld (bioPage 0 0x24) 0 6)

/-- DMA of a storage controller writes bytes to visible DRAM; into a confidential range of another PARTID the write is dropped
and counted (R398, R399; 15 R424). -/
def State.bioWrite (s : State) (a : Nat) (l : List Byte) : State :=
  let p := s.bioPart
  if l.isEmpty || !s.inDram a l.length then s
  else
    if s.confBars a l.length p then s.noteConf a p
    else (s.portAccess 68 2 a l.length p (some l) false).2

/-- Why a DMA write would have to wait (03 R59). -/
def State.bioHolder (s : State) (a : Nat) (l : List Byte) : Option Held :=
  if l.isEmpty || !s.inDram a l.length || s.confBars a l.length s.bioPart then none
  else s.wouldWait 68 2 s.bioPart a l.length true

/-- A write of the xSPI controller's GO (R398; assumption log 30). -/
def State.writeXsGo (s : State) (v : W32) : State :=
  if !bitOf v 0 || s.port.xspi then s else ({ s with port := { s.port with xspi := true } }).setNat (bioPage 0 0x58) 1

/-- XSPI_DONE: the data that the device gave goes to XS_DST, DONE sets and source 0x6CC fires (R398, R400), once no regulator holds the
write (03 R59). -/
def xspiDone (ok : Bool) (d : List Byte) (s : State) : State :=
  if !s.port.xspi then s
  else
    let a := (s.reg (bioPage 0 0x4C)).toNat + 4294967296 * s.fld (bioPage 0 0x50) 0 10
    let l := if ok then d.take (s.reg (bioPage 0 0x48)).toNat else []
    match s.bioHolder a l with
    | some h => s.holdFor h
    | none =>
      let s := ({ s with port := { s.port with xspi := false } }).bioWrite a l
      (s.setNat (bioPage 0 0x58) 2).fire 0x6CC

/-- XSPI_DONE (R398). -/
def execXspiDone (ok : Bool) (d : List Byte) (s : State) : Out := act s (xspiDone ok d)

/-- The doorbell registers of UFSHCI, as page offsets: transfer requests and task management (PRESUMED from the standard,
assumption log 29). -/
def ufsDoorbell (o : Nat) : Bool := o = 0x458 || o = 0x470

/-- UFS_TRANSFER_DONE: the transfer's DMA has written `d` at `a`, and source 0x6CD fires (R399, R400). -/
def ufsDone (ok : Bool) (a : Nat) (d : List Byte) (s : State) : State :=
  if !s.port.ufs then s
  else
    let l := if ok then d else []
    match s.bioHolder a l with
    | some h => s.holdFor h
    | none => (({ s with port := { s.port with ufs := false } }).bioWrite a l).fire 0x6CD

/-- UFS_TRANSFER_DONE (R399). -/
def execUfsTransferDone (ok : Bool) (a : PAddr) (d : List Byte) (s : State) : Out := act s (ufsDone ok a.toNat d)

/-- The registers of low-speed controller `k`: I2C 0-3, SPI 4-7, UART 8-11 (R400). -/
def lowSpeed (k o : Nat) : Nat :=
  if k < 4 then bioPage 1 (0x100 + 0x40 * k + o) else if k < 8 then bioPage 2 (0x100 + 0x40 * (k - 4) + o)
  else bioPage 2 (0x200 + 0x40 * (k - 8) + o)

/-- The FIFOs hold 64 bytes; more are lost (R400; assumption log 29). -/
def push64 (l : List Byte) (d : List Byte) : List Byte := (l ++ d).take 64

/-- A write of a controller's TXD, a read of its RXD (R400). -/
def State.pushTx (s : State) (k : Nat) (b : Byte) : State :=
  { s with port := { s.port with tx := SMap.set [] s.port.tx k (push64 (SMap.get [] s.port.tx k) [b]) } }
def State.popRx (s : State) (k : Nat) : W32 × State :=
  match SMap.get [] s.port.rx k with
  | [] => (BitVec.setWidth 32 (Config.byte s.fresh), { s with fresh := s.fresh + 1 })
  | b :: rest => (BitVec.setWidth 32 b, { s with port := { s.port with rx := SMap.set [] s.port.rx k rest } })

/-- A write of a controller's CMD starts an operation (R400). -/
def State.writeLsCmd (s : State) (k : Nat) (v : W32) : State :=
  let s := s.setReg (lowSpeed k 0x14) v
  { s with port := { s.port with busy := insertOnce k s.port.busy } }

/-- Bytes enter the receive FIFO of a controller. -/
def State.pushRx (s : State) (k : Nat) (d : List Byte) : State :=
  { s with port := { s.port with rx := SMap.set [] s.port.rx k (push64 (SMap.get [] s.port.rx k) d) } }

/-- LOW_SPEED_TRANSFER_DONE: what the TX FIFO held is sent, what was received enters the RX FIFO, and the source fires (R400). -/
def lowSpeedDone (k : Nat) (d : List Byte) (s : State) : State :=
  if !s.port.busy.contains k then s
  else
    let s := { s with port := { s.port with busy := s.port.busy.filter (· ≠ k), tx := SMap.set [] s.port.tx k [] } }
    (s.pushRx k d).fire (0x6C0 + k)

/-- LOW_SPEED_TRANSFER_DONE (R400). -/
def execLowSpeedTransferDone (k : Fin 12) (d : List Byte) (s : State) : Out := act s (lowSpeedDone k.val d)

/-- LOW_SPEED_RECEIVE: bytes on a UART's line, or for an I2C target; an SPI is a controller only (R400). -/
def execLowSpeedReceive (k : Fin 12) (d : List Byte) (s : State) : Out :=
  act s (fun s => if 4 ≤ k.val ∧ k.val < 8 then s else s.pushRx k.val d)

/-- GPIO_EDGE: the ball's level changes, and an enabled edge fires source 0x680 + n (R401). -/
def gpioEdge (g : Nat) (rise : Bool) (s : State) : State :=
  let s := s.setBit (bioPage 3 (0x40 + 4 * (g / 32))) (g % 32) rise
  if s.bit (bioPage 3 ((if rise then 0x58 else 0x60) + 4 * (g / 32))) (g % 32) then s.fire (0x680 + g) else s

/-- GPIO_EDGE (R401). -/
def execGpioEdge (g : Fin 64) (rise : Bool) (s : State) : Out := act s (gpioEdge g.val rise)

/-! ### The trace-port exporter (R403) -/

/-- Does the exporter send: TR_CTL.EN, and the debug level of the trace port (R403; 15 R425)? -/
def State.traceOn (s : State) : Bool := s.bit (bioPage 3 0x100) 0 && Nat.testBit s.dbg 3

/-- Records arrive at the exporter: sent, kept while there is room for 64, or counted in TR_LOST. -/
def State.exportTrace (s : State) (d : BitVec 512) : State :=
  if s.traceOn then { s with port := { s.port with trace := [] } }
  else
    (List.range 4).foldl
      (fun (s : State) (k : Nat) =>
        if 64 ≤ s.port.trace.length then s.count (bioPage 3 0x104)
        else { s with port := { s.port with trace := s.port.trace ++ [BitVec.setWidth 128 (d >>> (128 * k))] } }) s

/-- A write of TR_CTL: records that were kept go out (R403). -/
def State.writeTrCtl (s : State) (v : W32) : State :=
  let s := s.setReg (bioPage 3 0x100) v
  if s.traceOn then { s with port := { s.port with trace := [] } } else s

/-- TRC: a trace line arrives at a sink slice or at the exporter (10 R293; R403). -/
def traceArrive (q : Packet) (s : State) : State :=
  if s.atGate q then s
  else
    let s := s.arrive q
    match sliceOf q.dst.toNat with
    | some k => s.sinkTrace k q.line
    | none => if q.dst.toNat = 71 ∧ q.dstp.val = 1 then s.exportTrace q.line else s

/-- TRC (10 R293). -/
def execTrc (k : Packet) (s : State) : Out := act s (traceArrive { k with op := opTrc })

end Sys2Proof.Machine
end

