-- ==== Sys2Proof/Machine/Ctl.lean ====
section
/-! DEFINITION. Reads and writes of the registers of control space: views, side effects, ownership, locks, shadow banks and
soft resets (00 R4-R6; 02 R25-R35). -/

namespace Sys2Proof.Machine

/-! ### Stools as their pages show them (16 R455-R458) -/

/-- STL_STAT.RUNNING: RUN is 1, or the access of a stopped engine's instruction has not ended (R455, R456). -/
def State.stlRunning (s : State) (k : Nat) : Bool := s.bit (stoolPage k 0x40) 0 || (s.stool k).cw.isSome

/-- A write into a stool's SRAM, which carries SEC-DED per 32-bit word (R458). -/
def State.sramWrite (s : State) (k a : Nat) (l : List Byte) : State :=
  let s := s.eccWrite (stoolPage k 0) 2 3 (a / 4) (l.length = 4)
  let t := s.stool k
  s.setStool k { t with sram := Memory.writeN t.sram a l }

/-- A read of a stool's SRAM: whether the word cannot be corrected, and the bytes (R458). -/
def State.sramRead (s : State) (k a n : Nat) : Bool × List Byte × State :=
  let r := s.eccRead (stoolPage k 0) 2 3 (a / 4)
  (r.1, Memory.readN (s.stool k).sram a n, r.2)

/-- The SRAM address of word `w` of a stool's window (R455). -/
def State.stlWin (s : State) (k w : Nat) : Nat := 2048 * s.fld (stoolPage k 0x50) 0 7 + 4 * w

/-- The registers of an engine at a start (R431, R456). -/
def State.startStool (s : State) (k : Nat) : State :=
  let t := s.stool k
  s.setStool k
    { lreg := t.lreg, sram := t.sram, pc := BitVec.ofNat 24 (s.fld (stoolPage k 0x48) 0 24) }

/-- A write of STL_CTL (R456): the SRAM and the engine-local registers keep their values. -/
def State.writeStlCtl (s : State) (k : Nat) (v : W32) : State :=
  let was := s.bit (stoolPage k 0x40) 0
  let s := s.setBit (stoolPage k 0x40) 0 (bitOf v 0)
  if bitOf v 0 && !was then s.startStool k
  else if !bitOf v 0 && was then
    let t := s.stool k
    if t.waiting then (s.setStool k { t with waiting := false }).count (stoolPage k 0x54) else s
  else s

/-! ### Defined error bits (02 R29; 18 R503, R504) -/

/-- The PG_ERR bits 29:0 that a page defines. -/
def Page.errBits (p : Page) : Nat :=
  match p.kind with
  | .core => 0xF0F | .l2 | .slc => 0x1F | .router => 0x7F | .probe => 1 | .stool => if 32 ≤ p.inst then 0x2000001F else 0x2000000F
  | .rg => 1 | .frm => 0x1F | .tim => 3 | .cmt => 7 | .frr => 1 | .win => 1 | .mc => 0x1F | .ipe => 0x7F | .evc => 3 | .ert => 1
  | .te => if p.inst = 0 then 7 else 6 | .vf => 0x3F | .tsw => 1 | .tsp => 3 | .pcie => 7 | .prl => 0xF | .cabCtl => 7
  | .pwc | .pwq => 3 | .pwt => 1 | .chest => 3 | .rts => 0x1F | .rtm => 1 | .frz => 1
  | .dbg | .agg | .timCopy | .cmr | .modIv | .swf | .bio | .pwd => 0

/-- The bits that inject at once (18 R504). -/
def Page.atOnce (p : Page) : Nat :=
  (match p.kind with
    | .l2 | .slc => 8 | .router => 0x60 | .frm => 0x18 | .tim => 3 | .cmt => 7 | .mc => 0xC | .ipe => 0x60 | .evc => 2 | .ert => 1
    | .te => 1 | .vf => 3 | .tsp => 1 | .pcie => 4 | .prl => 2 | .cabCtl => 7 | .pwc | .pwq => 3 | .rts => 0x1C | .rtm => 1
    | .frz => 1 | _ => 0) % (p.errBits + 1) + 0xC0000000

/-- A write of PG_ERRINJ: a bit of the at-once method sets and reports, another arms its detector (02 R30; 18 R503). -/
def State.writeErrInj (s : State) (p : Page) (v : W32) : State :=
  (List.range 32).foldl
    (fun s b =>
      if !bitOf v b then s
      else if p.atOnce.testBit b then s.detect p b (ctlAddr p.base) none true
      else if p.errBits.testBit b then s.setBit (p.base + 0x1C) b true
      else s) s

/-- What a bit that is set already reports when it is forwarded late: what its latest detection reports (02 R30, 18 R495; assumption
log 73). -/
def State.lateReport (s : State) (p : Page) (b : Nat) : Report :=
  match s.err.seen.find? (fun q => q.page = pageNo p.cab p.block p.page && q.bit = b) with
  | some r => r
  | none => s.reportOf p b (ctlAddr p.base) none false

/-- A write of PG_ERRMASK: an error whose bit is set while its mask bit becomes 1 is forwarded now (02 R30). -/
def State.writeErrMask (s : State) (p : Page) (v : W32) : State :=
  let new := v &&& ~~~ s.reg (p.base + 0x18) &&& s.reg (p.base + 0x14)
  let s := s.setReg (p.base + 0x18) v
  (List.range 32).foldl (fun s b => if bitOf new b then s.report (s.lateReport p b) else s) s

/-! ### Views -/

/-- PG_STAT.BUSY: the page is in a soft reset, or its block has work in flight (02 R29, R31). -/
def State.pageBusy (s : State) (p : Page) : Bool :=
  s.soft.contains (pageNo p.cab p.block p.page) ||
  (match p.kind with
    | .core => !s.drained p.inst || (s.core p.inst).walk.isSome || (s.core p.inst).fetchWait.isSome
    | .l2 => (s.engine p.inst).isSome || s.l2Works p.inst
    | .slc => (s.engine (24 + p.inst)).isSome || s.sliceWorks p.inst
    | .router => s.net.flights.any (fun f => f.rtr = p.inst && !f.out) || s.net.bridges.any (fun b => b.gw = p.inst)
    | .probe => !(SMap.get [] s.net.trace p.inst).isEmpty
    | .rg => s.net.flights.any (fun f => f.wait = some p.base)
    | .cmt => s.checking
    | .mc => s.mem.training.contains p.inst || s.mcWorks p.inst
    | .evc => !s.ev.fires.isEmpty
    | .modIv => !s.ev.groups.isEmpty
    | .pcie => s.port.pcie.any (fun r => r.port = p.inst)
    | .prl => p.inst = 0 && !s.port.reads.isEmpty
    | .tsp => !(SMap.get [] s.port.egress p.inst).isEmpty
    | .ipe => s.bit (ipe p.inst 0x44) 1 || s.bit (ipe p.inst 0x44) 2 || (s.sweep p.inst).isSome
    | .te => !(s.teSlots p.inst).isEmpty || !(s.teParked p.inst).isEmpty || (p.inst = 0 && s.te.pf.isSome)
    | .vf => s.vfResetting p.inst || (List.range (s.nqp p.inst)).any (fun q => s.qBusy p.inst q)
    | .tsw => s.port.tblOp.isSome || !(s.teSlots 8).isEmpty || !(s.teSlots 9).isEmpty
    | .bio => (p.page = 0 && (s.port.xspi || s.port.ufs))
        || s.port.busy.any (fun k => (p.page = 1 && decide (k < 4)) || (p.page = 2 && decide (4 ≤ k)))
    | .rtm => s.bit (rtm p.page 0x44) 0
    | .stool => s.stlRunning p.inst
    | .pwq => s.pwrBusy
    | .cabCtl => s.bit (cabCtl p.cab 0x44) 31
    | _ => false)

/-- PG_STAT (02 R29; 17 R465). -/
def State.pgStat (s : State) (p : Page) : W32 :=
  let pwr := match p.domain with
    | some d => if s.domState d = 2 then 2 else 3
    | none => 3
  putField (putField (s.reg (p.base + 0x10)) 0 1 (b2n (s.pageBusy p))) 2 2 pwr

/-- A read of PG_STAT: of a page whose post-reset initialisation the spec does not describe, READY is free until a read finds it 1 (02
R29; assumption log 5); that of a cache is set when its invalidation ends (08 R244), that of a page in a soft reset at its end (R31). -/
def State.seeReady (s : State) (p : Page) : State :=
  let known := match p.kind with | .core | .l2 | .slc => true | _ => false
  if known || s.soft.contains (pageNo p.cab p.block p.page) || s.bit (p.base + 0x10) 1 then s
  else { s.setBit (p.base + 0x10) 1 (Config.pick s.fresh) with fresh := s.fresh + 1 }

/-- The clock of a cabinet in MHz; during a DVFS sequence the lower of the old and the new (03 R62; 17 R488). -/
def State.lowMhz (s : State) (c : Nat) : Nat :=
  if (s.dvfsStep c).isSome then min (s.curMhz c) (s.tgtMhz c) else s.curMhz c

/-- RG_CAP.CAP (03 R62; 11 R319). -/
def State.rgCap (s : State) (p : Page) : Nat :=
  if p.cab < 4 ∧ 0x10 ≤ p.block then s.lowMhz p.cab * 3 / 4
  else if p.block < 6 then 3 * min (s.lowMhz p.cab) 2000 / 2
  else
    match s.fld (mc p.inst 0x40) 0 2 with
    | 0 => 19200 | 1 => 22500 | 2 => 25599 | _ => 28800

/-- BSTAT (09 R265). -/
def State.bstat (s : State) (n : Nat) : Nat :=
  let b := (s.core n).bunk
  let waits := b.bound && b.shadow && !b.halted && (!b.loaded || b.lines.isEmpty)
  b2n b.bound + 2 * b2n b.halted + 4 * b2n (b.broken && (!b.shadow || b.halted)) + 8 * b2n (s.stalledPrimary n) + 16 * b2n waits

/-- BLAG: the lag, and the log lines that hold records not consumed, on both cores (09 R265). -/
def State.blag (s : State) (n : Nat) : Nat :=
  let b := (s.core n).bunk
  if !b.bound then 0
  else
    let q := if b.shadow then b else (s.core b.partner).bunk
    min 2048 (s.lag n) + 65536 * min 512 q.lines.length

/-- KS_VALID: the key slots that hold a key, 32 to a word (11 R323). -/
def State.ksValid (s : State) (w : Nat) : Nat :=
  (List.range 32).foldl (fun a j => if s.slotKey (32 * w + j) ≠ 0 then a + 2 ^ j else a) 0

/-- CHIP_STAT (17 R489). -/
def State.chipStat (s : State) : Nat := b2n s.allStop + 2 * b2n s.pwrBusy

/-- Word `w` of the probe's trace window (10 R294). -/
def State.tskData (s : State) (p : Page) (w : Nat) : W32 :=
  let k := 16 * (p.cab - 4) + (p.block - 0x10)
  let rec_ := 128 * s.fld (p.base + 0x10C) 0 6 + w / 4
  BitVec.setWidth 32 (SMap.get 0 s.coh.sink (k * 8192 + rec_) >>> (32 * (w % 4)))

/-- VF_INFO (13 R371). -/
def State.vfInfo (s : State) (v : Nat) : Nat :=
  b2n (s.vfExists v) * 2147483648 + b2n (s.vfCompat v) * 1073741824 + (s.vfPart v).toNat * 16777216 + s.nvec v * 256 + s.nqp v

/-- STL_STAT (16 R455). -/
def State.stlStat (s : State) (k : Nat) : Nat :=
  let t := s.stool k
  b2n (s.stlRunning k) + 2 * b2n t.waiting + 4 * b2n t.halted + 32 * fieldOf t.f 5 3

/-- What a functional register reads where that is not the stored word; reading it changes nothing. -/
def State.view (s : State) (p : Page) (o : Nat) : Option W32 :=
  let nat := fun (n : Nat) => some (BitVec.ofNat 32 n)
  match p.kind with
  | .core =>
    if o = 0x108 then some (putBit (s.reg (p.base + o)) 1 (s.core p.inst).ra.isSome)
    else if o = 0x168 then nat (s.bstat p.inst)
    else if o = 0x16C then nat (s.blag p.inst)
    else none
  | .win => if 0x40 ≤ o ∧ o < 0x80 ∧ o % 16 = 0 then nat (s.winCur (48 * p.cab + 4 * (p.page - 3) + (o - 0x40) / 16)) else none
  | .frm => if o = 0x44 then some (putField (s.reg (p.base + o)) 2 2 (s.fld (frm 0x60) 0 2)) else none
  | .rg => if o = 0x44 then nat (s.rgCap p) else none
  | .router =>
    if o = 0x44 then some (putField (s.reg (p.base + o)) 16 16 (min 0xFFFF (s.oldFlits p.inst)))
    else if o = 0x78 then nat ((s.net.bridges.filter (fun b => b.gw = p.inst)).length)
    else none
  | .probe => if 0x800 ≤ o ∧ p.feat = 1 then some (s.tskData p ((o - 0x800) / 4)) else none
  | .timCopy => if o = 0x4C then some (s.reg (tim 0x4C)) else none
  | .ipe => if 0x400 ≤ o ∧ o < 0x480 then nat (s.ksValid ((o - 0x400) / 4)) else none
  | .modIv =>
    if 0x404 ≤ o ∧ o < 0x800 then some (putBit (s.reg (p.base + o)) 31 (SMap.get none s.ev.groups ((o - 0x400) / 4)).isSome)
    else none
  | .te => if o = 0x40 then nat ((s.teSlots p.inst).length + 256 * (s.teParked p.inst).length) else none
  | .vf => if o = 0x40 then nat (s.vfInfo p.inst) else if o = 0x48 then nat (b2n (s.vfResetting p.inst)) else none
  | .tsp => if o = 0x74 then some (s.tsHi p.inst) else if o = 0x78 then some (s.tsInfo p.inst) else none
  | .pwc => if o = 0x44 then nat s.chipStat else none
  | .pwq => if o = 0x44 then some (putBit (s.reg (p.base + o)) 0 s.pwrBusy) else none
  | .agg => if o = 0x110 ∧ p.cab = 8 then nat (b2n s.errN + 2 * b2n s.err.frozen.isSome) else none
  | .frz => if o = 0x48 then nat (b2n s.freezeReady) else none
  | .rts =>
    if o = 0x40 then nat s.lc
    else if o = 0x44 then some (putField (s.reg (p.base + o)) 8 4 s.dbg)
    else if 0x54 ≤ o ∧ o < 0x64 then some (Config.uid ((o - 0x54) / 4))
    else none
  | .stool =>
    if o = 0x44 then nat (s.stlStat p.inst)
    else if o = 0x4C then nat (if s.stlRunning p.inst then 0 else (s.stool p.inst).pc.toNat)
    else none
  | _ => none

/-- Read the lower half of a 64-bit register: the upper half is captured for the initiator (03 R41). -/
def State.readLow (s : State) (i hi x : Nat) : W32 × State :=
  (BitVec.ofNat 32 x, s.capture i hi (BitVec.ofNat 32 (x / 4294967296)))

/-- The low-speed controller whose registers stand at offset `o` of page 1 or 2, and the register's offset (14 R400). -/
def lowSpeedAt (page o : Nat) : Option (Nat × Nat) :=
  if page = 1 ∧ 0x100 ≤ o ∧ o < 0x200 then some ((o - 0x100) / 0x40, o % 0x40)
  else if page = 2 ∧ 0x100 ≤ o ∧ o < 0x200 then some (4 + (o - 0x100) / 0x40, o % 0x40)
  else if page = 2 ∧ 0x200 ≤ o ∧ o < 0x300 then some (8 + (o - 0x200) / 0x40, o % 0x40)
  else none

/-- A word of the Chest window: one with an error that cannot be corrected reads 0 (17 R477, R490). -/
def State.chestRead (s : State) (o : Nat) : W32 × State :=
  let a := 2048 * s.fld (chs + 0x40) 0 8 + (o - 0x800)
  let r := s.eccRead chs 0 1 (a / 4)
  (if r.1 then 0 else BitVec.ofNat 32 (leNat (Memory.readN s.power.chest a 4)), r.2)

/-- Read the 32-bit register at offset `o` of a page that answers, for initiator code `i` (00 R4; 02 R26). -/
def State.readReg (s : State) (i : Nat) (p : Page) (o : Nat) : W32 × State :=
  let a := p.base + o
  if o = 0x10 then
    let s := s.seeReady p
    (s.pgStat p, s)
  else if o < 0x40 then (s.reg a, s)
  else
    match p.kind, o with
    | .tim, 0x40 => s.readLow i (a + 4) s.time
    | .tim, 0x44 => s.takeCap i a (BitVec.ofNat 32 (s.time / 4294967296))
    | .timCopy, 0x40 => s.readLow i (a + 4) s.time
    | .timCopy, 0x44 => s.takeCap i a (BitVec.ofNat 32 (s.time / 4294967296))
    | .core, 0x110 => s.readLow i (a + 4) (s.reg64 a)
    | .core, 0x114 => s.takeCap i a (s.reg a)
    | .core, 0x170 => s.readLow i (a + 4) (s.core p.inst).bunk.brpos.toNat
    | .core, 0x174 => s.takeCap i a (BitVec.ofNat 32 ((s.core p.inst).bunk.brpos.toNat / 4294967296))
    | .pwc, 0x50 => s.readLow i (a + 4) s.power.aon.toNat
    | .pwc, 0x54 => s.takeCap i a (BitVec.ofNat 32 (s.power.aon.toNat / 4294967296))
    | .tsp, 0x70 => s.popStamp p.inst
    | .mc, 0x58 => s.readRfm p.inst
    | .chest, _ => if 0x800 ≤ o then s.chestRead o else (s.reg a, s)
    | .stool, _ =>
      if 0x800 ≤ o then
        let r := s.sramRead p.inst (s.stlWin p.inst ((o - 0x800) / 4)) 4
        (if r.1 then 0 else BitVec.ofNat 32 (leNat r.2.1), r.2.2)
      else ((s.view p o).getD (s.reg a), s)
    | .bio, _ =>
      match lowSpeedAt p.page o with
      | some (k, 0x10) => s.popRx k
      | some (_, 8) => let r := s.random 4; (BitVec.ofNat 32 (leNat r.1), r.2)
      | _ => (s.reg a, s)
    | _, _ => ((s.view p o).getD (s.reg a), s)

/-! ### Ownership (02 R33) -/

/-- May the PARTID write the page: it is 0 or PG_OWNER (R33). -/
def State.mayWrite (s : State) (p : Page) (part : PartId) : Bool := part = 0 || s.fld (p.base + 0x24) 0 6 = part.toNat

/-- Is the register one that only PARTID 0 writes (08 R225, 09 R247, 10 R278, 11 R306, R311, 12 R328, 13 R354, 14 R386, R392, 15
R426, 17 R485)? -/
def Page.sysOnly (p : Page) (o : Nat) : Bool :=
  (match p.row o with
    | some r => r.sys
    | none => false) ||
  (match p.kind with
    | .pcie => decide (0x80 ≤ o ∧ o < 0x100)
    | .prl => decide (0x200 ≤ o ∧ o < 0x400) && p.inst = 0
    | .pwc => o = 0x40
    | .pwq => o = 0x40
    | .cabCtl => o = 0x4C
    | _ => false)

/-- A write is refused: OWN_REF sets and reports the register and the PARTID (02 R33; 18 R495). -/
def State.refuseWrite (s : State) (p : Page) (o : Nat) (part : PartId) : State :=
  s.detect p 31 (ctlAddr (p.base + o)) (some part) false

/-- A write has no effect: its page is in a soft reset (02 R31), or is that of a virtual function in reset and the register is not
PG_ERR (13 R366). -/
def State.writeVoid (s : State) (p : Page) (o : Nat) : Bool :=
  s.soft.contains (pageNo p.cab p.block p.page) || (p.kind = .vf && s.vfResetting p.inst && o != 0x14)

/-! ### Soft resets (02 R31) -/

/-- Functional registers that a soft reset leaves. A read-only register reads the current value of what it shows (00 R4), and a soft
reset of the page leaves that as it is: the power state of a domain, the point in force, lifecycle and confidential table, what training and ON
fixed, and by their own rules the physical function's registers and a function's queues (17 R486; 11 R299, R312, R322; 13 R366, R370; 15
R422; assumption log 31). -/
def Page.softKeeps (p : Page) (o : Nat) : Bool :=
  match p.kind with
  | .pwd => decide (0x100 ≤ o ∧ o < 0x5A0)
  | .cabCtl => o = 0x44
  | .mc => o = 0x40 || o = 0x48 || o = 0x4C
  | .ipe => o = 0x40 || o = 0x44
  | .te => p.inst = 0 && decide (0x100 ≤ o) && o != 0x108
  | .rts => o = 0x40 || o = 0x44 || o = 0x48 || decide (0x500 ≤ o)
  | .vf => decide (0x400 ≤ o)
  | _ => false

/-- The block stops accepting functional work (R31; 03 R47, R67; 08 R242; 13 R370, R371; 16 R456). -/
def State.softStop (s : State) (p : Page) : State :=
  match p.kind with
  | .frm => (s.setBit (frm 0x40) 0 false).stopFrames
  | .cmt => s.cancelCommit
  | .l2 => s.meAbort p.inst
  | .slc => s.meAbort (24 + p.inst)
  | .ipe => (match s.sweep p.inst with | some w => s.setSweep p.inst (some { w with abort := true }) | none => s)
  | .te => s.abortSlots p.inst
  | .vf => if s.vfExists p.inst ∧ !s.vfResetting p.inst then
        ({ s with te := { s.te with soft := insertOnce p.inst s.te.soft } }).startVfReset p.inst
      else s
  | .stool =>
    let s := s.setBit (stoolPage p.inst 0x40) 0 false
    s.setStool p.inst { s.stool p.inst with waiting := false, halted := false }
  | .modIv => { s with ev := { s.ev with groups := [] } }
  | .tsw => { s with port := { s.port with tblOp := none, gd := [] } }
  | .tsp => { s with port := { s.port with
      stamps := SMap.set [] s.port.stamps p.inst [], stamp := SMap.set none s.port.stamp p.inst none,
      gates := SMap.set none s.port.gates p.inst none, gatePend := SMap.set none s.port.gatePend p.inst none,
      egress := SMap.set [] s.port.egress p.inst [] } }
  | .prl => if p.inst = 0 then { s with port := { s.port with phase := true } } else s
  | .bio =>
    if p.page = 0 then { s with port := { s.port with xspi := false, ufs := false } }
    else
      let mine := fun (k : Nat) => (p.page = 1 && decide (k < 4)) || (p.page = 2 && decide (4 ≤ k))
      { s with port := { s.port with
        busy := s.port.busy.filter (fun k => !mine k), tx := s.port.tx.filter (fun x => !mine x.1)
        rx := s.port.rx.filter (fun x => !mine x.1), trace := if p.page = 3 then [] else s.port.trace } }
  | .rtm => { s with rot := { s.rot with queue := s.rot.queue.filter (fun c => c.page ≠ p.page) } }
  | _ => s

/-- A soft reset starts: BUSY, the arms of the page cleared (R31; 18 R503). -/
def State.softReset (s : State) (p : Page) : State :=
  ({ s with soft := insertOnce (pageNo p.cab p.block p.page) s.soft }.setReg (p.base + 0x1C) 0).softStop p

/-- Does the core await a response from the fabric: a fill, a read outside the caches, a TLBI, an access of its store buffer? -/
def State.coreAwaits (s : State) (n : Nat) : Bool :=
  let c := s.core n
  s.coh.misses.any (fun m => m.core = n && m.got.isNone) || c.ext.any (fun e => e.got.isNone) || !c.tlbis.isEmpty
    || c.sb.any (fun e => e.sent.isSome)

/-- May a soft reset end: the block has its outstanding fabric responses, and an engine's abort, a PF command, a function's reset, a stool's
access have ended (R31; 08 R242; 13 R366, R370; 16 R456). -/
def State.softReady (s : State) (p : Page) : Bool :=
  match p.kind with
  | .core => !s.coreAwaits p.inst
  | .l2 => (s.engine p.inst).isNone && !s.l2Works p.inst
  | .slc => (s.engine (24 + p.inst)).isNone && !s.sliceWorks p.inst
  | .mc => !s.mcWorks p.inst
  | .cabCtl => (s.dvfsStep p.cab).isNone
  | .ipe => (s.sweep p.inst).isNone
  | .te => p.inst ≠ 0 || s.te.pf.isNone
  | .vf => !s.vfResetting p.inst
  | .stool => (s.stool p.inst).cw.isNone
  | _ => true

/-- A core discards what came for an access that has not completed (R31): its data comes again when it issues again. -/
def State.discardAnswers (s : State) (n : Nat) : State :=
  s.updCore n (fun c => { c with issued := false, given := [], ext := c.ext.filter (fun e => e.wrote) })

/-- A soft reset ends: the responses that came are discarded, functional registers and PG_ERRCNT return to reset values, BUSY clears and
READY sets (R31); a binding in force ends with its register, a receiver takes the master's ARMED.  DEDUCED: PG_CTL.EN is no functional
register and keeps its value, and READY, until the end sets it, the value that it had (assumption log 31). -/
def State.softDone (s : State) (p : Page) : State :=
  let b := p.base
  let n := pageNo p.cab p.block p.page
  if !s.soft.contains n || !s.softReady p then s
  else
    let old := s
    let s := { s with
      regs := s.regs.filter (fun r => !(decide (b + 0x40 ≤ r.1) && decide (r.1 < b + 0x1000)) || p.softKeeps (r.1 - b))
      soft := s.soft.filter (· ≠ n) }
    let s := (s.setReg (b + 0x20) 0).setBit (b + 0x10) 1 true
    match p.kind with
    | .core => (s.discardAnswers p.inst).bindChange p.inst (old.reg (b + 0x164)) 0
    | .cmr => s.setNat (b + 0x44) (b2n s.armed)
    | .win => (List.range 4).foldl (fun s k => s.setWins (48 * p.cab + 4 * (p.page - 3) + k) []) s
    | .pwd => (List.range 296).foldl (fun s d => (s.setBit (dstat d) 3 false).setFld (dstat d) 4 11 0) s
    | _ => s

/-- A write of PG_CTL: LOCK sets first, and SRST starts a soft reset only while LOCK is 0 (R29, R31). -/
def State.writePgCtl (s : State) (p : Page) (v : W32) : State :=
  let a := p.base + 0xC
  let s := s.setReg a ((s.reg a &&& 4) ||| (v &&& 5))
  if bitOf v 1 && !s.bit a 2 then s.softReset p else s

/-! ### Writes -/

/-- Is LOCK 1 (00 R5)? -/
def State.locked (s : State) (p : Page) : Bool := s.bit (p.base + 0xC) 2

/-- The word that a masked write leaves (00 R4). -/
def maskedWrite (r : RegRow) (locked : Bool) (old v : W32) : W32 :=
  let m := BitVec.ofNat 32 (if locked then r.rw else r.rw ||| r.rwl)
  (((old &&& ~~~m) ||| (v &&& m)) &&& ~~~(v &&& BitVec.ofNat 32 r.w1c)) ||| (v &&& BitVec.ofNat 32 r.w1s)

/-- Set a register under its access codes (00 R4). -/
def State.plainWrite (s : State) (p : Page) (o : Nat) (v : W32) : State :=
  match p.row o with
  | none => s
  | some r => s.setReg (p.base + o) (maskedWrite r (s.locked p) (s.reg (p.base + o)) v)

/-- Is the register shadow-banked (03 R63)? -/
def Page.shadowed (p : Page) (o : Nat) : Bool :=
  (p.kind = .router && decide (0x100 ≤ o ∧ o < 0x248)) ||
  (match p.row o with
    | some r => r.act.isSome
    | none => false)

/-- The active copy of a shadow register: of a route entry, that of the bank of the current EPOCH (03 R47; 10 R278). -/
def State.activeOf (s : State) (p : Page) (o : Nat) : Option Nat :=
  if p.kind = .router ∧ 0x100 ≤ o ∧ o < 0x248 then some ((if s.epoch p.inst then 0x500 else 0x300) + (o - 0x100))
  else
    match p.row o with
    | some r => r.act.map (fun a => a + (o - r.off))
    | none => none

/-- A write of a shadow-banked register: refused while a commit is checking or armed (03 R65), to a route entry while DRAIN is 1
(10 R279); performed on both banks while RUN is 0 (03 R47). -/
def State.shadowWrite (s : State) (p : Page) (o : Nat) (v : W32) : State :=
  let drains := p.kind = .router && decide (0x100 ≤ o ∧ o < 0x248) && s.bit (p.base + 0x44) 1
  if s.armed || s.checking then
    let s := s.lateWrite (p.base + o)
    if drains then s.raise p.base 6 else s
  else if drains then s.raise p.base 6
  else
    let old := s
    let s := s.plainWrite p o v
    if s.running then s
    else
      match s.activeOf p o with
      | none => s
      | some a =>
        let s := s.setReg (p.base + a) (s.reg (p.base + o))
        if p.kind = .core then s.bindChange p.inst (old.reg (p.base + a)) (s.reg (p.base + a))
        else if (p.kind = .l2 || p.kind = .slc) && a = 0x74 then s.dropReserved p (old.reg (p.base + a))
        else s

/-- A write that would let a window reach confidential memory has no effect and sets OWN_REF (15 R424). -/
def State.windowWrite (s : State) (p : Page) (o : Nat) (v : W32) (part : PartId) (wins : State → List Reach) : State :=
  let t := s.plainWrite p o v
  if (wins t).any t.reachBad then s.refuseWrite p o part else t

/-- PL_CMD.PCLR: every direction counter starts to be set to 0b01 (06 R180, R182). -/
def State.pclr (s : State) (n : Nat) : State := (s.updCore n (fun c => { c with pred := [] })).setBit (corePage n 0x108) 0 true

/-- A write of ERT_LO (12 R329). -/
def State.writeErtLo (s : State) (p : Page) (o : Nat) (v : W32) : State :=
  let c := fieldOf v 0 8
  if bitOf v 31 && (decide (225 < c) || (decide (c < 192) && fieldOf v 9 2 = 3 && decide (fieldOf v 11 10 < 4))) then s.raise p.base 0
  else s.plainWrite p o v

/-- A write of DBELL_LO or DBELL_HI (12 R331). -/
def State.writeDbell (s : State) (p : Page) (o : Nat) (v : W32) : State :=
  if s.locked p then s
  else
    let t := s.plainWrite p o v
    if doorbellOk t.doorbell then t else s.raise p.base 1

/-- A write of TO_CFG (10 R286). -/
def State.writeToCfg (s : State) (r : Nat) (v : W32) : State :=
  let x := fieldOf v 0 24
  if x < 100 ∨ 10000000 < x then s.raise (routerPage r 0) 5 else s.setNat (routerPage r 0x48) x

/-- A W1C write of AG_STAT: the records of the cleared classes lose VALID (18 R497). -/
def State.clearAgStat (s : State) (p : Page) (v : W32) : State :=
  let s := s.plainWrite p 0x40 v
  (List.range 5).foldl (fun s k => if bitOf v k then s.setBit (p.base + 0x84 + 16 * k) 31 false else s) s

/-- A word written into the Chest window (17 R477, R490). -/
def State.chestWrite (s : State) (o : Nat) (v : W32) : State :=
  let a := 2048 * s.fld (chs + 0x40) 0 8 + (o - 0x800)
  let s := s.eccWrite chs 0 1 (a / 4) true
  { s with power := { s.power with chest := Memory.writeN s.power.chest a (leBytes 4 v.toNat) } }

/-- A write of a functional register of one stool (16 R455-R457). -/
def State.writeStool (s : State) (k : Nat) (p : Page) (o : Nat) (v : W32) : State :=
  if o = 0x40 then s.writeStlCtl k v
  else if o = 0x48 then (if s.stlRunning k then s else s.plainWrite p o v)
  else if 0x800 ≤ o then s.sramWrite k (s.stlWin k ((o - 0x800) / 4)) (leBytes 4 v.toNat)
  else s.plainWrite p o v

/-- A write on a stool page; on either chip stool page it is performed on both engines (16 R460). -/
def State.writeStools (s : State) (p : Page) (o : Nat) (v : W32) : State :=
  if 32 ≤ p.inst then
    (s.writeStool 32 { p with inst := 32, page := 0 } o v).writeStool 33 { p with inst := 33, page := 1 } o v
  else s.writeStool p.inst p o v

/-- A write of a register of a virtual function's page (13 R354-R356, R366, R371). -/
def State.writeVf (s : State) (v o : Nat) (p : Page) (w : W32) (part : PartId) : State :=
  if s.vfResetting v then s
  else if !s.vfExists v || (decide (0x400 ≤ o) && !s.queueOk v ((o - 0x400) / 32)) then s.raise (vfPage v 0) 0
  else if o = 0x44 then s.writeVfRst v w
  else if o < 0x400 then s.windowWrite p o w part (fun s => s.apertures v)
  else
    match p.row o with
    | none => s
    | some r =>
      let q := (o - 0x400) / 32
      let x := w &&& BitVec.ofNat 32 r.rw
      match o % 32 with
      | 0x10 => s.writeQcfg v q x
      | 0x14 => s.writeQdb v q x
      | 0x18 => s
      | 0x1C => s
      | k => s.writeQbase v q k x

/-- A write of a functional register by initiator code `i` with a PARTID; `c` is the always-on count where a chip Stop needs
it. -/
def State.writeFunc (s : State) (i : Nat) (part : PartId) (c : BitVec 48) (p : Page) (o : Nat) (v : W32) : State :=
  match p.kind, o with
  | .frm, 0x40 => s.writeFrmCtl v
  | .frm, 0x48 => s.writeFnum v
  | .tim, 0x48 => s.writeAdj v
  | .tim, 0x54 => s.writeStep v
  | .cmt, 0x44 => s.writeCmtCtl v
  | .core, 0x104 => if bitOf v 0 then s.pclr p.inst else s
  | .l2, 0x54 => s.writeMeCmd p.inst v
  | .slc, 0x54 => s.writeMeCmd (24 + p.inst) v
  | .router, 0x48 => s.writeToCfg p.inst v
  | .probe, 0x108 =>
    let s := s.plainWrite p o v
    { s with coh := { s.coh with sinkFull := s.coh.sinkFull.filter (· ≠ 16 * (p.cab - 4) + (p.block - 0x10)) } }
  | .mc, 0x40 => if s.mem.inited.contains p.inst then s else s.plainWrite p o v
  | .mc, 0x44 => s.writeMcCmd p.inst v
  | .ipe, 0x40 => s.writeIpeCtl p.inst v
  | .ipe, 0x74 => s.writeSwCmd p.inst v
  | .evc, 0x40 => s.writeDbell p o v
  | .evc, 0x44 => s.writeDbell p o v
  | .swf, 0x40 => s.fire (64 * (p.page - 2) + fieldOf v 0 6)
  | .tsw, 0x48 => s.writeGdHi 0 v
  | .tsw, 0x50 => s.writeGdHi 1 v
  | .tsw, 0x68 => s.writeTblCmd v
  | .tsp, 0x48 => (s.plainWrite p o v).writeGpCfg p.inst v
  | .tsp, 0x4C => (s.plainWrite p o v).releaseEgress p.inst
  | .tsp, 0x68 => s.writeQbv p.inst v
  | .pcie, 0x44 => s.writePeCtl p.inst (v &&& 3)
  | .pcie, 0x54 => if fieldOf v 0 24 < 50 ∨ 50000 < fieldOf v 0 24 then s else s.plainWrite p o v
  | .pcie, 0x40 =>
    let t := s.plainWrite p o v
    if s.port.lanes.isSome then t.setFld (p.base + o) 0 2 (s.fld (p.base + o) 0 2) else t
  | .pwc, 0x40 => s.writeChipCmd v c
  | .pwq, 0x40 => s.writeDcmd i v
  | .cabCtl, 0x40 => s.writeDvfsReq p.cab v
  | .cabCtl, 0x4C => s.writeCrst p.cab v
  | .agg, 0x40 => s.clearAgStat p v
  | .frz, 0x40 => if bitOf v 0 then s.freeze 2 else s
  | .rts, 0x4C => if s.locked p then s else s.writeRvbar false (v &&& 0xFFFFF000)
  | .rts, 0x50 => if s.locked p then s else s.writeRvbar true (v &&& 0x3FF)
  | .rtm, 0x40 => s.writeMbCmd p.page v
  | .agg, 0x100 => if p.cab = 8 && !s.locked p then s.writeHbCtl v else s
  | .agg, 0x108 => if p.cab = 8 then s.writeHbCmd v else s
  | .bio, 0x54 => if p.page = 0 then s.writeXsGo v else s.plainWrite p o v
  | .bio, 0x100 => if p.page = 3 then s.writeTrCtl (v &&& 7) else s.plainWrite p o v
  | .bio, _ =>
    match lowSpeedAt p.page o with
    | some (k, 0xC) => s.pushTx k (BitVec.setWidth 8 v)
    | some (k, 0x14) => s.writeLsCmd k v
    | _ =>
      let s := s.plainWrite p o v
      if p.page = 0 && ufsDoorbell o && v != 0 then { s with port := { s.port with ufs := true } } else s
  | .te, 0x100 => if p.inst = 0 then s.writePfCmd v else s
  | .ipe, _ =>
    if 0x100 ≤ o ∧ o < 0x110 ∧ s.ipeActive p.inst then (if s.locked p then s else s.raise p.base 5) else s.plainWrite p o v
  | .ert, _ => if 0x800 ≤ o ∧ o % 8 = 0 then s.writeErtLo p o v else s.plainWrite p o v
  | .vf, _ => s.writeVf p.inst o p v part
  | .pcie, _ => if 0x80 ≤ o ∧ o < 0x100 then s.windowWrite p o v part (fun s => s.pcieWindows p.inst) else s.plainWrite p o v
  | .prl, 0x10C => if p.inst = 0 then s.writeMrCfg (v &&& 0x8000000F) else s
  | .prl, _ =>
    if p.inst = 0 ∧ 0x300 ≤ o ∧ o < 0x400 then s.windowWrite p o v part (fun s => s.prlWindows) else s.plainWrite p o v
  | .pwd, _ =>
    let t := s.plainWrite p o v
    if 0x100 ≤ o ∧ o < 0x5A0 ∧ bitOf v 3 then t.setFld (p.base + o) 8 4 0 else t
  | .chest, _ => if 0x800 ≤ o then s.chestWrite o v else s.plainWrite p o v
  | .stool, _ => s.writeStools p o v
  | _, _ => if p.shadowed o then s.shadowWrite p o v else s.plainWrite p o v

/-- A write of a register that ownership allows. -/
def State.writeReg (s : State) (i : Nat) (part : PartId) (c : BitVec 48) (p : Page) (o : Nat) (v : W32) : State :=
  match o with
  | 0x0C => s.writePgCtl p v
  | 0x18 => s.writeErrMask p v
  | 0x1C => s.writeErrInj p v
  | _ => if o < 0x40 then s.plainWrite p o v else s.writeFunc i part c p o v

/-- A page's node performs a 4-byte write: it is void, refused, or performed (02 R31, R33; 10 R297). -/
def State.acceptWrite (s : State) (i : Nat) (part : PartId) (c : BitVec 48) (p : Page) (o : Nat) (v : W32) : State :=
  if s.writeVoid p o then s
  else if !s.mayWrite p part || (part ≠ 0 && p.sysOnly o) then s.refuseWrite p o part
  else s.writeReg i part c p o v

/-- A write of a size that R26 refuses: SIZE sets, and OWN_REF where ownership fails too. -/
def State.acceptSmall (s : State) (part : PartId) (p : Page) (o : Nat) : State :=
  if s.writeVoid p o then s
  else
    let s := s.detect p 30 (ctlAddr (p.base + o)) none false
    if !s.mayWrite p part || (part ≠ 0 && p.sysOnly o) then s.refuseWrite p o part else s

/-! ### Accesses (02 R26) -/

/-- Does a page stand at the offset and answer (02 R21, R32)? -/
def State.pageAt (s : State) (a : Nat) : Option Page :=
  match pageOf a with
  | some p => if s.pageUp p then some p else none
  | none => none

/-- What an access to control space gives: nothing answers, or a value and the state after it. -/
abbrev CtlRes := Option (Nat × State)

/-- Read `n` bytes, 1, 2 or 4 of them aligned, at an offset (02 R26). -/
def State.ctlRead1 (s : State) (i a n : Nat) : CtlRes :=
  match s.pageAt a with
  | none => none
  | some p =>
    let r := s.readReg i p (a % 4096 / 4 * 4)
    some (r.1.toNat / 2 ^ (8 * (a % 4)) % 2 ^ (8 * n), r.2)

/-- Write `n` bytes, 1, 2 or 4 of them aligned, at an offset (02 R26). -/
def State.ctlWrite1 (s : State) (i : Nat) (part : PartId) (a n v : Nat) : CtlRes :=
  match s.pageAt a with
  | none => none
  | some p =>
    let o := a % 4096 / 4 * 4
    some (0, if n = 4 then s.acceptWrite i part s.power.aon p o (BitVec.ofNat 32 v) else s.acceptSmall part p o)

/-- A control-network access with byte enables that select other than 1, 2 or 4 aligned bytes (02 R26). -/
def State.ctlBad (s : State) (part : PartId) (a : Nat) (write : Bool) : CtlRes :=
  match s.pageAt a with
  | none => none
  | some p =>
    let o := a % 4096 / 4 * 4
    some (0, if write then s.acceptSmall part p o else s.detect p 30 (ctlAddr (p.base + o)) none false)

/-- The bytes that byte enables select, as offset in the word and count, where R26 accepts them. -/
def beBytes (be : BitVec 4) : Option (Nat × Nat) :=
  match be.toNat with
  | 1 => some (0, 1) | 2 => some (1, 1) | 4 => some (2, 1) | 8 => some (3, 1) | 3 => some (0, 2) | 12 => some (2, 2) | 15 => some (0, 4)
  | _ => none

/-- What an initiator does about an access that nothing answers: a core's bench router and a stool's page record it (10 R285, R287; 16
R444); JTAG has no record of its own (assumption log 80). -/
def State.ctlTimeout (s : State) (i : Initiator) (a : Nat) : State :=
  match i with
  | .core n => s.timeoutAt (benchRouter n.val) 0 (ctlAddr a) (s.core n.val).part
  | .stool k =>
    let s := s.count (stoolPage k.val 0x58)
    (s.setNat (stoolPage k.val 0x5C) a).raise (stoolPage k.val 0) 1
  | .jtag => s

/-! ### The control network (10 R295, R296) -/

/-- The node to which a page attaches (R295). -/
def Page.node (p : Page) : Nat :=
  if p.cab = 8 then 0
  else if p.cab < 4 ∧ 0x40 ≤ p.block then 9 + 6 * p.cab + (p.block - 0x40) / 8
  else if p.cab < 4 ∧ 0x10 ≤ p.block ∧ p.block < 0x16 then 9 + 6 * p.cab + (p.block - 0x10)
  else 1 + p.cab

/-- Word 0, word 1 and the data word of a request, and the words of its response (R296). -/
def CtlPkt.word0 (k : CtlPkt) : W32 :=
  BitVec.ofNat 32 (268435456 * b2n k.data.isSome + 4194304 * k.part.toNat + 65536 * k.node + 16384 * k.src + 256 * k.tag.toNat
    + 16 * k.be.toNat)
def CtlPkt.words (k : CtlPkt) : List W32 := [k.word0, BitVec.setWidth 32 k.addr] ++ k.data.toList
def CtlPkt.answer (k : CtlPkt) (v : W32) : List W32 :=
  if k.data.isSome then [BitVec.ofNat 32 (0x90000000 + k.tag.toNat)] else [BitVec.ofNat 32 (0x80000000 + k.tag.toNat), v]

/-- Where an initiator's access to an address enters the tree, and its source there: a core's comes over the control bridge of the address's
gateway (R269, R295, R296). -/
def entryOf (i : Initiator) (a : Nat) : Nat × Nat :=
  match i with
  | .core _ => (1 + min 6 (a / 0x1000000), 1 + a / 0x10000 % 2)
  | .stool k => (stoolNode k.val, 0)
  | .jtag => (0, 3)

/-- A packet passes the nodes of a path: whether a node finds a parity error, by itself at `bad` or by injection, and discards it
(R296; 18 R504). -/
def State.ctlTravel (s : State) (bad : Option Nat) : List Nat → Bool × State
  | [] => (false, s)
  | n :: path =>
    let b := stoolPage (nodeStool n) 0
    if bad = some n then (true, s.raise b 29)
    else if s.bit (b + 0x1C) 29 then (true, s.force b 29)
    else s.ctlTravel bad path

/-- The tags of a source that none of its requests carries. -/
def State.freeTags (s : State) (node src : Nat) : List (BitVec 6) :=
  ((List.range 64).map (BitVec.ofNat 6)).filter (fun t =>
    !s.net.ctl.any (fun k => k.node = node && k.src = src && k.tag = t)
      && !s.net.bridges.any (fun b => 1 + routerCabinet b.gw = node && b.left.contains t))

/-- An access sets out over the control network. -/
def State.ctlSend (s : State) (k : CtlPkt) : State := { s with net := { s.net with ctl := s.net.ctl ++ [k] } }

/-- A write by an initiator: that of 8 bytes is two of 4, the lower first, and the upper is on its way when the lower is performed; what nothing
answers times out (02 R21, R26). -/
def State.ctlStore (s : State) (i : Initiator) (a size v : Nat) : State :=
  let n := if size = 8 then 4 else size
  match s.ctlWrite1 (iniCode i) (s.partOf i) a n (v % 2 ^ (8 * n)) with
  | none => (s.fenceCtl a).ctlTimeout i a
  | some r =>
    if size ≠ 8 then r.2
    else
      let e := entryOf i a
      let t := (r.2.freeTags e.1 e.2).head?.getD 0
      r.2.ctlSend ⟨e.1, e.2, t, s.partOf i, 15, BitVec.ofNat 28 (a + 4), some (BitVec.ofNat 32 (v / 4294967296))⟩

/-- A read by an initiator of one register. -/
def State.ctlLoad (s : State) (i : Initiator) (a : Nat) : Nat × State :=
  match s.ctlRead1 (iniCode i) a 4 with
  | some r => r
  | none => (0, (s.fenceCtl a).ctlTimeout i a)

end Sys2Proof.Machine
end

