-- ==== Sys2Proof/Machine/CtlRows.lean ====
section
/-! DEFINITION. Control-space accesses as commands: the register writes and reads that are rows of their own, control-space
packets at the gateways, the control network, and initiator timeouts (02 R25-R35; 10 R285-R298). -/

namespace Sys2Proof.Machine

/-- The PARTID 0-4095 page of a page number as a control-space offset. -/
def pageOff (p : BitVec 16) (o : Nat) : Nat := 4096 * p.toNat + o

/-- A 4-byte write by an initiator of the register at a control-space offset. -/
def State.write4 (s : State) (i : Initiator) (a : Nat) (v : W32) : State := s.ctlStore i a 4 v.toNat

/-- A 4-byte read by an initiator, whose value the initiator takes. -/
def State.read4 (s : State) (i : Initiator) (a : Nat) : State := (s.ctlLoad i a).2

/-- REGISTER_WRITE: a write of 1, 2, 4 or 8 aligned bytes (00 R4; 02 R26).  An initiator issues no other (02 R26). -/
def registerWrite (i : Initiator) (a : BitVec 28) (size : Nat) (v : W64) (s : State) : State :=
  if (size = 1 || size = 2 || size = 4 || size = 8) && a.toNat % size == 0 then
    s.ctlStore i a.toNat size (v.toNat % 2 ^ (8 * size))
  else s

/-- REGISTER_WRITE (00 R4). -/
def execRegisterWrite (i : Initiator) (a : BitVec 28) (size : Nat) (v : W64) (s : State) : Out := act s (registerWrite i a size v)

/-- GO of a maintenance engine whose ME_CFG.OP is `op`; a GO under another OP is the command of another row. -/
def State.meGo (s : State) (i : Initiator) (e op : Nat) (v : W32) : State :=
  if s.fld (enginePage e + 0x50) 0 2 = op then s.write4 i (enginePage e + 0x54) (putField v 0 2 1) else s

/-- GO of an inline protection sweep whose SW_CFG.OP is `op`; a GO under another OP is the command of another row. -/
def State.swGo (s : State) (i : Initiator) (m op : Nat) (v : W32) : State :=
  if s.fld (ipe m 0x70) 0 2 = op then s.write4 i (ipe m 0x74) (putField v 0 2 1) else s

/-- A mailbox command: a write of MB_CMD with OP `op` (15 R427). -/
def State.mailbox (s : State) (i : Initiator) (p op : Nat) (v : W32) : State := s.write4 i (rtm (p + 1) 0x40) (putField v 0 8 op)

/-- LOCK_SET: PG_CTL with LOCK 1 (00 R5). -/
def execLockSet (i : Initiator) (p : BitVec 16) (v : W32) (s : State) : Out :=
  act s (fun s => s.write4 i (pageOff p 0xC) (v ||| 4))

/-- SOFT_RESET: PG_CTL with SRST 1 (02 R31). -/
def execSoftReset (i : Initiator) (p : BitVec 16) (v : W32) (s : State) : Out :=
  act s (fun s => s.write4 i (pageOff p 0xC) (v ||| 2))

/-- SOFT_RESET_DONE (02 R31). -/
def execSoftResetDone (p : BitVec 16) (s : State) : Out :=
  act s (fun s => match pageOf (pageOff p 0) with | some g => s.softDone g | none => s)

/-- ERRMASK_WRITE (02 R30). -/
def execErrmaskWrite (i : Initiator) (p : BitVec 16) (v : W32) (s : State) : Out :=
  act s (fun s => s.write4 i (pageOff p 0x18) v)

/-- ERRINJ_ARM (18 R503). -/
def execErrinjArm (i : Initiator) (p : BitVec 16) (v : W32) (s : State) : Out :=
  act s (fun s => s.write4 i (pageOff p 0x1C) v)

/-- PG_OWNER_WRITE (02 R35). -/
def execPgOwnerWrite (i : Initiator) (p : BitVec 16) (v : W32) (s : State) : Out :=
  act s (fun s => s.write4 i (pageOff p 0x24) v)

/-- AG_STAT_CLEAR, on an aggregator page (18 R497). -/
def execAgStatClear (i : Initiator) (p : BitVec 16) (v : W32) (s : State) : Out :=
  act s (fun s => if ((pageOf (pageOff p 0)).map Page.kind) = some .agg then s.write4 i (pageOff p 0x40) v else s)

/-- TO_CFG_WRITE (10 R286). -/
def execToCfgWrite (i : Initiator) (r : Fin 82) (v : W32) (s : State) : Out :=
  act s (fun s => s.write4 i (routerPage r.val 0x48) v)

/-- DVFS_REQUEST (17 R482). -/
def execDvfsRequest (i : Initiator) (c : Fin 8) (v : W32) (s : State) : Out :=
  act s (fun s => s.write4 i (cabCtl c.val 0x40) v)

/-- ADJ_WRITE (03 R39). -/
def execAdjWrite (i : Initiator) (v : W32) (s : State) : Out :=
  act s (fun s => s.write4 i (tim 0x48) v)

/-- TIME_STEP: TIM.STEP_HI (03 R40). -/
def execTimeStep (i : Initiator) (v : W32) (s : State) : Out :=
  act s (fun s => s.write4 i (tim 0x54) v)

/-- TIME_LO_READ: of the copy of cabinet 0-6, or of TIM in the AOC (03 R41). -/
def execTimeLoRead (i : Initiator) (c : Fin 8) (s : State) : Out :=
  act s (fun s => s.read4 i (pageBase c.val 2 1 + 0x40))

/-- RUN_START: FRM.CTL with RUN 1 (03 R47). -/
def execRunStart (i : Initiator) (v : W32) (s : State) : Out :=
  act s (fun s => s.write4 i (frm 0x40) (v ||| 1))

/-- RUN_STOP: FRM.CTL with RUN 0 (03 R47). -/
def execRunStop (i : Initiator) (v : W32) (s : State) : Out :=
  act s (fun s => s.write4 i (frm 0x40) (v &&& ~~~1))

/-- FNUM_WRITE (03 R46). -/
def execFnumWrite (i : Initiator) (v : W32) (s : State) : Out :=
  act s (fun s => s.write4 i (frm 0x48) v)

/-- CMT_ARM: CMT.CTL with ARM 1 and DISARM 0 (03 R64). -/
def execCmtArm (i : Initiator) (v : W32) (s : State) : Out :=
  act s (fun s => s.write4 i (cmt 0x44) (putField v 0 2 1))

/-- CMT_DISARM: CMT.CTL with DISARM 1 (03 R67). -/
def execCmtDisarm (i : Initiator) (v : W32) (s : State) : Out :=
  act s (fun s => s.write4 i (cmt 0x44) (v ||| 2))

/-- PL_CTL_WRITE (06 R181). -/
def execPlCtlWrite (i : Initiator) (n : Fin 192) (v : W32) (s : State) : Out :=
  act s (fun s => s.write4 i (corePage n.val 0x100) v)

/-- PCLR: PL_CMD with PCLR 1 (06 R182). -/
def execPclr (i : Initiator) (n : Fin 192) (v : W32) (s : State) : Out :=
  act s (fun s => s.write4 i (corePage n.val 0x104) (v ||| 1))

/-- RETCNT_LO_READ (06 R180). -/
def execRetcntLoRead (i : Initiator) (n : Fin 192) (s : State) : Out :=
  act s (fun s => s.read4 i (corePage n.val 0x110))

/-- BRPOS_LO_READ (09 R265). -/
def execBrposLoRead (i : Initiator) (n : Fin 192) (s : State) : Out :=
  act s (fun s => s.read4 i (corePage n.val 0x170))

/-- ME_CLEAN: GO while the engine's OP is 1 (08 R239, R241). -/
def execMeClean (i : Initiator) (e : Fin 56) (v : W32) (s : State) : Out :=
  act s (fun s => s.meGo i e.val 1 v)

/-- ME_INVALIDATE: GO while the engine's OP is 2 (08 R239, R241). -/
def execMeInvalidate (i : Initiator) (e : Fin 56) (v : W32) (s : State) : Out :=
  act s (fun s => s.meGo i e.val 2 v)

/-- ME_CLEAN_INVALIDATE: GO while the engine's OP is 3 (08 R239, R241). -/
def execMeCleanInvalidate (i : Initiator) (e : Fin 56) (v : W32) (s : State) : Out :=
  act s (fun s => s.meGo i e.val 3 v)

/-- ME_ABORT: ME_CMD with ABORT 1 and GO 0 (08 R242). -/
def execMeAbort (i : Initiator) (e : Fin 56) (v : W32) (s : State) : Out :=
  act s (fun s => s.write4 i (enginePage e.val + 0x54) (putField v 0 2 2))

/-- MC_INIT: MC_CMD with INIT 1 (11 R318). -/
def execMcInit (i : Initiator) (m : Fin 16) (v : W32) (s : State) : Out :=
  act s (fun s => s.write4 i (mc m.val 0x44) (v ||| 1))

/-- IPE_ON: IPE_CTL with ON 1 (11 R312). -/
def execIpeOn (i : Initiator) (m : Fin 16) (v : W32) (s : State) : Out :=
  act s (fun s => s.write4 i (ipe m.val 0x40) (v ||| 1))

/-- KEY_RANGE_WRITE: KR_BASE, or KR_LIM, of a range (11 R306). -/
def execKeyRangeWrite (i : Initiator) (m : Fin 16) (r : Fin 64) (lim : Bool) (v : W32) (s : State) : Out :=
  act s (fun s => s.write4 i (ipe m.val (0x200 + 8 * r.val + 4 * b2n lim)) v)

/-- SWEEP_REWRITE: GO while SW_CFG.OP is 1 (11 R317). -/
def execSweepRewrite (i : Initiator) (m : Fin 16) (v : W32) (s : State) : Out :=
  act s (fun s => s.swGo i m.val 1 v)

/-- SWEEP_ZERO: GO while SW_CFG.OP is 2 (11 R317). -/
def execSweepZero (i : Initiator) (m : Fin 16) (v : W32) (s : State) : Out :=
  act s (fun s => s.swGo i m.val 2 v)

/-- SWEEP_ABORT: SW_CMD with ABORT 1 and GO 0 (11 R317). -/
def execSweepAbort (i : Initiator) (m : Fin 16) (v : W32) (s : State) : Out :=
  act s (fun s => s.write4 i (ipe m.val 0x74) (putField v 0 2 2))

/-- ERT_LO_WRITE, of a source that the table has (12 R329). -/
def execErtLoWrite (i : Initiator) (e : BitVec 14) (v : W32) (s : State) : Out :=
  act s (fun s => s.write4 i (ertLo e.toNat) v)

/-- DBELL_WRITE: DBELL_LO, or DBELL_HI (12 R331). -/
def execDbellWrite (i : Initiator) (hi : Bool) (v : W32) (s : State) : Out :=
  act s (fun s => s.write4 i (evc (0x40 + 4 * b2n hi)) v)

/-- SWFIRE_WRITE (12 R348). -/
def execSwfireWrite (i : Initiator) (j : Fin 4) (v : W32) (s : State) : Out :=
  act s (fun s => s.write4 i (pageBase 6 0x10 (2 + j.val) + 0x40) v)

/-- PF_CREATE: PF_CMD with OP 1 (13 R352, R353). -/
def execPfCreate (i : Initiator) (v : W32) (s : State) : Out :=
  act s (fun s => s.write4 i (tePage 0 0x100) (putField v 0 3 1))

/-- PF_DESTROY: PF_CMD with OP 2 (13 R352, R353). -/
def execPfDestroy (i : Initiator) (v : W32) (s : State) : Out :=
  act s (fun s => s.write4 i (tePage 0 0x100) (putField v 0 3 2))

/-- PF_RESET: PF_CMD with OP 3 (13 R352, R353). -/
def execPfReset (i : Initiator) (v : W32) (s : State) : Out :=
  act s (fun s => s.write4 i (tePage 0 0x100) (putField v 0 3 3))

/-- PF_RESIZE: PF_CMD with OP 4 (13 R352, R353). -/
def execPfResize (i : Initiator) (v : W32) (s : State) : Out :=
  act s (fun s => s.write4 i (tePage 0 0x100) (putField v 0 3 4))

/-- QUEUE_ENABLE: Q_CFG with EN 1 (13 R356). -/
def execQueueEnable (i : Initiator) (f : BitVec 8) (q : Fin 64) (v : W32) (s : State) : Out :=
  act s (fun s => s.write4 i (qreg f.toNat q.val 0x10) (v ||| 1))

/-- QUEUE_DISABLE: Q_CFG with EN 0 (13 R356). -/
def execQueueDisable (i : Initiator) (f : BitVec 8) (q : Fin 64) (v : W32) (s : State) : Out :=
  act s (fun s => s.write4 i (qreg f.toNat q.val 0x10) (v &&& ~~~1))

/-- Q_DB_WRITE (13 R355). -/
def execQDbWrite (i : Initiator) (f : BitVec 8) (q : Fin 64) (v : W32) (s : State) : Out :=
  act s (fun s => s.write4 i (qreg f.toNat q.val 0x14) v)

/-- VF_RST_WRITE: RESET 1 (13 R366). -/
def execVfRstWrite (i : Initiator) (f : BitVec 8) (v : W32) (s : State) : Out :=
  act s (fun s => s.write4 i (vfPage f.toNat 0x44) (v ||| 1))

/-- TS_LO_READ (14 R376). -/
def execTsLoRead (i : Initiator) (p : Fin 8) (s : State) : Out :=
  act s (fun s => s.read4 i (tsp p.val 0x70))

/-- GD_OFFSET_WRITE: GDk_OFS_HI (14 R375). -/
def execGdOffsetWrite (i : Initiator) (g : Fin 2) (v : W32) (s : State) : Out :=
  act s (fun s => s.write4 i (tsw (0x48 + 8 * g.val)) v)

/-- QBV_CHANGE: QBV_CMD with CHANGE 1 (14 R377). -/
def execQbvChange (i : Initiator) (p : Fin 8) (v : W32) (s : State) : Out :=
  act s (fun s => s.write4 i (tsp p.val 0x68) (v ||| 1))

/-- TBL_READ: TBL_CMD with READ 1 and WRITE 0 (14 R380). -/
def execTblRead (i : Initiator) (v : W32) (s : State) : Out :=
  act s (fun s => s.write4 i (tsw 0x68) (putField v 0 2 1))

/-- TBL_WRITE: TBL_CMD with WRITE 1 and READ 0 (14 R380). -/
def execTblWrite (i : Initiator) (v : W32) (s : State) : Out :=
  act s (fun s => s.write4 i (tsw 0x68) (putField v 0 2 2))

/-- PCIE_LINK_ENABLE: PE_CTL with LINK_EN 1 (14 R382). -/
def execPcieLinkEnable (i : Initiator) (p : Fin 4) (v : W32) (s : State) : Out :=
  act s (fun s => s.write4 i (pciePage p.val 0x44) (v ||| 1))

/-- MSG_RING_ENABLE: PX_MRCFG with EN 1 (14 R394). -/
def execMsgRingEnable (i : Initiator) (v : W32) (s : State) : Out :=
  act s (fun s => s.write4 i (prlPage 0 0x10C) (putBit v 31 true))

/-- XSPI_GO (14 R398). -/
def execXspiGo (i : Initiator) (v : W32) (s : State) : Out :=
  act s (fun s => s.write4 i (bioPage 0 0x54) (v ||| 1))

/-- UFS_DOORBELL: a write to a doorbell register of the UFSHCI (14 R399). -/
def execUfsDoorbell (i : Initiator) (o : BitVec 12) (v : W32) (s : State) : Out :=
  act s (fun s => if ufsDoorbell o.toNat then s.write4 i (bioPage 0 o.toNat) v else s)

/-- LOW_SPEED_COMMAND: CMD of a controller (14 R400). -/
def execLowSpeedCommand (i : Initiator) (k : Fin 12) (v : W32) (s : State) : Out :=
  act s (fun s => s.write4 i (lowSpeed k.val 0x14) v)

/-- RNG: MB_CMD with OP 0x01 on mailbox page 1 + p (15 R427). -/
def execRng (i : Initiator) (p : Fin 3) (v : W32) (s : State) : Out :=
  act s (fun s => s.mailbox i p.val 0x01 v)

/-- BOOTIMG: MB_CMD with OP 0x10 on mailbox page 1 + p (15 R427). -/
def execBootimg (i : Initiator) (p : Fin 3) (v : W32) (s : State) : Out :=
  act s (fun s => s.mailbox i p.val 0x10 v)

/-- DICE_NEXT: MB_CMD with OP 0x20 on mailbox page 1 + p (15 R427). -/
def execDiceNext (i : Initiator) (p : Fin 3) (v : W32) (s : State) : Out :=
  act s (fun s => s.mailbox i p.val 0x20 v)

/-- MR_EXTEND: MB_CMD with OP 0x21 on mailbox page 1 + p (15 R427). -/
def execMrExtend (i : Initiator) (p : Fin 3) (v : W32) (s : State) : Out :=
  act s (fun s => s.mailbox i p.val 0x21 v)

/-- ATTEST: MB_CMD with OP 0x22 on mailbox page 1 + p (15 R427). -/
def execAttest (i : Initiator) (p : Fin 3) (v : W32) (s : State) : Out :=
  act s (fun s => s.mailbox i p.val 0x22 v)

/-- GETPUB: MB_CMD with OP 0x23 on mailbox page 1 + p (15 R427). -/
def execGetpub (i : Initiator) (p : Fin 3) (v : W32) (s : State) : Out :=
  act s (fun s => s.mailbox i p.val 0x23 v)

/-- SLOT_INSTALL: MB_CMD with OP 0x30 on mailbox page 1 + p (15 R427). -/
def execSlotInstall (i : Initiator) (p : Fin 3) (v : W32) (s : State) : Out :=
  act s (fun s => s.mailbox i p.val 0x30 v)

/-- SLOT_ERASE: MB_CMD with OP 0x31 on mailbox page 1 + p (15 R427). -/
def execSlotErase (i : Initiator) (p : Fin 3) (v : W32) (s : State) : Out :=
  act s (fun s => s.mailbox i p.val 0x31 v)

/-- CONF_SET: MB_CMD with OP 0x32 on mailbox page 1 + p (15 R427). -/
def execConfSet (i : Initiator) (p : Fin 3) (v : W32) (s : State) : Out :=
  act s (fun s => s.mailbox i p.val 0x32 v)

/-- CONF_CLR: MB_CMD with OP 0x33 on mailbox page 1 + p (15 R427). -/
def execConfClr (i : Initiator) (p : Fin 3) (v : W32) (s : State) : Out :=
  act s (fun s => s.mailbox i p.val 0x33 v)

/-- KEY_GEN: MB_CMD with OP 0x40 on mailbox page 1 + p (15 R427). -/
def execKeyGen (i : Initiator) (p : Fin 3) (v : W32) (s : State) : Out :=
  act s (fun s => s.mailbox i p.val 0x40 v)

/-- KEY_ERASE: MB_CMD with OP 0x41 on mailbox page 1 + p (15 R427). -/
def execKeyErase (i : Initiator) (p : Fin 3) (v : W32) (s : State) : Out :=
  act s (fun s => s.mailbox i p.val 0x41 v)

/-- KEY_PUB: MB_CMD with OP 0x42 on mailbox page 1 + p (15 R427). -/
def execKeyPub (i : Initiator) (p : Fin 3) (v : W32) (s : State) : Out :=
  act s (fun s => s.mailbox i p.val 0x42 v)

/-- CTR_ADV: MB_CMD with OP 0x50 on mailbox page 1 + p (15 R427). -/
def execCtrAdv (i : Initiator) (p : Fin 3) (v : W32) (s : State) : Out :=
  act s (fun s => s.mailbox i p.val 0x50 v)

/-- DBG_CHAL: MB_CMD with OP 0x60 on mailbox page 1 + p (15 R427). -/
def execDbgChal (i : Initiator) (p : Fin 3) (v : W32) (s : State) : Out :=
  act s (fun s => s.mailbox i p.val 0x60 v)

/-- DBG_RESP: MB_CMD with OP 0x61 on mailbox page 1 + p (15 R427). -/
def execDbgResp (i : Initiator) (p : Fin 3) (v : W32) (s : State) : Out :=
  act s (fun s => s.mailbox i p.val 0x61 v)

/-- LC_ADV: MB_CMD with OP 0x70 on mailbox page 1 + p (15 R427). -/
def execLcAdv (i : Initiator) (p : Fin 3) (v : W32) (s : State) : Out :=
  act s (fun s => s.mailbox i p.val 0x70 v)

/-- PROV_HASH: MB_CMD with OP 0x71 on mailbox page 1 + p (15 R427). -/
def execProvHash (i : Initiator) (p : Fin 3) (v : W32) (s : State) : Out :=
  act s (fun s => s.mailbox i p.val 0x71 v)

/-- PROV_REVOKE: MB_CMD with OP 0x72 on mailbox page 1 + p (15 R427). -/
def execProvRevoke (i : Initiator) (p : Fin 3) (v : W32) (s : State) : Out :=
  act s (fun s => s.mailbox i p.val 0x72 v)

/-- PROV_CFG: MB_CMD with OP 0x73 on mailbox page 1 + p (15 R427). -/
def execProvCfg (i : Initiator) (p : Fin 3) (v : W32) (s : State) : Out :=
  act s (fun s => s.mailbox i p.val 0x73 v)

/-- RVBAR_WRITE: RT_RVBAR_LO, or _HI (15 R411). -/
def execRvbarWrite (i : Initiator) (hi : Bool) (v : W32) (s : State) : Out :=
  act s (fun s => s.write4 i (rts (0x4C + 4 * b2n hi)) v)

/-- STL_RUN_START: STL_CTL with RUN 1 (16 R456). -/
def execStlRunStart (i : Initiator) (k : Fin 34) (v : W32) (s : State) : Out :=
  act s (fun s => s.write4 i (stoolPage k.val 0x40) (v ||| 1))

/-- STL_RUN_STOP: STL_CTL with RUN 0 (16 R456). -/
def execStlRunStop (i : Initiator) (k : Fin 34) (v : W32) (s : State) : Out :=
  act s (fun s => s.write4 i (stoolPage k.val 0x40) (v &&& ~~~1))

/-- STL_WIN_ACCESS: a read, or a write, of word `w` of the window (16 R457). -/
def execStlWinAccess (i : Initiator) (k : Fin 34) (w : Fin 512) (d : Option W32) (s : State) : Out :=
  act s (fun s => match d with | some v => s.write4 i (stoolPage k.val (0x800 + 4 * w.val)) v | none => s.read4 i (stoolPage k.val (0x800 + 4 * w.val)))

/-- DCMD_STOP: PWQ.DCMD with OP 1 (17 R466). -/
def execDcmdStop (i : Initiator) (v : W32) (s : State) : Out :=
  act s (fun s => s.write4 i (pwq 0x40) (putField v 12 2 1))

/-- DCMD_WAKE: PWQ.DCMD with OP 2 (17 R466). -/
def execDcmdWake (i : Initiator) (v : W32) (s : State) : Out :=
  act s (fun s => s.write4 i (pwq 0x40) (putField v 12 2 2))

/-- DCMD_RESET: PWQ.DCMD with OP 3 (17 R466). -/
def execDcmdReset (i : Initiator) (v : W32) (s : State) : Out :=
  act s (fun s => s.write4 i (pwq 0x40) (putField v 12 2 3))

/-- CABINET_RESET: CRST with bit 0 set (17 R485, R486). -/
def execCabinetReset (i : Initiator) (c : Fin 8) (v : W32) (s : State) : Out :=
  act s (fun s => s.write4 i (cabCtl c.val 0x4C) (v ||| 1))

/-- CHIP_SYSRST: CHIP_CMD with SYSRST 1 (17 R485). -/
def execChipSysrst (i : Initiator) (v : W32) (s : State) : Out :=
  act s (fun s => s.write4 i (pwc 0x40) (v ||| 2))

/-- HB_KICK: HB_CMD with KICK 1 (18 R502). -/
def execHbKick (i : Initiator) (v : W32) (s : State) : Out :=
  act s (fun s => s.write4 i (chipAgg 0x108) (v ||| 1))

/-- HB_RESUME: HB_CMD with RESUME 1 (18 R502). -/
def execHbResume (i : Initiator) (v : W32) (s : State) : Out :=
  act s (fun s => s.write4 i (chipAgg 0x108) (v ||| 2))

/-- HB_CTL_WRITE (18 R498, R502). -/
def execHbCtlWrite (i : Initiator) (v : W32) (s : State) : Out :=
  act s (fun s => s.write4 i (chipAgg 0x100) v)

/-- FZ_CMD_FREEZE: FZ_CMD with FREEZE 1 (18 R506). -/
def execFzCmdFreeze (i : Initiator) (v : W32) (s : State) : Out :=
  act s (fun s => s.write4 i (frz 0x40) (v ||| 1))

/-- CHIP_STOP: CHIP_CMD with STOP 1 and SYSRST 0; `c` is the always-on count at the entry (17 R478). -/
def execChipStop (i : Initiator) (v : W32) (c : BitVec 48) (s : State) : Out :=
  act s (fun s => ({ s with power := { s.power with aon := c } }).write4 i (pwc 0x40) (putField v 0 2 1))

/-- AON_LO_READ: `c` is the always-on count as the read finds it (17 R489). -/
def execAonLoRead (i : Initiator) (c : BitVec 48) (s : State) : Out :=
  act s (fun s => ({ s with power := { s.power with aon := c } }).read4 i (pwc 0x50))

/-! ### JTAG and the control network (02 R26; 10 R295-R297; 18 R511) -/

/-- JTAG_CONTROL_ACCESS: with JTAG's access granted, an access enters at the root with PARTID 0 (02 R26; 10 R295; 15 R425). -/
def jtagAccess (x : JtagAccess) (s : State) : State :=
  if !s.dbg.testBit 0 then s
  else
    let a := x.addr.toNat / 4 * 4
    let t := s.ctlTravel none (nodePath 0 (((pageOf a).map Page.node).getD 0))
    if t.1 then t.2
    else
      let s := t.2
      let r := match beBytes x.be, x.data with
        | some (o, n), some v => s.ctlWrite1 226 0 (a + o) n (v.toNat / 2 ^ (8 * o) % 2 ^ (8 * n))
        | some (o, n), none => s.ctlRead1 226 (a + o) n
        | none, d => s.ctlBad 0 a d.isSome
      match r with
      | some r => r.2
      | none => s.fenceCtl a

/-- JTAG_CONTROL_ACCESS (02 R26). -/
def execJtagControlAccess (x : JtagAccess) (s : State) : Out := act s (jtagAccess x)

/-- The gateway whose control bridge is source `src` of a node. -/
def bridgeOf (node src : Nat) : Nat := gatewayRouter (node - 1) (src - 1)

/-- The initiator code of a control-space packet: the core whose read it serves. -/
def State.iniOf (s : State) (q : Packet) : Nat :=
  match benchOf q with
  | some b => ((benchCores b).find? (fun n => (s.core n).ext.any (fun x => x.tag = q.tag))).getD 227
  | none => 227

/-- The access of a bridge for which a request travels. -/
def State.bridgeAcc (s : State) (k : CtlPkt) : Option BridgeAcc :=
  if k.src = 1 ∨ k.src = 2 then s.net.bridges.find? (fun b => b.gw = bridgeOf k.node k.src && b.left.contains k.tag) else none

/-- The initiator code of an access of the control network (03 R41). -/
def State.ctlIni (s : State) (k : CtlPkt) : Nat :=
  if k.src = 0 then 192 + nodeStool k.node
  else if k.src = 3 then 226
  else
    match s.bridgeAcc k with
    | some b => s.iniOf b.pkt
    | none => 227

/-- Requests of one source to one page are accepted in the order of issue (02 R26): an earlier one waits. -/
def State.ctlBehind (s : State) (k : CtlPkt) : Bool :=
  (s.net.ctl.takeWhile (fun j => j != k)).any (fun j => j.node = k.node && j.src = k.src && j.addr.toNat / 4096 = k.addr.toNat / 4096)
    && s.net.ctl.contains k

/-- A response reaches the source of its request: a bridge answers its packet when both halves have come; any other answer that a bridge does not wait
for is discarded (R298). -/
def State.ctlAnswer (s : State) (k : CtlPkt) (v : Nat) : State :=
  match s.bridgeAcc k with
  | none => s
  | some b =>
    let x := { b with left := b.left.erase k.tag, data := b.data ++ [BitVec.ofNat 32 v] }
    if !x.left.isEmpty then { s with net := { s.net with bridges := s.net.bridges.map (fun c => if c = b then x else c) } }
    else
      let s := { s with net := { s.net with bridges := s.net.bridges.erase b } }
      if k.data.isSome then s.respond b.pkt opAck 0 0 false
      else s.respond b.pkt opDataS (BitVec.ofNat 256 (x.data.foldr (fun w n => w.toNat + 4294967296 * n) 0)) 0 false

/-- A page's node performs an access: the value read, and the state after; none where the page gives no answer (02 R26; R297). -/
def State.ctlPerform (s : State) (k : CtlPkt) : CtlRes :=
  let a := k.addr.toNat / 4 * 4
  match beBytes k.be, k.data with
  | some (o, n), some v => s.ctlWrite1 (s.ctlIni k) k.part (a + o) n (v.toNat / 2 ^ (8 * o) % 2 ^ (8 * n))
  | some (o, n), none => s.ctlRead1 (s.ctlIni k) (a + o) n
  | none, d => s.ctlBad k.part a d.isSome

/-- The request that an access of the control network is. -/
def ctlPktOf (x : CtlAccess) : CtlPkt :=
  { node := x.node.val, src := x.src.val, tag := x.tag, part := x.part, be := x.be, addr := x.addr, data := x.data }

/-- CONTROL_NODE_ACCEPT: the request travels to the page's node, which performs it and answers; a node that finds a parity error discards it; a page in
Stop gives no answer, and its fence counts it (R295-R297; 02 R32; 18 R504).  A request that the model does not hold comes from an initiator outside it. -/
def nodeAccept (x : CtlAccess) (s : State) : State :=
  let k := ctlPktOf x
  let dst := ((pageOf k.addr.toNat).map Page.node).getD 0
  if s.ctlBehind k then s
  else
    let t := ({ s with net := { s.net with ctl := s.net.ctl.erase k } }).ctlTravel (x.badRequest.map Fin.val) (nodePath k.node dst)
    if t.1 then t.2
    else
      match t.2.ctlPerform k with
      | none => t.2.fenceCtl k.addr.toNat
      | some r =>
        let u := r.2.ctlTravel (x.badResponse.map Fin.val) (nodePath dst k.node)
        if u.1 then u.2 else u.2.ctlAnswer k r.1

/-- CONTROL_NODE_ACCEPT (10 R297). -/
def execControlNodeAccept (x : CtlAccess) (s : State) : Out := act s (nodeAccept x)

/-! ### Gateway control bridges (10 R298) -/

/-- Is this a size that control space accepts, at an aligned address (02 R26)? -/
def ctlSize (a n : Nat) : Bool := (n = 1 || n = 2 || n = 4 || n = 8) && a % n = 0

/-- A bridge splits an access and forwards each half with the packet's PARTID (02 R26; R298). -/
def State.bridgeForward (s : State) (g : Nat) (q : Packet) (write : Bool) : State :=
  let a := q.addr.toNat - 0x3F000000000
  let n := q.size.toNat + 1
  let node := 1 + routerCabinet g
  let src := if g = gatewayRouter (node - 1) 0 then 1 else 2
  let tags := (s.freeTags node src).take (if n = 8 then 2 else 1)
  let be := BitVec.ofNat 4 (if n = 8 then 15 else (2 ^ n - 1) * 2 ^ (a % 4))
  let word := fun (j : Nat) => if n = 8 then natField q.inl.toNat (32 * j) 32 else natField q.inl.toNat 0 (8 * n) * 2 ^ (8 * (a % 4))
  let half := fun (j : Nat) (t : BitVec 6) =>
    CtlPkt.mk node src t q.part be (BitVec.ofNat 28 (a + 4 * j)) (if write then some (BitVec.ofNat 32 (word j)) else none)
  let s := { s with net := { s.net with bridges := s.net.bridges ++ [⟨g, q, tags, ([] : List W32)⟩] } }
  (tags.zipIdx.foldl (fun (s : State) x => s.ctlSend (half x.2 x.1)) s).count (routerPage g 0x7C)

/-- A control-space packet arrives at a gateway's control bridge, which forwards it; a seventeenth waits in the fabric (10
R298).  No rule states what an access of another size gives: free bytes, and nothing written (assumption log 35). -/
def bridgeArrive (q : Packet) (write : Bool) (s : State) : State :=
  let g := q.dst.toNat
  let kind := routerKind g
  if s.atGate q then s
  else if !(kind = .computeGateway || kind = .memoryGateway || kind = .iocGateway) || !inControl q.addr.toNat || q.dstp ≠ 0 then s.arrive q
  else if 16 ≤ (s.net.bridges.filter (fun b => b.gw = g)).length then s
  else
    let s := s.arrive q
    let n := q.size.toNat + 1
    if ctlSize (q.addr.toNat % 8) n then s.bridgeForward g q write
    else if write then s.respond q opAck 0 0 false
    else
      let r := s.random n
      r.2.respond q opDataS (BitVec.ofNat 256 (leNat r.1)) 0 false

/-- RD_CS (10 R298). -/
def execRdCs (k : Packet) (s : State) : Out := act s (bridgeArrive { k with op := opRdCs } false)
/-- WR_CS (10 R298). -/
def execWrCs (k : Packet) (s : State) : Out := act s (bridgeArrive { k with op := opWrCs } true)

/-- The control bridges, numbered 2c + g: gateway g of cabinet c, 0-6. -/
def bridgeRouter (g : Nat) : Nat := gatewayRouter (g / 2) (g % 2)

/-- CONTROL_BRIDGE_EXPIRY: the j-th access that a bridge holds is freed, and nothing is sent (10 R298). -/
def bridgeExpiry (g j : Nat) (s : State) : State :=
  match (s.net.bridges.filter (fun b => b.gw = bridgeRouter g))[j]? with
  | some x => { s with net := { s.net with bridges := s.net.bridges.eraseP (fun b => b = x) } }
  | none => s

/-- CONTROL_BRIDGE_EXPIRY (10 R298). -/
def execControlBridgeExpiry (g : Fin 14) (j : Nat) (s : State) : Out := act s (bridgeExpiry g.val j)

/-! ### Initiator timeouts (10 R285-R288) -/

/-- The fill of a core times out: a fetch gets a block of zero bytes, a load 0, a store completes, the walker an error response; a
prefetch brings nothing (R287). -/
def State.missTimeout (s : State) (m : Miss) : State :=
  let s := { s with coh := { s.coh with misses := s.coh.misses.filter (fun x => x != m) } }
  let zero : Given := { line := m.line, un := m.un, data := 0, poison := false, fetch := m.fetch }
  s.updCore m.core (fun c =>
    if m.hint = 4 then { c with walk := c.walk.map (fun w => { w with replies := w.replies ++ [.bus] }) }
    else if m.hint = 5 then c
    else if m.fetch then { c with given := c.given ++ [zero] }
    else if m.spec then c
    else if m.un && c.sb.any (fun e => e.addr / 64 = m.line && e.mt = .wb && e.cmo.isNone) then
      { c with sb := c.sb.eraseP (fun e => e.addr / 64 = m.line && e.mt = .wb && e.cmo.isNone) }
    else { c with given := c.given ++ [zero] })

/-- A request of a bench's L2 times out (10 R287). -/
def State.benchTimeout (s : State) (b : Nat) (q : Packet) : State :=
  if q.op = opRdSh ∨ q.op = opRdUn then
    match s.coh.misses.find? (fun m => m.tag == q.tag && m.core / 8 == b) with
    | some m => s.missTimeout m
    | none => s
  else if q.op = opWrBk then s.setEvb b ((s.evb b).eraseP (fun v => v.line == pktLine q))
  else
    (benchCores b).foldl
      (fun s n => s.updCore n (fun c =>
        let c := c.ackStore q.tag
        let c := if q.op = opTlbi then
            { c with tlbis := (c.tlbis.map (fun l => l.filter (fun t => t != q.tag.toNat))).filter (fun l => !l.isEmpty) }
          else c
        c.answer q.tag 0 false)) s

/-- A request of a slice times out: a DRAM read takes its transaction with it, a write-back its line, a snoop or recall counts as
answered without data (10 R287; assumption log 32). -/
def State.sliceTimeout (s : State) (k : Nat) (q : Packet) : State :=
  let line := pktLine q
  if q.op = opWrBk then s.accepted k line
  else if q.op = opRdSh then (s.setTx k line none).pump k line
  else
    let r := q.dst.toNat
    s.snoopAnswer k line (6 * (r / 8) + r % 8) q.part none

/-- Does a request wait at a cache that is not ready (08 R244; R286)? -/
def State.atUnready (s : State) (f : Flight) : Bool :=
  let r := f.pkt.dst.toNat
  f.out && (match sliceOf r with
    | some k => f.pkt.dstp.val = 0 && !s.cacheReady (slicePage k 0 0)
    | none => routerKind r = .bench && !s.cacheReady (benchPage (6 * (r / 8) + r % 8) 0 0))

/-- INITIATOR_TIMEOUT: the j-th request outstanding expires, unless a regulator holds it or it waits for a cache that is not ready (10 R286,
R287). -/
def initiatorTimeout (j : Nat) (s : State) : State :=
  match s.net.outs[j]? with
  | none => s
  | some q =>
    if s.net.flights.any (fun f => (f.held || s.atUnready f) && f.pkt.tag = q.tag && f.pkt.src = q.src && f.pkt.srcp = q.srcp && f.pkt.op = q.op) then s
    else
      let s := { s with net := { s.net with outs := s.net.outs.eraseIdx j } }
      let s := s.timeoutAt q.src.toNat q.srcp.val q.addr.toNat q.part
      match sliceOf q.src.toNat, benchOf q with
      | some k, _ => s.sliceTimeout k q
      | none, some b => s.benchTimeout b q
      | none, none => s

/-- INITIATOR_TIMEOUT (10 R287). -/
def execInitiatorTimeout (j : Nat) (s : State) : Out := act s (initiatorTimeout j)

/-- PREDICTOR_INIT_DONE: every direction counter holds 0b01 and PCLRB clears (06 R182). -/
def execPredictorInitDone (n : Fin 192) (s : State) : Out :=
  act s (fun s => (s.updCore n.val (fun c => { c with pred := [] })).setBit (corePage n.val 0x108) 0 false)

end Sys2Proof.Machine
end

