-- ==== Sys2Proof/Machine/Fp.lean ====
section
/-! DEFINITION. Floating-point arithmetic of the Ozhorn-64 (05 R135-R149): exact arithmetic on integers, rounded once. -/

namespace Sys2Proof.Machine

/-- A binary floating-point format: exponent width and fraction width. -/
structure Fmt where
  ew : Nat
  mw : Nat
  deriving DecidableEq, Repr

/-- binary32. -/
def f32 : Fmt := ⟨8, 23⟩
/-- binary64. -/
def f64 : Fmt := ⟨11, 52⟩

/-- The width of the format in bits. -/
def Fmt.width (t : Fmt) : Nat := 1 + t.ew + t.mw
/-- The exponent bias. -/
def Fmt.bias (t : Fmt) : Nat := 2 ^ (t.ew - 1) - 1
/-- The canonical NaN (R137). -/
def Fmt.nan (t : Fmt) : Nat := (2 ^ t.ew - 1) * 2 ^ t.mw + 2 ^ (t.mw - 1)
/-- A sign bit in place. -/
def Fmt.sign (t : Fmt) (s : Bool) : Nat := if s then 2 ^ (t.ew + t.mw) else 0
/-- Infinity. -/
def Fmt.inf (t : Fmt) (s : Bool) : Nat := t.sign s + (2 ^ t.ew - 1) * 2 ^ t.mw
/-- The largest finite value (R139). -/
def Fmt.maxFin (t : Fmt) (s : Bool) : Nat := t.sign s + (2 ^ t.ew - 1) * 2 ^ t.mw - 1

/-- A value of a format: NaN (quiet or signalling), infinity, or `(-1)^s * m * 2^e`. -/
inductive FVal where
  | nan (signalling : Bool)
  | inf (s : Bool)
  | fin (s : Bool) (m : Nat) (e : Int)
  deriving DecidableEq, Repr

/-- The sticky flags of FPCTL, at their bit positions (04 R73). -/
def flagNV : Nat := 2 ^ 16
def flagDZ : Nat := 2 ^ 17
def flagOF : Nat := 2 ^ 18
def flagUF : Nat := 2 ^ 19
def flagNX : Nat := 2 ^ 20
def flagID : Nat := 2 ^ 21

/-- A result: its bits, the flags it sets, and whether trap mode raises FPA for it (R143). -/
structure FRes where
  bits : Nat
  flags : Nat := 0
  fpa : Bool := false
  deriving DecidableEq, Repr

/-- Rounding mode and subnormal mode, from FPCTL (04 R73). -/
structure FMode where
  rm : Nat
  trap : Bool
  deriving DecidableEq, Repr

/-- Is the bit pattern a subnormal number? -/
def Fmt.isSub (t : Fmt) (x : Nat) : Bool :=
  (x / 2 ^ t.mw) % 2 ^ t.ew = 0 && !(x % 2 ^ t.mw = 0)

/-- The value of a bit pattern, subnormals exactly. -/
def Fmt.decode (t : Fmt) (x : Nat) : FVal :=
  let s := (x / 2 ^ (t.ew + t.mw)) % 2 = 1
  let e := (x / 2 ^ t.mw) % 2 ^ t.ew
  let m := x % 2 ^ t.mw
  if e = 2 ^ t.ew - 1 then
    (if m = 0 then .inf s else .nan (decide (m < 2 ^ (t.mw - 1))))
  else if e = 0 then .fin s m (1 - (t.bias : Int) - t.mw)
  else .fin s (2 ^ t.mw + m) ((e : Int) - t.bias - t.mw)

/-- The operand as the instruction reads it: a subnormal is a zero of the same sign in flush mode (R142). -/
def Fmt.operand (t : Fmt) (x : Nat) : FVal :=
  if t.isSub x then .fin ((x / 2 ^ (t.ew + t.mw)) % 2 = 1) 0 0 else t.decode x

/-- ID where some operand is subnormal (R142). -/
def Fmt.idOf (t : Fmt) (xs : List Nat) : Nat := if xs.any t.isSub then flagID else 0

/-- Does a discarded part round the magnitude up?  `rem` of `2 ^ sh`, and `sticky` for a further non-zero part
(R135; the modes of R73). -/
def roundsUp (rm : Nat) (s : Bool) (keep rem sh : Nat) (sticky : Bool) : Bool :=
  let inexact := rem != 0 || sticky
  let half := 2 ^ (sh - 1)
  match rm with
  | 0 => decide (0 < sh) && (decide (half < rem) || (rem == half && (sticky || keep % 2 == 1)))
  | 1 => false
  | 2 => s && inexact
  | 3 => !s && inexact
  | _ => decide (0 < sh) && decide (half ≤ rem)

/-- The number of bits of `m`. -/
def bitLen (m : Nat) : Nat := if m = 0 then 0 else Nat.log2 m + 1

/-- Round a non-zero magnitude `m * 2^e` (plus less than one unit where `sticky`) to the format: overflow by R139,
tiny results by R141 to R143. -/
def Fmt.round (t : Fmt) (md : FMode) (s : Bool) (m : Nat) (e : Int) (sticky : Bool) : FRes :=
  let p := t.mw + 1
  let len := bitLen m
  let sh := len - p
  let keep0 := if len ≤ p then m * 2 ^ (p - len) else m / 2 ^ sh
  let rem := if len ≤ p then 0 else m % 2 ^ sh
  let e0 : Int := e + len - p
  let keep1 := if roundsUp md.rm s keep0 rem sh sticky then keep0 + 1 else keep0
  let keep := if keep1 = 2 ^ p then 2 ^ (p - 1) else keep1
  let ex : Int := if keep1 = 2 ^ p then e0 + 1 else e0
  let lead : Int := ex + t.mw
  let nx := if rem != 0 || sticky then flagNX else 0
  if lead > t.bias then
    let up := match md.rm with | 0 => true | 1 => false | 2 => s | 3 => !s | _ => true
    { bits := if up then t.inf s else t.maxFin s, flags := flagOF ||| flagNX }
  else if lead < 1 - (t.bias : Int) then
    { bits := t.sign s, flags := flagUF ||| flagNX, fpa := true }
  else
    { bits := t.sign s + (lead + t.bias).toNat * 2 ^ t.mw + (keep - 2 ^ t.mw), flags := nx }

/-- A NaN result: the canonical NaN, NV where an operand signals (R137). -/
def Fmt.nanRes (t : Fmt) (sig : Bool) : FRes := { bits := t.nan, flags := if sig then flagNV else 0 }

/-- An invalid operation. -/
def Fmt.invalid (t : Fmt) : FRes := { bits := t.nan, flags := flagNV }

/-- Is some operand a signalling NaN? -/
def anySig : List FVal → Bool
  | [] => false
  | .nan true :: _ => true
  | _ :: vs => anySig vs

/-- Is some operand a NaN? -/
def anyNan : List FVal → Bool
  | [] => false
  | .nan _ :: _ => true
  | _ :: vs => anyNan vs

/-- `(-1)^s * m` scaled to exponent `e0 ≤ e`. -/
def scaled (s : Bool) (m : Nat) (e e0 : Int) : Int :=
  let v : Int := (m * 2 ^ (e - e0).toNat : Nat)
  if s then -v else v

/-- The sum of two finite values; an exact zero takes the sign of R140. -/
def Fmt.addFin (t : Fmt) (md : FMode) (s1 : Bool) (m1 : Nat) (e1 : Int) (s2 : Bool) (m2 : Nat) (e2 : Int) : FRes :=
  let e0 := min e1 e2
  let v := scaled s1 m1 e1 e0 + scaled s2 m2 e2 e0
  if v = 0 then
    { bits := t.sign (if m1 = 0 ∧ m2 = 0 ∧ s1 = s2 then s1 else md.rm = 2) }
  else t.round md (decide (v < 0)) v.natAbs e0 false

/-- Sum of two values. -/
def Fmt.addVal (t : Fmt) (md : FMode) (x y : FVal) : FRes :=
  if anyNan [x, y] then t.nanRes (anySig [x, y])
  else
    match x, y with
    | .inf s1, .inf s2 => if s1 = s2 then { bits := t.inf s1 } else t.invalid
    | .inf s, _ => { bits := t.inf s }
    | _, .inf s => { bits := t.inf s }
    | .fin s1 m1 e1, .fin s2 m2 e2 => t.addFin md s1 m1 e1 s2 m2 e2
    | _, _ => t.invalid

/-- The value with its sign inverted. -/
def FVal.neg : FVal → FVal
  | .nan s => .nan s
  | .inf s => .inf (!s)
  | .fin s m e => .fin (!s) m e

/-- Product of two values. -/
def Fmt.mulVal (t : Fmt) (md : FMode) (x y : FVal) : FRes :=
  if anyNan [x, y] then t.nanRes (anySig [x, y])
  else
    match x, y with
    | .inf s1, .inf s2 => { bits := t.inf (s1 != s2) }
    | .inf s1, .fin s2 m2 _ => if m2 = 0 then t.invalid else { bits := t.inf (s1 != s2) }
    | .fin s1 m1 _, .inf s2 => if m1 = 0 then t.invalid else { bits := t.inf (s1 != s2) }
    | .fin s1 m1 e1, .fin s2 m2 e2 =>
      if m1 = 0 ∨ m2 = 0 then { bits := t.sign (s1 != s2) } else t.round md (s1 != s2) (m1 * m2) (e1 + e2) false
    | _, _ => t.invalid

/-- Quotient `x / y`. -/
def Fmt.divVal (t : Fmt) (md : FMode) (x y : FVal) : FRes :=
  if anyNan [x, y] then t.nanRes (anySig [x, y])
  else
    match x, y with
    | .inf _, .inf _ => t.invalid
    | .inf s1, .fin s2 _ _ => { bits := t.inf (s1 != s2) }
    | .fin s1 _ _, .inf s2 => { bits := t.sign (s1 != s2) }
    | .fin s1 m1 e1, .fin s2 m2 e2 =>
      if m2 = 0 then
        (if m1 = 0 then t.invalid else { bits := t.inf (s1 != s2), flags := flagDZ })
      else if m1 = 0 then { bits := t.sign (s1 != s2) }
      else
        let k := t.mw + 4 + bitLen m2
        t.round md (s1 != s2) (m1 * 2 ^ k / m2) (e1 - e2 - k) (m1 * 2 ^ k % m2 != 0)
    | _, _ => t.invalid

/-- The integer square root of `m`, by bits from `2 ^ k` down. -/
def isqrtBits (m : Nat) : Nat → Nat → Nat
  | 0, r => r
  | k + 1, r => if (r + 2 ^ k) * (r + 2 ^ k) ≤ m then isqrtBits m k (r + 2 ^ k) else isqrtBits m k r

/-- Square root. -/
def Fmt.sqrtVal (t : Fmt) (md : FMode) (x : FVal) : FRes :=
  match x with
  | .nan sig => t.nanRes sig
  | .inf s => if s then t.invalid else { bits := t.inf false }
  | .fin s m e =>
    if m = 0 then { bits := t.sign s }
    else if s then t.invalid
    else
      let k0 := 2 * (t.mw + 4)
      let k := if (e - k0) % 2 = 0 then k0 else k0 + 1
      let m' := m * 2 ^ k
      let r := isqrtBits m' (bitLen m' / 2 + 1) 0
      t.round md false r ((e - k) / 2) (r * r != m')

/-- Fused `x * y + z` with one rounding (R135). -/
def Fmt.fmaVal (t : Fmt) (md : FMode) (x y z : FVal) : FRes :=
  let badProduct : Bool := match x, y with
    | .inf _, .fin _ m _ => m = 0
    | .fin _ m _, .inf _ => m = 0
    | _, _ => false
  if badProduct then t.invalid
  else if anyNan [x, y, z] then t.nanRes (anySig [x, y, z])
  else
    match x, y with
    | .inf s1, .inf s2 => t.addVal md (.inf (s1 != s2)) z
    | .inf s1, .fin s2 _ _ => t.addVal md (.inf (s1 != s2)) z
    | .fin s1 _ _, .inf s2 => t.addVal md (.inf (s1 != s2)) z
    | .fin s1 m1 e1, .fin s2 m2 e2 => t.addVal md (.fin (s1 != s2) (m1 * m2) (e1 + e2)) z
    | _, _ => t.invalid

/-- Encode an operand that passes through unchanged (minimum, maximum, integral values). -/
def Fmt.encodeExact (t : Fmt) (v : FVal) : FRes :=
  match v with
  | .nan _ => { bits := t.nan }
  | .inf s => { bits := t.inf s }
  | .fin s m e => if m = 0 then { bits := t.sign s } else t.round ⟨1, false⟩ s m e false

/-- The order of two numbers as integers at a common scale: infinities beyond every finite value. -/
def FVal.lt (x y : FVal) : Bool :=
  match x, y with
  | .inf s1, .inf s2 => s1 && !s2
  | .inf s, .fin _ _ _ => s
  | .fin _ _ _, .inf s => !s
  | .fin s1 m1 e1, .fin s2 m2 e2 =>
    let e0 := min e1 e2
    decide (scaled s1 m1 e1 e0 < scaled s2 m2 e2 e0)
  | _, _ => false

/-- The sign of a value. -/
def FVal.sgn : FVal → Bool
  | .nan _ => false
  | .inf s => s
  | .fin s _ _ => s

/-- minimumNumber and maximumNumber (R145): of two equal values, minimum takes a negative one and maximum a positive
one, so that zeros are ordered. -/
def Fmt.minMax (t : Fmt) (isMax : Bool) (x y : FVal) : FRes :=
  let nv := if anySig [x, y] then flagNV else 0
  match x, y with
  | .nan _, .nan _ => { bits := t.nan, flags := nv }
  | .nan _, v => { t.encodeExact v with flags := nv }
  | v, .nan _ => { t.encodeExact v with flags := nv }
  | _, _ =>
    let pickX := if x.lt y then !isMax else if y.lt x then isMax else (if isMax then !x.sgn else x.sgn)
    t.encodeExact (if pickX then x else y)

/-- The relation of C to B (R144). -/
inductive FRel where
  | less | equal | greater | unordered
  deriving DecidableEq, Repr

/-- Compare two values. -/
def FVal.rel (x y : FVal) : FRel :=
  if anyNan [x, y] then .unordered else if x.lt y then .less else if y.lt x then .greater else .equal

/-- Round a finite magnitude to an integer under `rm`; also whether it was inexact. -/
def roundInt (rm : Nat) (s : Bool) (m : Nat) (e : Int) : Nat × Bool :=
  if 0 ≤ e then (m * 2 ^ e.toNat, false)
  else
    let sh := (-e).toNat
    let keep := m / 2 ^ sh
    let rem := m % 2 ^ sh
    (if roundsUp rm s keep rem sh false then keep + 1 else keep, rem != 0)

/-- FRINT (R147). -/
def Fmt.rint (t : Fmt) (md : FMode) (x : FVal) : FRes :=
  match x with
  | .nan sig => t.nanRes sig
  | .inf s => { bits := t.inf s }
  | .fin s m e =>
    let r := roundInt md.rm s m e
    { t.encodeExact (.fin s r.1 0) with flags := if r.2 then flagNX else 0 }

/-- FCVTZS to a signed 64-bit integer, saturating (R146). -/
def toInt64 (x : FVal) : FRes :=
  let hi : Nat := 2 ^ 63 - 1
  let lo : Nat := 2 ^ 63
  match x with
  | .nan _ => { bits := 0, flags := flagNV }
  | .inf s => { bits := if s then lo else hi, flags := flagNV }
  | .fin s m e =>
    let r := roundInt 1 s m e
    if s then
      (if r.1 ≤ 2 ^ 63 then { bits := (2 ^ 64 - r.1) % 2 ^ 64, flags := if r.2 then flagNX else 0 } else { bits := lo, flags := flagNV })
    else
      (if r.1 < 2 ^ 63 then { bits := r.1, flags := if r.2 then flagNX else 0 } else { bits := hi, flags := flagNV })

/-- SCVTF from a signed 64-bit integer (R146). -/
def Fmt.ofInt64 (t : Fmt) (md : FMode) (v : Int) : FRes :=
  if v = 0 then { bits := 0 } else t.round md (decide (v < 0)) v.natAbs 0 false

/-- The scalar operations of one, two and three operands, by name. -/
inductive FpOp where
  | add | sub | mul | div | sqrt | min | max | fma | fms | fnma | abs | neg | rint
  deriving DecidableEq, Repr

/-- The operands an operation reads, of A, B and C (04 R92). -/
def FpOp.reads (o : FpOp) (a b c : Nat) : List Nat :=
  match o with
  | .add | .sub | .mul | .div | .min | .max => [c, b]
  | .sqrt | .rint => [b]
  | .fma | .fms | .fnma => [a, b, c]
  | .abs | .neg => []

/-- The result of an operation on the operands as read. -/
def Fmt.compute (t : Fmt) (md : FMode) (o : FpOp) (a b c : Nat) : FRes :=
  let x := t.operand c
  let y := t.operand b
  let z := t.operand a
  match o with
  | .add => t.addVal md x y
  | .sub => t.addVal md x y.neg
  | .mul => t.mulVal md x y
  | .div => t.divVal md x y
  | .sqrt => t.sqrtVal md y
  | .min => t.minMax false x y
  | .max => t.minMax true x y
  | .fma => t.fmaVal md x y z
  | .fms => t.fmaVal md x.neg y z
  | .fnma => t.fmaVal md x.neg y z.neg
  | .rint => t.rint md y
  | .abs => match t.decode b with
    | .nan _ => { bits := t.nan }
    | _ => { bits := b % 2 ^ (t.ew + t.mw) }
  | .neg => match t.decode b with
    | .nan _ => { bits := t.nan }
    | _ => { bits := (b + 2 ^ (t.ew + t.mw)) % 2 ^ t.width }

/-- One scalar operation: in flush mode ID is added and a tiny result is the zero of its sign; in trap mode a subnormal
operand or a tiny result raises FPA (R142, R143). -/
def Fmt.run (t : Fmt) (md : FMode) (o : FpOp) (a b c : Nat) : FRes :=
  let subs := t.idOf (o.reads a b c)
  if md.trap ∧ subs ≠ 0 then { bits := 0, fpa := true }
  else
    let r := t.compute md o a b c
    if r.fpa then (if md.trap then { bits := 0, fpa := true } else { r with flags := r.flags ||| subs, fpa := false })
    else { r with flags := r.flags ||| subs }

/-- FCVT between formats (R146). -/
def cvtFmt (src dst : Fmt) (md : FMode) (b : Nat) : FRes :=
  let subs := src.idOf [b]
  if md.trap ∧ subs ≠ 0 then { bits := 0, fpa := true }
  else
    let r := match src.operand b with
      | .nan sig => dst.nanRes sig
      | .inf s => { bits := dst.inf s }
      | .fin s m e => if m = 0 then { bits := dst.sign s } else dst.round md s m e false
    if r.fpa then (if md.trap then { bits := 0, fpa := true } else { r with flags := r.flags ||| subs, fpa := false })
    else { r with flags := r.flags ||| subs }

/-- FCVTZS with its operand rules. -/
def cvtToInt (src : Fmt) (md : FMode) (b : Nat) : FRes :=
  let subs := src.idOf [b]
  if md.trap ∧ subs ≠ 0 then { bits := 0, fpa := true }
  else
    let r := toInt64 (src.operand b)
    { r with flags := r.flags ||| subs }

/-- One scalar comparison: the relation, the flags it sets in FPCTL, and whether it raises FPA (R144). -/
def Fmt.cmp (t : Fmt) (md : FMode) (b c : Nat) : FRel × Nat × Bool :=
  let subs := t.idOf [c, b]
  let x := t.operand c
  let y := t.operand b
  (x.rel y, subs ||| (if anySig [x, y] then flagNV else 0), md.trap && subs != 0)

end Sys2Proof.Machine
end

