-- ==== Sys2Proof/Machine/Lanes.lean ====
section
/-! DEFINITION. Vector lanes: splitting and joining 128-bit registers, and the lane-wise integer operations (05 R134). -/

namespace Sys2Proof.Machine

/-- The lanes of a register at lane width `e`, lane 0 first. -/
def lanesOf (e : Nat) (x : W128) : List Nat := (List.range (128 / e)).map (fun k => x.toNat / 2 ^ (e * k) % 2 ^ e)

/-- Join lanes of width `e`. -/
def joinLanes (e : Nat) (xs : List Nat) : W128 :=
  BitVec.ofNat 128 (xs.foldr (fun v acc => v % 2 ^ e + 2 ^ e * acc) 0)

/-- A lane-wise operation of two registers, applied to the lanes of C and B in that order. -/
def laneMap2 (e : Nat) (f : Nat → Nat → Nat) (c b : W128) : W128 :=
  joinLanes e (List.zipWith f (lanesOf e c) (lanesOf e b))

/-- The smaller or larger of two lanes, compared as signed or unsigned values. -/
def laneMinMax (e : Nat) (signed isMax : Bool) (c b : Nat) : Nat :=
  let less : Bool := if signed then decide (sextNat c e < sextNat b e) else decide (c < b)
  if less != isMax then c else b

/-- All ones or all zeros. -/
def laneMask (e : Nat) (p : Bool) : Nat := if p then 2 ^ e - 1 else 0

end Sys2Proof.Machine
end

