-- ==== Sys2Proof/Machine/Operands.lean ====
section
/-! DEFINITION. The operand forms of the Ozhorn-64 register instructions (04 R83, R85, R88). -/

namespace Sys2Proof.Machine

/-- The low `w` bits of a register. -/
def low (w : Nat) (x : W64) : Nat := x.toNat % 2 ^ w

/-- The immediate at the operation width, sign-extended (04 R88); of one wider than the width the low bits (DESIGN CHOICE, assumption log
87). -/
def Insn.immAt (i : Insn) (w : Nat) : Nat := (i.imm % (2 ^ w : Nat)).toNat

/-- The immediate byte of an instruction. -/
def Insn.byte (i : Insn) : Nat := i.immAt 8

/-- The second source at the operation width: the immediate or register B. -/
def Insn.srcB (i : Insn) (c : Core) : Nat := if i.hasImm then i.immAt i.w else low i.w (c.gr i.b)

/-- A shift's count, unmasked: the immediate at the operation width or the whole register (04 R88, 05 R120). -/
def Insn.srcCount (i : Insn) (c : Core) : Nat := if i.hasImm then i.immAt i.w else (c.gr i.b).toNat

/-- The first source at the operation width. -/
def Insn.srcC (i : Insn) (c : Core) : Nat := low i.w (c.gr i.c)

/-- The effective address of a memory form (04 R85). -/
def Insn.ea (i : Insn) (seq : W64) (c : Core) : W64 :=
  let base := if i.b = 0 then seq else c.gr i.b
  let index := if i.pfx.ext.isSome then c.gr i.c <<< i.scale else 0
  base + index + BitVec.ofInt 64 i.imm

/-- Write a `w`-bit result, zero-extended, and the flags of a flag-setting form (04 R88). -/
def Insn.put (i : Insn) (r : AluRes) (c : Core) : Core :=
  let c := c.setG i.a (BitVec.ofNat 64 r.val)
  if i.flags then c.setSys 0 (putNzcv c.status r.flags) else c

/-- Write the flags only. -/
def putFlags (f : Nzcv) (c : Core) : Core := c.setSys 0 (putNzcv c.status f)

/-- The rounding and subnormal mode of FPCTL (04 R73). -/
def Core.fpMode (c : Core) : FMode := ⟨fieldOf (c.sysReg 1) 0 3, bitOf (c.sysReg 1) 3⟩

/-- Set sticky flags of FPCTL (05 R136). -/
def Core.stick (c : Core) (flags : Nat) : Core := c.setSys 1 (c.sysReg 1 ||| BitVec.ofNat 64 flags)

/-- The scalar format of an FP instruction (04 R93). -/
def Insn.fmt (i : Insn) : Fmt := if i.pfx.size = some 0 then f32 else f64

/-- The lane format of a vector FP instruction: none for a scalar one (04 R93). -/
def Insn.laneFmt (i : Insn) : Option Fmt :=
  match i.pfx.vec with
  | some 2 => some f32
  | some 3 => some f64
  | _ => none

/-- The FP assist exception (04 R99). -/
def fpa (i : Insn) : Exc := { code := 4, info := i.opc }

end Sys2Proof.Machine
end

