-- ==== Sys2Proof/Machine/OzBranch.lean ====
section
/-! DEFINITION. Branches, loops and system calls of the Ozhorn-64 (04 R89, R106; 06 R160-R164; 09 R258). -/

namespace Sys2Proof.Machine

/-- The branch signature of a bound core (09 R258). -/
def State.branchSig (s : State) (n : Nat) (bytes : List Byte) : State :=
  if (s.core n).bunk.bound then s.updBunk n (fun b => { b with bsig := crcBytes b.bsig bytes }) else s

/-- One step toward 0b11 or toward 0b00 (06 R163). -/
def stepCounter (x : BitVec 2) (taken : Bool) : BitVec 2 :=
  if taken then (if x = 3 then 3 else x + 1) else (if x = 0 then 0 else x - 1)

/-- A mispredict is counted, and the blocks of the wrong path are discarded (06 R160, R180). -/
def State.mispredict (s : State) (n : Nat) : State := (s.count (corePage n 0x11C)).updCore n Core.redirect

/-- A conditional branch retires: its prediction is judged, its counter moves, it is counted and enters the branch
signature (06 R163, R180; 09 R258). -/
def State.condBranch (s : State) (n : Nat) (taken : Bool) : State :=
  let c := s.core n
  let used := bitOf c.pl 0 && !s.pclrb n
  let predicted := s.predicts n
  let s := s.count (corePage n 0x118)
  let s := if predicted = taken then s else s.mispredict n
  let s := if used then
      s.updCore n (fun c => { c with pred := SMap.set 1 c.pred (fieldOf c.pc 0 14) (stepCounter (c.counter c.pc) taken) })
    else s
  s.branchSig n [if taken then 1 else 0]

/-- A call pushes its next address on the return stack of 16 (06 R164). -/
def Core.pushReturn (c : Core) (a : W64) : Core :=
  if bitOf c.pl 1 then { c with rstack := (a :: c.rstack).take 16 } else c

/-- A return pops the top of the return stack; a wrong top is a misprediction (06 R164, R180). -/
def State.popReturn (s : State) (n : Nat) (target : W64) : State :=
  let c := s.core n
  if !bitOf c.pl 1 then s
  else
    match c.rstack with
    | [] => s
    | a :: rest =>
      let s := s.updCore n (fun c => { c with rstack := rest })
      if a = target then s else s.mispredict n

/-- Go on at the target or sequentially. -/
def branchTo (taken : Bool) (t : W64) (s : State) : Eff := if taken then .jump s t else .next s

/-- BC: branch if the condition holds (04 R89, R94). -/
def bcSem : Sem := fun n i seq s =>
  let code := i.b % 16
  let taken := condHolds code (nzcvOf (s.core n).status)
  if code = 7 then .jump s (i.dest seq) else branchTo taken (i.dest seq) (s.condBranch n taken)

/-- BC (04 R89). -/
def execBc (n : Fin 192) (b : List Byte) (s : State) : Out := ozRow n b .bc bcSem s

/-- B: branch (04 R89). -/
def execB (n : Fin 192) (b : List Byte) (s : State) : Out := ozRow n b .b (fun _ i seq s => .jump s (i.dest seq)) s

/-- BL: g27 := next address; branch (04 R89). -/
def blSem : Sem := fun n i seq s => .jump (s.updCore n (fun c => (c.setG 27 seq).pushReturn seq)) (i.dest seq)

/-- BL (04 R89). -/
def execBl (n : Fin 192) (b : List Byte) (s : State) : Out := ozRow n b .bl blSem s

/-- JR: branch to B (04 R89). -/
def jrSem : Sem := fun n i _ s =>
  let t := (s.core n).gr i.b
  .jump (s.branchSig n (leBytes 8 t.toNat)) t

/-- JR (04 R89). -/
def execJr (n : Fin 192) (b : List Byte) (s : State) : Out := ozRow n b .jr jrSem s

/-- JLR: A := next address; branch to B.  With A = g27 it is a call (04 R89). -/
def jlrSem : Sem := fun n i seq s =>
  let t := (s.core n).gr i.b
  let s := s.updCore n (fun c => let c := c.setG i.a seq; if i.a = 27 then c.pushReturn seq else c)
  .jump (s.branchSig n (leBytes 8 t.toNat)) t

/-- JLR (04 R89). -/
def execJlr (n : Fin 192) (b : List Byte) (s : State) : Out := ozRow n b .jlr jlrSem s

/-- RET: branch to g27 (04 R89). -/
def retSem : Sem := fun n _ _ s =>
  let t := (s.core n).gr 27
  .jump ((s.popReturn n t).branchSig n (leBytes 8 t.toNat)) t

/-- RET (04 R89). -/
def execRet (n : Fin 192) (b : List Byte) (s : State) : Out := ozRow n b .ret retSem s

/-- CBZ and CBNZ (04 R89). -/
def cbSem (onZero : Bool) : Sem := fun n i seq s =>
  let taken := decide ((s.core n).gr i.a = 0) == onZero
  branchTo taken (i.dest seq) (s.condBranch n taken)

/-- CBZ: branch if A is zero (04 R89). -/
def execCbz (n : Fin 192) (b : List Byte) (s : State) : Out := ozRow n b .cbz (cbSem true) s

/-- CBNZ: branch if A is not zero (04 R89). -/
def execCbnz (n : Fin 192) (b : List Byte) (s : State) : Out := ozRow n b .cbnz (cbSem false) s

/-- LOOP: the loop registers, and on from the body or from its end (04 R106). -/
def loopSem : Sem := fun n i seq s =>
  let k := (s.core n).gr i.a
  let stop := i.dest seq
  let s := s.updCore n (fun c =>
    (((c.setSys 3 seq).setSys 4 stop).setSys 2 k).setSys 0 (putBit c.status 8 (decide (k ≠ 0))))
  if k = 0 then .jump s stop else .hold s

/-- LOOP (04 R106). -/
def execLoop (n : Fin 192) (b : List Byte) (s : State) : Out := ozRow n b .loop loopSem s

/-- The immediate of SYSC, which CAUSE.INFO records (04 R89). -/
def Insn.sysImm (i : Insn) : Nat := i.immAt 16

/-- SYSC: kinds 1 and 2 raise PRIV at U; otherwise it retires and its exception is taken (04 R89, R99, R107). -/
def syscSem (code level : Nat) : Sem := fun n i _ s =>
  let lv := (s.core n).level.val
  if code ≠ 5 ∧ lv = 0 then .trap s (privExc lv 0) else .call s { code := code, level := level, info := i.sysImm }

/-- SVC (04 R89, R99). -/
def execSvc (n : Fin 192) (b : List Byte) (s : State) : Out := ozRow n b .svc (syscSem 5 1) s

/-- HVC (04 R89, R99). -/
def execHvc (n : Fin 192) (b : List Byte) (s : State) : Out := ozRow n b .hvc (syscSem 6 2) s

/-- MVC (04 R89, R99). -/
def execMvc (n : Fin 192) (b : List Byte) (s : State) : Out := ozRow n b .mvc (syscSem 7 3) s

/-- BRK (04 R99). -/
def execBrk (n : Fin 192) (b : List Byte) (s : State) : Out := ozRow n b .brk (fun _ _ _ s => .trap s { code := 8 }) s

end Sys2Proof.Machine
end

