-- ==== Sys2Proof/Machine/OzFp.lean ====
section
/-! DEFINITION. Floating-point and vector instructions of the Ozhorn-64 (04 R92, R93; 05 R134-R149). -/

namespace Sys2Proof.Machine

/-- The scalar results of the lanes, or an FP assist where one lane asks for it (05 R149). -/
def laneResults (t : Fmt) (md : FMode) (o : FpOp) (a b c : List Nat) : List FRes :=
  List.zipWith (fun x (yz : Nat × Nat) => t.run md o x yz.1 yz.2) a (b.zip c)

/-- An FP operation, scalar or lane by lane (04 R93; 05 R135-R149). -/
def fpSem (o : FpOp) (i : Insn) (_ : W64) (c : Core) : CEff :=
  let md := c.fpMode
  match i.laneFmt with
  | some t =>
    let e := t.width
    let rs := laneResults t md o (lanesOf e (c.fr i.a)) (lanesOf e (c.fr i.b)) (lanesOf e (c.fr i.c))
    if rs.any (fun r => r.fpa) then .error (fpa i)
    else .ok ((c.setF i.a (joinLanes e (rs.map (fun r => r.bits)))).stick (rs.foldl (fun x r => x ||| r.flags) 0))
  | none =>
    let t := i.fmt
    let w := t.width
    let r := t.run md o ((c.fr i.a).toNat % 2 ^ w) ((c.fr i.b).toNat % 2 ^ w) ((c.fr i.c).toNat % 2 ^ w)
    if r.fpa then .error (fpa i) else .ok ((c.setF i.a (BitVec.ofNat 128 r.bits)).stick r.flags)

/-- The flags of FCMP over the lanes' relations (05 R144). -/
def cmpFlags (rs : List FRel) : Nzcv :=
  ⟨rs.any (fun r => r = .less), rs.all (fun r => r = .equal), !rs.any (fun r => r = .less), rs.any (fun r => r = .unordered)⟩

/-- FCMP (05 R144). -/
def fcmpSem (i : Insn) (_ : W64) (c : Core) : CEff :=
  let md := c.fpMode
  let t := i.laneFmt.getD i.fmt
  let e := t.width
  let lanes := fun (x : W128) => if i.laneFmt.isSome then lanesOf e x else [x.toNat % 2 ^ e]
  let rs := List.zipWith (fun b c => t.cmp md b c) (lanes (c.fr i.b)) (lanes (c.fr i.c))
  if rs.any (fun r => r.2.2) then .error (fpa i)
  else .ok ((putFlags (cmpFlags (rs.map (fun r => r.1))) c).stick (rs.foldl (fun x r => x ||| r.2.1) 0))

/-- A conversion to an f register. -/
def putFp (i : Insn) (r : FRes) (c : Core) : CEff :=
  if r.fpa then .error (fpa i) else .ok ((c.setF i.a (BitVec.ofNat 128 r.bits)).stick r.flags)

/-- FCVT: opcode 0x10 gives binary64 from binary32, 0x11 binary32 from binary64 (04 R92; 05 R146). -/
def fcvtSem (i : Insn) (_ : W64) (c : Core) : CEff :=
  let x := (c.fr i.b).toNat
  putFp i (if i.opc = 0x10 then cvtFmt f32 f64 c.fpMode (x % 2 ^ 32) else cvtFmt f64 f32 c.fpMode (x % 2 ^ 64)) c

/-- SCVTF (05 R146). -/
def scvtfSem (i : Insn) (_ : W64) (c : Core) : CEff := putFp i (i.fmt.ofInt64 c.fpMode (c.gr i.b).toInt) c

/-- FCVTZS (05 R146). -/
def fcvtzsSem (i : Insn) (_ : W64) (c : Core) : CEff :=
  let r := cvtToInt i.fmt c.fpMode ((c.fr i.b).toNat % 2 ^ i.fmt.width)
  if r.fpa then .error (fpa i) else .ok ((c.setG i.a (BitVec.ofNat 64 r.bits)).stick r.flags)

/-- FMV: opcode 0x14 to an f register, 0x15 to a general register (04 R92, R71). -/
def fmvSem (i : Insn) (_ : W64) (c : Core) : CEff :=
  let w := i.fmt.width
  if i.opc = 0x14 then .ok (c.setF i.a (BitVec.ofNat 128 (low w (c.gr i.b))))
  else .ok (c.setG i.a (BitVec.ofNat 64 ((c.fr i.b).toNat % 2 ^ w)))

/-- A lane-wise integer operation of C and B (05 R134). -/
def vecSem (f : (e c b : Nat) → Nat) (i : Insn) (_ : W64) (c : Core) : CEff :=
  .ok (c.setF i.a (laneMap2 i.laneW (f i.laneW) (c.fr i.c) (c.fr i.b)))

/-- VDUP (04 R92). -/
def vdupSem (i : Insn) (_ : W64) (c : Core) : CEff :=
  let e := i.laneW
  let v := (lanesOf e (c.fr i.b)).getD i.byte 0
  .ok (c.setF i.a (joinLanes e ((List.range (128 / e)).map (fun _ => v))))

/-- VEXT (04 R92). -/
def vextSem (i : Insn) (_ : W64) (c : Core) : CEff :=
  .ok (c.setG i.a (BitVec.ofNat 64 ((lanesOf i.laneW (c.fr i.b)).getD i.byte 0)))

/-- VINS (04 R92). -/
def vinsSem (i : Insn) (_ : W64) (c : Core) : CEff :=
  let e := i.laneW
  .ok (c.setF i.a (joinLanes e (listSet (lanesOf e (c.fr i.a)) i.byte (low e (c.gr i.b)))))

/-- FADD (04 R92; 05 R135). -/
def faddFn : Insn → W64 → Core → CEff := fpSem .add
/-- FADD (04 R92; 05 R135). -/
def execFadd (n : Fin 192) (b : List Byte) (s : State) : Out := regRow n b .fadd faddFn s

/-- FSUB (04 R92; 05 R135). -/
def fsubFn : Insn → W64 → Core → CEff := fpSem .sub
/-- FSUB (04 R92; 05 R135). -/
def execFsub (n : Fin 192) (b : List Byte) (s : State) : Out := regRow n b .fsub fsubFn s

/-- FMUL (04 R92; 05 R135). -/
def fmulFn : Insn → W64 → Core → CEff := fpSem .mul
/-- FMUL (04 R92; 05 R135). -/
def execFmul (n : Fin 192) (b : List Byte) (s : State) : Out := regRow n b .fmul fmulFn s

/-- FDIV (04 R92; 05 R135). -/
def fdivFn : Insn → W64 → Core → CEff := fpSem .div
/-- FDIV (04 R92; 05 R135). -/
def execFdiv (n : Fin 192) (b : List Byte) (s : State) : Out := regRow n b .fdiv fdivFn s

/-- FSQRT (04 R92; 05 R135). -/
def fsqrtFn : Insn → W64 → Core → CEff := fpSem .sqrt
/-- FSQRT (04 R92; 05 R135). -/
def execFsqrt (n : Fin 192) (b : List Byte) (s : State) : Out := regRow n b .fsqrt fsqrtFn s

/-- FMIN (04 R92; 05 R145). -/
def fminFn : Insn → W64 → Core → CEff := fpSem .min
/-- FMIN (04 R92; 05 R145). -/
def execFmin (n : Fin 192) (b : List Byte) (s : State) : Out := regRow n b .fmin fminFn s

/-- FMAX (04 R92; 05 R145). -/
def fmaxFn : Insn → W64 → Core → CEff := fpSem .max
/-- FMAX (04 R92; 05 R145). -/
def execFmax (n : Fin 192) (b : List Byte) (s : State) : Out := regRow n b .fmax fmaxFn s

/-- FMA (04 R92; 05 R135). -/
def fmaFn : Insn → W64 → Core → CEff := fpSem .fma
/-- FMA (04 R92; 05 R135). -/
def execFma (n : Fin 192) (b : List Byte) (s : State) : Out := regRow n b .fma fmaFn s

/-- FMS (04 R92; 05 R135). -/
def fmsFn : Insn → W64 → Core → CEff := fpSem .fms
/-- FMS (04 R92; 05 R135). -/
def execFms (n : Fin 192) (b : List Byte) (s : State) : Out := regRow n b .fms fmsFn s

/-- FNMA (04 R92; 05 R135). -/
def fnmaFn : Insn → W64 → Core → CEff := fpSem .fnma
/-- FNMA (04 R92; 05 R135). -/
def execFnma (n : Fin 192) (b : List Byte) (s : State) : Out := regRow n b .fnma fnmaFn s

/-- FABS (04 R92; 05 R138). -/
def fabsFn : Insn → W64 → Core → CEff := fpSem .abs
/-- FABS (04 R92; 05 R138). -/
def execFabs (n : Fin 192) (b : List Byte) (s : State) : Out := regRow n b .fabs fabsFn s

/-- FNEG (04 R92; 05 R138). -/
def fnegFn : Insn → W64 → Core → CEff := fpSem .neg
/-- FNEG (04 R92; 05 R138). -/
def execFneg (n : Fin 192) (b : List Byte) (s : State) : Out := regRow n b .fneg fnegFn s

/-- FRINT (05 R147). -/
def frintFn : Insn → W64 → Core → CEff := fpSem .rint
/-- FRINT (05 R147). -/
def execFrint (n : Fin 192) (b : List Byte) (s : State) : Out := regRow n b .frint frintFn s

/-- FCMP (05 R144). -/
def execFcmp (n : Fin 192) (b : List Byte) (s : State) : Out := regRow n b .fcmp fcmpSem s

/-- FCVT (05 R146). -/
def execFcvt (n : Fin 192) (b : List Byte) (s : State) : Out := regRow n b .fcvt fcvtSem s

/-- SCVTF (05 R146). -/
def execScvtf (n : Fin 192) (b : List Byte) (s : State) : Out := regRow n b .scvtf scvtfSem s

/-- FCVTZS (05 R146). -/
def execFcvtzs (n : Fin 192) (b : List Byte) (s : State) : Out := regRow n b .fcvtzs fcvtzsSem s

/-- FMV (04 R92). -/
def execFmv (n : Fin 192) (b : List Byte) (s : State) : Out := regRow n b .fmv fmvSem s

/-- VADD (04 R92; 05 R134). -/
def vaddFn : Insn → W64 → Core → CEff := vecSem (fun _ c b => c + b)
/-- VADD (04 R92; 05 R134). -/
def execVadd (n : Fin 192) (b : List Byte) (s : State) : Out := regRow n b .vadd vaddFn s

/-- VSUB (04 R92; 05 R134). -/
def vsubFn : Insn → W64 → Core → CEff := vecSem (fun e c b => c + 2 ^ e - b)
/-- VSUB (04 R92; 05 R134). -/
def execVsub (n : Fin 192) (b : List Byte) (s : State) : Out := regRow n b .vsub vsubFn s

/-- VMUL (04 R92; 05 R134). -/
def vmulFn : Insn → W64 → Core → CEff := vecSem (fun _ c b => c * b)
/-- VMUL (04 R92; 05 R134). -/
def execVmul (n : Fin 192) (b : List Byte) (s : State) : Out := regRow n b .vmul vmulFn s

/-- VAND (04 R92; 05 R134). -/
def vandFn : Insn → W64 → Core → CEff := vecSem (fun _ c b => c &&& b)
/-- VAND (04 R92; 05 R134). -/
def execVand (n : Fin 192) (b : List Byte) (s : State) : Out := regRow n b .vand vandFn s

/-- VOR (04 R92; 05 R134). -/
def vorFn : Insn → W64 → Core → CEff := vecSem (fun _ c b => c ||| b)
/-- VOR (04 R92; 05 R134). -/
def execVor (n : Fin 192) (b : List Byte) (s : State) : Out := regRow n b .vor vorFn s

/-- VXOR (04 R92; 05 R134). -/
def vxorFn : Insn → W64 → Core → CEff := vecSem (fun _ c b => c ^^^ b)
/-- VXOR (04 R92; 05 R134). -/
def execVxor (n : Fin 192) (b : List Byte) (s : State) : Out := regRow n b .vxor vxorFn s

/-- VANDN (04 R92; 05 R134). -/
def vandnFn : Insn → W64 → Core → CEff := vecSem (fun e c b => c &&& (2 ^ e - 1 - b))
/-- VANDN (04 R92; 05 R134). -/
def execVandn (n : Fin 192) (b : List Byte) (s : State) : Out := regRow n b .vandn vandnFn s

/-- VSHL (04 R92; 05 R134). -/
def vshlFn : Insn → W64 → Core → CEff := vecSem (fun e c b => (shlRes e c b).val)
/-- VSHL (04 R92; 05 R134). -/
def execVshl (n : Fin 192) (b : List Byte) (s : State) : Out := regRow n b .vshl vshlFn s

/-- VSHR (04 R92; 05 R134). -/
def vshrFn : Insn → W64 → Core → CEff := vecSem (fun e c b => (shrRes e c b).val)
/-- VSHR (04 R92; 05 R134). -/
def execVshr (n : Fin 192) (b : List Byte) (s : State) : Out := regRow n b .vshr vshrFn s

/-- VSAR (04 R92; 05 R134). -/
def vsarFn : Insn → W64 → Core → CEff := vecSem (fun e c b => (sarRes e c b).val)
/-- VSAR (04 R92; 05 R134). -/
def execVsar (n : Fin 192) (b : List Byte) (s : State) : Out := regRow n b .vsar vsarFn s

/-- VMIN (04 R92; 05 R134). -/
def vminFn : Insn → W64 → Core → CEff := vecSem (fun e c b => laneMinMax e true false c b)
/-- VMIN (04 R92; 05 R134). -/
def execVmin (n : Fin 192) (b : List Byte) (s : State) : Out := regRow n b .vmin vminFn s

/-- VMAX (04 R92; 05 R134). -/
def vmaxFn : Insn → W64 → Core → CEff := vecSem (fun e c b => laneMinMax e true true c b)
/-- VMAX (04 R92; 05 R134). -/
def execVmax (n : Fin 192) (b : List Byte) (s : State) : Out := regRow n b .vmax vmaxFn s

/-- VMINU (04 R92; 05 R134). -/
def vminuFn : Insn → W64 → Core → CEff := vecSem (fun e c b => laneMinMax e false false c b)
/-- VMINU (04 R92; 05 R134). -/
def execVminu (n : Fin 192) (b : List Byte) (s : State) : Out := regRow n b .vminu vminuFn s

/-- VMAXU (04 R92; 05 R134). -/
def vmaxuFn : Insn → W64 → Core → CEff := vecSem (fun e c b => laneMinMax e false true c b)
/-- VMAXU (04 R92; 05 R134). -/
def execVmaxu (n : Fin 192) (b : List Byte) (s : State) : Out := regRow n b .vmaxu vmaxuFn s

/-- VCMPEQ (04 R92; 05 R134). -/
def vcmpeqFn : Insn → W64 → Core → CEff := vecSem (fun e c b => laneMask e (c == b))
/-- VCMPEQ (04 R92; 05 R134). -/
def execVcmpeq (n : Fin 192) (b : List Byte) (s : State) : Out := regRow n b .vcmpeq vcmpeqFn s

/-- VCMPGT (04 R92; 05 R134; signed lanes: assumption log 16). -/
def vcmpgtFn : Insn → W64 → Core → CEff := vecSem (fun e c b => laneMask e (decide (sextNat b e < sextNat c e)))
/-- VCMPGT (04 R92; 05 R134; signed lanes: assumption log 16). -/
def execVcmpgt (n : Fin 192) (b : List Byte) (s : State) : Out := regRow n b .vcmpgt vcmpgtFn s

/-- VDUP (04 R92). -/
def execVdup (n : Fin 192) (b : List Byte) (s : State) : Out := regRow n b .vdup vdupSem s

/-- VEXT (04 R92). -/
def execVext (n : Fin 192) (b : List Byte) (s : State) : Out := regRow n b .vext vextSem s

/-- VINS (04 R92). -/
def execVins (n : Fin 192) (b : List Byte) (s : State) : Out := regRow n b .vins vinsSem s

end Sys2Proof.Machine
end

