-- ==== Sys2Proof/Machine/OzInt.lean ====
section
/-! DEFINITION. Integer instructions of the Ozhorn-64 (04 R88-R92; 05 R117-R130). -/

namespace Sys2Proof.Machine

/-- An integer operation of two sources (05 R117-R124): the sources at width `w`, the unmasked count, STATUS.C. -/
abbrev IntOp := (w c b count : Nat) → (carry : Bool) → AluRes

/-- `A := C op B`, or with an immediate. -/
def intSem (f : IntOp) (i : Insn) (_ : W64) (c : Core) : CEff :=
  .ok (i.put (f i.w (i.srcC c) (i.srcB c) (i.srcCount c) (nzcvOf c.status).c) c)

/-- `A := op B`. -/
def unarySem (f : (w b : Nat) → Nat) (i : Insn) (_ : W64) (c : Core) : CEff :=
  .ok (c.setG i.a (BitVec.ofNat 64 (f i.w (low i.w (c.gr i.b)))))

/-- Flags from C and B only. -/
def flagSem (f : (w c b : Nat) → AluRes) (i : Insn) (_ : W64) (c : Core) : CEff :=
  .ok (putFlags (f i.w (i.srcC c) (i.srcB c)).flags c)

/-- A divide instruction: A and C and the divide bits of STATUS (05 R126, R127). -/
def divSem (f : (w a b c : Nat) → DivState → DivRes) (i : Insn) (_ : W64) (c : Core) : CEff :=
  let r := f i.w (low i.w (c.gr i.a)) (low i.w (c.gr i.b)) (low i.w (c.gr i.c)) (divOf c.status)
  .ok (((c.setG i.a (BitVec.ofNat 64 r.a)).setG i.c (BitVec.ofNat 64 r.c)).setSys 0 (putDiv c.status r.st))

/-- A value without flags of its own. -/
def plain (x : Nat) : AluRes := ⟨x, ⟨false, false, false, false⟩⟩

/-- ADD: `A := C + B` (04 R89; 05 R117). -/
def addFn : Insn → W64 → Core → CEff := intSem (fun w c b _ _ => addRes w c b false)
/-- ADD: `A := C + B` (04 R89; 05 R117). -/
def execAdd (n : Fin 192) (b : List Byte) (s : State) : Out := regRow n b .add addFn s

/-- SUB: `A := C - B` (04 R89; 05 R117). -/
def subFn : Insn → W64 → Core → CEff := intSem (fun w c b _ _ => subRes w c b false)
/-- SUB: `A := C - B` (04 R89; 05 R117). -/
def execSub (n : Fin 192) (b : List Byte) (s : State) : Out := regRow n b .sub subFn s

/-- ADC: `A := C + B + STATUS.C` (05 R118). -/
def adcFn : Insn → W64 → Core → CEff := intSem (fun w c b _ k => addRes w c b k)
/-- ADC: `A := C + B + STATUS.C` (05 R118). -/
def execAdc (n : Fin 192) (b : List Byte) (s : State) : Out := regRow n b .adc adcFn s

/-- SBC: `A := C - B - (1 - STATUS.C)` (05 R118). -/
def sbcFn : Insn → W64 → Core → CEff := intSem (fun w c b _ k => subRes w c b (!k))
/-- SBC: `A := C - B - (1 - STATUS.C)` (05 R118). -/
def execSbc (n : Fin 192) (b : List Byte) (s : State) : Out := regRow n b .sbc sbcFn s

/-- AND (04 R89; 05 R117). -/
def andFn : Insn → W64 → Core → CEff := intSem (fun w c b _ _ => logicRes w (c &&& b))
/-- AND (04 R89; 05 R117). -/
def execAnd (n : Fin 192) (b : List Byte) (s : State) : Out := regRow n b .and andFn s

/-- OR (04 R89; 05 R117). -/
def orFn : Insn → W64 → Core → CEff := intSem (fun w c b _ _ => logicRes w (c ||| b))
/-- OR (04 R89; 05 R117). -/
def execOr (n : Fin 192) (b : List Byte) (s : State) : Out := regRow n b .or orFn s

/-- XOR (04 R89; 05 R117). -/
def xorFn : Insn → W64 → Core → CEff := intSem (fun w c b _ _ => logicRes w (c ^^^ b))
/-- XOR (04 R89; 05 R117). -/
def execXor (n : Fin 192) (b : List Byte) (s : State) : Out := regRow n b .xor xorFn s

/-- ANDN: `A := C AND NOT B` (04 R89; 05 R117). -/
def andnFn : Insn → W64 → Core → CEff := intSem (fun w c b _ _ => logicRes w (c &&& (2 ^ w - 1 - b)))
/-- ANDN: `A := C AND NOT B` (04 R89; 05 R117). -/
def execAndn (n : Fin 192) (b : List Byte) (s : State) : Out := regRow n b .andn andnFn s

/-- SHL (05 R120). -/
def shlFn : Insn → W64 → Core → CEff := intSem (fun w c _ k _ => shlRes w c k)
/-- SHL (05 R120). -/
def execShl (n : Fin 192) (b : List Byte) (s : State) : Out := regRow n b .shl shlFn s

/-- SHR (05 R120). -/
def shrFn : Insn → W64 → Core → CEff := intSem (fun w c _ k _ => shrRes w c k)
/-- SHR (05 R120). -/
def execShr (n : Fin 192) (b : List Byte) (s : State) : Out := regRow n b .shr shrFn s

/-- SAR (05 R120). -/
def sarFn : Insn → W64 → Core → CEff := intSem (fun w c _ k _ => sarRes w c k)
/-- SAR (05 R120). -/
def execSar (n : Fin 192) (b : List Byte) (s : State) : Out := regRow n b .sar sarFn s

/-- ROR (05 R121). -/
def rorFn : Insn → W64 → Core → CEff := intSem (fun w c _ k _ => rorRes w c k)
/-- ROR (05 R121). -/
def execRor (n : Fin 192) (b : List Byte) (s : State) : Out := regRow n b .ror rorFn s

/-- MUL: the low half of the product (05 R124). -/
def mulFn : Insn → W64 → Core → CEff := intSem (fun w c b _ _ => plain (mulLow w c b))
/-- MUL: the low half of the product (05 R124). -/
def execMul (n : Fin 192) (b : List Byte) (s : State) : Out := regRow n b .mul mulFn s

/-- MULHU: the high half of the unsigned product (05 R124). -/
def mulhuFn : Insn → W64 → Core → CEff := intSem (fun w c b _ _ => plain (mulHighU w c b))
/-- MULHU: the high half of the unsigned product (05 R124). -/
def execMulhu (n : Fin 192) (b : List Byte) (s : State) : Out := regRow n b .mulhu mulhuFn s

/-- MULHS: the high half of the signed product (05 R124). -/
def mulhsFn : Insn → W64 → Core → CEff := intSem (fun w c b _ _ => plain (mulHighS w c b))
/-- MULHS: the high half of the signed product (05 R124). -/
def execMulhs (n : Fin 192) (b : List Byte) (s : State) : Out := regRow n b .mulhs mulhsFn s

/-- MOV: `A := B` (04 R89, R90). -/
def movFn : Insn → W64 → Core → CEff := intSem (fun _ _ b _ _ => plain b)
/-- MOV: `A := B` (04 R89, R90). -/
def execMov (n : Fin 192) (b : List Byte) (s : State) : Out := regRow n b .mov movFn s

/-- CMP: flags from `C - B` (04 R89; 05 R117). -/
def cmpFn : Insn → W64 → Core → CEff := flagSem (fun w c b => subRes w c b false)
/-- CMP: flags from `C - B` (04 R89; 05 R117). -/
def execCmp (n : Fin 192) (b : List Byte) (s : State) : Out := regRow n b .cmp cmpFn s

/-- TST: flags from `C AND B` (04 R89; 05 R117). -/
def tstFn : Insn → W64 → Core → CEff := flagSem (fun w c b => logicRes w (c &&& b))
/-- TST: flags from `C AND B` (04 R89; 05 R117). -/
def execTst (n : Fin 192) (b : List Byte) (s : State) : Out := regRow n b .tst tstFn s

/-- CLZ (05 R123). -/
def clzFn : Insn → W64 → Core → CEff := unarySem clzNat
/-- CLZ (05 R123). -/
def execClz (n : Fin 192) (b : List Byte) (s : State) : Out := regRow n b .clz clzFn s

/-- CTZ (05 R123). -/
def ctzFn : Insn → W64 → Core → CEff := unarySem ctzNat
/-- CTZ (05 R123). -/
def execCtz (n : Fin 192) (b : List Byte) (s : State) : Out := regRow n b .ctz ctzFn s

/-- POPC (05 R123). -/
def popcFn : Insn → W64 → Core → CEff := unarySem popNat
/-- POPC (05 R123). -/
def execPopc (n : Fin 192) (b : List Byte) (s : State) : Out := regRow n b .popc popcFn s

/-- BSWAP (05 R123). -/
def bswapFn : Insn → W64 → Core → CEff := unarySem bswapNat
/-- BSWAP (05 R123). -/
def execBswap (n : Fin 192) (b : List Byte) (s : State) : Out := regRow n b .bswap bswapFn s

/-- CSEL (04 R89, R94). -/
def cselSem (i : Insn) (_ : W64) (c : Core) : CEff :=
  .ok (c.setG i.a (if condHolds (i.byte % 16) (nzcvOf c.status) then c.gr i.c else c.gr i.b))

/-- CSEL: A := C if the condition holds, else B (04 R89). -/
def execCsel (n : Fin 192) (b : List Byte) (s : State) : Out := regRow n b .csel cselSem s

/-- SXT (05 R123). -/
def sxtSem (i : Insn) (_ : W64) (c : Core) : CEff := .ok (c.setG i.a (sext64 (c.gr i.b) i.w))

/-- SXT: A := B sign-extended from the prefix width (05 R123). -/
def execSxt (n : Fin 192) (b : List Byte) (s : State) : Out := regRow n b .sxt sxtSem s

/-- LEA (04 R86). -/
def leaSem (i : Insn) (seq : W64) (c : Core) : CEff := .ok (c.setG i.a (i.ea seq c))

/-- LEA: A := the effective address (04 R86). -/
def execLea (n : Fin 192) (b : List Byte) (s : State) : Out := regRow n b .lea leaSem s

/-- NOP (04 R89). -/
def nopFn : Insn → W64 → Core → CEff := fun _ _ c => .ok c
/-- NOP (04 R89). -/
def execNop (n : Fin 192) (b : List Byte) (s : State) : Out := regRow n b .nop nopFn s

/-- DIV.INIT (05 R127). -/
def divInitFn : Insn → W64 → Core → CEff := divSem (fun w a b _ st => divInitRes w false a b st)
/-- DIV.INIT (05 R127). -/
def execDivInit (n : Fin 192) (b : List Byte) (s : State) : Out := regRow n b .divInit divInitFn s

/-- DIV.INITS (05 R127). -/
def divInitsFn : Insn → W64 → Core → CEff := divSem (fun w a b _ st => divInitRes w true a b st)
/-- DIV.INITS (05 R127). -/
def execDivInits (n : Fin 192) (b : List Byte) (s : State) : Out := regRow n b .divInits divInitsFn s

/-- DSTEP (05 R127). -/
def dstepFn : Insn → W64 → Core → CEff := divSem dstepRes
/-- DSTEP (05 R127). -/
def execDstep (n : Fin 192) (b : List Byte) (s : State) : Out := regRow n b .dstep dstepFn s

/-- DIV.FIN (05 R127). -/
def divFinFn : Insn → W64 → Core → CEff := divSem divFinRes
/-- DIV.FIN (05 R127). -/
def execDivFin (n : Fin 192) (b : List Byte) (s : State) : Out := regRow n b .divFin divFinFn s

end Sys2Proof.Machine
end

