-- ==== Sys2Proof/Machine/OzSys.lean ====
section
/-! DEFINITION. System instructions of the Ozhorn-64: system registers, features, time, waiting, return, fences, TLB and
cache maintenance (04 R75, R97, R106-R116; 07 R212; 08 R234-R236; 12 R333-R346). -/

namespace Sys2Proof.Machine

/-! ### System registers (04 R75, R76; 12 R333) -/

/-- How a system register may be accessed. -/
inductive SysAcc where
  | ro | rw | wo
  deriving DecidableEq, Repr

/-- The listed system registers. -/
def sysAcc (n : Nat) : Option SysAcc :=
  if n ≤ 4 then some .rw
  else if (0x4000 ≤ n ∧ n ≤ 0x4006) ∨ n = 0x4010 ∨ n = 0x4011 then some .rw
  else if n = 0x8008 then some .ro
  else if (0x8000 ≤ n ∧ n ≤ 0x8009) ∨ (0x8010 ≤ n ∧ n ≤ 0x8013) ∨ (0x8020 ≤ n ∧ n ≤ 0x8027) then some .rw
  else if 0xC000 ≤ n ∧ n ≤ 0xC005 then some .rw
  else if n = 0x4200 ∨ n = 0x8100 ∨ n = 0x8101 then some .rw
  else if n = 0x4201 then some .wo
  else if 0x4100 ≤ n ∧ n < 0x4200 then
    let o := n % 64
    if o < 16 then some .ro else if o < 48 then some .rw else if o = 48 then some .ro else if o < 52 then some .wo else none
  else none

/-- Event level of an event register of a level (12 R333). -/
def evLevel (n : Nat) : Option Nat := if 0x4100 ≤ n ∧ n < 0x4200 then some ((n - 0x4100) / 64) else none

/-- The bits of a register that an MTS may set (04 R72-R76, R102, R104; 07 R187; 12 R333). -/
def sysMask (n : Nat) : W64 :=
  if n = 0 then 0x1FF
  else if n = 1 then 0x3F000F
  else if n = 0x4001 ∨ n = 0x8001 ∨ n = 0xC001 then 0xFFFF0003
  else if n = 0x4002 ∨ n = 0x8002 ∨ n = 0xC002 then 0x0000FFFF000FFFFF
  else if n = 0x4006 then 1
  else if n = 0x8006 then 0x1F
  else if n = 0x4010 ∨ n = 0x8010 then 0xFFFF03FFFFFFF000
  else if n = 0x8012 then 0x000003FFFFFFF000
  else if n = 0x4011 ∨ n = 0x8011 then 3
  else if n = 0x8013 then 7
  else if n = 0x8009 then 0xFF
  else if n = 0x4200 ∨ n = 0x8100 then 1
  else if n = 0x8101 then 0xE
  else if 0x4100 ≤ n ∧ n < 0x4200 ∧ 49 ≤ n % 64 then 0x3FF
  else BitVec.allOnes 64

/-- Values that a field table forbids besides (04 R73, R104). -/
def sysForbidden (n : Nat) (v : W64) : Bool :=
  v &&& ~~~(sysMask n) != 0
    || (n = 1 && decide (5 ≤ fieldOf v 0 3))
    || (n = 0x8009 && ((List.range 4).any (fun k => fieldOf v (2 * k) 2 = 0) || fieldOf v 6 2 = 1))

/-- The checks that MFS and MTS share: the level, and that the register is listed (04 R75). -/
def Core.sysGate (c : Core) (n : Nat) : Except Exc SysAcc :=
  let lv := c.level.val
  if lv < n / 16384 then .error (privExc lv n)
  else
    match sysAcc n with
    | none => .error (ill 9)
    | some a => .ok a

/-- At S, a register of an event level that IROUTE routes to H or M raises PRIV (12 R333). -/
def Core.routedAway (c : Core) (n : Nat) : Bool :=
  match evLevel n with
  | some k => c.level.val = 1 && decide (2 ≤ c.target k)
  | none => false

/-- The value of a system register; a write-only one reads 0 (04 R76; 12 R334). -/
def Core.sysValue (c : Core) (n : Nat) : W64 :=
  match sysAcc n with
  | some .wo => 0
  | _ =>
    match evLevel n with
    | some k => if n % 64 = 48 then c.evSum k else c.sysReg n
    | none => c.sysReg n

/-- A write of `j` to EVCLM_k: claim a pending bit (12 R337, R340). -/
def Core.claim (c : Core) (k j : Nat) : Core :=
  if c.evBit evPend k j then ((c.setEvBit evPend k j false).setEvBit evAct k j true).clearHeld k j else c

/-- A write of `j` to EVEOI_k (12 R337). -/
def Core.endOf (c : Core) (k j : Nat) : Core := c.setEvBit evAct k j false

/-- The effect of an MTS on the core's registers (04 R75, R76; 12 R333, R337, R343). -/
def Core.writeSys (c : Core) (n : Nat) (v : W64) : Core :=
  let j := v.toNat % 1024
  match evLevel n with
  | some k =>
    if n % 64 = 49 then c.claim k j
    else if n % 64 = 50 then c.endOf k j
    else if n % 64 = 51 then c.pend k j 0
    else c.setSys n v
  | none =>
    if n = 0x4201 then c.setHold c.level.val false
    else if n = 0x4004 ∨ n = 0x8004 ∨ n = 0xC004 then c.setSys n (v &&& ~~~0xFFF)
    else c.setSys n v

/-- May the level of the core make this MTS: EVACT not at S, HM not changed at H (12 R333)? -/
def Core.mtsPriv (c : Core) (n : Nat) (v : W64) : Bool :=
  c.routedAway n
    || (c.level.val = 1 && (evLevel n).isSome && decide (32 ≤ n % 64) && decide (n % 64 < 48))
    || (n = 0x8101 && c.level.val = 2 && bitOf v 3 != bitOf (c.sysReg 0x8101) 3)

/-- The number of the system register that MFS or MTS names. -/
def Insn.sysNo (i : Insn) : Nat := i.immAt 16

/-- MTS: the exceptions in the order of R535 and R103, then the write. -/
def Core.mts (c : Core) (n : Nat) (v : W64) : CEff :=
  if sysAcc n = some .ro then .error (ill 8)
  else if (sysAcc n).isSome && sysForbidden n v then .error (ill 7)
  else
    match c.sysGate n with
    | .error x => .error x
    | .ok _ => if c.mtsPriv n v then .error (privExc c.level.val n) else .ok (c.writeSys n v)

/-- MTS: a write of a loop register or of STATUS causes no loop-back (04 R75, R107). -/
def mtsSem : Sem := fun n i _ s =>
  let c := s.core n
  match c.mts i.sysNo (c.gr i.a) with
  | .error x => .trap s x
  | .ok c => if i.sysNo = 0 ∨ i.sysNo = 2 ∨ i.sysNo = 3 ∨ i.sysNo = 4 then .hold (s.setCore n c) else .next (s.setCore n c)

/-- MTS (04 R75). -/
def execMts (n : Fin 192) (b : List Byte) (s : State) : Out := ozRow n b .mts mtsSem s

/-- A row for the MTS to one group of event registers. -/
def mtsRow (n : Fin 192) (b : List Byte) (p : Nat → Bool) (s : State) : Out :=
  s.issue n.val b (fun i => i.op = .mts && p i.sysNo) mtsSem

/-- EVCLM_WRITE: MTS to EVCLM_k (12 R337). -/
def execEvclmWrite (n : Fin 192) (b : List Byte) (s : State) : Out :=
  mtsRow n b (fun r => (evLevel r).isSome && r % 64 = 49) s

/-- EVEOI_WRITE: MTS to EVEOI_k (12 R337). -/
def execEveoiWrite (n : Fin 192) (b : List Byte) (s : State) : Out :=
  mtsRow n b (fun r => (evLevel r).isSome && r % 64 = 50) s

/-- EVSET_WRITE: MTS to EVSET_k (12 R336). -/
def execEvsetWrite (n : Fin 192) (b : List Byte) (s : State) : Out :=
  mtsRow n b (fun r => (evLevel r).isSome && r % 64 = 51) s

/-- EVREL_WRITE: MTS to EVREL (12 R343). -/
def execEvrelWrite (n : Fin 192) (b : List Byte) (s : State) : Out := mtsRow n b (fun r => r = 0x4201) s

/-- EVHOLD_WRITE: MTS to EVHOLD (12 R333, R343). -/
def execEvholdWrite (n : Fin 192) (b : List Byte) (s : State) : Out := mtsRow n b (fun r => r = 0x8101) s

/-! ### Reads that a pair logs (09 R253, R255) -/

/-- An instruction that reads a value into A: a primary logs the value, a shadow takes it from its log. -/
def readSem (f : Nat → Insn → State → Except Exc W64) : Sem := fun n i _ s =>
  match f n i s with
  | .error x => .trap s x
  | .ok v =>
    if (s.core n).isShadow then
      match s.takeData n 1 with
      | some (w, s) => .next (s.updCore n (fun c => c.setG i.a (w.headD 0)))
      | none => .done (s.diverge n)
    else .next ((s.updCore n (fun c => c.setG i.a v)).logRec n false [v])

/-- MFS (04 R75). -/
def mfsValue (n : Nat) (i : Insn) (s : State) : Except Exc W64 :=
  let c := s.core n
  match c.sysGate i.sysNo with
  | .error x => .error x
  | .ok _ => if c.routedAway i.sysNo then .error (privExc c.level.val i.sysNo) else .ok (c.sysValue i.sysNo)

/-- MFS: A := a system register (04 R75). -/
def execMfs (n : Fin 192) (b : List Byte) (s : State) : Out := ozRow n b .mfs (readSem mfsValue) s

/-- The feature registers of stepping B0 (04 R98). -/
def feat (core k : Nat) : W64 :=
  match k with
  | 0 => 0x3FF01
  | 1 => BitVec.ofNat 64 (core + 256 * (core / 8) + 8192 * (core / 48) + 65536)
  | 2 => 0x246632
  | 3 => 0x1010032A30
  | 4 => 0x3F0F10
  | 5 => 0x102000B0D4
  | _ => 0

/-- RDFEAT (04 R97). -/
def rdfeatValue (n : Nat) (i : Insn) (s : State) : Except Exc W64 :=
  let c := s.core n
  let v := feat n i.byte
  if 2 ≤ c.level.val then .ok v
  else if bitOf (c.sysReg 0x8006) 1 then .error (trapExc 2 1)
  else .ok (if bitOf (c.sysReg 0x8006) 0 then v &&& c.sysReg (0x8020 + i.byte) else v)

/-- RDFEAT: A := FEAT[imm] (04 R97). -/
def execRdfeat (n : Fin 192) (b : List Byte) (s : State) : Out := ozRow n b .rdfeat (readSem rdfeatValue) s

/-- The traps of RDTIME and RDFRM (04 R114). -/
def Core.timeTrap (c : Core) : Option Exc :=
  if c.level = 0 ∧ bitOf (c.sysReg 0x4006) 0 then some (trapExc 1 0)
  else if c.level.val ≤ 1 ∧ bitOf (c.sysReg 0x8006) 3 then some (trapExc 2 3)
  else none

/-- RDTIME (04 R114). -/
def rdtimeValue (n : Nat) (_ : Insn) (s : State) : Except Exc W64 :=
  match (s.core n).timeTrap with
  | some x => .error x
  | none => .ok s.clock.time

/-- RDTIME: A := TIME (04 R114). -/
def execRdtime (n : Fin 192) (b : List Byte) (s : State) : Out := ozRow n b .rdtime (readSem rdtimeValue) s

/-- RDFRM (04 R114). -/
def rdfrmValue (n : Nat) (_ : Insn) (s : State) : Except Exc W64 :=
  match (s.core n).timeTrap with
  | some x => .error x
  | none =>
    .ok (BitVec.ofNat 64 ((s.reg (frr (n / 48) 0x40)).toNat * 4294967296 + min 0xFFFFFFFF (s.time - s.tickInstant (n / 48))))

/-- RDFRM: A := frame number and offset in the frame (04 R114). -/
def execRdfrm (n : Fin 192) (b : List Byte) (s : State) : Out := ozRow n b .rdfrm (readSem rdfrmValue) s

/-- RDWIN (04 R115). -/
def rdwinValue (n : Nat) (_ : Insn) (s : State) : Except Exc W64 :=
  if (s.core n).level = 0 then .error (privExc 0 0) else .ok (BitVec.ofNat 64 (s.windowState n))

/-- RDWIN: A := the window state (04 R115). -/
def execRdwin (n : Fin 192) (b : List Byte) (s : State) : Out := ozRow n b .rdwin (readSem rdwinValue) s

/-! ### Serialising instructions -/

/-- Is the store buffer empty? -/
def Core.drained (c : Core) : Bool := c.sb.isEmpty

/-- A FENCE of kind `k`; the core of this model performs loads as they issue, so that a fence waits for stores alone (04
R108). -/
def fenceSem (k : Nat) : Sem := fun n _ _ s =>
  let c := s.core n
  let busy := if k = 0 ∨ k = 2 then !c.drained
    else if k = 4 then c.sb.any (fun e => e.mt = .dev) || c.ext.any (!·.fetch)
    else false
  if busy then .wait s else .next s

/-- A row for FENCE of one kind. -/
def fenceRow (n : Fin 192) (b : List Byte) (k : Nat) (s : State) : Out :=
  s.issue n.val b (fun i => i.op = .fence && i.byte = k) (fenceSem k)

/-- FENCE FULL (04 R108). -/
def execFenceFull (n : Fin 192) (b : List Byte) (s : State) : Out := fenceRow n b 0 s
/-- FENCE ACQF (04 R108). -/
def execFenceAcqf (n : Fin 192) (b : List Byte) (s : State) : Out := fenceRow n b 1 s
/-- FENCE RELF (04 R108). -/
def execFenceRelf (n : Fin 192) (b : List Byte) (s : State) : Out := fenceRow n b 2 s
/-- FENCE IFENCE (04 R108). -/
def execFenceIfence (n : Fin 192) (b : List Byte) (s : State) : Out := fenceRow n b 3 s
/-- FENCE DEV (04 R108). -/
def execFenceDev (n : Fin 192) (b : List Byte) (s : State) : Out := fenceRow n b 4 s

/-- PRIV below a level. -/
def Core.below (c : Core) (lv : Nat) : Bool := decide (c.level.val < lv)

/-- WAIT (04 R111; 12 R340).  A shadow's ends at the WAKE record that its log holds (09 R255). -/
def waitSem : Sem := fun n i seq s =>
  let c := s.core n
  if c.below 1 then .trap s (privExc c.level.val 0)
  else if c.level = 1 ∧ bitOf (c.sysReg 0x8006) 2 then .trap s (trapExc 2 2)
  else if !c.drained then .wait s
  else
    let until_ := if i.a = 0 then none else some (c.gr i.a)
    let s := (s.updCore n (fun c => { c with run := .waiting until_ seq, held := [] })).useLast n
    if c.isShadow then .done (s.pumpLog n false (s.logFuel n)) else .done (s.endWait n)

/-- WAIT (04 R111). -/
def execWait (n : Fin 192) (b : List Byte) (s : State) : Out := ozRow n b .wait waitSem s

/-- The state that RETI restores (04 R112); the reserved bits of STATUS stay 0 (assumption log 17). -/
def Core.restore (c : Core) : Core :=
  let t := c.level.val
  let e := c.sysReg (lvlReg t 1)
  { c.setSys 0 (putField c.status 0 16 (fieldOf e 16 9)) with pc := c.sysReg (lvlReg t 0), level := Fin.ofNat 4 (fieldOf e 0 2) }

/-- The chained entry that a RETI of a core makes, as its log records it. -/
def State.chainTo (s : State) (n k p : Nat) : State := (s.updCore n (fun c => c.chain k p)).logInt n k

/-- RETI on a shadow: a chained entry where the log has an interrupt at the boundary after it, else the return (09 R256; 12
R346). -/
def State.shadowReti (s s0 : State) (n p : Nat) : State :=
  let s := s.pumpLog n true (s.logFuel n)
  let b := (s.core n).bunk
  match b.head with
  | .empty => if b.halted then s.updCore n Core.restore else s0
  | .slot w ctl _ =>
    if ctl && fieldOf w 60 4 = 1 && fieldOf w 0 32 = fieldOf b.brpos 0 32 then
      let s := (s.eatSlots n 1).updCore n (fun c => c.chain (fieldOf w 48 2) p)
      s.pumpLog n false (s.logFuel n)
    else
      let s := s.updCore n Core.restore
      s.pumpLog n false (s.logFuel n)
  | .bad => s.diverge n

/-- RETI (04 R112; 12 R346; 06 R181). -/
def retiSem : Sem := fun n _ _ s0 =>
  let c := s0.core n
  let t := c.level.val
  let p := fieldOf (c.sysReg (lvlReg t 1)) 0 2
  if c.below 1 then .trap s0 (privExc t 0)
  else if t < p then .trap s0 { code := 0x0A, level := t }
  else
    let s := (s0.updCore n (fun c => c.setHold t false)).applyPl n
    let s := s.retireBy n (fun c => c)
    if c.isShadow then .done (s.shadowReti s0 n p)
    else
      match (s.core n).highest p none with
      | some k => .done (s.chainTo n k p)
      | none => .done (s.updCore n Core.restore)

/-- RETI (04 R112). -/
def execReti (n : Fin 192) (b : List Byte) (s : State) : Out := ozRow n b .reti retiSem s

/-- PSWITCH (04 R116; 06 R181). -/
def pswitchSem : Sem := fun n i _ s =>
  let c := s.core n
  let v := c.gr i.a
  if fieldOf v 6 58 ≠ 0 then .trap s (ill 7)
  else if c.below 2 then .trap s (privExc c.level.val 0)
  else if !c.drained then .wait s
  else .next ((s.updCore n (fun c => c.setSys 0x8008 v)).applyPl n)

/-- PSWITCH (04 R116). -/
def execPswitch (n : Fin 192) (b : List Byte) (s : State) : Out := ozRow n b .pswitch pswitchSem s

/-! ### TLB maintenance (04 R109, R110; 07 R212-R214) -/

/-- What a TLBI of core `n` sends in INLINE (assumption log 15). -/
def tlbiInline (t : TlbiOp) : BitVec 256 :=
  BitVec.ofNat 256 (t.scope + 8 * b2n t.h + 16 * t.vmid.toNat + 18446744073709551616 * t.a.toNat)
/-- The TLBI that a packet carries. -/
def tlbiOf (k : Packet) : TlbiOp :=
  let x := k.inl.toNat
  { scope := natField x 0 3, h := x.testBit 3, vmid := BitVec.ofNat 16 (natField x 4 16), a := BitVec.ofNat 64 (natField x 64 64) }

/-- The routers of the benches. -/
def benchRouters : List Nat := (List.range 24).map (fun b => 8 * (b / 6) + b % 6)

/-- Send a TLBI to every bench; the tags it waits for. -/
def State.sendTlbi (s : State) (n : Nat) (t : TlbiOp) : List Nat × State :=
  benchRouters.foldl
    (fun (acc : List Nat × State) r =>
      let s := acc.2
      (acc.1 ++ [s.net.tag.toNat],
        s.request (benchRouter n) 0
          { op := opTlbi, part := (s.core n).part, dst := BitVec.ofNat 7 r, dstp := 0, inl := tlbiInline t })) ([], s)

/-- TLBI of a scope (04 R109; 07 R213). -/
def tlbiSem : Sem := fun n i _ s =>
  let c := s.core n
  let scope := i.byte
  if c.below (if scope ≤ 3 then 1 else 2) then .trap s (privExc c.level.val 0)
  else if c.level = 1 ∧ bitOf (c.sysReg 0x8006) 4 then .trap s (trapExc 2 4)
  else if c.isShadow then .next s
  else if !c.drained || decide (16 ≤ c.tlbis.length) then .wait s
  else
    let h := decide (scope ≤ 3) && decide (2 ≤ c.level.val) && !bitOf (c.sysReg 0x8013) 2
    let r := s.sendTlbi n ⟨scope, h, BitVec.ofNat 16 (fieldOf (c.sysReg 0x8010) 48 16), c.gr i.a⟩
    .next (r.2.updCore n (fun c => { c with tlbis := c.tlbis ++ [r.1] }))

/-- A row for TLBI of one scope. -/
def tlbiRow (n : Fin 192) (b : List Byte) (k : Nat) (s : State) : Out :=
  s.issue n.val b (fun i => i.op = .tlbi && i.byte = k) tlbiSem

/-- TLBI scope 0 (04 R109). -/
def execTlbiVaAsid (n : Fin 192) (b : List Byte) (s : State) : Out := tlbiRow n b 0 s
/-- TLBI scope 1 (04 R109). -/
def execTlbiVaAllAsid (n : Fin 192) (b : List Byte) (s : State) : Out := tlbiRow n b 1 s
/-- TLBI scope 2 (04 R109). -/
def execTlbiAsid (n : Fin 192) (b : List Byte) (s : State) : Out := tlbiRow n b 2 s
/-- TLBI scope 3 (04 R109). -/
def execTlbiVmidStage1 (n : Fin 192) (b : List Byte) (s : State) : Out := tlbiRow n b 3 s
/-- TLBI scope 4 (04 R109). -/
def execTlbiIpa (n : Fin 192) (b : List Byte) (s : State) : Out := tlbiRow n b 4 s
/-- TLBI scope 5 (04 R109). -/
def execTlbiVmid (n : Fin 192) (b : List Byte) (s : State) : Out := tlbiRow n b 5 s
/-- TLBI scope 6 (04 R109). -/
def execTlbiAll (n : Fin 192) (b : List Byte) (s : State) : Out := tlbiRow n b 6 s

/-- TLBSYNC (04 R110; 09 R255). -/
def tlbsyncSem : Sem := fun n _ _ s =>
  let c := s.core n
  if c.below 1 then .trap s (privExc c.level.val 0)
  else if !c.isShadow && !c.tlbis.isEmpty then .wait s
  else .next s

/-- TLBSYNC (04 R110). -/
def execTlbsync (n : Fin 192) (b : List Byte) (s : State) : Out := ozRow n b .tlbsync tlbsyncSem s

/-- TLBI_PACKET: core `n` of the bench that a TLBI has reached performs it; the last one answers (04 R110; 07 R212). -/
def tlbiArrive (n : Nat) (k : Packet) (s : State) : State :=
  let b := n / 8
  if k.dst.toNat ≠ benchRouter n ∨ s.atGate k then s
  else
    let here := s.net.flights.any (fun f => f.pkt = k)
    let old := (s.coh.tlbis.find? (fun x => x.1 = k)).map (fun x => x.2)
    match (if here then some (benchCores b) else old) with
    | none => s
    | some cores =>
      let s := s.arrive k
      let s := if s.domUp n && cores.contains n then s.performTlbi n (tlbiOf k) else s
      let left := cores.filter (fun j => j != n && s.domUp j)
      let rest := s.coh.tlbis.filter (fun x => x.1 != k)
      if left.isEmpty then
        ({ s with coh := { s.coh with tlbis := rest } }).respond k opTlbiAck 0 0 false
      else { s with coh := { s.coh with tlbis := rest ++ [(k, left)] } }

/-- TLBI_PACKET (07 R212). -/
def execTlbiPacket (n : Fin 192) (k : Packet) (s : State) : Out := act s (tlbiArrive n.val { k with op := opTlbi })

/-- One answer to a TLBI of a core. -/
def Core.tlbiDone (c : Core) (tag : Nat) : Core :=
  { c with tlbis := (c.tlbis.map (fun l => l.filter (fun t => t != tag))).filter (fun l => !l.isEmpty) }

/-- TLBI_ACK: a bench has performed a TLBI (04 R110; 10 R271). -/
def tlbiAck (p : Packet) (s : State) : State :=
  s.landed p (fun s =>
    match s.answered p with
    | none => s.lateResponse p
    | some (q, s) =>
      match benchOf q with
      | some b => (benchCores b).foldl (fun s n => s.updCore n (fun c => c.tlbiDone q.tag.toNat)) s
      | none => s)

/-- TLBI_ACK (10 R271). -/
def execTlbiAck (k : Packet) (s : State) : Out := act s (tlbiAck { k with op := opTlbiAck })

/-! ### Cache maintenance (08 R234-R236) -/

/-- CMO: it is translated as a load and takes a store buffer entry; a confidential refusal drops it (08 R234, R235; 15
R423).  The entry's operation has 8 added where INV_MEM discards. -/
def cmoSem : Sem := fun n i _ s =>
  let c := s.core n
  let va := c.gr i.a
  let lv := c.level.val
  if c.below 1 then .trap s (privExc lv 0)
  else if c.isShadow then .next s
  else if 48 ≤ c.sb.length then .wait s
  else
    match s.translate n va .read lv 1 with
    | (.fault f, s) => .trap s (f.exc false 6)
    | (.walk, s) => .wait ((s.startWalk n va .read lv 6).updCore n (fun c => { c with issued := true }))
    | (.ok pa mt, s) =>
      let barred := match s.confOwner pa 1 with
        | some o => o != c.part.toNat
        | none => false
      if barred then .next (s.refuseConf pa c.part)
      else
        let op := i.byte + (if i.byte = 1 ∧ 2 ≤ lv then 8 else 0)
        .next (s.updCore n (fun c => { c with
          sb := c.sb ++ [{ addr := pa / 64 * 64, data := [], mt := mt, part := c.part, cmo := some op }] }))

/-- A row for CMO of one operation. -/
def cmoRow (n : Fin 192) (b : List Byte) (k : Nat) (s : State) : Out :=
  s.issue n.val b (fun i => i.op = .cmo && i.byte = k) cmoSem

/-- CMO CLEAN_MEM (08 R234). -/
def execCmoCleanMem (n : Fin 192) (b : List Byte) (s : State) : Out := cmoRow n b 0 s
/-- CMO INV_MEM (08 R234). -/
def execCmoInvMem (n : Fin 192) (b : List Byte) (s : State) : Out := cmoRow n b 1 s
/-- CMO CINV_MEM (08 R234). -/
def execCmoCinvMem (n : Fin 192) (b : List Byte) (s : State) : Out := cmoRow n b 2 s
/-- CMO CLEAN_L2 (08 R234). -/
def execCmoCleanL2 (n : Fin 192) (b : List Byte) (s : State) : Out := cmoRow n b 3 s
/-- CMO INV_I (08 R234). -/
def execCmoInvI (n : Fin 192) (b : List Byte) (s : State) : Out := cmoRow n b 4 s

/-- CMOSW on a line that a way of the core's L1D holds (08 R236): 0 clean, 1 invalidate, 2 both. -/
def State.swL1d (s : State) (n op line : Nat) : State :=
  if op = 0 then s.takeL1 n line (fun l => some { l with st := if l.st = .m then .e else l.st })
  else if op = 1 then s.modL1d n line (fun _ => none)
  else s.takeL1 n line (fun _ => none)

/-- CMOSW on a line of the bench's L2: an invalidate discards dirty data (08 R236). -/
def State.swL2 (s : State) (n op line : Nat) : State :=
  let s := if op = 1 then (benchCores (n / 8)).foldl (fun s j => s.modL1d j line CLine.shared) s else s
  s.actL2 (n / 8) line (op + 1) (s.core n).part (op ≠ 1)

/-- Must a CMOSW wait: for the fill outstanding for its line, or for room in the eviction buffer (08 R243)? -/
def State.swWaits (s : State) (n lvl set w : Nat) : Bool :=
  let line := if lvl = 0 then ((s.core n).l1d.at 8 set w).map (fun l => l.line)
    else if lvl = 1 then ((s.core n).l1i.at 4 set w).map (fun l => l.line)
    else ((s.l2 (n / 8)).at 16 set w).map (fun l => l.line)
  line.any (fun x => s.coh.misses.any (fun m => m.core / 8 == n / 8 && m.line == x))
    || (lvl = 2 && decide (16 ≤ (s.evb (n / 8)).length))

/-- CMOSW acts on the line that the way holds now (08 R236). -/
def State.cmosw (s : State) (n op lvl set w : Nat) : State :=
  if lvl = 0 then
    match (s.core n).l1d.at 8 set w with
    | some l => s.swL1d n op l.line
    | none => s
  else if lvl = 1 then (if op = 0 then s else s.updCore n (fun c => { c with l1i := c.l1i.put 4 set w none }))
  else
    match (s.l2 (n / 8)).at 16 set w with
    | some l => s.swL2 n op l.line
    | none => s

/-- CMOSW (08 R236). -/
def cmoswSem : Sem := fun n i _ s =>
  let c := s.core n
  let a := c.gr i.a
  let lvl := fieldOf a 0 2
  let set := fieldOf a 8 12
  let w := fieldOf a 32 4
  let sets := match lvl with | 0 => 128 | 1 => 256 | _ => 4096
  let ways := match lvl with | 0 => 8 | 1 => 4 | _ => 16
  if fieldOf a 2 6 ≠ 0 ∨ fieldOf a 20 12 ≠ 0 ∨ fieldOf a 36 28 ≠ 0 then .trap s (ill 5)
  else if lvl = 3 ∨ sets ≤ set ∨ ways ≤ w then .trap s (ill 7)
  else if c.below 2 then .trap s (privExc c.level.val 0)
  else if c.isShadow then .next s
  else if s.swWaits n lvl set w then .wait s
  else .next (s.cmosw n i.byte lvl set w)

/-- A row for CMOSW of one operation. -/
def cmoswRow (n : Fin 192) (b : List Byte) (k : Nat) (s : State) : Out :=
  s.issue n.val b (fun i => i.op = .cmosw && i.byte = k) cmoswSem

/-- CMOSW clean (08 R236). -/
def execCmoswClean (n : Fin 192) (b : List Byte) (s : State) : Out := cmoswRow n b 0 s
/-- CMOSW invalidate (08 R236). -/
def execCmoswInvalidate (n : Fin 192) (b : List Byte) (s : State) : Out := cmoswRow n b 1 s
/-- CMOSW clean and invalidate (08 R236). -/
def execCmoswCleanInvalidate (n : Fin 192) (b : List Byte) (s : State) : Out := cmoswRow n b 2 s

end Sys2Proof.Machine
end

