-- ==== Sys2Proof/Machine/OzMem.lean ====
section
/-! DEFINITION. Loads, stores and atomics of the Ozhorn-64, its store buffer, and what its reads and writes meet outside the
caches (04 R85-R87, R91, R95; 05 R133; 06 R166-R168; 08 R218-R232; 10 R269-R271; 15 R423). -/

namespace Sys2Proof.Machine

/-! ### Accesses -/

/-- Bytes of the access of LD, LDX, ST and of an atomic (04 R86, R91). -/
def Insn.bytes (i : Insn) : Nat := i.w / 8

/-- The allocation hint: 0 none, 1 EVF, 2 NT, 3 NAL; a NAL or EVF prefix is taken before NT (08 R224; assumption log 37). -/
def Insn.hintCode (i : Insn) : Nat :=
  match i.pfx.hint with
  | some 0 => 1
  | some _ => 3
  | none => if i.ordIs 3 then 2 else 0

/-- What an instruction asks of memory: its lowest byte, its length, its kind, and whether only natural alignment will do
(04 R87, R91). -/
structure MemAcc where
  va : W64
  len : Nat
  acc : Acc
  strict : Bool
  deriving DecidableEq, Repr

/-- Is the access naturally aligned? -/
def MemAcc.aligned (m : MemAcc) : Bool := m.va.toNat % m.len = 0

/-- CAUSE.SZ of the access (04 R102). -/
def MemAcc.sz (m : MemAcc) : Nat := Nat.log2 m.len

/-- The parts of an access by page, the lower first (06 R168). -/
def MemAcc.pages (m : MemAcc) : List (W64 × Nat) :=
  let room := 4096 - m.va.toNat % 4096
  if m.len ≤ room then [(m.va, m.len)] else [(m.va, room), (m.va + BitVec.ofNat 64 room, m.len - room)]

/-- A translated part: where it lies, its type, and whether a confidential range refuses it (15 R423). -/
structure Part where
  va : W64
  len : Nat
  pa : Nat
  mt : MemType
  refused : Bool
  deriving DecidableEq, Repr

/-- What the translation of all parts gives; beside an exception, the parts before the one that it arose on. -/
inductive Placed where
  | ok (ps : List Part)
  | walk (va : W64)
  | exc (x : Exc) (before : List Part)
  deriving DecidableEq, Repr

/-- ALIGN (04 R99).  FAR is the lowest byte of the part that lies in device memory (DESIGN CHOICE, assumption log 82). -/
def alignExc (far : W64) (wr : Bool) (sz : Nat) : Exc := { code := 3, far := far, wr := wr, sz := sz }

/-- Translate the parts in order and find the first fault (04 R87, R95, R103; 06 R168).  A confidential range refuses a part at U
and S where its owner is another partition (15 R423). -/
def State.placeParts (s : State) (n : Nat) (m : MemAcc) (arch : Bool := true) : List (W64 × Nat) → Placed × State
  | [] => (.ok [], s)
  | (va, len) :: rest =>
    let c := s.core n
    let wr := m.acc.writes
    match s.translate n va m.acc c.level.val len arch with
    | (.fault f, s) => (.exc (f.exc wr m.sz) [], s)
    | (.walk, s) => (.walk va, s)
    | (.ok pa mt, s) =>
      if !m.aligned && (m.strict || mt = .dev) then (.exc (alignExc va wr m.sz) [], s)
      else
        let refused := match s.confOwner pa len with
          | some o => o != c.part.toNat
          | none => false
        let p : Part := ⟨va, len, pa, mt, refused⟩
        match s.placeParts n m arch rest with
        | (.ok ps, s) => (.ok (p :: ps), s)
        | (.exc x ps, s) => (.exc x (p :: ps), s)
        | r => r

/-- Pieces of a physical range by line. -/
def linePieces (pa len : Nat) : List (Nat × Nat) :=
  let room := 64 - pa % 64
  if len ≤ room then [(pa, len)] else [(pa, room), (pa + room, len - room)]

/-! ### Requests outside the caches (10 R269) -/

/-- Send bytes of one line outside the caches under the partition that stored them. -/
def State.sendWrite (s : State) (n pa : Nat) (part : PartId) (data : List Byte) : State :=
  s.sendTo n pa
    { op := if inControl pa then opWrCs else opWrPt, part := part, size := BitVec.ofNat 6 (data.length - 1),
      be := byteMask (pa % 64) data.length, inl := BitVec.ofNat 256 (leNat data) }

/-! ### Loads -/

/-- Does an entry hold a byte of the range? -/
def SbEntry.overlaps (e : SbEntry) (pa len : Nat) : Bool :=
  e.cmo.isNone && decide (e.addr < pa + len) && decide (pa < e.addr + e.data.length)

/-- Does it hold every byte? -/
def SbEntry.holdsAll (e : SbEntry) (pa len : Nat) : Bool :=
  e.cmo.isNone && decide (e.addr ≤ pa) && decide (pa + len ≤ e.addr + e.data.length)

/-- The bytes of a range that an entry holds. -/
def SbEntry.slice (e : SbEntry) (pa len : Nat) : List Byte := (e.data.drop (pa - e.addr)).take len

/-- What comparing a range with the buffered stores gives (06 R167). -/
inductive Forward where
  | none | data (l : List Byte) | partly
  deriving DecidableEq, Repr

/-- Compare a load with the store buffer, the oldest entry first: the youngest overlapping store must hold it all (06 R167). -/
def forwardFrom (sb : List SbEntry) (pa len : Nat) : Forward :=
  match (sb.filter (fun e => e.overlaps pa len)).getLast? with
  | none => .none
  | some e => if e.holdsAll pa len then .data (e.slice pa len) else .partly

/-- Is a store to device memory waiting: device accesses are performed in program order (04 R95)? -/
def Core.devWaits (c : Core) : Bool := c.sb.any (fun e => e.mt = .dev)

/-- Read one piece: its bytes and poison, or none while they have not come. -/
def State.readPiece (s : State) (n : Nat) (mt : MemType) (hint pa len : Nat) : Option (List Byte × Bool) × State :=
  if s.cached mt pa then
    match s.loadLine n (pa / 64) hint with
    | (some (d, p), s) => (some (((lineBytes d).drop (pa % 64)).take len, p), s)
    | (none, s) => (none, s)
  else
    match (s.core n).ext.find? (fun x => x.addr = pa && !x.fetch) with
    | some x => (x.got.map (fun g => (leBytes len g.1.toNat, g.2)), s)
    | none => (none, s.sendRead n pa len)

/-- Read pieces in order, each asked for even while another has not come. -/
def State.readPieces (s : State) (n : Nat) (mt : MemType) (hint : Nat) : List (Nat × Nat) → Option (List Byte × Bool) × State
  | [] => (some ([], false), s)
  | (pa, len) :: rest =>
    match s.readPiece n mt hint pa len with
    | (x, s) =>
      match s.readPieces n mt hint rest with
      | (y, s) =>
        (match x, y with
          | some (l, p), some (m, q) => some (l ++ m, p || q)
          | _, _ => none, s)

/-- Read the parts of a load in order: the bytes, or the address of a part that is poisoned. -/
def State.readParts (s : State) (n hint : Nat) : List Part → Option (List Byte × Option W64) × State
  | [] => (some ([], none), s)
  | p :: ps =>
    match s.readPieces n p.mt hint (linePieces p.pa p.len) with
    | (x, s) =>
      match s.readParts n hint ps with
      | (y, s) =>
        (match x, y with
          | some (l, bad), some (m, far) => some (l ++ m, if bad then some p.va else far)
          | _, _ => none, s)

/-- The parts that a confidential range refuses are counted, one by one (15 R423). -/
def State.refuseParts (s : State) (n : Nat) (ps : List Part) : State :=
  ps.foldl (fun s p => if p.refused then s.refuseConf p.pa (s.core n).part else s) s

/-- The load or atomic of a core waits for data: it has issued (06 R179; 17 R468). -/
def State.await (s : State) (n : Nat) : State := s.updCore n (fun c => { c with issued := true })

/-- Compare a load that crosses a page with the store buffer: one store that crosses it too may hold every byte, in two entries that follow
each other (06 R166, R167). -/
def forwardTwo (sb : List SbEntry) (p q : Part) : Forward :=
  if !sb.any (fun e => e.overlaps p.pa p.len || e.overlaps q.pa q.len) then .none
  else
    let young := fun (r : Part) => (sb.filter (fun e => e.overlaps r.pa r.len)).getLast?
    match young p, young q with
    | some e, some f =>
      if e.holdsAll p.pa p.len && f.holdsAll q.pa q.len && f.upper && (sb.zip (sb.drop 1)).any (fun x => x.1 == e && x.2 == f) then
        .data (e.slice p.pa p.len ++ f.slice q.pa q.len)
      else .partly
    | _, _ => .partly

/-- Compare a load's parts with the store buffer (06 R167). -/
def forwardAll (sb : List SbEntry) : List Part → Forward
  | [p] => forwardFrom sb p.pa p.len
  | [p, q] => forwardTwo sb p q
  | _ => .none

/-- What a load's parts and the store buffer give: the bytes, a wait, or an exception. -/
def State.loadParts (s : State) (n hint sz : Nat) (ps : List Part) (f : List Byte → State → Eff) : Eff :=
  let c := s.core n
  match ps.find? (fun p => p.refused) with
  | some p => .trap (s.refuseParts n ps) (poisonExc p.va false sz)
  | none =>
    if c.devWaits && ps.any (fun p => p.mt = .dev) then .wait s
    else
      match forwardAll c.sb ps with
      | .data l => f l s
      | .partly => .wait (s.updCore n (fun c =>
          Core.redirect { c with replay := ps.map (fun p => (p.pa, p.len)), issued := false }))
      | .none =>
        match s.readParts n hint ps with
        | (none, s) => .wait (s.await n)
        | (some (_, some far), s) => .trap s (poisonExc far false sz)
        | (some (l, none), s) => f l s

/-- The translation of a whole access, and then what `f` makes of its parts.  An access that waits for the walker has issued (06 R179; 07
R205).  For a load, poison of the lower part comes before a fault of the higher one (04 R103). -/
def State.withParts (s : State) (n : Nat) (m : MemAcc) (hint : Nat) (f : List Part → State → Eff) : Eff :=
  match s.placeParts n m true m.pages with
  | (.exc x before, s) => if m.acc = .read && !before.isEmpty then s.loadParts n hint m.sz before (fun _ s => .trap s x) else .trap s x
  | (.walk va, s) => .wait ((s.startWalk n va m.acc (s.core n).level.val m.sz).await n)
  | (.ok ps, s) => f ps s

/-- The doublewords of a data record: the value zero-extended (09 R253). -/
def recordOf (l : List Byte) : List W64 :=
  (List.range ((l.length + 7) / 8)).map (fun k => BitVec.ofNat 64 (leNat ((l.drop (8 * k)).take 8)))

/-- The value that a data record holds. -/
def recordBytes (n : Nat) (ws : List W64) : List Byte := (ws.flatMap (fun w => leBytes 8 w.toNat)).take n

/-- A load of `len` bytes; `put` writes its value.  A shadow takes the value from its log (09 R255). -/
def loadSem (len : Insn → Nat) (put : Insn → List Byte → Core → Core) : Sem := fun n i seq s =>
  let c := s.core n
  let k := len i
  if c.isShadow then
    match s.takeData n ((k + 7) / 8) with
    | none => .done (s.diverge n)
    | some (ws, s) => .next (s.updCore n (put i (recordBytes k ws)))
  else
    let m : MemAcc := { va := i.ea seq c, len := k, acc := .read, strict := i.ordIs 3 }
    s.withParts n m i.hintCode (fun ps s =>
      s.loadParts n i.hintCode m.sz ps (fun l s => .next ((s.logRec n false (recordOf l)).updCore n (put i l))))

/-- Bytes of FLD and FST (04 R86). -/
def Insn.fpBytes (i : Insn) : Nat := if i.pfx.size = some 0 then 4 else 8

/-- LD (04 R86). -/
def ldPut (i : Insn) (l : List Byte) (c : Core) : Core := c.setG i.a (BitVec.ofNat 64 (leNat l))
/-- LDX (04 R86). -/
def ldxPut (i : Insn) (l : List Byte) (c : Core) : Core := c.setG i.a (sext64 (BitVec.ofNat 64 (leNat l)) i.w)
/-- FLD and VLD: upper bits that are not loaded become 0 (04 R71, R86). -/
def fldPut (i : Insn) (l : List Byte) (c : Core) : Core := c.setF i.a (BitVec.ofNat 128 (leNat l))

/-- LD (04 R86). -/
def ldSem : Sem := loadSem Insn.bytes ldPut
/-- LDX (04 R86). -/
def ldxSem : Sem := loadSem Insn.bytes ldxPut
/-- FLD (04 R86). -/
def fldSem : Sem := loadSem Insn.fpBytes fldPut
/-- VLD (04 R86). -/
def vldSem : Sem := loadSem (fun _ => 16) fldPut

/-- LD: A := memory, zero-extended (04 R86). -/
def execLd (n : Fin 192) (b : List Byte) (s : State) : Out := ozRow n b .ld ldSem s
/-- LDX: A := memory, sign-extended (04 R86). -/
def execLdx (n : Fin 192) (b : List Byte) (s : State) : Out := ozRow n b .ldx ldxSem s
/-- FLD (04 R86). -/
def execFld (n : Fin 192) (b : List Byte) (s : State) : Out := ozRow n b .fld fldSem s
/-- VLD (04 R86). -/
def execVld (n : Fin 192) (b : List Byte) (s : State) : Out := ozRow n b .vld vldSem s

/-! ### Stores -/

/-- The store buffer's size (06 R166). -/
def sbSize : Nat := 48

/-- A store enters the store signature of a bound core (09 R258). -/
def State.signStore (s : State) (n : Nat) (va : W64) (data : List Byte) : State :=
  if (s.core n).bunk.bound then s.updBunk n (fun b => { b with ssig := storeSig b.ssig va data }) else s

/-- The store buffer entries of a store's parts; a part that a confidential range refuses has no effect (06 R166; 15 R423). -/
def sbOf (part : PartId) (hint : Nat) : List Part → List Byte → List SbEntry
  | [], _ => []
  | p :: ps, data =>
    let rest := (sbOf part hint ps (data.drop p.len)).map (fun e => { e with upper := !p.refused })
    if p.refused then rest else { addr := p.pa, data := data.take p.len, mt := p.mt, part := part, hint := hint } :: rest

/-- A store of `data` (06 R166, R168). -/
def storeSem (data : Insn → Core → List Byte) : Sem := fun n i seq s =>
  let c := s.core n
  let va := i.ea seq c
  let l := data i c
  if c.isShadow then .next (s.signStore n va l)
  else
    let m : MemAcc := { va := va, len := l.length, acc := .write, strict := i.ordIs 3 }
    s.withParts n m i.hintCode (fun ps s =>
      let es := sbOf c.part i.hintCode ps l
      if sbSize < (s.core n).sb.length + es.length then .wait s
      else
        let s := (s.refuseParts n ps).signStore n va l
        .next (s.updCore n (fun c => { c with sb := c.sb ++ es })))

/-- ST (04 R86). -/
def stData (i : Insn) (c : Core) : List Byte := leBytes i.bytes (c.gr i.a).toNat
/-- FST (04 R86). -/
def fstData (i : Insn) (c : Core) : List Byte := leBytes i.fpBytes (c.fr i.a).toNat
/-- VST (04 R86). -/
def vstData (i : Insn) (c : Core) : List Byte := leBytes 16 (c.fr i.a).toNat

/-- ST (04 R86). -/
def stSem : Sem := storeSem stData
/-- FST (04 R86). -/
def fstSem : Sem := storeSem fstData
/-- VST (04 R86). -/
def vstSem : Sem := storeSem vstData

/-- ST: memory := A (04 R86). -/
def execSt (n : Fin 192) (b : List Byte) (s : State) : Out := ozRow n b .st stSem s
/-- FST (04 R86). -/
def execFst (n : Fin 192) (b : List Byte) (s : State) : Out := ozRow n b .fst fstSem s
/-- VST (04 R86). -/
def execVst (n : Fin 192) (b : List Byte) (s : State) : Out := ozRow n b .vst vstSem s

/-! ### Atomics (04 R91; 05 R133) -/

/-- The value that an atomic stores, from the width, A, C and the old value; none where its store part is not performed. -/
abbrev AtomOp := (w a c old : Nat) → Option Nat

/-- Does the bench serve stores of the line without allocating: a zero mask, or a set that is lost (08 R222, R233)? -/
def State.passesBy (s : State) (n line : Nat) (part : PartId) : Bool :=
  let page := benchPage (n / 8) 0 0
  ((s.l2Line (n / 8) line).isNone && s.maskZero page part.toNat)
    || s.setDead page 2 (l2Set line) || s.setDead (corePage n 0) 2 (l1dSet line)

/-- Does the eviction buffer of the bench hold the line: a store waits until home has accepted it (08 R243)? -/
def State.evicting (s : State) (n line : Nat) : Bool := (s.evLine (n / 8) line).isSome

/-- Atomic read and write of memory by one step at home: the bench's request travels there, home reads and writes the line, and the old
value travels back (08 R222, R232; assumption log 34).  None while it must wait; one that is lost gives 0. -/
def State.atomHome (s : State) (n pa len : Nat) (f : Nat → Option Nat) : Option (Nat × Bool) × State :=
  let r := benchRtr (n / 8)
  let part := (s.core n).part
  match s.wholeAccess r 0 part pa len none with
  | (.held h, _) => (none, s.holdFor (h, part))
  | (.done l bad lost, t) =>
    let old := leNat l
    if bad || lost then (some (old, bad), t)
    else
      match f old with
      | none => (some (old, false), t)
      | some v =>
        match t.wholeAccess r 0 part pa len (some (leBytes len v, false)) with
        | (.held h, _) => (none, s.holdFor (h, part))
        | (.done _ _ _, t) => (some (old, false), t)

/-- Atomic read and write of a line that the L1D must hold writable (08 R227). -/
def State.atomLine (s : State) (n pa len hint : Nat) (f : Nat → Option Nat) : Option (Nat × Bool) × State :=
  let line := pa / 64
  match (s.core n).given.find? (fun g => g.line == line && g.un) with
  | some _ => (some (0, false), s)
  | none =>
    if s.evicting n line then (none, s)
    else if !s.writable n line && s.passesBy n line (s.core n).part then s.atomHome n pa len f
    else
      let s := (s.checkL1d n line).own n line hint
      match s.l1dLine n line with
      | some l =>
        if !s.writable n line then (none, s)
        else
          let old := leNat (((lineBytes l.data).drop (pa % 64)).take len)
          if l.poison then (some (old, true), s)
          else
            match f old with
            | some v => (some (old, false), s.storeLine n line (pa % 64) (leBytes len v) hint)
            | none => (some (old, false), s)
      | none => (none, s)

/-- Atomic access outside DRAM: a read, then a write through the store buffer (assumption log 34).  With acquire ordering it ends only when
the write has been performed (04 R95). -/
def State.atomOut (s : State) (n : Nat) (i : Insn) (p : Part) (f : Nat → Option Nat) : Option (Nat × Bool) × State :=
  match s.readPiece n .dev 0 p.pa p.len with
  | (none, s) => (none, s)
  | (some (l, bad), s) =>
    let old := leNat l
    let acq := i.ordIs 0 || i.ordIs 2
    if bad then (some (old, true), s)
    else if (s.core n).ext.any (fun x => x.addr = p.pa && x.wrote) then
      (if (s.core n).sb.isEmpty then some (old, false) else none, s)
    else
      match f old with
      | some v =>
        let e : SbEntry := { addr := p.pa, data := leBytes p.len v, mt := p.mt, part := (s.core n).part }
        (if acq then none else some (old, false), s.updCore n (fun c => { c with
          sb := c.sb ++ [e], ext := c.ext.map (fun x => if x.addr = p.pa && !x.fetch then { x with wrote := true } else x) }))
      | none => (some (old, false), s)

/-- Must an atomic wait for older stores: for those to its bytes, for all with release ordering, and for device stores where it is
one itself (04 R95; 06 R167)? -/
def Core.atomWaits (c : Core) (i : Insn) (p : Part) : Bool :=
  c.sb.any (fun e => e.overlaps p.pa p.len) || ((i.ordIs 1 || i.ordIs 2) && !c.sb.isEmpty) || (p.mt = .dev && c.devWaits)

/-- Does an atomic outside DRAM find no free entry for its write (06 R166)? -/
def State.atomFull (s : State) (n : Nat) (p : Part) : Bool := !s.isDram p.pa && decide (sbSize ≤ (s.core n).sb.length)

/-- The end of an atomic: A := old value, zero-extended; its record; its store part in the signature (05 R133; 09 R253, R258). -/
def State.atomEnd (s : State) (n : Nat) (i : Insn) (va : W64) (old : Nat) (new : Option Nat) : State :=
  let s := s.logRec n false [BitVec.ofNat 64 old]
  let s := match new with
    | some v => s.signStore n va (leBytes i.bytes v)
    | none => s
  s.updCore n (fun c => c.setG i.a (BitVec.ofNat 64 old))

/-- An atomic instruction: address in B, source C, A := old value (04 R91). -/
def atomSem (g : AtomOp) : Sem := fun n i _ s =>
  let c := s.core n
  let va := c.gr i.b
  let f := g i.w (low i.w (c.gr i.a)) (low i.w (c.gr i.c))
  if c.isShadow then
    match s.takeData n 1 with
    | some (w :: _, s) => .next (s.atomEnd n i va w.toNat (f (low i.w w)))
    | _ => .done (s.diverge n)
  else
    let m : MemAcc := { va := va, len := i.bytes, acc := .rmw, strict := true }
    s.withParts n m 0 (fun ps s =>
      match ps with
      | p :: _ =>
        if p.refused then .trap (s.refuseParts n ps) (poisonExc va true m.sz)
        else if !(s.core n).ext.any (·.wrote) && ((s.core n).atomWaits i p || s.atomFull n p) then .wait s
        else
          let r := if s.cached p.mt p.pa then s.atomLine n p.pa p.len 0 f
            else if s.isDram p.pa then s.atomHome n p.pa p.len f
            else s.atomOut n i p f
          match r with
          | (none, s) => .wait (s.await n)
          | (some (_, true), s) => .trap s (poisonExc va true m.sz)
          | (some (old, false), s) => .next (s.atomEnd n i va old (f old))
      | [] => .wait s)

/-- AMOSWP. -/
def swpOp : AtomOp := fun _ _ c _ => some c
/-- AMOADD. -/
def addOp : AtomOp := fun w _ c old => some ((old + c) % 2 ^ w)
/-- AMOAND. -/
def andOp : AtomOp := fun _ _ c old => some (old &&& c)
/-- AMOOR. -/
def orOp : AtomOp := fun _ _ c old => some (old ||| c)
/-- AMOXOR. -/
def xorOp : AtomOp := fun _ _ c old => some (old ^^^ c)
/-- AMOMIN compares signed values. -/
def minOp : AtomOp := fun w _ c old => some (if sextNat c w < sextNat old w then c else old)
/-- AMOMAX compares signed values. -/
def maxOp : AtomOp := fun w _ c old => some (if sextNat old w < sextNat c w then c else old)
/-- CAS stores only on equality with A. -/
def casOp : AtomOp := fun _ a c old => if old = a then some c else none

/-- AMOSWP (04 R91; 05 R133). -/
def execAmoswp (n : Fin 192) (b : List Byte) (s : State) : Out := ozRow n b .amoswp (atomSem swpOp) s
/-- AMOADD (04 R91; 05 R133). -/
def execAmoadd (n : Fin 192) (b : List Byte) (s : State) : Out := ozRow n b .amoadd (atomSem addOp) s
/-- AMOAND (04 R91; 05 R133). -/
def execAmoand (n : Fin 192) (b : List Byte) (s : State) : Out := ozRow n b .amoand (atomSem andOp) s
/-- AMOOR (04 R91; 05 R133). -/
def execAmoor (n : Fin 192) (b : List Byte) (s : State) : Out := ozRow n b .amoor (atomSem orOp) s
/-- AMOXOR (04 R91; 05 R133). -/
def execAmoxor (n : Fin 192) (b : List Byte) (s : State) : Out := ozRow n b .amoxor (atomSem xorOp) s
/-- AMOMIN (04 R91; 05 R133). -/
def execAmomin (n : Fin 192) (b : List Byte) (s : State) : Out := ozRow n b .amomin (atomSem minOp) s
/-- AMOMAX (04 R91; 05 R133). -/
def execAmomax (n : Fin 192) (b : List Byte) (s : State) : Out := ozRow n b .amomax (atomSem maxOp) s
/-- CAS (04 R91; 05 R133). -/
def execCas (n : Fin 192) (b : List Byte) (s : State) : Out := ozRow n b .cas (atomSem casOp) s

/-! ### The store buffer (06 R166) -/

/-- The oldest entry leaves. -/
def Core.popSb (c : Core) : Core := { c with sb := c.sb.drop 1 }

/-- Replace the oldest entry. -/
def Core.setHead (c : Core) (es : List SbEntry) : Core := { c with sb := es ++ c.sb.drop 1 }

/-- The pieces of an entry by line. -/
def SbEntry.pieces (e : SbEntry) : List SbEntry :=
  (linePieces e.addr e.data.length).map (fun p => { e with addr := p.1, data := e.slice p.1 p.2 })

/-- The oldest entry leaves for the fabric: one line at a time, after the response of the one before it. -/
def State.sbOut (s : State) (n : Nat) (e : SbEntry) : State :=
  if e.sent.isSome then s
  else
    match e.pieces with
    | p :: rest =>
      let tag := s.nextTag
      let s := s.sendWrite n p.addr p.part p.data
      s.updCore n (fun c => c.setHead ({ p with sent := some tag } :: rest))
    | [] => s.updCore n Core.popSb

/-- The oldest entry is written to the L1D once every line of it is writable there; otherwise ownership is asked for. -/
def State.sbLine (s : State) (n : Nat) (e : SbEntry) : State :=
  let ps := e.pieces
  let lines := ps.map (fun p => p.addr / 64)
  if lines.any (fun l => s.evicting n l) then s
  else if lines.any (fun l => !s.writable n l && s.passesBy n l e.part) then s.sbOut n e
  else
    let s := lines.foldl (fun s l => s.own n l e.hint) s
    if lines.all (fun l => s.writable n l) then
      (ps.foldl (fun s p => s.storeLine n (p.addr / 64) (p.addr % 64) p.data e.hint) s).updCore n Core.popSb
    else s

/-- The oldest entry is a CMO, after any fill outstanding for the line: CLEAN_L2 is the bench's own; the others go to home (08 R234,
R235, R243).  An address outside DRAM has no copy in any cache. -/
def State.sbCmo (s : State) (n op : Nat) (e : SbEntry) : State :=
  let line := e.addr / 64
  if e.sent.isSome || s.coh.misses.any (fun m => m.line == line && m.core / 8 == n / 8) then s
  else if op % 8 = 3 then
    ((benchCores (n / 8)).foldl
      (fun s j => s.takeL1 j line (fun l => some { l with st := if l.st = .m then .e else l.st })) s).updCore n Core.popSb
  else if s.mapped e.addr && !s.isDram e.addr then s.updCore n Core.popSb
  else
    let tag := s.nextTag
    let s := s.sendTo n e.addr { op := opCmo, part := e.part, inl := BitVec.ofNat 256 op }
    s.updCore n (fun c => c.setHead [{ e with sent := some tag }])

/-- The lines of an entry that the caches must own before it is written. -/
def State.ownLines (s : State) (n : Nat) (e : SbEntry) : List Nat :=
  if e.cmo.isNone && e.sent.isNone && s.cached e.mt e.addr then
    (e.pieces.map (fun p => p.addr / 64)).filter (fun l => !s.writable n l && !s.evicting n l && !s.passesBy n l e.part)
  else []

/-- The 16 oldest entries ask for ownership of what they miss, in parallel (06 R166). -/
def State.askOwn (s : State) (n : Nat) : State :=
  ((s.core n).sb.take 16).foldl (fun s e => (s.ownLines n e).foldl (fun s l => s.own n l e.hint) s) s

/-- STORE_BUFFER_WRITE: the oldest entries ask for their lines, and the oldest is written or sent where it can be (06 R166). -/
def storeBufferWrite (n : Nat) (s : State) : State :=
  if !s.domUp n then s
  else
    let s := s.askOwn n
    match (s.core n).sb with
    | [] => s
    | e :: _ =>
      match e.cmo with
      | some op => s.sbCmo n op e
      | none => if s.cached e.mt e.addr && e.sent.isNone then s.sbLine n e else s.sbOut n e

/-- STORE_BUFFER_WRITE (06 R166). -/
def execStoreBufferWrite (n : Fin 192) (s : State) : Out := act s (storeBufferWrite n.val)

/-- PARTIAL_OVERLAP_REPLAY: every older store to the load's bytes has been written (06 R167). -/
def overlapReplay (n : Nat) (s : State) : State :=
  let c := s.core n
  if c.replay.any (fun r => c.sb.any (fun e => e.overlaps r.1 r.2)) then s
  else s.updCore n (fun c => { c with replay := [] })

/-- PARTIAL_OVERLAP_REPLAY (06 R167). -/
def execPartialOverlapReplay (n : Fin 192) (s : State) : Out := act s (overlapReplay n.val)

/-- FETCH_FILL_COMPLETE: the block that the fetch waits for has come: it fills the L1I (06 R153). -/
def fetchFill (n : Nat) (s : State) : State :=
  match (s.core n).fetchWait with
  | none => s
  | some line =>
    let mine := fun (m : Miss) => m.core == n && m.line == line && m.fetch
    if s.coh.misses.any (fun m => mine m && m.got.isNone) || (s.core n).ext.any (fun x => x.fetch && x.addr / 64 == line && x.got.isNone) then s
    else
      let s := if s.coh.misses.any mine then cacheFill n line s else s
      if s.coh.misses.any mine then s else s.updCore n (fun c => { c with fetchWait := none })

/-- FETCH_FILL_COMPLETE (06 R153). -/
def execFetchFillComplete (n : Fin 192) (s : State) : Out := act s (fetchFill n.val)

/-! ### The walker's accesses (07 R194-R197) -/

/-- A walk ends in a fault: WKFCNT; the exception of the access (07 R197, R199).  A table entry that a confidential range bars is a
refusal (15 R423). -/
def State.walkFault (s : State) (n : Nat) (w : Walk) (f : Flt) : State :=
  let s := (s.updCore n (fun c => { c with walk := none })).count (corePage n 0x150)
  let open_ := { s.walkEnv n w.va w.acc w.lv with barred := fun _ => false }
  let s := match f.cause = 0x14 && f.sub / 16 = 4, open_.run w.acc w.lv w.replies with
    | true, .error (.read pa _ _) => s.refuseConf pa (s.core n).part
    | _, _ => s
  if (s.core n).isShadow then s.diverge n else s.raiseExc n (f.exc w.acc.writes w.sz)

/-- A walk whose answers suffice ends: it installs its entry, or faults. -/
def State.walkEnd (s : State) (n : Nat) (w : Walk) : State :=
  match (s.walkEnv n w.va w.acc w.lv).run w.acc w.lv w.replies with
  | .ok e => s.walkDone n w e
  | .error (.fault f) => s.walkFault n w f
  | .error _ => s.updCore n (fun c => { c with walk := some w })

/-- The compare-and-swap of a table entry: a failed compare restarts the walk (07 R194).  A regulator may hold it (07 R215; 03 R59); one
that is lost is an error response (10 R287). -/
def State.walkSwap (s : State) (n : Nat) (w : Walk) (pa : Nat) (old new : W64) : State :=
  let r := benchRtr (n / 8)
  let part := (s.core n).part
  match s.wholeAccess r 0 part pa 8 none with
  | (.held h, _) => s.holdFor (h, part)
  | (.done l bad lost, t) =>
    let t := t.count (corePage n 0x158)
    if lost then t.walkEnd n { w with replies := w.replies ++ [.bus] }
    else if bad || leNat l != old.toNat then t.walkEnd n { w with replies := [] }
    else
      match t.wholeAccess r 0 part pa 8 (some (leBytes 8 new.toNat, false)) with
      | (.held h, _) => s.holdFor (h, part)
      | (.done _ _ lost, t) => t.walkEnd n { w with replies := w.replies ++ [if lost then .bus else .swapped] }

/-- TABLE_READ_RESPONSE: the walk's next access has its answer, and the walk goes on, faults or installs (07 R195-R197). -/
def tableResponse (n : Nat) (s : State) : State :=
  match (s.core n).walk with
  | none => s
  | some w =>
    if w.spec then (s.specWalk n w walkFuel).2
    else
    match (s.walkEnv n w.va w.acc w.lv).run w.acc w.lv w.replies with
    | .error (.read pa _ _) =>
      match s.walkLine n (pa / 64) with
      | (none, s) => s
      | (some (d, p), s) =>
        let v := BitVec.ofNat 64 (leNat (((lineBytes d).drop (pa % 64)).take 8))
        s.walkEnd n { w with replies := w.replies ++ [if p then .poison else .word v] }
    | .error (.swap pa old new) => s.walkSwap n w pa old new
    | _ => s.walkEnd n w

/-- TABLE_READ_RESPONSE (07 R195-R197). -/
def execTableReadResponse (n : Fin 192) (s : State) : Out := act s (fun s => if s.coreRuns n.val then tableResponse n.val s else s)

/-! ### Log lines at a shadow (09 R249, R254) -/

/-- Snapshot lines at the head of the log are taken in until the snapshot is complete (09 R249). -/
def State.takeSnap (s : State) (q : Nat) : Nat → State
  | 0 => s
  | fuel + 1 =>
    let b := (s.core q).bunk
    match b.lines with
    | [] => s
    | l :: _ =>
      if b.halted || snapLength ≤ b.snap.length then s
      else if !l.snap || l.seq != b.expect then s.diverge q
      else ((s.eatSlots q l.slots.length).updBunk q (fun b => { b with snap := b.snap ++ l.slots })).takeSnap q fuel

/-- LOG: a line arrives at the shadow's bench and can be replayed; without a reserved way it has no place and is lost (09 R251, R252,
R254). -/
def logArrive (k : Packet) (s : State) : State :=
  if s.atGate k then s
  else
    let s := s.arrive k
    let q := k.addr.toNat
    let b := (s.core q).bunk
    if !(b.bound && b.shadow && b.partner = k.tag.toNat) || b.halted then s
    else
      let s := if (s.logWay (q / 8)).isSome then s.updBunk q (fun b => { b with lines := b.lines ++ [logLineOf k] }) else s
      if b.loaded then s.pumpLog q false (s.logFuel q) else ((s.takeSnap q (s.logFuel q)).readyShadow q).logOut q

/-- LOG (09 R254). -/
def execLog (k : Packet) (s : State) : Out := act s (logArrive { k with op := opLog })

/-! ### Reads and writes at their targets (10 R269, R271) -/

/-- An access reaches IOC router 3, port 0: the eMRAM or the boot ROM, whose contents no rule gives (02 R23; 15 R407; assumption logs
11, 36). -/
def bootArrive (q : Packet) (s : State) : State :=
  let a := q.addr.toNat
  let s := s.arrive q
  if inEmram a then
    let off := a - 0x3E000000000
    if q.op = opRdNc then
      let r := s.emRead q.part off (readSize q)
      r.2.answerRead q r.1 false
    else ((writeRuns q).foldl (fun s r => s.emWrite q.part (r.1 - 0x3E000000000) r.2) s).answerWrite q
  else if inRom a then
    if q.op = opRdNc then
      s.answerRead q ((List.range (readSize q)).map (fun k => Config.rom (a - 0x3FFF0000000 + k))) false
    else (s.raise (rts 0) 0 (some q.part)).answerWrite q
  else s

/-- A read or write that is not of a whole cached line arrives: at a home slice, a root port, the Parraha ports, the eMRAM or the boot
ROM; elsewhere nothing answers it (10 R269). -/
def targetArrive (q : Packet) (s : State) : State :=
  if s.atGate q then s
  else
    let r := q.dst.toNat
    let p := q.dstp.val
    if (sliceOf r).isSome then atSlice q s
    else if r = 69 ∧ p < 4 then s.pcieArrive p q
    else if r = 70 ∧ p = 0 then s.prlArrive q
    else if r = 71 ∧ p = 0 then bootArrive q s
    else s.arrive q

/-- RD_NC (10 R271). -/
def execRdNc (k : Packet) (s : State) : Out := act s (targetArrive { k with op := opRdNc })
/-- WR_LN (10 R271). -/
def execWrLn (k : Packet) (s : State) : Out := act s (targetArrive { k with op := opWrLn })
/-- WR_PT (10 R271). -/
def execWrPt (k : Packet) (s : State) : Out := act s (targetArrive { k with op := opWrPt })

end Sys2Proof.Machine
end

