-- ==== Sys2Proof/Machine/OzAhead.lean ====
section
/-! DEFINITION. Run-ahead of the Ozhorn-64 (06 R169-R178).  One entry command carries the instructions that issue in the episode, in
program order along the predicted path. -/

namespace Sys2Proof.Machine

/-! ### Register instructions by operation -/

/-- What a register instruction computes, for those that only compute. -/
def aluFn (op : OzOp) : Option (Insn → W64 → Core → CEff) :=
  match op with
  | .add => some addFn | .sub => some subFn | .adc => some adcFn | .sbc => some sbcFn
  | .and => some andFn | .or => some orFn | .xor => some xorFn | .andn => some andnFn
  | .shl => some shlFn | .shr => some shrFn | .sar => some sarFn | .ror => some rorFn
  | .mul => some mulFn | .mulhu => some mulhuFn | .mulhs => some mulhsFn | .mov => some movFn
  | .cmp => some cmpFn | .tst => some tstFn | .csel => some cselSem | .sxt => some sxtSem
  | .clz => some clzFn | .ctz => some ctzFn | .popc => some popcFn | .bswap => some bswapFn
  | .lea => some leaSem | .nop => some nopFn
  | .divInit => some divInitFn | .divInits => some divInitsFn | .dstep => some dstepFn | .divFin => some divFinFn
  | .fadd => some faddFn | .fsub => some fsubFn | .fmul => some fmulFn | .fdiv => some fdivFn
  | .fsqrt => some fsqrtFn | .fmin => some fminFn | .fmax => some fmaxFn
  | .fma => some fmaFn | .fms => some fmsFn | .fnma => some fnmaFn
  | .fabs => some fabsFn | .fneg => some fnegFn | .fcmp => some fcmpSem | .frint => some frintFn
  | .fcvt => some fcvtSem | .scvtf => some scvtfSem | .fcvtzs => some fcvtzsSem | .fmv => some fmvSem
  | .vadd => some vaddFn | .vsub => some vsubFn | .vmul => some vmulFn | .vand => some vandFn
  | .vor => some vorFn | .vxor => some vxorFn | .vandn => some vandnFn
  | .vshl => some vshlFn | .vshr => some vshrFn | .vsar => some vsarFn
  | .vmin => some vminFn | .vmax => some vmaxFn | .vminu => some vminuFn | .vmaxu => some vmaxuFn
  | .vcmpeq => some vcmpeqFn | .vcmpgt => some vcmpgtFn
  | .vdup => some vdupSem | .vext => some vextSem | .vins => some vinsSem
  | _ => none

/-! ### INV bits (06 R171) -/

/-- INV bit of an f register; of the flags, and of the divide bits. -/
def invF (i : Nat) : Nat := 32 + i
def invFlags : List Nat := [64, 65, 66, 67]
def invDiv : Nat := 71

/-- Flags from four Booleans. -/
def flagsOf (x : Nat) : Nzcv := ⟨x.testBit 0, x.testBit 1, x.testBit 2, x.testBit 3⟩

/-- The INV bits of the flags that a condition depends on. -/
def condNeeds (code : Nat) : List Nat :=
  (List.range 4).filterMap (fun k =>
    if (List.range 16).any (fun x => condHolds code (flagsOf x) != condHolds code (flagsOf (x ^^^ 2 ^ k))) then some (64 + k) else none)

/-- The second source of an integer operation. -/
def Insn.needB (i : Insn) : List Nat := if i.hasImm then [] else [i.b]

/-- The INV bits of a register instruction's sources. -/
def Insn.needs (i : Insn) : List Nat :=
  match i.op with
  | .mov => i.needB
  | .sxt | .clz | .ctz | .popc | .bswap => [i.b]
  | .adc | .sbc => i.c :: 66 :: i.needB
  | .csel => [i.b, i.c] ++ condNeeds (i.byte % 16)
  | .lea => (if i.b = 0 then [] else [i.b]) ++ (if i.pfx.ext.isSome then [i.c] else [])
  | .nop => []
  | .divInit | .divInits => [i.a, i.b]
  | .dstep | .divFin => [i.a, i.b, i.c, invDiv]
  | .fma | .fms | .fnma => [invF i.a, invF i.b, invF i.c]
  | .fsqrt | .fabs | .fneg | .frint | .fcvt | .fcvtzs | .vdup | .vext => [invF i.b]
  | .scvtf => [i.b]
  | .fmv => if i.opc = 0x14 then [i.b] else [invF i.b]
  | .vins => [invF i.a, i.b]
  | .fadd | .fsub | .fmul | .fdiv | .fmin | .fmax | .fcmp | .vadd | .vsub | .vmul | .vand | .vor | .vxor | .vandn | .vshl | .vshr
  | .vsar | .vmin | .vmax | .vminu | .vmaxu | .vcmpeq | .vcmpgt => [invF i.b, invF i.c]
  | _ => i.c :: i.needB

/-- The INV bits of its destinations. -/
def Insn.gives (i : Insn) : List Nat :=
  match i.op with
  | .cmp | .tst | .fcmp => invFlags
  | .nop => []
  | .divInit | .divInits | .dstep | .divFin => [i.a, i.c, invDiv]
  | .fcvtzs | .vext => [i.a]
  | .fmv => if i.opc = 0x14 then [invF i.a] else [i.a]
  | .fadd | .fsub | .fmul | .fdiv | .fsqrt | .fmin | .fmax | .fma | .fms | .fnma | .fabs | .fneg | .frint | .fcvt | .scvtf | .vdup
  | .vins | .vadd | .vsub | .vmul | .vand | .vor | .vxor | .vandn | .vshl | .vshr | .vsar | .vmin | .vmax | .vminu | .vmaxu
  | .vcmpeq | .vcmpgt | .fld | .vld => [invF i.a]
  | _ => i.a :: (if i.flags then invFlags else [])

/-- Mark destinations valid or INV; g0 is always valid. -/
def markInv (inv l : List Nat) (bad : Bool) : List Nat :=
  let rest := inv.filter (fun x => !l.contains x)
  if bad then rest ++ l.filter (fun x => x != 0) else rest

/-! ### An episode -/

/-- A run-ahead in the making: the block, the registers that run-ahead computes on, the INV bits, the store cache, the counts, and
whether issue has stopped. -/
structure Ahead where
  s : State
  c : Core
  inv : List Nat
  stores : List (SbEntry × Bool)
  count : Nat := 0
  fetched : Nat := 0
  dropped : Nat := 0
  /-- Blocks that fetch has read on this path. -/
  seen : List W64 := []
  stop : Bool := false

/-- Is any of these INV? -/
def Ahead.bad (a : Ahead) (l : List Nat) : Bool := l.any (fun x => a.inv.contains x)

/-- An instruction issued, and the next one follows. -/
def Ahead.went (a : Ahead) (seq : W64) : Ahead := { a with c := a.c.loopBack seq, count := a.count + 1 }

/-- The same after a taken branch. -/
def Ahead.goTo (a : Ahead) (t : W64) : Ahead := { a with c := { a.c with pc := t }, count := a.count + 1, seen := [] }

/-- An instruction issued after which issue stops. -/
def Ahead.last (a : Ahead) : Ahead := { a with count := a.count + 1, stop := true }

/-- A register instruction: an INV source or an FP assist gives INV results; FPCTL flags are not set (06 R171). -/
def Ahead.compute (a : Ahead) (i : Insn) (seq : W64) (f : Insn → W64 → Core → CEff) : Ahead :=
  let bad := a.bad i.needs
  let r := if bad then none
    else match f i seq a.c with
      | .ok c => some c
      | .error _ => none
  match r with
  | some c => { a with c := c.setSys 1 (a.c.sysReg 1), inv := markInv a.inv i.gives false }.went seq
  | none => { a with inv := markInv a.inv i.gives true }.went seq

/-- A value read from the block: an exception stops issue before the instruction. -/
def Ahead.observe (a : Ahead) (n : Nat) (i : Insn) (seq : W64) (f : Nat → Insn → State → Except Exc W64) : Ahead :=
  match f n i (a.s.setCore n a.c) with
  | .error _ => { a with stop := true }
  | .ok v => { a with c := a.c.setG i.a v, inv := markInv a.inv [i.a] false }.went seq

/-- The INV bits of an address. -/
def Insn.addrNeeds (i : Insn) : List Nat :=
  match i.op with
  | .amoswp | .amoadd | .amoand | .amoor | .amoxor | .amomin | .amomax | .cas => [i.b]
  | _ => (if i.b = 0 then [] else [i.b]) ++ (if i.pfx.ext.isSome then [i.c] else [])

/-- Is the operation an atomic? -/
def OzOp.atomic (op : OzOp) : Bool :=
  match op with
  | .amoswp | .amoadd | .amoand | .amoor | .amoxor | .amomin | .amomax | .cas => true
  | _ => false

/-- Is the operation a load? -/
def OzOp.isLoad (op : OzOp) : Bool :=
  match op with
  | .ld | .ldx | .fld | .vld => true
  | _ => false

/-- Bytes of a memory instruction. -/
def Insn.memBytes (i : Insn) : Nat :=
  match i.op with
  | .fld | .fst => i.fpBytes
  | .vld | .vst => 16
  | _ => i.bytes

/-- The access of a memory instruction of a core. -/
def Insn.access (i : Insn) (seq : W64) (c : Core) : MemAcc :=
  { va := if i.op.atomic then c.gr i.b else i.ea seq c, len := i.memBytes,
    acc := if i.op.atomic || i.op.isLoad then .read else .write,
    strict := i.op.atomic || i.ordIs 3 }

/-- Where a run-ahead access lies: none where it would fault, needs a walk that does not end now, is refused, meets a clean entry for a
store, or lies in memory that the caches do not serve (06 R171, R174; 07 R207; 15 R423).  `fuel` bounds the walks. -/
def Ahead.find (a : Ahead) (n : Nat) (m : MemAcc) (anyType : Bool) : Nat → Option (List Part) × Ahead
  | 0 => (none, a)
  | fuel + 1 =>
    match a.s.placeParts n m false m.pages with
    | (.ok ps, s) => (if ps.all (fun p => !p.refused && (anyType || s.cached p.mt p.pa)) then some ps else none, { a with s := s })
    | (.exc _ _, s) => (none, { a with s := s })
    | (.walk va, s) =>
      if m.acc = .write && s.hitsClean n va a.c.level.val then (none, { a with s := s })
      else
        match s.walkAhead n va m.acc a.c.level.val with
        | (true, s) => Ahead.find { a with s := s } n m anyType fuel
        | (false, s) => (none, { a with s := s })

/-- The lines of a list of parts. -/
def partLines (ps : List Part) : List Nat := ps.flatMap (fun p => (linePieces p.pa p.len).map (fun q => q.1 / 64))

/-- A read in speculation of a line that the L1D does not hold: it comes from the L2, unless another L1D of the bench may write it, or home
is asked for it (06 R171, R176-R178). -/
def State.specRead (s : State) (n line hint : Nat) : State :=
  let b := n / 8
  if !s.l2Up b then s
  else
    let s := s.checkL2 b line
    if s.setDead (corePage n 0) 2 (l1dSet line) || s.setDead (benchPage b 0 0) 2 (l2Set line) then s
    else
      let mine := (benchCores b).all (fun j => match s.l1dLine j line with
        | some l => l.st = .s
        | none => true)
      match s.l2Line b line with
      | some l => if l.tagOnly || !mine then s.lookL2 b true else (s.lookL2 b true).l1FromL2 n line 2
      | none => if (s.evLine b line).isSome then s.lookL2 b true else s.missL2 n line false false hint 0 false

/-- A read prefetch of a line that the L1D does not hold (06 R171). -/
def Ahead.prefetch (a : Ahead) (n line hint : Nat) : Ahead :=
  if (a.s.l1dLine n line).isSome then a else { a with s := a.s.specRead n line hint, fetched := a.fetched + 1 }

/-- A look at the L1D for parts of a load: errors there are found as by any read (06 R178).  None where a line is missing or poisoned. -/
def State.peekL1 (s : State) (n : Nat) (ps : List Part) : Option (List Byte) × State :=
  let s := (partLines ps).foldl (fun s l => s.checkL1d n l) s
  ((ps.flatMap (fun p => linePieces p.pa p.len)).foldl
    (fun (acc : Option (List Byte)) q =>
      match acc, s.l1dLine n (q.1 / 64) with
      | some l, some x => if x.poison then none else some (l ++ ((lineBytes x.data).drop (q.1 % 64)).take q.2)
      | _, _ => none) (some []), s)

/-- What the store cache and the store buffer give for a load in one page: the data, and whether it is INV; the youngest entry that holds
all its bytes gives it (06 R171, R172). -/
def Ahead.forward (a : Ahead) (n : Nat) (p : Part) : Forward × Bool :=
  match (a.stores.filter (fun e => e.1.holdsAll p.pa p.len)).getLast? with
  | some (e, bad) => (.data (e.slice p.pa p.len), bad)
  | none =>
    if a.stores.any (fun e => e.1.overlaps p.pa p.len) then (.partly, false)
    else
      let sb := (a.s.core n).sb
      match (sb.filter (fun e => e.holdsAll p.pa p.len)).getLast? with
      | some e => (.data (e.slice p.pa p.len), false)
      | none => (if sb.any (fun e => e.overlaps p.pa p.len) then .partly else .none, false)

/-- The same for a load that may cross a page. -/
def Ahead.forwardAll (a : Ahead) (n : Nat) (ps : List Part) : Forward × Bool :=
  match ps with
  | [p] => a.forward n p
  | [p, q] =>
    match forwardTwo (a.stores.map Prod.fst) p q with
    | .none => (forwardTwo (a.s.core n).sb p q, false)
    | x => (x, a.stores.any (fun e => e.2 && (e.1.overlaps p.pa p.len || e.1.overlaps q.pa q.len)))
  | _ => (.none, false)

/-- A load in run-ahead; the result of an atomic is INV (06 R171). -/
def Ahead.load (a : Ahead) (n : Nat) (i : Insn) (seq : W64) (put : Insn → List Byte → Core → Core) : Ahead :=
  let lost := fun (a : Ahead) => { a with inv := markInv a.inv i.gives true }.went seq
  let none_ := fun (a : Ahead) => lost { a with dropped := a.dropped + 1 }
  let won := fun (a : Ahead) (l : List Byte) (bad : Bool) =>
    if bad || i.op.atomic then lost a else { a with c := put i l a.c, inv := markInv a.inv i.gives false }.went seq
  if a.bad i.addrNeeds then none_ a
  else
    match a.find n (i.access seq a.c) false 3 with
    | (none, a) => none_ a
    | (some ps, a) =>
      match a.forwardAll n ps with
      | (.data l, bad) => won a l bad
      | (.partly, _) => none_ a
      | (.none, _) =>
        match a.s.peekL1 n ps with
        | (some l, s) => won { a with s := s } l false
        | (none, s) => lost ((partLines ps).foldl (fun (a : Ahead) l => a.prefetch n l i.hintCode) { a with s := s })

/-- The store cache holds 64 stores; the oldest goes (06 R172). -/
def capStores (l : List (SbEntry × Bool)) : List (SbEntry × Bool) :=
  if (l.filter (fun e => !e.1.upper)).length ≤ 64 then l
  else (l.drop 1).dropWhile (fun e => e.1.upper)

/-- A store in run-ahead: into the store cache of 64 entries, with a prefetch (06 R171, R172). -/
def Ahead.store (a : Ahead) (n : Nat) (i : Insn) (seq : W64) (data : Insn → Core → List Byte) : Ahead :=
  if a.bad i.addrNeeds then a.went seq
  else
    match a.find n (i.access seq a.c) true 3 with
    | (none, a) => a.went seq
    | (some ps, a) =>
      let bad := a.bad [if i.op = .st then i.a else invF i.a]
      let es := (sbOf a.c.part 0 ps (data i a.c)).map (fun e => (e, bad))
      let l := a.stores ++ es
      let lines := partLines (ps.filter (fun p => a.s.cached p.mt p.pa))
      (lines.foldl (fun (a : Ahead) l => a.prefetch n l i.hintCode) { a with stores := capStores l }).went seq

/-- Does the prediction take a conditional branch (06 R163)? -/
def Ahead.predicts (a : Ahead) (n : Nat) : Bool := bitOf a.c.pl 0 && !a.s.pclrb n && decide (2 ≤ (a.c.counter a.c.pc).toNat)

/-- A conditional branch: resolved where its sources are valid, else as predicted. -/
def Ahead.branch (a : Ahead) (n : Nat) (needs : List Nat) (taken : Bool) (t seq : W64) : Ahead :=
  let go := if a.bad needs then a.predicts n else taken
  if go then a.goTo t else a.went seq

/-- A return: with an INV target it follows the return stack, and without a prediction it is a JR (06 R164, R171).  One whose target is
not known issues, and issue stops. -/
def Ahead.ret (a : Ahead) : Ahead :=
  let used := bitOf a.c.pl 1
  let top := if used then a.c.rstack.head? else none
  let b := if used then { a with c := { a.c with rstack := a.c.rstack.drop 1 } } else a
  if a.bad [27] then
    match top with
    | some t => b.goTo t
    | none => a.last
  else b.goTo (a.c.gr 27)

/-- A call through a register; JR is the same without a link (06 R171). -/
def Ahead.jump (a : Ahead) (i : Insn) (seq : W64) (link : Bool) : Ahead :=
  if a.bad [i.b] then a.last
  else
    let t := a.c.gr i.b
    if !link then a.goTo t
    else
      let c := a.c.setG i.a seq
      { a with c := if i.a = 27 then c.pushReturn seq else c, inv := markInv a.inv [i.a] false }.goTo t

/-- LOOP with a valid count. -/
def Ahead.loop (a : Ahead) (i : Insn) (seq : W64) : Ahead :=
  if a.bad [i.a] then a.last
  else
    let k := a.c.gr i.a
    let t := i.dest seq
    let c := (((a.c.setSys 3 seq).setSys 4 t).setSys 2 k).setSys 0 (putBit a.c.status 8 (decide (k ≠ 0)))
    { a with c := c }.goTo (if k = 0 then t else seq)

/-- One instruction in run-ahead; serialising instructions, CMO, CMOSW and TLBI stop issue before them (04 R113; 06 R171). -/
def Ahead.insn (a : Ahead) (n : Nat) (i : Insn) (seq : W64) : Ahead :=
  match i.op with
  | .ld => a.load n i seq ldPut
  | .ldx => a.load n i seq ldxPut
  | .fld | .vld => a.load n i seq fldPut
  | .amoswp | .amoadd | .amoand | .amoor | .amoxor | .amomin | .amomax | .cas => a.load n i seq ldPut
  | .st => a.store n i seq stData
  | .fst => a.store n i seq fstData
  | .vst => a.store n i seq vstData
  | .bc => a.branch n (condNeeds (i.b % 16)) (condHolds (i.b % 16) (nzcvOf a.c.status)) (i.dest seq) seq
  | .cbz => a.branch n [i.a] (decide (a.c.gr i.a = 0)) (i.dest seq) seq
  | .cbnz => a.branch n [i.a] (decide (a.c.gr i.a ≠ 0)) (i.dest seq) seq
  | .b => a.goTo (i.dest seq)
  | .bl => { a with c := (a.c.setG 27 seq).pushReturn seq, inv := markInv a.inv [27] false }.goTo (i.dest seq)
  | .jr => a.jump i seq false
  | .jlr => a.jump i seq true
  | .ret => a.ret
  | .loop => a.loop i seq
  | .mfs =>
    let from_ := match i.sysNo with
      | 0 => invFlags ++ [invDiv]
      | _ => []
    if a.bad from_ then { a with inv := markInv a.inv [i.a] true }.went seq else a.observe n i seq mfsValue
  | .rdfeat => a.observe n i seq rdfeatValue
  | .rdtime => a.observe n i seq rdtimeValue
  | .rdfrm => a.observe n i seq rdfrmValue
  | .rdwin => a.observe n i seq rdwinValue
  | op =>
    match aluFn op with
    | some f => a.compute i seq f
    | none => { a with stop := true }

/-- Fetch the block that holds `va`: whether issue goes on.  A fault, poison or a walk that does not end now stops it; a block whose line
is on its way has come by the time its instructions issue (06 R152, R153, R171; assumption log 61). -/
def Ahead.block (a : Ahead) (n : Nat) (va : W64) : Nat → Bool × Ahead
  | 0 => (false, a)
  | fuel + 1 =>
    if a.seen.contains (blockOf va) then (true, a)
    else
      let walks := (a.s.core n).walk.isSome
      match (a.s.updCore n (fun c => { c with queue := [], fetchWait := none })).fetchBlock n va false with
      | (.exc _, s) => (false, { a with s := s })
      | (.ok, s) =>
        let bad := (s.core n).queue.any (·.poison)
        (!bad, { a with s := s, seen := blockOf va :: a.seen })
      | (.wait, s) =>
        if (s.core n).fetchWait.isSome then (true, { a with s := s, seen := blockOf va :: a.seen })
        else if walks || (s.core n).walk.isSome || s.reg (corePage n 0x14C) = a.s.reg (corePage n 0x14C) then (false, { a with s := s })
        else Ahead.block { a with s := s } n va fuel

/-- Fetch the bytes of an instruction at the scratch PC. -/
def Ahead.fetches (a : Ahead) (n len : Nat) : Bool × Ahead :=
  let pc := a.c.pc
  match a.block n pc 2 with
  | (false, a) => (false, a)
  | (true, a) => if pc.toNat % 16 + len ≤ 16 then (true, a) else a.block n (blockOf pc + 16) 2

/-- The instructions of an episode; issue stops after number 512 (06 R170). -/
def Ahead.run (n : Nat) : List (List Byte) → Ahead → Ahead
  | [], a => a
  | b :: rest, a =>
    if a.stop || 512 ≤ a.count then { a with stop := true }
    else
      match ozDecode b with
      | .ok i =>
        match a.fetches n i.len with
        | (true, a) => Ahead.run n rest (a.insn n i (a.c.pc + BitVec.ofNat 64 i.len))
        | (false, a) => { a with stop := true }
      | _ => { a with stop := true }

/-- Is the operation serialising (04 R113)? -/
def OzOp.serialising (op : OzOp) : Bool :=
  match op with
  | .fence | .tlbsync | .wait | .reti | .pswitch | .mts | .svc | .hvc | .mvc | .brk => true
  | _ => false

/-- Does the instruction at IS, if there is one, forbid the entry (06 R169)? -/
def headSerialises : List (List Byte) → Bool
  | b :: _ => (match ozDecode b with
    | .ok i => i.op.serialising
    | _ => false)
  | [] => false

/-- The lines of a core's load whose data has not come. -/
def State.lacks (s : State) (n : Nat) (lines : List Nat) : List Nat :=
  lines.filter (fun l => s.coh.misses.any (fun m => m.core == n && m.line == l && !m.fetch && m.hint < 4 && m.got.isNone))

/-- The lines that the load waits for, where it is a load to normal write-back memory that misses (06 R169). -/
def State.missing (s : State) (n : Nat) (i : Insn) : List Nat :=
  let c := s.core n
  let m := i.access (c.pc + BitVec.ofNat 64 i.len) c
  if !(i.op.isLoad || i.op.atomic) then []
  else
    match (s.placeParts n m false m.pages).1 with
    | .ok ps => if ps.all (fun p => !p.refused && s.cached p.mt p.pa) then s.lacks n (partLines ps) else []
    | _ => []

/-- The registers with which run-ahead begins, and what it then does (06 R169, R170). -/
def State.enterAhead (s : State) (n : Nat) (i : Insn) (lines : List Nat) (prog : List (List Byte)) : State :=
  let c := s.core n
  let s := s.count (corePage n 0x120)
  let own := c.queue.filter (fun b => b.va = blockOf c.pc || b.va = blockOf (c.pc + BitVec.ofNat 64 (i.len - 1)))
  let a : Ahead :=
    { s := s, c := c.loopBack (c.pc + BitVec.ofNat 64 i.len), inv := markInv [] i.gives true, stores := [], seen := c.queue.map (·.va) }
  let a := Ahead.run n prog a
  let s := ((a.s.count (corePage n 0x124) a.count).count (corePage n 0x128) a.fetched).count (corePage n 0x12C) a.dropped
  let s := if a.count = 512 then s.count (corePage n 0x130) else s
  s.updCore n (fun c => { c.redirect with
    queue := own
    ra := some { lines := lines, inv := a.inv, stores := a.stores, count := a.count, stopped := a.stop } })

/-- RUN_AHEAD_ENTRY: the oldest instruction of core `n` is the load that `b` encodes, and `prog` follows it (06 R169-R174). -/
def aheadEntry (n : Nat) (b : List Byte) (prog : List (List Byte)) (s : State) : State :=
  let c := s.core n
  if !s.mayIssue n || c.isShadow || c.raDone || !bitOf c.pl 2 || headSerialises prog || s.time = s.tickInstant (n / 48) then s
  else
    match ozDecode b with
    | .ok i =>
      let lines := s.missing n i
      if lines.isEmpty then s else s.enterAhead n i lines prog
    | _ => s

/-- RUN_AHEAD_ENTRY (06 R169). -/
def execRunAheadEntry (n : Fin 192) (b : List Byte) (prog : List (List Byte)) (s : State) : Out := act s (aheadEntry n.val b prog)

/-- RUN_AHEAD_EXIT: every line of the load has come, or has timed out: the episode is discarded (06 R175). -/
def aheadExit (n : Nat) (s : State) : State :=
  match (s.core n).ra with
  | none => s
  | some r =>
    if (s.lacks n r.lines).isEmpty then s.updCore n (fun c => { c with ra := none, raDone := true, fetchWait := none, stuck := false }) else s

/-- RUN_AHEAD_EXIT (06 R175). -/
def execRunAheadExit (n : Fin 192) (s : State) : Out := act s (aheadExit n.val)

end Sys2Proof.Machine
end

