-- ==== Sys2Proof/Machine/Stl.lean ====
section
/-! DEFINITION. The Lintos management engines (16 R431-R462): encoding, accesses, instructions, interrupts, exceptions, lockstep of
the chip stools. -/

namespace Sys2Proof.Machine

/-! ### Encoding (R434-R437) -/

/-- A decoded instruction: opcode byte, prefixes, operand bytes as a number, length. -/
structure StlInsn where
  op : Nat
  w : Nat
  bank : Option Byte
  long : Bool
  imm : Nat
  len : Nat
  deriving DecidableEq, Repr

/-- What decoding answers; an illegal instruction with the number of bytes examined. -/
inductive StlDec where
  | short
  | ill (n : Nat)
  | ok (i : StlInsn)
  deriving DecidableEq, Repr

/-- Prefixes read so far: width (0: none), bank, LONG. -/
structure StlPfx where
  w : Nat := 0
  bank : Option Byte := none
  long : Bool := false

/-- Operand bytes of an opcode; `long` matters in mode IMM (R435, R437). -/
def stlOperands (op : Nat) (long : Bool) : Nat :=
  if op < 0x50 then
    (match op % 8 with
      | 0 => if long then 4 else 2
      | 1 => 2 | 2 => 2 | 3 => 2 | 4 => 0 | 5 => 0 | 6 => 1 | _ => 3)
  else if op ≤ 0x55 ∨ op = 0x5A ∨ op = 0x5B ∨ op = 0x79 ∨ op = 0x7B then 2
  else if op = 0x64 ∨ (0x70 ≤ op ∧ op ≤ 0x78) ∨ (0x88 ≤ op ∧ op ≤ 0x8A) ∨ op = 0x8D then 1
  else if op = 0x7A ∨ op = 0x7C then 3
  else 0

/-- Does an opcode exist and accept these prefixes (R434-R437)? -/
def stlAccepts (op : Nat) (p : StlPfx) : Bool :=
  decide (op ≤ 0x8D) && op != 0x08
    && (p.w = 0 || decide (op < 0x50))
    && (p.bank.isNone || (decide (op < 0x50) && decide (1 ≤ op % 8 ∧ op % 8 ≤ 5)) || op = 0x51 || op = 0x52 || op = 0x54 || op = 0x55)
    && (!p.long || (decide (op < 0x50) && op % 8 = 0 && p.w = 0))

/-- Decode from byte `n` on, with the prefixes before it; `fuel` bounds the prefixes. -/
def stlDecodeFrom (bytes : List Byte) (p : StlPfx) (n : Nat) : Nat → StlDec
  | 0 => .ill n
  | fuel + 1 =>
    match bytes with
    | [] => .short
    | b :: rest =>
      match b.toNat with
      | 0xF0 => if p.w ≠ 0 then .ill (n + 1) else stlDecodeFrom rest { p with w := 8 } (n + 1) fuel
      | 0xF1 => if p.w ≠ 0 then .ill (n + 1) else stlDecodeFrom rest { p with w := 16 } (n + 1) fuel
      | 0xF2 =>
        if p.bank.isSome then .ill (n + 1)
        else
          match rest with
          | [] => .short
          | k :: rest => stlDecodeFrom rest { p with bank := some k } (n + 2) fuel
      | 0xF3 => if p.long then .ill (n + 1) else stlDecodeFrom rest { p with long := true } (n + 1) fuel
      | op =>
        if !stlAccepts op p then .ill (n + 1)
        else
          let k := stlOperands op p.long
          if rest.length < k then .short
          else .ok ⟨op, if p.w = 0 then 32 else p.w, p.bank, p.long, leNat (rest.take k), n + 1 + k⟩

/-- Decode an instruction (R434). -/
def stlDecode (bytes : List Byte) : StlDec := stlDecodeFrom bytes {} 0 5

/-! ### Engine-local registers (R446, R454) -/

/-- Reset value of an engine-local register. -/
def lregReset (o : Nat) : W32 := if o = 8 then 0xFA0 else 0

def Stool.lr (t : Stool) (o : Nat) : W32 := SMap.get (lregReset o) t.lreg o
def Stool.setLr (t : Stool) (o : Nat) (v : W32) : Stool := { t with lreg := SMap.set (lregReset o) t.lreg o v }

/-- ESUM bit `k`: some bit of the level is pending and enabled. -/
def Stool.levelOn (t : Stool) (k : Nat) : Bool :=
  (t.lr (0x20 + 8 * k) &&& t.lr (0x40 + 8 * k)) != 0 || (t.lr (0x24 + 8 * k) &&& t.lr (0x44 + 8 * k)) != 0

/-- A load of an engine-local register; offsets without one read 0. -/
def Stool.readLr (t : Stool) (o : Nat) : W32 :=
  if o = 0x18 then BitVec.ofNat 32 ((List.range 4).foldl (fun a k => a + b2n (t.levelOn k) * 2 ^ k) 0)
  else if o < 0x60 then t.lr o
  else 0

/-- A store to an engine-local register: CNTO refuses values out of range (R444); EPEND is W1C. -/
def Stool.writeLr (t : Stool) (o : Nat) (v : W32) : Stool :=
  if o = 0 then t.setLr 0 (v &&& 1)
  else if o = 4 then t.setLr 4 (v &&& 0x1F)
  else if o = 8 then (let n := fieldOf v 0 22; if n < 40 ∨ 4000000 < n then t else t.setLr 8 (v &&& 0x3FFFFF))
  else if 0x20 ≤ o ∧ o < 0x40 then t.setLr o (t.lr o &&& ~~~v)
  else if 0x40 ≤ o ∧ o < 0x60 then t.setLr o v
  else t

/-! ### Accesses (R432, R433, R443) -/

/-- How the control window answers while an instruction runs: the page does; as the lockstep partner saw it; the timeout has
expired; or the run only looks for the access. -/
inductive StlWin where
  | live | echo (v : Nat) | expired | seek
  deriving DecidableEq, Repr

/-- An instruction in progress: the block, the engine's registers, the accesses made (address, bytes, data of a write), and what the
control window answered. -/
structure StlRun where
  s : State
  t : Stool
  trace : List (Nat × Nat × Option Nat) := []
  seen : Option Nat := none

/-- What an instruction comes to: it completes; it raises an exception, with the data address of BUS and SRAM; or its control-window
access at a 24-bit address has no answer. -/
inductive StlRes where
  | ok (r : StlRun)
  | exc (cause : Nat) (adr : Option Nat) (r : StlRun)
  | held (a : Nat) (r : StlRun)

/-- The control-space offset of a window address (R443). -/
def State.stlCtl (s : State) (k a : Nat) : Nat := fieldOf ((s.stool k).lr 4) 0 5 * 8388608 + a % 8388608

/-- An access to the control window, a write where `d` holds data (R443, R444). -/
def stlWindow (w : StlWin) (k a n : Nat) (d : Option Nat) (r : StlRun) (f : Nat → StlRun → StlRes) : StlRes :=
  match w with
  | .echo v => f v r
  | .expired => f 0 r
  | .seek => .held a r
  | .live =>
    let s := r.s.force (stoolPage k 0) 1
    let c := s.stlCtl k a
    let t := s.ctlTravel none (nodePath (stoolNode k) (((pageOf c).map Page.node).getD 0))
    let s := t.2
    let x := if t.1 then none else match d with
      | some v => s.ctlWrite1 (192 + k) 0 (s.stlCtl k a) n v
      | none => s.ctlRead1 (192 + k) (s.stlCtl k a) n
    match x with
    | some (v, s) => f v { r with s := s, seen := some v }
    | none => .held a { r with s := if t.1 then s else s.fenceCtl c }

/-- A load of `n` bytes (R432, R433). -/
def stlRead (w : StlWin) (k a n : Nat) (r : StlRun) (f : Nat → StlRun → StlRes) : StlRes :=
  let r := { r with trace := r.trace ++ [(a, n, none)] }
  if a % n ≠ 0 then .exc 2 (some a) r
  else if a < 0x40000 then
    let x := r.s.sramRead k a n
    if x.1 then .exc 3 (some a) { r with s := x.2.2 } else f (leNat x.2.1) { r with s := x.2.2 }
  else if a < 0x40100 ∧ n = 4 then f ((r.s.stool k).readLr (a - 0x40000)).toNat r
  else if 0x800000 ≤ a ∧ a < 0x1000000 then stlWindow w k a n none r f
  else .exc 2 (some a) r

/-- A store of `n` bytes (R432, R433). -/
def stlWrite (w : StlWin) (k a n v : Nat) (r : StlRun) (f : StlRun → StlRes) : StlRes :=
  let v := v % 2 ^ (8 * n)
  let r := { r with trace := r.trace ++ [(a, n, some v)] }
  if a % n ≠ 0 then .exc 2 (some a) r
  else if a < 0x40000 then f { r with s := r.s.sramWrite k a (leBytes n v) }
  else if a < 0x40100 ∧ n = 4 then
    f { r with s := r.s.setStool k ((r.s.stool k).writeLr (a - 0x40000) (BitVec.ofNat 32 v)) }
  else if 0x800000 ≤ a ∧ a < 0x1000000 then stlWindow w k a n (some v) r (fun _ r => f r)
  else .exc 2 (some a) r

/-- Push `n` bytes on the stack in bank 0 (R433). -/
def stlPush (w : StlWin) (k n v : Nat) (r : StlRun) (f : StlRun → StlRes) : StlRes :=
  let sp := r.t.sp - BitVec.ofNat 16 n
  stlWrite w k sp.toNat n v { r with t := { r.t with sp := sp } } f

/-- Pop `n` bytes. -/
def stlPop (w : StlWin) (k n : Nat) (r : StlRun) (f : Nat → StlRun → StlRes) : StlRes :=
  stlRead w k r.t.sp.toNat n r (fun v r => f v { r with t := { r.t with sp := r.t.sp + BitVec.ofNat 16 n } })

/-! ### Flags (R431, R436) -/

/-- C, Z, N and V of F as the flags of an operation. -/
def Stool.nzcv (t : Stool) : Nzcv := ⟨bitOf t.f 2, bitOf t.f 1, bitOf t.f 0, bitOf t.f 3⟩

/-- F with C, Z, N and V written. -/
def Stool.putFlags (t : Stool) (x : Nzcv) : Stool :=
  { t with f := putField t.f 0 4 (b2n x.c + 2 * b2n x.z + 4 * b2n x.n + 8 * b2n x.v) }

/-- F with N and Z of a `w`-bit result; C and V kept. -/
def Stool.putNZ (t : Stool) (w x : Nat) : Stool := t.putFlags ⟨x.testBit (w - 1), x = 0, t.nzcv.c, t.nzcv.v⟩

def Stool.pl (t : Stool) : Nat := fieldOf t.f 5 3

/-! ### Instructions -/

/-- What an instruction does: `r.t.pc` already is the next PC. -/
abbrev StlSem := StlInsn → StlWin → Nat → StlRun → StlRes

/-- An instruction that only computes on registers. -/
def stlPure (f : StlInsn → Stool → Stool) : StlSem := fun i _ _ r => .ok { r with t := f i r.t }

/-- The address of M (R435); mode IMM has none. -/
def StlInsn.addr (i : StlInsn) (t : Stool) : Nat :=
  let bk := 65536 * (i.bank.getD t.bk).toNat
  match i.op % 8 with
  | 1 => bk + i.imm
  | 2 => bk + (i.imm + t.x.toNat) % 65536
  | 3 => bk + (i.imm + t.y.toNat) % 65536
  | 4 => bk + t.x.toNat
  | 5 => bk + t.y.toNat
  | 6 => (t.sp.toNat + i.imm) % 65536
  | _ => i.imm

/-- The operand of mode IMM at the width (R436). -/
def StlInsn.immediate (i : StlInsn) : Nat :=
  if i.long then i.imm
  else if i.w = 32 then (BitVec.ofInt 32 (sextNat i.imm 16)).toNat
  else i.imm % 2 ^ i.w

/-- A matrix operation that reads M (R436). -/
def stlAlu (f : Nat → Nat → Nat → Stool → Stool) : StlSem := fun i w k r =>
  if i.op % 8 = 0 then .ok { r with t := f i.w (r.t.a.toNat % 2 ^ i.w) i.immediate r.t }
  else stlRead w k (i.addr r.t) (i.w / 8) r (fun m r => .ok { r with t := f i.w (r.t.a.toNat % 2 ^ i.w) m r.t })

/-- A result into A, zero-extended, with its flags. -/
def Stool.putA (t : Stool) (x : AluRes) : Stool := { t with a := BitVec.ofNat 32 x.val }.putFlags x.flags

/-- The matrix operations (R436). -/
def stlLdSem : StlSem := stlAlu (fun w _ m t => { t with a := BitVec.ofNat 32 m }.putNZ w m)
def stlStSem : StlSem := fun i w k r => stlWrite w k (i.addr r.t) (i.w / 8) (r.t.a.toNat % 2 ^ i.w) r .ok
def stlAddSem : StlSem := stlAlu (fun w a m t => t.putA (addRes w a m false))
def stlAdcSem : StlSem := stlAlu (fun w a m t => t.putA (addRes w a m t.nzcv.c))
def stlSubSem : StlSem := stlAlu (fun w a m t => t.putA (subRes w a m false))
def stlSbcSem : StlSem := stlAlu (fun w a m t => t.putA (subRes w a m (!t.nzcv.c)))
def stlAndSem : StlSem := stlAlu (fun w a m t => t.putA (logicRes w (a &&& m)))
def stlOrSem : StlSem := stlAlu (fun w a m t => t.putA (logicRes w (a ||| m)))
def stlXorSem : StlSem := stlAlu (fun w a m t => t.putA (logicRes w (a ^^^ m)))
def stlCmpSem : StlSem := stlAlu (fun w a m t => t.putFlags (subRes w a m false).flags)

/-- A 16-bit address under BK or BANK (R434, R437). -/
def StlInsn.addr16 (i : StlInsn) (t : Stool) : Nat := 65536 * (i.bank.getD t.bk).toNat + i.imm

/-- Write X, or Y, with N and Z. -/
def Stool.putX (t : Stool) (v : W16) : Stool := { t with x := v }.putNZ 16 v.toNat
def Stool.putY (t : Stool) (v : W16) : Stool := { t with y := v }.putNZ 16 v.toNat

/-- XLD, YLD: an immediate or 16 bits of memory (R437). -/
def stlIxLoad (put : Stool → W16 → Stool) : StlSem := fun i w k r =>
  if i.op = 0x50 ∨ i.op = 0x53 then .ok { r with t := put r.t (BitVec.ofNat 16 i.imm) }
  else stlRead w k (i.addr16 r.t) 2 r (fun v r => .ok { r with t := put r.t (BitVec.ofNat 16 v) })
/-- XST, YST. -/
def stlIxStore (get : Stool → W16) : StlSem := fun i w k r => stlWrite w k (i.addr16 r.t) 2 (get r.t).toNat r .ok
/-- Push and pop of a register. -/
def stlPushSem (n : Nat) (get : Stool → Nat) : StlSem := fun _ w k r => stlPush w k n (get r.t) r .ok
def stlPopSem (n : Nat) (put : Stool → Nat → Stool) : StlSem := fun _ w k r =>
  stlPop w k n r (fun v r => .ok { r with t := put r.t v })

/-- {BK, F} as PUSHF pushes it, and back (R437). -/
def Stool.flagWord (t : Stool) : Nat := 256 * t.bk.toNat + t.f.toNat
def Stool.putFlagWord (t : Stool) (v : Nat) : Stool := { t with f := BitVec.ofNat 8 v, bk := BitVec.ofNat 8 (v / 256) }

/-- MUL (R437). -/
def stlMulRun (t : Stool) : Stool := t.putA (logicRes 32 (t.a.toNat % 65536 * t.x.toNat))

/-- DIVU (R438). -/
def stlDivRun (t : Stool) : Stool :=
  if t.x = 0 then
    { t with a := BitVec.allOnes 32, y := BitVec.setWidth 16 t.a }.putFlags { t.nzcv with z := false, c := true }
  else
    let q := t.a.toNat / t.x.toNat
    { t with a := BitVec.ofNat 32 q, y := BitVec.ofNat 16 (t.a.toNat % t.x.toNat) }.putFlags { t.nzcv with z := q = 0, c := false }

/-- A jump inside the 64 KiB of the next instruction (R439). -/
def Stool.jump16 (t : Stool) (a : Nat) : Stool := { t with pc := BitVec.ofNat 24 (t.pc.toNat / 65536 * 65536 + a % 65536) }

/-- A relative branch (R439). -/
def Stool.branch (t : Stool) (r8 : Nat) : Stool := t.jump16 (t.pc.toNat + (BitVec.ofInt 16 (sextNat r8 8)).toNat)

/-- The condition of BR.Z to BR.NOV: opcodes 0x71 to 0x78 (R437). -/
def stlCond (op : Nat) (x : Nzcv) : Bool :=
  match op with
  | 0x71 => condHolds 0 x | 0x72 => condHolds 8 x | 0x73 => condHolds 1 x | 0x74 => condHolds 9 x | 0x75 => condHolds 2 x
  | 0x76 => condHolds 10 x | 0x77 => condHolds 3 x | _ => condHolds 11 x

/-- CALL, CALLF: the next PC is pushed as a word with bits 31:24 at 0 (R439). -/
def stlCallSem (go : StlInsn → Stool → Stool) : StlSem := fun i w k r =>
  stlPush w k 4 r.t.pc.toNat r (fun r => .ok { r with t := go i r.t })

/-- IRET (R451). -/
def iretSem : StlSem := fun _ w k r =>
  stlPop w k 4 r (fun v r => stlPop w k 4 r (fun p r =>
    .ok { r with t := { r.t.putFlagWord v with pc := BitVec.ofNat 24 p } }))

/-- Does an IDLE of the engine end (R452)? -/
def Stool.wakes (t : Stool) : Bool := (List.range 4).any (fun k => t.levelOn k && decide (t.pl < k + 1))

/-- IDLE (R452): the engine waits at the next instruction's PC. -/
def idleSem : StlSem := fun _ _ k r => .ok { r with t := { r.t with waiting := !(r.s.stool k).wakes } }

/-- A shift by an immediate, at 32 bits (R437). -/
def stlShift (f : Nat → Nat → Nat → AluRes) (i : StlInsn) (t : Stool) : Stool := t.putA (f 32 t.a.toNat i.imm)

/-- RDTIME captures the upper half; RDTIMH reads it, or the current one (R437). -/
def stlRdtimeSem : StlSem := fun _ _ _ r =>
  .ok { r with t := { r.t with a := BitVec.ofNat 32 r.s.time, timeHi := some (BitVec.ofNat 32 (r.s.time / 4294967296)) } }
def rdtimhSem : StlSem := fun _ _ _ r =>
  .ok { r with t := { r.t with a := r.t.timeHi.getD (BitVec.ofNat 32 (r.s.time / 4294967296)) } }

/-- FEAT0 to FEAT3 of a stool (R462). -/
def stlFeat (k n : Nat) : W32 :=
  if n = 0 then 0x00041001
  else if n = 1 then
    if k < 24 then BitVec.ofNat 32 (k + 256 * (k / 6) + 4096 * k)
    else if k < 32 then BitVec.ofNat 32 (k + 64 + 256 * (k - 24))
    else 0x000207A0
  else 0

/-- RDFEAT (R462). -/
def stlRdfeatSem : StlSem := fun i _ k r =>
  if 4 ≤ i.imm then .exc 1 none r else .ok { r with t := { r.t with a := stlFeat k i.imm } }

/-- The instructions that can reach the control window, by opcode. -/
def stlWindowSem (op : Nat) : StlSem :=
  if op < 0x50 then
    (match op / 8 with
      | 0 => stlLdSem | 1 => stlStSem | 2 => stlAddSem | 3 => stlAdcSem | 4 => stlSubSem | 5 => stlSbcSem | 6 => stlAndSem
      | 7 => stlOrSem | 8 => stlXorSem | _ => stlCmpSem)
  else if op = 0x51 then stlIxLoad Stool.putX
  else if op = 0x52 then stlIxStore Stool.x
  else if op = 0x54 then stlIxLoad Stool.putY
  else stlIxStore Stool.y

/-! ### Exceptions and entries (R448-R450) -/

/-- A double fault: the engine stops (R450). -/
def State.stlDouble (s : State) (k : Nat) : State :=
  let t := s.stool k
  (s.setStool k { t.setLr 0xC (putBit (t.lr 0xC) 8 true) with halted := true }).raise (stoolPage k 0) 0

/-- The entry of R448 with a vector address and the new PL; `pc` is pushed.  An exception during it is a double fault. -/
def State.stlEnter (s : State) (k pc vec pl : Nat) : State :=
  let t := s.stool k
  if t.sp.toNat % 4 ≠ 0 then s.stlDouble k
  else
    let sp1 := t.sp - 4
    let sp2 := t.sp - 8
    let s := (s.sramWrite k sp1.toNat (leBytes 4 pc)).sramWrite k sp2.toNat (leBytes 4 t.flagWord)
    let v := s.sramRead k vec 4
    if v.1 then v.2.2.stlDouble k
    else
      v.2.2.setStool k { v.2.2.stool k with
        sp := sp2, f := putField t.f 5 3 pl, pc := BitVec.ofNat 24 (leNat v.2.1), waiting := false }

/-- An exception: `adr` is the data address of BUS and SRAM, `next` the PC of the next instruction (R449, R450). -/
def State.stlExc (s : State) (k cause : Nat) (adr : Option Nat) (next : Nat) : State :=
  let s := s.force (stoolPage k 0) 0
  let t := s.stool k
  if t.pl = 5 then s.stlDouble k
  else
    let pc := t.pc.toNat
    let e := s.stlEnter k (if cause = 0 then next else pc) (0xFF10 + 4 * cause) 5
    if (e.stool k).halted then e
    else
      let t := e.stool k
      let t := (t.setLr 0xC (putField (t.lr 0xC) 0 2 cause)).setLr 0x10 (BitVec.ofNat 32 pc)
      e.setStool k (match adr with
        | some a => t.setLr 0x14 (BitVec.ofNat 32 a)
        | none => t)

/-! ### Issue -/

/-- Fetching `n` bytes at the PC: the exception it raises (R432, R449), and the state after. -/
def State.stlFetch (s : State) (k pc : Nat) : Nat → Nat → Option (Nat × Nat) × State
  | _, 0 => (none, s)
  | j, n + 1 =>
    let a := (pc + j) % 16777216
    if 0x40000 ≤ a then (some (2, a), s)
    else if j = 0 ∨ a % 4 = 0 then
      let x := s.sramRead k a 1
      if x.1 then (some (3, a), x.2.2) else x.2.2.stlFetch k pc (j + 1) n
    else s.stlFetch k pc (j + 1) n

/-- Does the engine execute: RUN and EN are 1, its domain is in Run, it is neither halted, nor in IDLE, nor waits for a control-space
access (R447, R456)? -/
def State.stlReady (s : State) (k : Nat) : Bool :=
  let t := s.stool k
  s.bit (stoolPage k 0x40) 0 && s.enabled (stoolPage k 0) && !t.halted && !t.waiting && t.cw.isNone
    && (match pageOf (stoolPage k 0) with
      | some p => (match p.domain with
        | some d => s.domState d = 3
        | none => true)
      | none => false)

/-- The highest deliverable level (R447). -/
def Stool.deliverable (t : Stool) : Option Nat :=
  [3, 2, 1, 0].find? (fun k => t.levelOn k && bitOf t.f 4 && decide (t.pl ≤ k))

/-- The registers that an instruction computed, in the engine as it stands now. -/
def Stool.take (t r : Stool) : Stool :=
  { t with a := r.a, x := r.x, y := r.y, bk := r.bk, sp := r.sp, f := r.f, pc := r.pc, waiting := r.waiting, timeHi := r.timeHi }

/-- Was the engine reset by the access of its own instruction, which then is not completed (R456)? -/
def State.stlLost (s r : State) (k : Nat) : Bool :=
  r.soft.contains (stoolPage k 0 / 4096) ||
    (!r.bit (stoolPage k 0x40) 0 && (s.stool k).take (r.stool k) != s.stool k)

/-- What an instruction that began in state `s0` comes to.  `bytes` are its own. -/
def State.stlEnd (s0 : State) (k : Nat) (bytes : List Byte) (next : Nat) (x : StlRes) : State :=
  match x with
  | .ok r =>
    if s0.stlLost r.s k then r.s
    else
      let s := r.s.setStool k ((r.s.stool k).take r.t)
      if r.t.waiting then s else s.count (stoolPage k 0x54)
  | .exc c a r => r.s.stlExc k c a next
  | .held _ r => r.s.setStool k { r.s.stool k with cw := some bytes }

/-- Run an instruction of `len` bytes on one engine. -/
def State.stlRun (s : State) (k len : Nat) (w : StlWin) (f : StlWin → Nat → StlRun → StlRes) : StlRes :=
  let t := s.stool k
  let r := s.stlFetch k t.pc.toNat 0 len
  let run : StlRun := { s := r.2, t := { t with pc := t.pc + BitVec.ofNat 24 len } }
  match r.1 with
  | some (c, a) => .exc c (some a) run
  | none => f w k run

/-- The run that a result holds. -/
def StlRes.run : StlRes → StlRun
  | .ok r => r
  | .exc _ _ r => r
  | .held _ r => r

/-- The chip stools' outputs differed (R461): both pages count, and set LSMIS if it is clear. -/
def State.lockstepMiss (s : State) : State :=
  [32, 33].foldl (fun s k =>
    let s := s.count (stoolPage k 0x60)
    if s.bit (stoolPage k 0x14) 4 then s else s.raise (stoolPage k 0) 4) s

/-- An instruction of a stool; the chip stools run it together, the second with the first's control-space answers (R460, R461). -/
def State.stlIssue (s : State) (k : Nat) (bytes : List Byte) (len : Nat) (w : StlWin) (f : StlWin → Nat → StlRun → StlRes) : State :=
  let next := (s.stool k).pc.toNat + len
  let x := s.stlRun k len w f
  let t := s.stlEnd k bytes (next % 16777216) x
  if k ≠ 32 then t
  else
    let inj := t.bit (stoolPage 32 0x1C) 4 || t.bit (stoolPage 33 0x1C) 4
    let t := (t.force (stoolPage 32 0) 4).force (stoolPage 33 0) 4
    let held := match x with
      | .held _ _ => true
      | _ => false
    if held then t.setStool 33 { t.stool 33 with cw := some bytes }
    else
      let w2 := match w with
        | .expired => .expired
        | _ => .echo (x.run.seen.getD 0)
      let ready := t.bit (stoolPage 33 0x40) 0 && !(t.stool 33).halted && !(t.stool 33).waiting
      if !ready then t.lockstepMiss
      else
        let same := (t.stool 33).pc == (s.stool 32).pc
        let y := t.stlRun 33 len w2 f
        let u := t.stlEnd 33 bytes (((t.stool 33).pc.toNat + len) % 16777216) y
        if inj || !same || x.run.trace != y.run.trace then u.lockstepMiss else u

/-- A Lintos row: instructions that satisfy `is`, with their meaning.  Chip stool 1 runs with chip stool 0 (R460). -/
def stlRow (k : Fin 34) (bytes : List Byte) (is : StlInsn → Bool) (f : StlSem) (s : State) : Out :=
  if s.stalled || k = 33 || !s.stlReady k.val || (s.stool k.val).deliverable.isSome then .next s
  else
    match stlDecode bytes with
    | .short => .next s
    | .ill n => .next (s.stlIssue k.val bytes n .live (fun _ _ r => .exc 1 none r))
    | .ok i => if !is i then .refused .otherEncoding else .next (s.stlIssue k.val bytes i.len .live (f i))

/-- A row of one opcode. -/
def stlOp (k : Fin 34) (bytes : List Byte) (op : Nat) (f : StlSem) (s : State) : Out := stlRow k bytes (fun i => i.op = op) f s

/-- A row of one matrix operation. -/
def stlMatrix (k : Fin 34) (bytes : List Byte) (m : Nat) (f : StlSem) (s : State) : Out :=
  stlRow k bytes (fun i => decide (i.op < 0x50) && i.op / 8 = m) f s

/-- STL_LD (16 R436). -/
def execStlLd (k : Fin 34) (b : List Byte) (s : State) : Out := stlMatrix k b 0 stlLdSem s
/-- STL_ST (16 R436). -/
def execStlSt (k : Fin 34) (b : List Byte) (s : State) : Out := stlMatrix k b 1 stlStSem s
/-- STL_ADD (16 R436). -/
def execStlAdd (k : Fin 34) (b : List Byte) (s : State) : Out := stlMatrix k b 2 stlAddSem s
/-- STL_ADC (16 R436). -/
def execStlAdc (k : Fin 34) (b : List Byte) (s : State) : Out := stlMatrix k b 3 stlAdcSem s
/-- STL_SUB (16 R436). -/
def execStlSub (k : Fin 34) (b : List Byte) (s : State) : Out := stlMatrix k b 4 stlSubSem s
/-- STL_SBC (16 R436). -/
def execStlSbc (k : Fin 34) (b : List Byte) (s : State) : Out := stlMatrix k b 5 stlSbcSem s
/-- STL_AND (16 R436). -/
def execStlAnd (k : Fin 34) (b : List Byte) (s : State) : Out := stlMatrix k b 6 stlAndSem s
/-- STL_OR (16 R436). -/
def execStlOr (k : Fin 34) (b : List Byte) (s : State) : Out := stlMatrix k b 7 stlOrSem s
/-- STL_XOR (16 R436). -/
def execStlXor (k : Fin 34) (b : List Byte) (s : State) : Out := stlMatrix k b 8 stlXorSem s
/-- STL_CMP (16 R436). -/
def execStlCmp (k : Fin 34) (b : List Byte) (s : State) : Out := stlMatrix k b 9 stlCmpSem s
/-- XLD (16 R437). -/
def execXld (k : Fin 34) (b : List Byte) (s : State) : Out := stlRow k b (fun i => i.op = 0x50 || i.op = 0x51) (stlIxLoad Stool.putX) s
/-- XST (16 R437). -/
def execXst (k : Fin 34) (b : List Byte) (s : State) : Out := stlOp k b 0x52 (stlIxStore Stool.x) s
/-- YLD (16 R437). -/
def execYld (k : Fin 34) (b : List Byte) (s : State) : Out := stlRow k b (fun i => i.op = 0x53 || i.op = 0x54) (stlIxLoad Stool.putY) s
/-- YST (16 R437). -/
def execYst (k : Fin 34) (b : List Byte) (s : State) : Out := stlOp k b 0x55 (stlIxStore Stool.y) s
/-- XINC (16 R437). -/
def execXinc (k : Fin 34) (b : List Byte) (s : State) : Out := stlOp k b 0x56 (stlPure (fun _ t => t.putX (t.x + 1))) s
/-- XDEC (16 R437). -/
def execXdec (k : Fin 34) (b : List Byte) (s : State) : Out := stlOp k b 0x57 (stlPure (fun _ t => t.putX (t.x - 1))) s
/-- YINC (16 R437). -/
def execYinc (k : Fin 34) (b : List Byte) (s : State) : Out := stlOp k b 0x58 (stlPure (fun _ t => t.putY (t.y + 1))) s
/-- YDEC (16 R437). -/
def execYdec (k : Fin 34) (b : List Byte) (s : State) : Out := stlOp k b 0x59 (stlPure (fun _ t => t.putY (t.y - 1))) s
/-- XCMP (16 R437). -/
def execXcmp (k : Fin 34) (b : List Byte) (s : State) : Out := stlOp k b 0x5A (stlPure (fun i t => t.putFlags (subRes 16 t.x.toNat i.imm false).flags)) s
/-- YCMP (16 R437). -/
def execYcmp (k : Fin 34) (b : List Byte) (s : State) : Out := stlOp k b 0x5B (stlPure (fun i t => t.putFlags (subRes 16 t.y.toNat i.imm false).flags)) s
/-- MOVXA (16 R437). -/
def execMovxa (k : Fin 34) (b : List Byte) (s : State) : Out := stlOp k b 0x5C (stlPure (fun _ t => t.putX (BitVec.setWidth 16 t.a))) s
/-- MOVAX; N and Z of the 32-bit result (assumption log 33) (16 R437). -/
def execMovax (k : Fin 34) (b : List Byte) (s : State) : Out := stlOp k b 0x5D (stlPure (fun _ t => { t with a := BitVec.setWidth 32 t.x }.putNZ 32 t.x.toNat)) s
/-- MOVYA (16 R437). -/
def execMovya (k : Fin 34) (b : List Byte) (s : State) : Out := stlOp k b 0x5E (stlPure (fun _ t => t.putY (BitVec.setWidth 16 t.a))) s
/-- MOVAY; N and Z of the 32-bit result (assumption log 33) (16 R437). -/
def execMovay (k : Fin 34) (b : List Byte) (s : State) : Out := stlOp k b 0x5F (stlPure (fun _ t => { t with a := BitVec.setWidth 32 t.y }.putNZ 32 t.y.toNat)) s
/-- MOVXS (16 R437). -/
def execMovxs (k : Fin 34) (b : List Byte) (s : State) : Out := stlOp k b 0x60 (stlPure (fun _ t => { t with x := t.sp })) s
/-- MOVSX (16 R437). -/
def execMovsx (k : Fin 34) (b : List Byte) (s : State) : Out := stlOp k b 0x61 (stlPure (fun _ t => { t with sp := t.x })) s
/-- MOVBA (16 R437). -/
def execMovba (k : Fin 34) (b : List Byte) (s : State) : Out := stlOp k b 0x62 (stlPure (fun _ t => { t with bk := BitVec.setWidth 8 t.a })) s
/-- MOVAB (16 R437). -/
def execMovab (k : Fin 34) (b : List Byte) (s : State) : Out := stlOp k b 0x63 (stlPure (fun _ t => { t with a := BitVec.setWidth 32 t.bk })) s
/-- BKLD (16 R437). -/
def execBkld (k : Fin 34) (b : List Byte) (s : State) : Out := stlOp k b 0x64 (stlPure (fun i t => { t with bk := BitVec.ofNat 8 i.imm })) s
/-- PUSH (16 R437). -/
def execPush (k : Fin 34) (b : List Byte) (s : State) : Out := stlOp k b 0x65 (stlPushSem 4 (fun t => t.a.toNat)) s
/-- POP (16 R437). -/
def execPop (k : Fin 34) (b : List Byte) (s : State) : Out := stlOp k b 0x66 (stlPopSem 4 (fun t v => { t with a := BitVec.ofNat 32 v })) s
/-- PUSHX (16 R437). -/
def execPushx (k : Fin 34) (b : List Byte) (s : State) : Out := stlOp k b 0x67 (stlPushSem 2 (fun t => t.x.toNat)) s
/-- POPX (16 R437). -/
def execPopx (k : Fin 34) (b : List Byte) (s : State) : Out := stlOp k b 0x68 (stlPopSem 2 (fun t v => { t with x := BitVec.ofNat 16 v })) s
/-- PUSHY (16 R437). -/
def execPushy (k : Fin 34) (b : List Byte) (s : State) : Out := stlOp k b 0x69 (stlPushSem 2 (fun t => t.y.toNat)) s
/-- POPY (16 R437). -/
def execPopy (k : Fin 34) (b : List Byte) (s : State) : Out := stlOp k b 0x6A (stlPopSem 2 (fun t v => { t with y := BitVec.ofNat 16 v })) s
/-- PUSHF (16 R437). -/
def execPushf (k : Fin 34) (b : List Byte) (s : State) : Out := stlOp k b 0x6B (stlPushSem 4 Stool.flagWord) s
/-- POPF (16 R437). -/
def execPopf (k : Fin 34) (b : List Byte) (s : State) : Out := stlOp k b 0x6C (stlPopSem 4 Stool.putFlagWord) s
/-- STL_MUL (16 R437). -/
def execStlMul (k : Fin 34) (b : List Byte) (s : State) : Out := stlOp k b 0x6D (stlPure (fun _ t => stlMulRun t)) s
/-- DIVU (16 R438). -/
def execDivu (k : Fin 34) (b : List Byte) (s : State) : Out := stlOp k b 0x6E (stlPure (fun _ t => stlDivRun t)) s
/-- ANEG (16 R438). -/
def execAneg (k : Fin 34) (b : List Byte) (s : State) : Out := stlOp k b 0x6F (stlPure (fun _ t => t.putA (subRes 32 0 t.a.toNat false))) s
/-- BR (16 R439). -/
def execBr (k : Fin 34) (b : List Byte) (s : State) : Out := stlOp k b 0x70 (stlPure (fun i t => t.branch i.imm)) s
/-- BR_COND (16 R437). -/
def execBrCond (k : Fin 34) (b : List Byte) (s : State) : Out := stlRow k b (fun i => decide (0x71 ≤ i.op ∧ i.op ≤ 0x78))
    (stlPure (fun i t => if stlCond i.op t.nzcv then t.branch i.imm else t)) s
/-- JP (16 R439). -/
def execJp (k : Fin 34) (b : List Byte) (s : State) : Out := stlOp k b 0x79 (stlPure (fun i t => t.jump16 i.imm)) s
/-- JPF (16 R437). -/
def execJpf (k : Fin 34) (b : List Byte) (s : State) : Out := stlOp k b 0x7A (stlPure (fun i t => { t with pc := BitVec.ofNat 24 i.imm })) s
/-- CALL (16 R439). -/
def execCall (k : Fin 34) (b : List Byte) (s : State) : Out := stlOp k b 0x7B (stlCallSem (fun i t => t.jump16 i.imm)) s
/-- CALLF (16 R439). -/
def execCallf (k : Fin 34) (b : List Byte) (s : State) : Out := stlOp k b 0x7C (stlCallSem (fun i t => { t with pc := BitVec.ofNat 24 i.imm })) s
/-- STL_RET (16 R439). -/
def execStlRet (k : Fin 34) (b : List Byte) (s : State) : Out := stlOp k b 0x7D (stlPopSem 4 (fun t v => { t with pc := BitVec.ofNat 24 v })) s
/-- IRET (16 R451). -/
def execIret (k : Fin 34) (b : List Byte) (s : State) : Out := stlOp k b 0x7E iretSem s
/-- JPX (16 R437). -/
def execJpx (k : Fin 34) (b : List Byte) (s : State) : Out := stlOp k b 0x7F (stlPure (fun _ t => t.jump16 t.x.toNat)) s
/-- STL_NOP (16 R437). -/
def execStlNop (k : Fin 34) (b : List Byte) (s : State) : Out := stlOp k b 0x80 (stlPure (fun _ t => t)) s
/-- IDLE (16 R452). -/
def execIdle (k : Fin 34) (b : List Byte) (s : State) : Out := stlOp k b 0x81 idleSem s
/-- INTON (16 R437). -/
def execInton (k : Fin 34) (b : List Byte) (s : State) : Out := stlOp k b 0x82 (stlPure (fun _ t => { t with f := putBit t.f 4 true })) s
/-- INTOFF (16 R437). -/
def execIntoff (k : Fin 34) (b : List Byte) (s : State) : Out := stlOp k b 0x83 (stlPure (fun _ t => { t with f := putBit t.f 4 false })) s
/-- SWX (16 R449). -/
def execSwx (k : Fin 34) (b : List Byte) (s : State) : Out := stlOp k b 0x84 (fun _ _ _ r => .exc 0 none r) s
/-- AINC (16 R437). -/
def execAinc (k : Fin 34) (b : List Byte) (s : State) : Out := stlOp k b 0x85 (stlPure (fun _ t => { t with a := t.a + 1 }.putNZ 32 (t.a + 1).toNat)) s
/-- ADEC (16 R437). -/
def execAdec (k : Fin 34) (b : List Byte) (s : State) : Out := stlOp k b 0x86 (stlPure (fun _ t => { t with a := t.a - 1 }.putNZ 32 (t.a - 1).toNat)) s
/-- ANOT (16 R437). -/
def execAnot (k : Fin 34) (b : List Byte) (s : State) : Out := stlOp k b 0x87 (stlPure (fun _ t => { t with a := ~~~t.a }.putNZ 32 (~~~t.a).toNat)) s
/-- STL_SHL (16 R437). -/
def execStlShl (k : Fin 34) (b : List Byte) (s : State) : Out := stlOp k b 0x88 (stlPure (stlShift shlRes)) s
/-- STL_SHR (16 R437). -/
def execStlShr (k : Fin 34) (b : List Byte) (s : State) : Out := stlOp k b 0x89 (stlPure (stlShift shrRes)) s
/-- STL_SAR (16 R437). -/
def execStlSar (k : Fin 34) (b : List Byte) (s : State) : Out := stlOp k b 0x8A (stlPure (stlShift sarRes)) s
/-- STL_RDTIME (16 R437). -/
def execStlRdtime (k : Fin 34) (b : List Byte) (s : State) : Out := stlOp k b 0x8B stlRdtimeSem s
/-- RDTIMH (16 R437). -/
def execRdtimh (k : Fin 34) (b : List Byte) (s : State) : Out := stlOp k b 0x8C rdtimhSem s
/-- STL_RDFEAT (16 R462). -/
def execStlRdfeat (k : Fin 34) (b : List Byte) (s : State) : Out := stlOp k b 0x8D stlRdfeatSem s

/-! ### Fires, interrupts, timeouts (R444-R452) -/

/-- An IDLE that a pending bit ends completes (R452). -/
def State.stlWake (s : State) (k : Nat) : State :=
  let t := s.stool k
  if t.waiting && t.wakes then (s.setStool k { t with waiting := false }).count (stoolPage k 0x54) else s

/-- A fire sets a pending bit of an engine: bits 9:6 of BIT are ignored (R446). -/
def State.pendStool (s : State) (k lvl bit : Nat) : State :=
  let o := 0x20 + 8 * lvl + 4 * (bit % 64 / 32)
  let t := s.stool k
  (s.setStool k (t.setLr o (putBit (t.lr o) (bit % 32) true))).stlWake k

/-- A fire reaches an engine; engines 32 and 33 take it together (12 R329); one whose domain is in Stop discards it (17 R470). -/
def State.fireAt (s : State) (k lvl bit : Nat) : State :=
  let up := match pageOf (stoolPage k 0) with
    | some p => s.pageUp p
    | none => false
  if !up then s.count (evc 0x05C)
  else if 32 ≤ k then (s.pendStool 32 lvl bit).pendStool 33 lvl bit
  else s.pendStool k lvl bit

/-- STOOL_FIRE: fire number `j` of those on their way, which goes to a stool (R446; 12 R329; 17 R470). -/
def stoolFire (j : Nat) (s : State) : State :=
  let rest := { s with ev := { s.ev with fires := s.ev.fires.eraseIdx j } }
  match s.ev.fires[j]? with
  | some (.source n) =>
    let r := s.route n
    if !s.domUp 270 then rest
    else if !r.en || r.core < 192 then s
    else (rest.countFire n).fireAt (r.core - 192) r.lvl r.bit
  | some (.stool k lvl bit) => rest.fireAt k lvl bit
  | none => s

/-- STOOL_FIRE (R446). -/
def execStoolFire (j : Nat) (s : State) : Out := act s (stoolFire j)

/-- STL_INTERRUPT_ENTRY: the highest deliverable level of an engine is entered (R447, R448). -/
def stlInterrupt (k : Nat) (s : State) : State :=
  if !s.stlReady k then s
  else
    match (s.stool k).deliverable with
    | none => s
    | some l =>
      let t := s.stlEnter k (s.stool k).pc.toNat (0xFF00 + 4 * l) (l + 1)
      if k ≠ 32 then t
      else
        match (t.stool 33).deliverable with
        | some m =>
          let u := t.stlEnter 33 (t.stool 33).pc.toNat (0xFF00 + 4 * m) (m + 1)
          if m = l && (s.stool 33).pc == (s.stool 32).pc && (s.stool 33).sp == (s.stool 32).sp
              && (s.stool 33).flagWord == (s.stool 32).flagWord then u
          else u.lockstepMiss
        | none => t.lockstepMiss

/-- STL_INTERRUPT_ENTRY (R448); chip stool 1 enters with chip stool 0. -/
def execStlInterruptEntry (k : Fin 34) (s : State) : Out := act s (fun s => if k = 33 then s else stlInterrupt k.val s)

/-- CONTROL_WINDOW_TIMEOUT: the access that nothing answered expires: a load gives 0 and a store counts as done, or the instruction
raises BUS with TOEXC at 1 (R444); a soft reset, which has stopped the engine, waits for it and discards it (R456). -/
def windowTimeout (k : Nat) (s : State) : State :=
  match (s.stool k).cw with
  | none => s
  | some bytes =>
    let s := s.setStool k { s.stool k with cw := none }
    let s := if k = 32 then s.setStool 33 { s.stool 33 with cw := none } else s
    match stlDecode bytes with
    | .ok i =>
      let f := stlWindowSem i.op i
      match s.stlRun k i.len .seek f with
      | .held a _ =>
        let c := s.stlCtl k a
        let s := ((s.count (stoolPage k 0x58)).setNat (stoolPage k 0x5C) c).raise (stoolPage k 0) 1
        let s := if k = 32 then ((s.count (stoolPage 33 0x58)).setNat (stoolPage 33 0x5C) c).raise (stoolPage 33 0) 1 else s
        if s.soft.contains (stoolPage k 0 / 4096) then s
        else if bitOf ((s.stool k).lr 0) 0 then s.stlIssue k bytes i.len .expired (fun _ _ r => .exc 2 (some a) r)
        else s.stlIssue k bytes i.len .expired f
      | _ => s
    | _ => s

/-- CONTROL_WINDOW_TIMEOUT (R444); chip stool 1 has none of its own. -/
def execControlWindowTimeout (k : Fin 34) (s : State) : Out := act s (fun s => if k = 33 then s else windowTimeout k.val s)

end Sys2Proof.Machine
end

