-- ==== Sys2Proof/Machine/Dispatch.lean ====
section
/-! DEFINITION. The dispatch of commands to their meanings: one arm per constructor of Instr. -/

namespace Sys2Proof.Machine

/-- The effect of a command on everything but the queue. -/
def exec (i : Instr) (s : State) : Host.Outcome State Fault Refusal :=
  match i with
  | .registerWrite x0 a size v => Sys2Proof.Machine.execRegisterWrite x0 a size v s
  | .lockSet x0 p v => Sys2Proof.Machine.execLockSet x0 p v s
  | .softReset x0 p v => Sys2Proof.Machine.execSoftReset x0 p v s
  | .softResetDone p => Sys2Proof.Machine.execSoftResetDone p s
  | .errmaskWrite x0 p v => Sys2Proof.Machine.execErrmaskWrite x0 p v s
  | .errinjArm x0 p v => Sys2Proof.Machine.execErrinjArm x0 p v s
  | .pgOwnerWrite x0 p v => Sys2Proof.Machine.execPgOwnerWrite x0 p v s
  | .aggregatorLatch p => Sys2Proof.Machine.execAggregatorLatch p s
  | .agStatClear x0 p v => Sys2Proof.Machine.execAgStatClear x0 p v s
  | .rdCs k => Sys2Proof.Machine.execRdCs k s
  | .wrCs k => Sys2Proof.Machine.execWrCs k s
  | .controlBridgeExpiry g j => Sys2Proof.Machine.execControlBridgeExpiry g j s
  | .controlNodeAccept x => Sys2Proof.Machine.execControlNodeAccept x s
  | .initiatorTimeout j => Sys2Proof.Machine.execInitiatorTimeout j s
  | .toCfgWrite x0 r v => Sys2Proof.Machine.execToCfgWrite x0 r v s
  | .emramAccess w => Sys2Proof.Machine.execEmramAccess w s
  | .dvfsRequest x0 c v => Sys2Proof.Machine.execDvfsRequest x0 c v s
  | .pmicStatusPoll c r => Sys2Proof.Machine.execPmicStatusPoll c r s
  | .dvfsStepDone c => Sys2Proof.Machine.execDvfsStepDone c s
  | .dvfsTimeout c => Sys2Proof.Machine.execDvfsTimeout c s
  | .temperatureSample t => Sys2Proof.Machine.execTemperatureSample t s
  | .thermtripSample t => Sys2Proof.Machine.execThermtripSample t s
  | .timeIncrement => Sys2Proof.Machine.execTimeIncrement s
  | .adjWrite x0 v => Sys2Proof.Machine.execAdjWrite x0 v s
  | .timeStep x0 v => Sys2Proof.Machine.execTimeStep x0 v s
  | .timeLoRead x0 c => Sys2Proof.Machine.execTimeLoRead x0 c s
  | .runStart x0 v => Sys2Proof.Machine.execRunStart x0 v s
  | .runStop x0 v => Sys2Proof.Machine.execRunStop x0 v s
  | .fnumWrite x0 v => Sys2Proof.Machine.execFnumWrite x0 v s
  | .internalTick => Sys2Proof.Machine.execInternalTick s
  | .frameInEdge => Sys2Proof.Machine.execFrameInEdge s
  | .gptpBoundary p j => Sys2Proof.Machine.execGptpBoundary p j s
  | .tickMiss => Sys2Proof.Machine.execTickMiss s
  | .tickMessage c a b => Sys2Proof.Machine.execTickMessage c a b s
  | .windowStart n w => Sys2Proof.Machine.execWindowStart n w s
  | .windowEnd n w => Sys2Proof.Machine.execWindowEnd n w s
  | .windowGracePoint n w => Sys2Proof.Machine.execWindowGracePoint n w s
  | .regulatorGrant j => Sys2Proof.Machine.execRegulatorGrant j s
  | .cmtArm x0 v => Sys2Proof.Machine.execCmtArm x0 v s
  | .commitCheckEnd => Sys2Proof.Machine.execCommitCheckEnd s
  | .cmtDisarm x0 v => Sys2Proof.Machine.execCmtDisarm x0 v s
  | .ld n b => Sys2Proof.Machine.execLd n b s
  | .ldx n b => Sys2Proof.Machine.execLdx n b s
  | .st n b => Sys2Proof.Machine.execSt n b s
  | .lea n b => Sys2Proof.Machine.execLea n b s
  | .fld n b => Sys2Proof.Machine.execFld n b s
  | .fst n b => Sys2Proof.Machine.execFst n b s
  | .vld n b => Sys2Proof.Machine.execVld n b s
  | .vst n b => Sys2Proof.Machine.execVst n b s
  | .add n b => Sys2Proof.Machine.execAdd n b s
  | .sub n b => Sys2Proof.Machine.execSub n b s
  | .adc n b => Sys2Proof.Machine.execAdc n b s
  | .sbc n b => Sys2Proof.Machine.execSbc n b s
  | .and n b => Sys2Proof.Machine.execAnd n b s
  | .or n b => Sys2Proof.Machine.execOr n b s
  | .xor n b => Sys2Proof.Machine.execXor n b s
  | .andn n b => Sys2Proof.Machine.execAndn n b s
  | .shl n b => Sys2Proof.Machine.execShl n b s
  | .shr n b => Sys2Proof.Machine.execShr n b s
  | .sar n b => Sys2Proof.Machine.execSar n b s
  | .ror n b => Sys2Proof.Machine.execRor n b s
  | .mul n b => Sys2Proof.Machine.execMul n b s
  | .mulhu n b => Sys2Proof.Machine.execMulhu n b s
  | .mulhs n b => Sys2Proof.Machine.execMulhs n b s
  | .mov n b => Sys2Proof.Machine.execMov n b s
  | .cmp n b => Sys2Proof.Machine.execCmp n b s
  | .tst n b => Sys2Proof.Machine.execTst n b s
  | .csel n b => Sys2Proof.Machine.execCsel n b s
  | .sxt n b => Sys2Proof.Machine.execSxt n b s
  | .clz n b => Sys2Proof.Machine.execClz n b s
  | .ctz n b => Sys2Proof.Machine.execCtz n b s
  | .popc n b => Sys2Proof.Machine.execPopc n b s
  | .bswap n b => Sys2Proof.Machine.execBswap n b s
  | .mfs n b => Sys2Proof.Machine.execMfs n b s
  | .mts n b => Sys2Proof.Machine.execMts n b s
  | .bc n b => Sys2Proof.Machine.execBc n b s
  | .b n b => Sys2Proof.Machine.execB n b s
  | .bl n b => Sys2Proof.Machine.execBl n b s
  | .jr n b => Sys2Proof.Machine.execJr n b s
  | .jlr n b => Sys2Proof.Machine.execJlr n b s
  | .ret n b => Sys2Proof.Machine.execRet n b s
  | .cbz n b => Sys2Proof.Machine.execCbz n b s
  | .cbnz n b => Sys2Proof.Machine.execCbnz n b s
  | .loop n b => Sys2Proof.Machine.execLoop n b s
  | .svc n b => Sys2Proof.Machine.execSvc n b s
  | .hvc n b => Sys2Proof.Machine.execHvc n b s
  | .mvc n b => Sys2Proof.Machine.execMvc n b s
  | .brk n b => Sys2Proof.Machine.execBrk n b s
  | .nop n b => Sys2Proof.Machine.execNop n b s
  | .amoswp n b => Sys2Proof.Machine.execAmoswp n b s
  | .amoadd n b => Sys2Proof.Machine.execAmoadd n b s
  | .amoand n b => Sys2Proof.Machine.execAmoand n b s
  | .amoor n b => Sys2Proof.Machine.execAmoor n b s
  | .amoxor n b => Sys2Proof.Machine.execAmoxor n b s
  | .amomin n b => Sys2Proof.Machine.execAmomin n b s
  | .amomax n b => Sys2Proof.Machine.execAmomax n b s
  | .cas n b => Sys2Proof.Machine.execCas n b s
  | .divInit n b => Sys2Proof.Machine.execDivInit n b s
  | .divInits n b => Sys2Proof.Machine.execDivInits n b s
  | .dstep n b => Sys2Proof.Machine.execDstep n b s
  | .divFin n b => Sys2Proof.Machine.execDivFin n b s
  | .fenceFull n b => Sys2Proof.Machine.execFenceFull n b s
  | .fenceAcqf n b => Sys2Proof.Machine.execFenceAcqf n b s
  | .fenceRelf n b => Sys2Proof.Machine.execFenceRelf n b s
  | .fenceIfence n b => Sys2Proof.Machine.execFenceIfence n b s
  | .fenceDev n b => Sys2Proof.Machine.execFenceDev n b s
  | .tlbiVaAsid n b => Sys2Proof.Machine.execTlbiVaAsid n b s
  | .tlbiVaAllAsid n b => Sys2Proof.Machine.execTlbiVaAllAsid n b s
  | .tlbiAsid n b => Sys2Proof.Machine.execTlbiAsid n b s
  | .tlbiVmidStage1 n b => Sys2Proof.Machine.execTlbiVmidStage1 n b s
  | .tlbiIpa n b => Sys2Proof.Machine.execTlbiIpa n b s
  | .tlbiVmid n b => Sys2Proof.Machine.execTlbiVmid n b s
  | .tlbiAll n b => Sys2Proof.Machine.execTlbiAll n b s
  | .tlbsync n b => Sys2Proof.Machine.execTlbsync n b s
  | .wait n b => Sys2Proof.Machine.execWait n b s
  | .reti n b => Sys2Proof.Machine.execReti n b s
  | .rdfeat n b => Sys2Proof.Machine.execRdfeat n b s
  | .rdtime n b => Sys2Proof.Machine.execRdtime n b s
  | .rdfrm n b => Sys2Proof.Machine.execRdfrm n b s
  | .rdwin n b => Sys2Proof.Machine.execRdwin n b s
  | .pswitch n b => Sys2Proof.Machine.execPswitch n b s
  | .cmoCleanMem n b => Sys2Proof.Machine.execCmoCleanMem n b s
  | .cmoInvMem n b => Sys2Proof.Machine.execCmoInvMem n b s
  | .cmoCinvMem n b => Sys2Proof.Machine.execCmoCinvMem n b s
  | .cmoCleanL2 n b => Sys2Proof.Machine.execCmoCleanL2 n b s
  | .cmoInvI n b => Sys2Proof.Machine.execCmoInvI n b s
  | .cmoswClean n b => Sys2Proof.Machine.execCmoswClean n b s
  | .cmoswInvalidate n b => Sys2Proof.Machine.execCmoswInvalidate n b s
  | .cmoswCleanInvalidate n b => Sys2Proof.Machine.execCmoswCleanInvalidate n b s
  | .fadd n b => Sys2Proof.Machine.execFadd n b s
  | .fsub n b => Sys2Proof.Machine.execFsub n b s
  | .fmul n b => Sys2Proof.Machine.execFmul n b s
  | .fdiv n b => Sys2Proof.Machine.execFdiv n b s
  | .fsqrt n b => Sys2Proof.Machine.execFsqrt n b s
  | .fmin n b => Sys2Proof.Machine.execFmin n b s
  | .fmax n b => Sys2Proof.Machine.execFmax n b s
  | .fma n b => Sys2Proof.Machine.execFma n b s
  | .fms n b => Sys2Proof.Machine.execFms n b s
  | .fnma n b => Sys2Proof.Machine.execFnma n b s
  | .fabs n b => Sys2Proof.Machine.execFabs n b s
  | .fneg n b => Sys2Proof.Machine.execFneg n b s
  | .fcmp n b => Sys2Proof.Machine.execFcmp n b s
  | .fcvt n b => Sys2Proof.Machine.execFcvt n b s
  | .scvtf n b => Sys2Proof.Machine.execScvtf n b s
  | .fcvtzs n b => Sys2Proof.Machine.execFcvtzs n b s
  | .fmv n b => Sys2Proof.Machine.execFmv n b s
  | .frint n b => Sys2Proof.Machine.execFrint n b s
  | .vadd n b => Sys2Proof.Machine.execVadd n b s
  | .vsub n b => Sys2Proof.Machine.execVsub n b s
  | .vmul n b => Sys2Proof.Machine.execVmul n b s
  | .vand n b => Sys2Proof.Machine.execVand n b s
  | .vor n b => Sys2Proof.Machine.execVor n b s
  | .vxor n b => Sys2Proof.Machine.execVxor n b s
  | .vandn n b => Sys2Proof.Machine.execVandn n b s
  | .vshl n b => Sys2Proof.Machine.execVshl n b s
  | .vshr n b => Sys2Proof.Machine.execVshr n b s
  | .vsar n b => Sys2Proof.Machine.execVsar n b s
  | .vmin n b => Sys2Proof.Machine.execVmin n b s
  | .vmax n b => Sys2Proof.Machine.execVmax n b s
  | .vminu n b => Sys2Proof.Machine.execVminu n b s
  | .vmaxu n b => Sys2Proof.Machine.execVmaxu n b s
  | .vcmpeq n b => Sys2Proof.Machine.execVcmpeq n b s
  | .vcmpgt n b => Sys2Proof.Machine.execVcmpgt n b s
  | .vdup n b => Sys2Proof.Machine.execVdup n b s
  | .vext n b => Sys2Proof.Machine.execVext n b s
  | .vins n b => Sys2Proof.Machine.execVins n b s
  | .interruptEntry n => Sys2Proof.Machine.execInterruptEntry n s
  | .evclmWrite n b => Sys2Proof.Machine.execEvclmWrite n b s
  | .eveoiWrite n b => Sys2Proof.Machine.execEveoiWrite n b s
  | .evsetWrite n b => Sys2Proof.Machine.execEvsetWrite n b s
  | .evrelWrite n b => Sys2Proof.Machine.execEvrelWrite n b s
  | .evholdWrite n b => Sys2Proof.Machine.execEvholdWrite n b s
  | .fetchFillComplete n => Sys2Proof.Machine.execFetchFillComplete n s
  | .storeBufferWrite n => Sys2Proof.Machine.execStoreBufferWrite n s
  | .partialOverlapReplay n => Sys2Proof.Machine.execPartialOverlapReplay n s
  | .runAheadEntry n b prog => Sys2Proof.Machine.execRunAheadEntry n b prog s
  | .runAheadExit n => Sys2Proof.Machine.execRunAheadExit n s
  | .plCtlWrite x0 n v => Sys2Proof.Machine.execPlCtlWrite x0 n v s
  | .pclr x0 n v => Sys2Proof.Machine.execPclr x0 n v s
  | .predictorInitDone n => Sys2Proof.Machine.execPredictorInitDone n s
  | .retcntLoRead x0 n => Sys2Proof.Machine.execRetcntLoRead x0 n s
  | .tableReadResponse n => Sys2Proof.Machine.execTableReadResponse n s
  | .tlbiPacket n k => Sys2Proof.Machine.execTlbiPacket n k s
  | .tlbiAck k => Sys2Proof.Machine.execTlbiAck k s
  | .cacheFill n a => Sys2Proof.Machine.execCacheFill n a s
  | .meClean x0 e v => Sys2Proof.Machine.execMeClean x0 e v s
  | .meInvalidate x0 e v => Sys2Proof.Machine.execMeInvalidate x0 e v s
  | .meCleanInvalidate x0 e v => Sys2Proof.Machine.execMeCleanInvalidate x0 e v s
  | .meAbort x0 e v => Sys2Proof.Machine.execMeAbort x0 e v s
  | .meAbortDone e => Sys2Proof.Machine.execMeAbortDone e s
  | .meSweepDone e => Sys2Proof.Machine.execMeSweepDone e s
  | .cacheInitDone e => Sys2Proof.Machine.execCacheInitDone e s
  | .logLineTimer n => Sys2Proof.Machine.execLogLineTimer n s
  | .log k => Sys2Proof.Machine.execLog k s
  | .crd k => Sys2Proof.Machine.execCrd k s
  | .brposLoRead x0 n => Sys2Proof.Machine.execBrposLoRead x0 n s
  | .rdSh k => Sys2Proof.Machine.execRdSh k s
  | .rdUn k => Sys2Proof.Machine.execRdUn k s
  | .rdNc k => Sys2Proof.Machine.execRdNc k s
  | .wrBk k => Sys2Proof.Machine.execWrBk k s
  | .wrLn k => Sys2Proof.Machine.execWrLn k s
  | .wrPt k => Sys2Proof.Machine.execWrPt k s
  | .cmoPacket k => Sys2Proof.Machine.execCmoPacket k s
  | .evCl k => Sys2Proof.Machine.execEvCl k s
  | .snp k => Sys2Proof.Machine.execSnp k s
  | .rcl k => Sys2Proof.Machine.execRcl k s
  | .trc k => Sys2Proof.Machine.execTrc k s
  | .data k => Sys2Proof.Machine.execData k s
  | .dataS k => Sys2Proof.Machine.execDataS k s
  | .ack k => Sys2Proof.Machine.execAck k s
  | .snpAck k => Sys2Proof.Machine.execSnpAck k s
  | .snpData k => Sys2Proof.Machine.execSnpData k s
  | .packetSwitch r k => Sys2Proof.Machine.execPacketSwitch r k s
  | .drainClear r => Sys2Proof.Machine.execDrainClear r s
  | .mcInit x0 m v => Sys2Proof.Machine.execMcInit x0 m v s
  | .trainingDone m ok0 ok1 => Sys2Proof.Machine.execTrainingDone m ok0 ok1 s
  | .ipeOn x0 m v => Sys2Proof.Machine.execIpeOn x0 m v s
  | .treeInitDone m => Sys2Proof.Machine.execTreeInitDone m s
  | .keyRangeWrite x0 m r lim v => Sys2Proof.Machine.execKeyRangeWrite x0 m r lim v s
  | .dramRead m a x => Sys2Proof.Machine.execDramRead m a x s
  | .dramWrite m a d poison => Sys2Proof.Machine.execDramWrite m a d poison s
  | .reencryptDone m => Sys2Proof.Machine.execReencryptDone m s
  | .mr4Read m v => Sys2Proof.Machine.execMr4Read m v s
  | .periodicCalibration m => Sys2Proof.Machine.execPeriodicCalibration m s
  | .sweepRewrite x0 m v => Sys2Proof.Machine.execSweepRewrite x0 m v s
  | .sweepZero x0 m v => Sys2Proof.Machine.execSweepZero x0 m v s
  | .sweepAbort x0 m v => Sys2Proof.Machine.execSweepAbort x0 m v s
  | .sweepDone m => Sys2Proof.Machine.execSweepDone m s
  | .sourceFire j => Sys2Proof.Machine.execSourceFire j s
  | .msiMessage m => Sys2Proof.Machine.execMsiMessage m s
  | .ertLoWrite x0 e v => Sys2Proof.Machine.execErtLoWrite x0 e v s
  | .dbellWrite x0 hi v => Sys2Proof.Machine.execDbellWrite x0 hi v s
  | .moderationIntervalEnd g => Sys2Proof.Machine.execModerationIntervalEnd g s
  | .swfireWrite x0 j v => Sys2Proof.Machine.execSwfireWrite x0 j v s
  | .pfCreate x0 v => Sys2Proof.Machine.execPfCreate x0 v s
  | .pfDestroy x0 v => Sys2Proof.Machine.execPfDestroy x0 v s
  | .pfReset x0 v => Sys2Proof.Machine.execPfReset x0 v s
  | .pfResize x0 v => Sys2Proof.Machine.execPfResize x0 v s
  | .pfCommandDone => Sys2Proof.Machine.execPfCommandDone s
  | .queueEnable x0 f q v => Sys2Proof.Machine.execQueueEnable x0 f q v s
  | .queueDisable x0 f q v => Sys2Proof.Machine.execQueueDisable x0 f q v s
  | .qDbWrite x0 f q v => Sys2Proof.Machine.execQDbWrite x0 f q v s
  | .descriptorStart e => Sys2Proof.Machine.execDescriptorStart e s
  | .copy e j => Sys2Proof.Machine.execCopy e j s
  | .fill e j => Sys2Proof.Machine.execFill e j s
  | .aes e j => Sys2Proof.Machine.execAes e j s
  | .hash e j => Sys2Proof.Machine.execHash e j s
  | .ecdsaSign e j => Sys2Proof.Machine.execEcdsaSign e j s
  | .ecdsaVerify e j => Sys2Proof.Machine.execEcdsaVerify e j s
  | .mlkemKeygen e j => Sys2Proof.Machine.execMlkemKeygen e j s
  | .mlkemEncaps e j => Sys2Proof.Machine.execMlkemEncaps e j s
  | .mlkemDecaps e j => Sys2Proof.Machine.execMlkemDecaps e j s
  | .txf e j => Sys2Proof.Machine.execTxf e j s
  | .rxb e j => Sys2Proof.Machine.execRxb e j s
  | .descriptorComplete e j => Sys2Proof.Machine.execDescriptorComplete e j s
  | .vfRstWrite x0 f v => Sys2Proof.Machine.execVfRstWrite x0 f v s
  | .vfResetDone f => Sys2Proof.Machine.execVfResetDone f s
  | .ethFrameReceive p x => Sys2Proof.Machine.execEthFrameReceive p x s
  | .tsLoRead x0 p => Sys2Proof.Machine.execTsLoRead x0 p s
  | .gdOffsetWrite x0 g v => Sys2Proof.Machine.execGdOffsetWrite x0 g v s
  | .ethLinkChange p up => Sys2Proof.Machine.execEthLinkChange p up s
  | .qbvChange x0 p v => Sys2Proof.Machine.execQbvChange x0 p v s
  | .gateListSwitch p => Sys2Proof.Machine.execGateListSwitch p s
  | .gateEntryEnd p => Sys2Proof.Machine.execGateEntryEnd p s
  | .tblRead x0 v => Sys2Proof.Machine.execTblRead x0 v s
  | .tblWrite x0 v => Sys2Proof.Machine.execTblWrite x0 v s
  | .tableOpDone => Sys2Proof.Machine.execTableOpDone s
  | .pcieLinkEnable x0 p v => Sys2Proof.Machine.execPcieLinkEnable x0 p v s
  | .pcieLinkChange p up => Sys2Proof.Machine.execPcieLinkChange p up s
  | .perstRelease p => Sys2Proof.Machine.execPerstRelease p s
  | .pcieInboundRequest p x => Sys2Proof.Machine.execPcieInboundRequest p x s
  | .pcieCompletion p x => Sys2Proof.Machine.execPcieCompletion p x s
  | .pcieCompletionTimeout p j => Sys2Proof.Machine.execPcieCompletionTimeout p j s
  | .parrahaWr p x => Sys2Proof.Machine.execParrahaWr p x s
  | .parrahaRd p x => Sys2Proof.Machine.execParrahaRd p x s
  | .parrahaRdr p x => Sys2Proof.Machine.execParrahaRdr p x s
  | .parrahaMsg p x => Sys2Proof.Machine.execParrahaMsg p x s
  | .parrahaNack p x => Sys2Proof.Machine.execParrahaNack p x s
  | .parrahaTick p x => Sys2Proof.Machine.execParrahaTick p x s
  | .tickSend => Sys2Proof.Machine.execTickSend s
  | .delayMeasureTimer p => Sys2Proof.Machine.execDelayMeasureTimer p s
  | .dlyReq p x => Sys2Proof.Machine.execDlyReq p x s
  | .dlyRsp p x => Sys2Proof.Machine.execDlyRsp p x s
  | .parrahaLinkChange p up => Sys2Proof.Machine.execParrahaLinkChange p up s
  | .msgRingEnable x0 v => Sys2Proof.Machine.execMsgRingEnable x0 v s
  | .xspiGo x0 v => Sys2Proof.Machine.execXspiGo x0 v s
  | .xspiDone ok d => Sys2Proof.Machine.execXspiDone ok d s
  | .lowSpeedCommand x0 k v => Sys2Proof.Machine.execLowSpeedCommand x0 k v s
  | .gpioEdge g rise => Sys2Proof.Machine.execGpioEdge g rise s
  | .capsel v => Sys2Proof.Machine.execCapsel v s
  | .caprd bits => Sys2Proof.Machine.execCaprd bits s
  | .rng x0 p v => Sys2Proof.Machine.execRng x0 p v s
  | .bootimg x0 p v => Sys2Proof.Machine.execBootimg x0 p v s
  | .diceNext x0 p v => Sys2Proof.Machine.execDiceNext x0 p v s
  | .mrExtend x0 p v => Sys2Proof.Machine.execMrExtend x0 p v s
  | .attest x0 p v => Sys2Proof.Machine.execAttest x0 p v s
  | .getpub x0 p v => Sys2Proof.Machine.execGetpub x0 p v s
  | .slotInstall x0 p v => Sys2Proof.Machine.execSlotInstall x0 p v s
  | .slotErase x0 p v => Sys2Proof.Machine.execSlotErase x0 p v s
  | .confSet x0 p v => Sys2Proof.Machine.execConfSet x0 p v s
  | .confClr x0 p v => Sys2Proof.Machine.execConfClr x0 p v s
  | .keyGen x0 p v => Sys2Proof.Machine.execKeyGen x0 p v s
  | .keyErase x0 p v => Sys2Proof.Machine.execKeyErase x0 p v s
  | .keyPub x0 p v => Sys2Proof.Machine.execKeyPub x0 p v s
  | .ctrAdv x0 p v => Sys2Proof.Machine.execCtrAdv x0 p v s
  | .dbgChal x0 p v => Sys2Proof.Machine.execDbgChal x0 p v s
  | .dbgResp x0 p v => Sys2Proof.Machine.execDbgResp x0 p v s
  | .lcAdv x0 p v => Sys2Proof.Machine.execLcAdv x0 p v s
  | .provHash x0 p v => Sys2Proof.Machine.execProvHash x0 p v s
  | .provRevoke x0 p v => Sys2Proof.Machine.execProvRevoke x0 p v s
  | .provCfg x0 p v => Sys2Proof.Machine.execProvCfg x0 p v s
  | .mailboxCommandDone => Sys2Proof.Machine.execMailboxCommandDone s
  | .katDone ok => Sys2Proof.Machine.execKatDone ok s
  | .rvbarWrite x0 hi v => Sys2Proof.Machine.execRvbarWrite x0 hi v s
  | .stlRunStart x0 k v => Sys2Proof.Machine.execStlRunStart x0 k v s
  | .stlRunStop x0 k v => Sys2Proof.Machine.execStlRunStop x0 k v s
  | .stlWinAccess x0 k w d => Sys2Proof.Machine.execStlWinAccess x0 k w d s
  | .stoolFire j => Sys2Proof.Machine.execStoolFire j s
  | .stlInterruptEntry k => Sys2Proof.Machine.execStlInterruptEntry k s
  | .controlWindowTimeout k => Sys2Proof.Machine.execControlWindowTimeout k s
  | .stlLd k b => Sys2Proof.Machine.execStlLd k b s
  | .stlSt k b => Sys2Proof.Machine.execStlSt k b s
  | .stlAdd k b => Sys2Proof.Machine.execStlAdd k b s
  | .stlAdc k b => Sys2Proof.Machine.execStlAdc k b s
  | .stlSub k b => Sys2Proof.Machine.execStlSub k b s
  | .stlSbc k b => Sys2Proof.Machine.execStlSbc k b s
  | .stlAnd k b => Sys2Proof.Machine.execStlAnd k b s
  | .stlOr k b => Sys2Proof.Machine.execStlOr k b s
  | .stlXor k b => Sys2Proof.Machine.execStlXor k b s
  | .stlCmp k b => Sys2Proof.Machine.execStlCmp k b s
  | .xld k b => Sys2Proof.Machine.execXld k b s
  | .xst k b => Sys2Proof.Machine.execXst k b s
  | .yld k b => Sys2Proof.Machine.execYld k b s
  | .yst k b => Sys2Proof.Machine.execYst k b s
  | .xinc k b => Sys2Proof.Machine.execXinc k b s
  | .xdec k b => Sys2Proof.Machine.execXdec k b s
  | .yinc k b => Sys2Proof.Machine.execYinc k b s
  | .ydec k b => Sys2Proof.Machine.execYdec k b s
  | .xcmp k b => Sys2Proof.Machine.execXcmp k b s
  | .ycmp k b => Sys2Proof.Machine.execYcmp k b s
  | .movxa k b => Sys2Proof.Machine.execMovxa k b s
  | .movax k b => Sys2Proof.Machine.execMovax k b s
  | .movya k b => Sys2Proof.Machine.execMovya k b s
  | .movay k b => Sys2Proof.Machine.execMovay k b s
  | .movxs k b => Sys2Proof.Machine.execMovxs k b s
  | .movsx k b => Sys2Proof.Machine.execMovsx k b s
  | .movba k b => Sys2Proof.Machine.execMovba k b s
  | .movab k b => Sys2Proof.Machine.execMovab k b s
  | .bkld k b => Sys2Proof.Machine.execBkld k b s
  | .push k b => Sys2Proof.Machine.execPush k b s
  | .pop k b => Sys2Proof.Machine.execPop k b s
  | .pushx k b => Sys2Proof.Machine.execPushx k b s
  | .popx k b => Sys2Proof.Machine.execPopx k b s
  | .pushy k b => Sys2Proof.Machine.execPushy k b s
  | .popy k b => Sys2Proof.Machine.execPopy k b s
  | .pushf k b => Sys2Proof.Machine.execPushf k b s
  | .popf k b => Sys2Proof.Machine.execPopf k b s
  | .stlMul k b => Sys2Proof.Machine.execStlMul k b s
  | .divu k b => Sys2Proof.Machine.execDivu k b s
  | .aneg k b => Sys2Proof.Machine.execAneg k b s
  | .br k b => Sys2Proof.Machine.execBr k b s
  | .brCond k b => Sys2Proof.Machine.execBrCond k b s
  | .jp k b => Sys2Proof.Machine.execJp k b s
  | .jpf k b => Sys2Proof.Machine.execJpf k b s
  | .call k b => Sys2Proof.Machine.execCall k b s
  | .callf k b => Sys2Proof.Machine.execCallf k b s
  | .stlRet k b => Sys2Proof.Machine.execStlRet k b s
  | .iret k b => Sys2Proof.Machine.execIret k b s
  | .jpx k b => Sys2Proof.Machine.execJpx k b s
  | .stlNop k b => Sys2Proof.Machine.execStlNop k b s
  | .idle k b => Sys2Proof.Machine.execIdle k b s
  | .inton k b => Sys2Proof.Machine.execInton k b s
  | .intoff k b => Sys2Proof.Machine.execIntoff k b s
  | .swx k b => Sys2Proof.Machine.execSwx k b s
  | .ainc k b => Sys2Proof.Machine.execAinc k b s
  | .adec k b => Sys2Proof.Machine.execAdec k b s
  | .anot k b => Sys2Proof.Machine.execAnot k b s
  | .stlShl k b => Sys2Proof.Machine.execStlShl k b s
  | .stlShr k b => Sys2Proof.Machine.execStlShr k b s
  | .stlSar k b => Sys2Proof.Machine.execStlSar k b s
  | .stlRdtime k b => Sys2Proof.Machine.execStlRdtime k b s
  | .rdtimh k b => Sys2Proof.Machine.execRdtimh k b s
  | .stlRdfeat k b => Sys2Proof.Machine.execStlRdfeat k b s
  | .dcmdStop x0 v => Sys2Proof.Machine.execDcmdStop x0 v s
  | .dcmdWake x0 v => Sys2Proof.Machine.execDcmdWake x0 v s
  | .dcmdReset x0 v => Sys2Proof.Machine.execDcmdReset x0 v s
  | .cabinetReset x0 c v => Sys2Proof.Machine.execCabinetReset x0 c v s
  | .stopSequenceDone d => Sys2Proof.Machine.execStopSequenceDone d s
  | .eventWake => Sys2Proof.Machine.execEventWake s
  | .wakeDone d => Sys2Proof.Machine.execWakeDone d s
  | .wakeFailure d cause => Sys2Proof.Machine.execWakeFailure d cause s
  | .chipStop x0 v c => Sys2Proof.Machine.execChipStop x0 v c s
  | .chipSysrst x0 v => Sys2Proof.Machine.execChipSysrst x0 v s
  | .wakeNFall => Sys2Proof.Machine.execWakeNFall s
  | .aonTimerMatch => Sys2Proof.Machine.execAonTimerMatch s
  | .pwrGoodTimeout => Sys2Proof.Machine.execPwrGoodTimeout s
  | .timePllLock c => Sys2Proof.Machine.execTimePllLock c s
  | .chipWakePllFail => Sys2Proof.Machine.execChipWakePllFail s
  | .aonLoRead x0 c => Sys2Proof.Machine.execAonLoRead x0 c s
  | .porstNLow => Sys2Proof.Machine.execPorstNLow s
  | .aonSupplyDip => Sys2Proof.Machine.execAonSupplyDip s
  | .sysrstNLow => Sys2Proof.Machine.execSysrstNLow s
  | .hbKick x0 v => Sys2Proof.Machine.execHbKick x0 v s
  | .hbResume x0 v => Sys2Proof.Machine.execHbResume x0 v s
  | .hbKickExpiry => Sys2Proof.Machine.execHbKickExpiry s
  | .hbCtlWrite x0 v => Sys2Proof.Machine.execHbCtlWrite x0 v s
  | .fzCmdFreeze x0 v => Sys2Proof.Machine.execFzCmdFreeze x0 v s
  | .freezeNLow => Sys2Proof.Machine.execFreezeNLow s
  | .powerOnResetRelease => Sys2Proof.Machine.execPowerOnResetRelease s
  | .pwrGoodRise => Sys2Proof.Machine.execPwrGoodRise s
  | .jtagControlAccess x => Sys2Proof.Machine.execJtagControlAccess x s
  | .pcieAerError p cls => Sys2Proof.Machine.execPcieAerError p cls s
  | .ufsDoorbell x0 o v => Sys2Proof.Machine.execUfsDoorbell x0 o v s
  | .ufsTransferDone ok a d => Sys2Proof.Machine.execUfsTransferDone ok a d s
  | .lowSpeedTransferDone k d => Sys2Proof.Machine.execLowSpeedTransferDone k d s
  | .lowSpeedReceive k d => Sys2Proof.Machine.execLowSpeedReceive k d s

end Sys2Proof.Machine
end

