-- ==== Sys2Proof/Machine/OzEncode.lean ====
section
/-! DEFINITION. The bytes of a decoded instruction, written from the encoding tables: Ozhorn-64 (04 R78-R92) and Lintos (16
R434-R437). -/

namespace Sys2Proof.Machine

/-- The prefix bytes in the order of their classes, the register extension last (04 R79, R80). -/
def Pfx.bytes (p : Pfx) : List Byte :=
  (p.size.map (fun z => BitVec.ofNat 8 (0x60 + z))).toList ++ (p.vec.map (fun z => BitVec.ofNat 8 (0x64 + z))).toList
    ++ (p.ord.map (fun z => BitVec.ofNat 8 (0x68 + z))).toList ++ (p.hint.map (fun z => BitVec.ofNat 8 (0x6C + z))).toList
    ++ (p.ext.map (fun x => BitVec.ofNat 8 (0x80 + x))).toList

/-- The escape byte of a map (04 R78). -/
def mapBytes (m : Nat) : List Byte := if m = 0 then [] else if m = 1 then [0x6F] else [0x6E]

/-- The form of an opcode (04 R89-R92). -/
def formOf (m opc : Nat) : Form :=
  match (if m = 0 then map0 opc else if m = 1 then map1 opc else map2 opc) with
  | some (f, _) => f
  | none => .none

/-- The bytes of the immediate or displacement of a form (04 R85). -/
def Form.immLen (f : Form) (opc : Nat) : Nat :=
  match f with
  | .imm k => k
  | .rrImm k => k
  | .mem => dispLen (opc % 4)
  | _ => 0

/-- The bytes of an Ozhorn-64 instruction. -/
def ozEncode (i : Insn) : List Byte :=
  let f := formOf i.map i.opc
  let k := f.immLen i.opc
  i.pfx.bytes ++ mapBytes i.map ++ [BitVec.ofNat 8 i.opc]
    ++ (if f.hasOperand then [BitVec.ofNat 8 (16 * (i.a % 16) + i.b % 16)] else [])
    ++ leBytes k (i.imm % (2 ^ (8 * k) : Nat)).toNat

/-- The bytes of a Lintos instruction: width, bank and LONG prefixes, opcode, operand bytes (16 R434-R437). -/
def stlEncode (i : StlInsn) : List Byte :=
  (if i.w = 8 then [0xF0] else if i.w = 16 then [0xF1] else [])
    ++ (match i.bank with
        | some k => [0xF2, k]
        | none => [])
    ++ (if i.long then [0xF3] else []) ++ [BitVec.ofNat 8 i.op] ++ leBytes (stlOperands i.op i.long) i.imm

end Sys2Proof.Machine
end

