-- ==== Sys2Proof/Safety.lean ====
section
/-! DEFINITION. What counts as a safe run, and the terms in which claims about this block are stated: when a core or an engine
carries an instruction out, what its retirement leaves alone, and what only ever moves forward. -/

namespace Sys2Proof.Machine

/-- The block can take its next step: it neither faults nor refuses. -/
def Safe (s : State) : Prop := ∃ t, step s = .next t

/-- A run of `k` steps from `s` reaches `t`. -/
def Reaches : Nat → State → State → Prop
  | 0, s, t => s = t
  | k + 1, s, t => ∃ u, step s = .next u ∧ Reaches k u t

/-! ### Caches and translation -/

/-- A core without what fetches, caches and translates for it: its TLBs and walk, its L1 caches, its prefetch queue, and the data on its way to
an access. -/
def Core.arch (c : Core) : Core :=
  { c with
    itlb := [], dtlb := [], l2tlb := [], l2rr := [], walk := none, l1i := {}, l1d := {}, queue := [], fetchWait := none, stuck := false
    xlWait := none, ext := [], given := [], came := [], replay := [] }

/-- From `s` to `t` nothing changed but caches, TLBs, walks, the fabric, counters and error reports: every register of every core and engine,
all memory behind the caches, TIME, the frame, power, the root of trust and the ports are as they were. -/
structure ViaCaches (s t : State) : Prop where
  cores : ∀ m, (t.core m).arch = (s.core m).arch
  mem : t.mem = s.mem
  stools : t.stools = s.stools
  clock : t.clock = s.clock
  frame : t.frame = s.frame
  ev : t.ev = s.ev
  power : t.power = s.power
  otp : t.otp = s.otp
  rot : t.rot = s.rot
  te : t.te = s.te
  port : t.port = s.port
  soft : t.soft = s.soft
  pending : t.pending = s.pending

/-! ### Ozhorn-64 instructions -/

/-- Core `n`, which is no shadow, carries out the instruction `i` that the bytes `b` spell; `u` is the state when the bytes have been
fetched, and fetch has gone on along the predicted path (04 R103; 06 R152, R160).  Nothing stands in its way: the block and the core run, no interrupt must be entered first,
and the log of a primary has room. -/
structure Issues (s : State) (n : Fin 192) (b : List Byte) (i : Insn) (u : State) : Prop where
  runs : s.stalled = false
  may : s.mayIssue n.val = true
  calm : (s.core n.val).mustEnter = false
  room : s.stalledPrimary n.val = false
  single : (s.core n.val).isShadow = false
  spells : ozDecode b = .ok i
  fetched : s.fetchFor n.val i = (.ok, u)

/-- The address after instruction `i` of core `n`. -/
def seqOf (u : State) (n : Fin 192) (i : Insn) : W64 := (u.core n.val).pc + BitVec.ofNat 64 i.len

/-- What the retirement of an instruction of core `n` leaves alone from `u` to `t`, whatever the instruction did to the core itself:
all memory, every cache outside the core, every other core and engine, every register of every page but RETCNT, and the
rest of the block.  A primary's log may put packets into the fabric (09 R252, R253). -/
structure Rest (u t : State) (n : Fin 192) : Prop where
  mem : t.mem = u.mem
  coh : t.coh = u.coh
  stools : t.stools = u.stools
  clock : t.clock = u.clock
  frame : t.frame = u.frame
  ev : t.ev = u.ev
  err : t.err = u.err
  otp : t.otp = u.otp
  rot : t.rot = u.rot
  te : t.te = u.te
  port : t.port = u.port
  soft : t.soft = u.soft
  pending : t.pending = u.pending
  fresh : t.fresh = u.fresh
  power : t.power = { u.power with selfLeft := t.power.selfLeft }
  net : t.net = { u.net with flights := t.net.flights }
  others : ∀ m, m ≠ n.val → t.core m = u.core m
  regs : ∀ a, a ≠ corePage n.val 0x110 → a ≠ corePage n.val 0x114 → t.reg a = u.reg a
  count : t.reg64 (corePage n.val 0x110) = (u.reg64 (corePage n.val 0x110) + 1) % 2 ^ 64
  alone : (u.core n.val).bunk.bound = false → t.net = u.net ∧ (t.core n.val).bunk = (u.core n.val).bunk

/-- From `u` to `t` core `n` retires an instruction that left the core's registers as `c`, with `seq` the next address: the loop-back of
04 R107, the end of the windows that an entry opened (04 R105; 12 R344), and nothing else. -/
def Retires (u t : State) (n : Fin 192) (c : Core) (seq : W64) : Prop :=
  t.core n.val = { (c.loopBack seq).settled with bunk := (t.core n.val).bunk } ∧ Rest u t n

/-- The same for a taken branch to `target`, which makes no loop-back. -/
def Jumps (u t : State) (n : Fin 192) (c : Core) (target : W64) : Prop :=
  t.core n.val = { ({ c with pc := target }).settled with bunk := (t.core n.val).bunk } ∧ Rest u t n

/-! ### Lintos instructions -/

/-- Engine `k`, no chip stool, carries out the instruction `i` that the bytes `b` spell; `u` is the state when its bytes have been read
from its SRAM (16 R432, R447). -/
structure StlIssues (s : State) (k : Fin 34) (b : List Byte) (i : StlInsn) (u : State) : Prop where
  runs : s.stalled = false
  own : k.val < 32
  ready : s.stlReady k.val = true
  calm : (s.stool k.val).deliverable = none
  spells : stlDecode b = .ok i
  fetched : s.stlFetch k.val (s.stool k.val).pc.toNat 0 i.len = (none, u)

/-- The engine as an instruction finds it: its PC is already that of the next one (16 R431). -/
def stlNext (s : State) (k : Fin 34) (i : StlInsn) : Stool :=
  { s.stool k.val with pc := (s.stool k.val).pc + BitVec.ofNat 24 i.len }

/-- From `u` to `t` engine `k` completes an instruction that left its registers as `r`: they are the engine's, STLCNT counts, and
nothing else changes. -/
def StlCompletes (u t : State) (k : Fin 34) (r : Stool) : Prop :=
  t = (u.setStool k.val ((u.stool k.val).take r)).count (stoolPage k.val 0x54)

/-! ### Control space -/

/-- Initiator `i` may write the register at control-space offset `a` now, and the write is performed: page `p` stands there and answers,
is in no reset, and belongs to the initiator (02 R26, R31-R33). -/
structure MayWrite (s : State) (i : Initiator) (a : Nat) (p : Page) : Prop where
  runs : s.stalled = false
  there : s.pageAt a = some p
  word : a % 4 = 0
  owns : s.partOf i = 0 ∨ (s.fld (p.base + 0x24) 0 6 = (s.partOf i).toNat ∧ p.sysOnly (a % 4096) = false)
  takes : s.writeVoid p (a % 4096) = false

/-- Initiator `i` can read the register at control-space offset `a`: page `p` answers. -/
structure MayRead (s : State) (a : Nat) (p : Page) : Prop where
  runs : s.stalled = false
  there : s.pageAt a = some p

/-- From `s` to `t` nothing changed but registers, and of those only the ones at the offsets `l`. -/
structure OnlyRegs (s t : State) (l : List Nat) : Prop where
  rest : t = { s with regs := t.regs }
  others : ∀ a, a ∉ l → t.reg a = s.reg a

/-- The same where errors may have been reported beside it (18 R495). -/
structure OnlyRegsErr (s t : State) (l : List Nat) : Prop where
  rest : t = { s with regs := t.regs, err := { s.err with reports := t.err.reports, seen := t.err.seen } }
  others : ∀ a, a ∉ l → t.reg a = s.reg a

/-! ### What only moves forward -/

/-- The configuration area `b` is a later one than `a`: the lifecycle moved forward only, no counter decreased, a revoked slot is still
revoked or erased with the device in Analysis, and from Field on BOOTCFG and the key hashes are fixed (15 R405, R408, R409). -/
structure OtpLe (a b : Otp) : Prop where
  life : a.lc ≤ b.lc
  counters : ∀ k, (SMap.get 0 a.ctrs k).toNat ≤ (SMap.get 0 b.ctrs k).toNat
  revoked : ∀ k, (SMap.get {} a.hashes k).revoked = true →
    (SMap.get {} b.hashes k).revoked = true ∨ (b.lc = 3 ∧ (SMap.get {} b.hashes k).valid = false)
  fixed : 2 ≤ a.lc → b.bootcfg = a.bootcfg ∧
    ∀ k, (SMap.get {} b.hashes k).valid = true →
      (SMap.get {} a.hashes k).valid = true ∧ (SMap.get {} b.hashes k).hash = (SMap.get {} a.hashes k).hash

end Sys2Proof.Machine
end

