-- ==== Sys2Proof/Certificates/Slice0/Obligations.lean ====
section
/-! DEFINITION. The statements about this block. -/

section

open Sys2Proof Sys2Proof.Machine

/-! ### The block as a whole -/

/-- A command at the front of the queue is performed on the state whose queue is the rest. -/
def Rules.StepPerformsFront : Prop :=
  ∀ (s : State) (c : Instr) (rest : List Instr), step { s with pending := c :: rest } = exec c { s with pending := rest }

/-- With nothing in the queue the block idles.  DESIGN CHOICE of the model (assumption log 39). -/
def Rules.EmptyQueueIdles : Prop := ∀ s : State, s.pending = [] → step s = .next s

/-- Every command has an effect: the block never faults, and refuses only an Ozhorn-64 or Lintos row whose bytes spell an instruction of
another row (17 R492: what is wrong is recorded, and the block goes on). -/
def Obligations.CommandsAnswer : Prop :=
  ∀ (c : Instr) (s : State), (∃ t, exec c s = .next t) ∨ exec c s = .refused .otherEncoding

/-- No command changes the queue of commands that wait. -/
def Obligations.ExecKeepsQueue : Prop := ∀ (c : Instr) (s t : State), exec c s = .next t → t.pending = s.pending

/-- Whatever happens, lifecycle, counters, BOOTCFG and key hash slots only move forward: what is later than `o` before a step is later than `o`
after it (15 R405, R408, R409). -/
def Obligations.OtpMovesForward : Prop := ∀ (o : Otp) (s t : State), OtpLe o s.otp → step s = .next t → OtpLe o t.otp

/-- The configuration area after reset is not earlier than a blank one: the invariant of OtpMovesForward holds at reset, with the lifecycle in
Manufacturing and every counter 0 (15 R405, R409). -/
def Obligations.OtpAtReset : Prop := OtpLe {} State.reset.otp ∧ State.reset.otp.lc = 0 ∧ ∀ k, SMap.get 0 State.reset.otp.ctrs k = 0

/-- The commands from the block's surroundings that act even while it stands still: pins, supplies and counters of the always-on domain, and the capture
chain. -/
def ActsWhileStalled (c : Instr) : Prop :=
  match c with
  | .thermtripSample _ | .wakeNFall | .aonTimerMatch | .pwrGoodRise | .pwrGoodTimeout | .timePllLock _ | .chipWakePllFail | .porstNLow | .aonSupplyDip
  | .sysrstNLow | .powerOnResetRelease | .capsel _ | .caprd _ => True
  | _ => False

/-- While the device is frozen, in chip Stop or held in power-on reset, every command but those from its surroundings leaves it as it is (18 R508; 17
R478; 19 R521). -/
def Obligations.StalledBlockHoldsStill : Prop :=
  ∀ (s : State) (c : Instr), s.stalled = true → ¬ActsWhileStalled c → exec c s = .next s

/-! ### Encoding -/

/-- Decoding an Ozhorn-64 instruction drops no bit of it: whatever bytes decode to `i`, its encoding decodes to `i` again and holds exactly the
bytes that were decoded, with the prefixes in the order of their classes (04 R78-R92). -/
def Rules.OzEncodingRoundTrip : Prop :=
  ∀ (b : List Byte) (i : Insn), ozDecode b = .ok i → ozDecode (ozEncode i) = .ok i ∧ (ozEncode i).Perm (b.take i.len)

/-- The same of a Lintos instruction (16 R434-R437). -/
def Rules.StlEncodingRoundTrip : Prop :=
  ∀ (b : List Byte) (i : StlInsn), stlDecode b = .ok i → stlDecode (stlEncode i) = .ok i ∧ (stlEncode i).Perm (b.take i.len)

/-- Words written out from the tables of the spec decode to what they stand for: ADD of map 0 with an operand byte (04 R89), the 32-bit DIV.INITS
of the example of 05 R132, DSTEP and DIV.FIN of the same, STL_NOP and a LONG load of 16 R434-R437, and an opcode that is
undefined. -/
def Obligations.SpecWordsDecode : Prop :=
  (∃ i, ozDecode [0x40, 0x12] = .ok i ∧ i.op = .add ∧ i.a = 1 ∧ i.b = 2 ∧ i.c = 1 ∧ i.w = 64 ∧ i.len = 2)
    ∧ (∃ i, ozDecode [0x60, 0x8C, 0x6F, 0x69, 0xAB] = .ok i ∧ i.op = .divInits ∧ i.a = 10 ∧ i.b = 11 ∧ i.c = 12 ∧ i.w = 32 ∧ i.len = 5)
    ∧ (∃ i, ozDecode [0x60, 0x8C, 0x6F, 0x6A, 0xAB] = .ok i ∧ i.op = .dstep)
    ∧ (∃ i, ozDecode [0x60, 0x8C, 0x6F, 0x6B, 0xAB] = .ok i ∧ i.op = .divFin)
    ∧ ozDecode [0x5C, 0x00] = .ill 1
    ∧ (∃ i, stlDecode [0x80] = .ok i ∧ i.op = 0x80 ∧ i.len = 1)
    ∧ (∃ i, stlDecode [0xF3, 0x00, 0x78, 0x56, 0x34, 0x12] = .ok i ∧ i.op = 0 ∧ i.long = true ∧ i.imm = 0x12345678 ∧ i.len = 6)

/-! ### Fetch and retirement of Ozhorn-64 instructions -/

/-- Fetching an instruction's bytes changes no register, no flag and no byte of memory behind the caches: the frame of the fetch (06 R153; 07
R196). -/
def Rules.FetchLeavesRegisters : Prop :=
  ∀ (s u : State) (n : Fin 192) (b : List Byte) (i : Insn), Issues s n b i u → ViaCaches s u

/-- The loop-back (04 R107), for a core as an instruction left it and the instruction's next sequential address: with LA at 1 and the address
equal to LEND, LCNT counts down, and execution continues at LSTART, or with LA at 0 at LEND; in every other case
execution continues at the address and nothing else changes. -/
def Rules.LoopBackRule : Prop :=
  ∀ (c : Core) (q : W64),
    (bitOf (c.sysReg 0) 8 = true → c.sysReg 4 = q → c.sysReg 2 ≠ 1 →
      c.loopBack q = { c.setSys 2 (c.sysReg 2 - 1) with pc := c.sysReg 3 })
    ∧ (bitOf (c.sysReg 0) 8 = true → c.sysReg 4 = q → c.sysReg 2 = 1 →
      (c.loopBack q).pc = q ∧ (c.loopBack q).sysReg 2 = 0 ∧ bitOf ((c.loopBack q).sysReg 0) 8 = false
        ∧ (∀ k, k ≠ 8 → bitOf ((c.loopBack q).sysReg 0) k = bitOf (c.sysReg 0) k)
        ∧ (∀ r, r ≠ 0 → r ≠ 2 → (c.loopBack q).sysReg r = c.sysReg r) ∧ (c.loopBack q).g = c.g ∧ (c.loopBack q).f = c.f)
    ∧ ((bitOf (c.sysReg 0) 8 = false ∨ c.sysReg 4 ≠ q) → c.loopBack q = { c with pc := q })

/-- General register 0 reads 0 and discards writes; every other general register holds what is written, and a write changes no
other register (04 R70). -/
def Rules.RegisterZeroRule : Prop :=
  ∀ (c : Core) (k j : Nat) (v : W64),
    c.gr 0 = 0 ∧ c.setG 0 v = c ∧ (k ≠ 0 → (c.setG k v).gr k = v) ∧ (j ≠ k → (c.setG k v).gr j = c.gr j)
      ∧ (c.setG k v).f = c.f ∧ (c.setG k v).sys = c.sys

/-- The flags of a flag-setting form: STATUS[3:0] becomes N Z V C in the places of 04 R72, every other bit of STATUS stays. -/
def Rules.FlagsLeaveStatus : Prop :=
  ∀ (x : W64) (f : Nzcv), bitOf (putNzcv x f) 0 = f.c ∧ bitOf (putNzcv x f) 1 = f.v ∧ bitOf (putNzcv x f) 2 = f.z ∧ bitOf (putNzcv x f) 3 = f.n
    ∧ ∀ k, 4 ≤ k → bitOf (putNzcv x f) k = bitOf x k

/-! ### Integer instructions -/

/-- One row of the integer table: the command, its operation, its result at width `w` from the sources `c` and `b`, the unmasked count `k` and
STATUS.C, and C and V of its flag-setting form. -/
structure AluSpec where
  con : Fin 192 → List Byte → Instr
  op : OzOp
  val : (w c b k : Nat) → Bool → Nat
  cout : (w c b k : Nat) → Bool → Bool
  vout : (w c b k : Nat) → Bool → Bool

/-- Does an exact number lie outside MIN_w to MAX_w (05 R117)? -/
def outside (w : Nat) (x : Int) : Bool := decide (x < -(2 ^ (w - 1) : Nat)) || decide (((2 ^ (w - 1) : Nat) : Int) ≤ x)

/-- The sources of a borrow. -/
def one (b : Bool) : Nat := if b then 1 else 0

/-- ADD, SUB, ADC, SBC, AND, OR, XOR, ANDN, SHL, SHR, SAR and ROR (05 R117, R118, R120, R121). -/
def aluSpecs : List AluSpec :=
  [ ⟨.add, .add, fun w c b _ _ => (c + b) % 2 ^ w, fun w c b _ _ => decide (2 ^ w ≤ c + b), fun w c b _ _ => outside w (sextNat c w + sextNat b w)⟩,
    ⟨.sub, .sub, fun w c b _ _ => (c + 2 ^ w - b) % 2 ^ w, fun _ c b _ _ => decide (b ≤ c), fun w c b _ _ => outside w (sextNat c w - sextNat b w)⟩,
    ⟨.adc, .adc, fun w c b _ x => (c + b + one x) % 2 ^ w, fun w c b _ x => decide (2 ^ w ≤ c + b + one x),
      fun w c b _ x => outside w (sextNat c w + sextNat b w + one x)⟩,
    ⟨.sbc, .sbc, fun w c b _ x => (c + 2 ^ w - b + 2 ^ w - one (!x)) % 2 ^ w, fun _ c b _ x => decide (b + one (!x) ≤ c),
      fun w c b _ x => outside w (sextNat c w - sextNat b w - one (!x))⟩,
    ⟨.and, .and, fun _ c b _ _ => c &&& b, fun _ _ _ _ _ => false, fun _ _ _ _ _ => false⟩,
    ⟨.or, .or, fun _ c b _ _ => c ||| b, fun _ _ _ _ _ => false, fun _ _ _ _ _ => false⟩,
    ⟨.xor, .xor, fun _ c b _ _ => c ^^^ b, fun _ _ _ _ _ => false, fun _ _ _ _ _ => false⟩,
    ⟨.andn, .andn, fun w c b _ _ => c &&& (2 ^ w - 1 - b), fun _ _ _ _ _ => false, fun _ _ _ _ _ => false⟩,
    ⟨.shl, .shl, fun w c _ k _ => c * 2 ^ k % 2 ^ w, fun w c _ k _ => decide (1 ≤ k) && decide (k ≤ w) && c.testBit (w - k),
      fun _ _ _ _ _ => false⟩,
    ⟨.shr, .shr, fun _ c _ k _ => c / 2 ^ k, fun w c _ k _ => decide (1 ≤ k) && decide (k ≤ w) && c.testBit (k - 1),
      fun _ _ _ _ _ => false⟩,
    ⟨.sar, .sar, fun w c _ k _ => (sextNat c w / (2 ^ k : Nat) % (2 ^ w : Nat)).toNat,
      fun w c _ k _ => decide (1 ≤ k) && c.testBit (if k ≤ w then k - 1 else w - 1), fun _ _ _ _ _ => false⟩,
    ⟨.ror, .ror, fun w c _ k _ => (c / 2 ^ (k % w) + c * 2 ^ (w - k % w)) % 2 ^ w,
      fun w c _ k _ => ((c / 2 ^ (k % w) + c * 2 ^ (w - k % w)) % 2 ^ w).testBit (w - 1), fun _ _ _ _ _ => false⟩ ]

/-- The integer operations with a result in A: ADD, SUB, ADC, SBC, AND, OR, XOR, ANDN, SHL, SHR, SAR, ROR, in every operand form, width and flag
form.  A becomes the w-bit result zero-extended, a flag-setting form writes N, Z, C and V, and nothing else changes
(05 R117, R118, R120, R121; 04 R88). -/
def Rules.IntegerResults : Prop :=
  ∀ x ∈ aluSpecs, ∀ (s u : State) (n : Fin 192) (b : List Byte) (i : Insn), Issues s n b i u → i.op = x.op →
    let c := u.core n.val
    let v := x.val i.w (i.srcC c) (i.srcB c) (i.srcCount c) (bitOf c.status 0)
    let d := c.setG i.a (BitVec.ofNat 64 v)
    let fl : Nzcv := ⟨v.testBit (i.w - 1), decide (v = 0), x.cout i.w (i.srcC c) (i.srcB c) (i.srcCount c) (bitOf c.status 0),
      x.vout i.w (i.srcC c) (i.srcB c) (i.srcCount c) (bitOf c.status 0)⟩
    ∃ t, exec (x.con n b) s = .next t
      ∧ Retires u t n (if i.flags then d.setSys 0 (putNzcv d.status fl) else d) (seqOf u n i)

/-- MUL, MULHU, MULHS and MOV in every operand form: A becomes the result zero-extended; no flag is written (05 R124; 04 R89, R90). -/
def Rules.MultiplyAndMove : Prop :=
  ∀ x ∈ ([(.mul, .mul, fun w c b => c * b % 2 ^ w), (.mulhu, .mulhu, fun w c b => c * b / 2 ^ w),
        (.mulhs, .mulhs, fun w c b => (sextNat c w * sextNat b w / (2 ^ w : Nat) % (2 ^ w : Nat)).toNat), (.mov, .mov, fun _ _ b => b)] :
        List ((Fin 192 → List Byte → Instr) × OzOp × (Nat → Nat → Nat → Nat))),
    ∀ (s u : State) (n : Fin 192) (b : List Byte) (i : Insn), Issues s n b i u → i.op = x.2.1 →
      ∃ t, exec (x.1 n b) s = .next t
        ∧ Retires u t n ((u.core n.val).setG i.a (BitVec.ofNat 64 (x.2.2 i.w (i.srcC (u.core n.val)) (i.srcB (u.core n.val))))) (seqOf u n i)

/-- CMP and TST write N, Z, C and V from C - B and from C AND B, and no register (05 R117). -/
def Rules.CompareAndTest : Prop :=
  ∀ (s u : State) (n : Fin 192) (b : List Byte) (i : Insn), Issues s n b i u →
    let c := u.core n.val
    let x := i.srcC c
    let y := i.srcB c
    let df := (x + 2 ^ i.w - y) % 2 ^ i.w
    (i.op = .cmp → ∃ t, exec (.cmp n b) s = .next t
      ∧ Retires u t n (c.setSys 0 (putNzcv c.status
          ⟨df.testBit (i.w - 1), decide (x = y), decide (y ≤ x), outside i.w (sextNat x i.w - sextNat y i.w)⟩)) (seqOf u n i))
    ∧ (i.op = .tst → ∃ t, exec (.tst n b) s = .next t
      ∧ Retires u t n (c.setSys 0 (putNzcv c.status ⟨(x &&& y).testBit (i.w - 1), decide (x &&& y = 0), false, false⟩)) (seqOf u n i))

/-- How many of the low `w` bits from the top, from the bottom, or in all, are zero, zero and one. -/
def leadingZeros (w x : Nat) : Nat := ((List.range w).reverse.takeWhile (fun k => !x.testBit k)).length
def trailingZeros (w x : Nat) : Nat := ((List.range w).takeWhile (fun k => !x.testBit k)).length
def oneBits (w x : Nat) : Nat := ((List.range w).filter (fun k => x.testBit k)).length

/-- CLZ, CTZ, POPC, BSWAP, SXT, CSEL, LEA and NOP: what A becomes (NOP: nothing), and that nothing else changes (05 R123; 04 R85, R86, R89,
R94). -/
def Rules.BitCountsAndMoves : Prop :=
  ∀ (s u : State) (n : Fin 192) (b : List Byte) (i : Insn), Issues s n b i u →
    let c := u.core n.val
    let x := (c.gr i.b).toNat % 2 ^ i.w
    (i.op = .clz → ∃ t, exec (.clz n b) s = .next t ∧ Retires u t n (c.setG i.a (BitVec.ofNat 64 (leadingZeros i.w x))) (seqOf u n i))
    ∧ (i.op = .ctz → ∃ t, exec (.ctz n b) s = .next t ∧ Retires u t n (c.setG i.a (BitVec.ofNat 64 (trailingZeros i.w x))) (seqOf u n i))
    ∧ (i.op = .popc → ∃ t, exec (.popc n b) s = .next t ∧ Retires u t n (c.setG i.a (BitVec.ofNat 64 (oneBits i.w x))) (seqOf u n i))
    ∧ (i.op = .bswap → ∃ t, exec (.bswap n b) s = .next t
        ∧ Retires u t n (c.setG i.a (BitVec.ofNat 64 (leNat (leBytes (i.w / 8) x).reverse))) (seqOf u n i))
    ∧ (i.op = .sxt → ∃ t, exec (.sxt n b) s = .next t ∧ Retires u t n (c.setG i.a (BitVec.ofInt 64 (sextNat x i.w))) (seqOf u n i))
    ∧ (i.op = .csel → ∃ t, exec (.csel n b) s = .next t
        ∧ Retires u t n (c.setG i.a (if condHolds (i.byte % 16) (nzcvOf c.status) then c.gr i.c else c.gr i.b)) (seqOf u n i))
    ∧ (i.op = .lea → ∃ t, exec (.lea n b) s = .next t ∧ Retires u t n (c.setG i.a (i.ea (seqOf u n i) c)) (seqOf u n i))
    ∧ (i.op = .nop → ∃ t, exec (.nop n b) s = .next t ∧ Retires u t n c (seqOf u n i))

/-- The fifteen conditions of 04 R94. -/
def Rules.ConditionTable : Prop :=
  ∀ f : Nzcv,
    condHolds 0 f = f.z ∧ condHolds 1 f = f.c ∧ condHolds 2 f = f.n ∧ condHolds 3 f = f.v ∧ condHolds 4 f = (f.c && !f.z)
      ∧ condHolds 5 f = (f.n == f.v) ∧ condHolds 6 f = (!f.z && f.n == f.v) ∧ condHolds 7 f = true
      ∧ (∀ k, k ≤ 6 → condHolds (k + 8) f = !condHolds k f)

/-- The four procedures of 05 R127, line by line, on the w-bit values of A, B and C and the divide bits of STATUS: DIV.INIT and DIV.INITS, DSTEP,
DIV.FIN. -/
def initRule (w : Nat) (signed : Bool) (n d : Nat) (st : DivState) : DivRes :=
  let neg := signed && n.testBit (w - 1)
  { a := if neg then (2 ^ w - n) % 2 ^ w else n, c := 0, st := { dz := st.dz, dzp := decide (d = 0), dsg := signed, dneg := neg } }
def stepRule (w q r d : Nat) (st : DivState) : DivRes :=
  let d := if st.dsg && d.testBit (w - 1) then (2 ^ w - d) % 2 ^ w else d
  let t := 2 * r + q / 2 ^ (w - 1)
  let q := 2 * q % 2 ^ w
  let r := (if d ≤ t then t - d else t) % 2 ^ w
  let q := if d ≤ t then q + 1 else q
  let t := 2 * r + q / 2 ^ (w - 1)
  let q := 2 * q % 2 ^ w
  { a := if d ≤ t then q + 1 else q, c := (if d ≤ t then t - d else t) % 2 ^ w, st := st }
def finRule (w q r b : Nat) (st : DivState) : DivRes :=
  { a := if st.dsg && (st.dneg != b.testBit (w - 1)) then (2 ^ w - q) % 2 ^ w else q, c := if st.dneg then (2 ^ w - r) % 2 ^ w else r
    st := { dz := st.dzp, dzp := false, dsg := false, dneg := false } }

/-- DIV.INIT, DIV.INITS, DSTEP and DIV.FIN write A, C and STATUS[7:4] as 05 R127 gives, and nothing else: no N, Z, C, V or LA. -/
def Rules.DivideInstructions : Prop :=
  ∀ x ∈ ([(.divInit, .divInit, fun w a b _ st => initRule w false a b st), (.divInits, .divInits, fun w a b _ st => initRule w true a b st),
        (.dstep, .dstep, fun w a b c st => stepRule w a c b st), (.divFin, .divFin, fun w a b c st => finRule w a c b st)] :
        List ((Fin 192 → List Byte → Instr) × OzOp × (Nat → Nat → Nat → Nat → DivState → DivRes))),
    ∀ (s u : State) (n : Fin 192) (b : List Byte) (i : Insn), Issues s n b i u → i.op = x.2.1 →
      let c := u.core n.val
      let r := x.2.2 i.w ((c.gr i.a).toNat % 2 ^ i.w) ((c.gr i.b).toNat % 2 ^ i.w) ((c.gr i.c).toNat % 2 ^ i.w) (divOf c.status)
      ∃ t, exec (x.1 n b) s = .next t
        ∧ Retires u t n (((c.setG i.a (BitVec.ofNat 64 r.a)).setG i.c (BitVec.ofNat 64 r.c)).setSys 0 (putDiv c.status r.st)) (seqOf u n i)
        ∧ divOf (putDiv c.status r.st) = r.st ∧ (∀ k, k < 4 ∨ 8 ≤ k → bitOf (putDiv c.status r.st) k = bitOf c.status k)

/-- `k` DSTEPs in a row. -/
def dsteps (w b : Nat) : Nat → DivRes → DivRes
  | 0, r => r
  | k + 1, r => dsteps w b k (stepRule w r.a r.c b r.st)

/-- A whole divide sequence: DIV.INIT or DIV.INITS, w/2 DSTEPs, DIV.FIN (05 R128). -/
def divideSeq (w : Nat) (signed : Bool) (a b : Nat) (st : DivState) : DivRes :=
  let r := dsteps w b (w / 2) (initRule w signed a b st)
  finRule w r.a r.c b r.st

/-- A correct divide sequence gives the quotient truncated toward zero and the remainder with the sign of the dividend, unsigned and signed, at
both widths; a divisor of 0 leaves the dividend in C and sets DZ (05 R129, R130). -/
def Rules.DivisionIsRight : Prop :=
  ∀ (w a b : Nat) (st : DivState), w = 32 ∨ w = 64 → a < 2 ^ w → b < 2 ^ w →
    (b ≠ 0 → (divideSeq w false a b st).a = a / b ∧ (divideSeq w false a b st).c = a % b ∧ (divideSeq w false a b st).st.dz = false)
    ∧ (b ≠ 0 → ((divideSeq w true a b st).a : Int) = (sextNat a w).tdiv (sextNat b w) % (2 ^ w : Nat)
        ∧ ((divideSeq w true a b st).c : Int) = (sextNat a w).tmod (sextNat b w) % (2 ^ w : Nat) ∧ (divideSeq w true a b st).st.dz = false)
    ∧ (b = 0 → (divideSeq w false a b st).a = 2 ^ w - 1 ∧ (divideSeq w false a b st).c = a ∧ (divideSeq w false a b st).st.dz = true
        ∧ (divideSeq w true a b st).c = a ∧ (divideSeq w true a b st).st.dz = true
        ∧ (divideSeq w true a b st).a = if a.testBit (w - 1) then 1 else 2 ^ w - 1)

/-! ### Branches, loops and system calls -/

/-- The branch that goes to `target` if `taken`, and on otherwise; what the front end had fetched ahead may go (06 R160). -/
def Goes (u t : State) (n : Fin 192) (i : Insn) (c : Core) (taken : Bool) (target : W64) : Prop :=
  (taken = true → t.core n.val = { ({ c with pc := target }).settled with
      pred := (t.core n.val).pred, rstack := (t.core n.val).rstack, bunk := (t.core n.val).bunk, queue := (t.core n.val).queue
      fetchWait := (t.core n.val).fetchWait, stuck := (t.core n.val).stuck, ext := (t.core n.val).ext, given := (t.core n.val).given })
    ∧ (taken = false → t.core n.val = { (c.loopBack (seqOf u n i)).settled with
      pred := (t.core n.val).pred, rstack := (t.core n.val).rstack, bunk := (t.core n.val).bunk, queue := (t.core n.val).queue
      fetchWait := (t.core n.val).fetchWait, stuck := (t.core n.val).stuck, ext := (t.core n.val).ext, given := (t.core n.val).given })
    ∧ t.mem = u.mem ∧ t.coh = u.coh ∧ t.stools = u.stools ∧ t.clock = u.clock ∧ (∀ m, m ≠ n.val → t.core m = u.core m)
    ∧ (∀ a, a < corePage n.val 0x110 ∨ corePage n.val 0x120 ≤ a → t.reg a = u.reg a)

/-- BC, B, BL, JR, JLR, RET, CBZ, CBNZ and LOOP: where execution goes on and what is written: g27 by BL, A by JLR, the loop registers and LA
by LOOP; predictions, the return stack, their counters and what the front end has fetched ahead aside, nothing else changes (04 R89, R94, R106, R107). -/
def Rules.Branches : Prop :=
  ∀ (s u : State) (n : Fin 192) (b : List Byte) (i : Insn), Issues s n b i u →
    let c := u.core n.val
    let q := seqOf u n i
    let d := q + BitVec.ofInt 64 i.imm
    (i.op = .bc → ∃ t, exec (.bc n b) s = .next t ∧ Goes u t n i c (condHolds (i.b % 16) (nzcvOf c.status)) d)
    ∧ (i.op = .b → ∃ t, exec (.b n b) s = .next t ∧ Goes u t n i c true d)
    ∧ (i.op = .bl → ∃ t, exec (.bl n b) s = .next t ∧ Goes u t n i (c.setG 27 q) true d)
    ∧ (i.op = .jr → ∃ t, exec (.jr n b) s = .next t ∧ Goes u t n i c true (c.gr i.b))
    ∧ (i.op = .jlr → ∃ t, exec (.jlr n b) s = .next t ∧ Goes u t n i (c.setG i.a q) true (c.gr i.b))
    ∧ (i.op = .ret → ∃ t, exec (.ret n b) s = .next t ∧ Goes u t n i c true (c.gr 27))
    ∧ (i.op = .cbz → ∃ t, exec (.cbz n b) s = .next t ∧ Goes u t n i c (decide (c.gr i.a = 0)) d)
    ∧ (i.op = .cbnz → ∃ t, exec (.cbnz n b) s = .next t ∧ Goes u t n i c (decide (c.gr i.a ≠ 0)) d)
    ∧ (i.op = .loop → ∃ t, exec (.loop n b) s = .next t
        ∧ Goes u t n i ((((c.setSys 3 q).setSys 4 d).setSys 2 (c.gr i.a)).setSys 0 (putBit c.status 8 (decide (c.gr i.a ≠ 0)))) true
            (if c.gr i.a = 0 then d else q))

/-- Core `d` is core `c` after the entry to level `T` of 04 R102: EPC, ESTAT, CAUSE and FAR of the level are written, LA is 0, the level is `T`, the
PC is the vector; no other general, f or system register has changed. -/
structure Entered (c d : Core) (T : Nat) (epc cause far : W64) (off : Nat) : Prop where
  epc : d.sysReg (0x4000 * T) = epc
  ppl : fieldOf (d.sysReg (0x4000 * T + 1)) 0 2 = c.level.val
  saved : fieldOf (d.sysReg (0x4000 * T + 1)) 16 16 = fieldOf (c.sysReg 0) 0 16
  cause : d.sysReg (0x4000 * T + 2) = cause
  far : d.sysReg (0x4000 * T + 3) = far
  la : bitOf (d.sysReg 0) 8 = false
  status : ∀ k, k ≠ 8 → bitOf (d.sysReg 0) k = bitOf (c.sysReg 0) k
  level : d.level.val = T
  pc : d.pc = c.sysReg (0x4000 * T + 4) + BitVec.ofNat 64 off
  others : ∀ r, r ≠ 0 → r ≠ 0x4000 * T → r ≠ 0x4000 * T + 1 → r ≠ 0x4000 * T + 2 → r ≠ 0x4000 * T + 3 → d.sysReg r = c.sysReg r
  gs : d.g = c.g
  fs : d.f = c.f
  sb : d.sb = c.sb

/-- What an exception entry of core `n` leaves alone outside the core. -/
structure EntryFrame (u t : State) (n : Fin 192) : Prop where
  mem : t.mem = u.mem
  coh : t.coh = u.coh
  stools : t.stools = u.stools
  clock : t.clock = u.clock
  frame : t.frame = u.frame
  otp : t.otp = u.otp
  pending : t.pending = u.pending
  others : ∀ m, m ≠ n.val → t.core m = u.core m

/-- The vector offset of a synchronous exception (04 R101). -/
def syncOff (T cur : Nat) : Nat := if T = cur then 0 else 0x80

/-- SVC, HVC and MVC retire and enter S, H and M (or stay at a greater level) with causes 5, 6 and 7, EPC the next address after any loop-back
and the immediate in CAUSE.INFO; HVC and MVC do so from S upward.  BRK enters with cause 8 and its own address (04 R99-R102, R107). -/
def Rules.SystemCallsEnter : Prop :=
  ∀ (s u : State) (n : Fin 192) (b : List Byte) (i : Insn), Issues s n b i u →
    let c := u.core n.val
    let lv := c.level.val
    let after := c.loopBack (seqOf u n i)
    let info : W64 := BitVec.ofNat 64 (4294967296 * i.immAt 16)
    (i.op = .svc → ∃ t, exec (.svc n b) s = .next t ∧ EntryFrame u t n
        ∧ Entered after (t.core n.val) (max 1 lv) after.pc (5 + info) 0 (syncOff (max 1 lv) lv))
    ∧ (i.op = .hvc → 1 ≤ lv → ∃ t, exec (.hvc n b) s = .next t ∧ EntryFrame u t n
        ∧ Entered after (t.core n.val) (max 2 lv) after.pc (6 + info) 0 (syncOff (max 2 lv) lv))
    ∧ (i.op = .mvc → 1 ≤ lv → ∃ t, exec (.mvc n b) s = .next t ∧ EntryFrame u t n
        ∧ Entered after (t.core n.val) 3 after.pc (7 + info) 0 (syncOff 3 lv))
    ∧ (i.op = .brk → c.vec = false → ∃ t, exec (.brk n b) s = .next t ∧ EntryFrame u t n
        ∧ Entered c (t.core n.val) (max 1 lv) c.pc 8 0 (syncOff (max 1 lv) lv))

/-- HVC and MVC at U raise PRIV at S and do not retire (04 R89, R99). -/
def Rules.SystemCallsAtUser : Prop :=
  ∀ (s u : State) (n : Fin 192) (b : List Byte) (i : Insn), Issues s n b i u → (u.core n.val).level = 0 → (u.core n.val).vec = false →
    (i.op = .hvc → ∃ t, exec (.hvc n b) s = .next t ∧ Entered (u.core n.val) (t.core n.val) 1 (u.core n.val).pc 2 0 0x80)
    ∧ (i.op = .mvc → ∃ t, exec (.mvc n b) s = .next t ∧ Entered (u.core n.val) (t.core n.val) 1 (u.core n.val).pc 2 0 0x80)

/-- An exception before the first instruction of a handler retires is a double fault: DFLT one level up with the code of the exception in INFO; at M
the core stops (04 R105).  Stated for BRK. -/
def Rules.DoubleFaults : Prop :=
  ∀ (s u : State) (n : Fin 192) (b : List Byte) (i : Insn), Issues s n b i u → i.op = .brk → (u.core n.val).vec = true →
    let c := u.core n.val
    (c.level ≠ 3 → ∃ t, exec (.brk n b) s = .next t
      ∧ Entered c (t.core n.val) (c.level.val + 1) c.pc (BitVec.ofNat 64 (0x0B + 4294967296 * 8)) 0 0x80)
    ∧ (c.level = 3 → ∃ t, exec (.brk n b) s = .next t ∧ t.core n.val = { c with run := .dead } ∧ t.mem = u.mem
      ∧ t.bit (corePage n.val 0x14) 3 = true)

/-- Every row of the Ozhorn-64, by its constructor, with the operation that its bytes must spell. -/
def ozRows : List ((Fin 192 → List Byte → Instr) × OzOp) :=
  [(.ld, .ld), (.ldx, .ldx), (.st, .st), (.lea, .lea), (.fld, .fld), (.fst, .fst), (.vld, .vld), (.vst, .vst), (.add, .add), (.sub, .sub),
   (.adc, .adc), (.sbc, .sbc), (.and, .and), (.or, .or), (.xor, .xor), (.andn, .andn), (.shl, .shl), (.shr, .shr), (.sar, .sar), (.ror, .ror),
   (.mul, .mul), (.mulhu, .mulhu), (.mulhs, .mulhs), (.mov, .mov), (.cmp, .cmp), (.tst, .tst), (.csel, .csel), (.sxt, .sxt), (.clz, .clz),
   (.ctz, .ctz), (.popc, .popc), (.bswap, .bswap), (.mfs, .mfs), (.mts, .mts), (.bc, .bc), (.b, .b), (.bl, .bl), (.jr, .jr), (.jlr, .jlr),
   (.ret, .ret), (.cbz, .cbz), (.cbnz, .cbnz), (.loop, .loop), (.svc, .svc), (.hvc, .hvc), (.mvc, .mvc), (.brk, .brk), (.nop, .nop),
   (.amoswp, .amoswp), (.amoadd, .amoadd), (.amoand, .amoand), (.amoor, .amoor), (.amoxor, .amoxor), (.amomin, .amomin), (.amomax, .amomax),
   (.cas, .cas), (.divInit, .divInit), (.divInits, .divInits), (.dstep, .dstep), (.divFin, .divFin), (.tlbsync, .tlbsync), (.wait, .wait),
   (.reti, .reti), (.rdfeat, .rdfeat), (.rdtime, .rdtime), (.rdfrm, .rdfrm), (.rdwin, .rdwin), (.pswitch, .pswitch), (.fadd, .fadd),
   (.fsub, .fsub), (.fmul, .fmul), (.fdiv, .fdiv), (.fsqrt, .fsqrt), (.fmin, .fmin), (.fmax, .fmax), (.fma, .fma), (.fms, .fms),
   (.fnma, .fnma), (.fabs, .fabs), (.fneg, .fneg), (.fcmp, .fcmp), (.fcvt, .fcvt), (.scvtf, .scvtf), (.fcvtzs, .fcvtzs), (.fmv, .fmv),
   (.frint, .frint), (.vadd, .vadd), (.vsub, .vsub), (.vmul, .vmul), (.vand, .vand), (.vor, .vor), (.vxor, .vxor), (.vandn, .vandn),
   (.vshl, .vshl), (.vshr, .vshr), (.vsar, .vsar), (.vmin, .vmin), (.vmax, .vmax), (.vminu, .vminu), (.vmaxu, .vmaxu), (.vcmpeq, .vcmpeq),
   (.vcmpgt, .vcmpgt), (.vdup, .vdup), (.vext, .vext), (.vins, .vins)]

/-- Bytes that spell no instruction raise ILL with their reason in CAUSE.SUB at their own address, whichever row they came with: at the greater of S
and the current level, with no register changed but those of the entry (04 R99-R102, R535). -/
def Rules.IllegalBytesRaiseIll : Prop :=
  ∀ x ∈ ozRows, ∀ (s u : State) (n : Fin 192) (b : List Byte) (k : Nat), ozDecode b = .ill k →
    s.stalled = false → s.mayIssue n.val = true → (s.core n.val).mustEnter = false → s.stalledPrimary n.val = false →
    (s.core n.val).isShadow = false → s.fetchInsn n.val (examined b) = (.ok, u) → (u.core n.val).vec = false →
      let c := u.core n.val
      let lv := c.level.val
      ∃ t, exec (x.1 n b) s = .next t ∧ EntryFrame u t n
        ∧ Entered c (t.core n.val) (max 1 lv) c.pc (BitVec.ofNat 64 (1 + 256 * k)) 0 (syncOff (max 1 lv) lv)

/-! ### Floating point and vectors -/

/-- A magnitude `m * 2 ^ e`. -/
def mag (m : Nat) (e : Int) : Rat := (m : Rat) * (2 : Rat) ^ e

/-- A result that neither overflows nor is tiny is the exact value rounded once under FPCTL.RM, in both formats and all five modes: nearest with
ties to even, toward zero, toward negative, toward positive, nearest with ties away; and NX says whether it differs from the exact
value (05 R135, R136; 04 R73). -/
def Rules.RoundingIsRight : Prop :=
  ∀ (t : Fmt) (md : FMode) (s : Bool) (m : Nat) (e : Int), t = f32 ∨ t = f64 → md.rm ≤ 4 → m ≠ 0 →
    let r := t.round md s m e false
    r.flags = 0 ∨ r.flags = flagNX →
    ∃ k q, t.decode r.bits = .fin s k q ∧ 2 ^ t.mw ≤ k ∧ k < 2 ^ (t.mw + 1)
      ∧ (r.flags = 0 ↔ mag m e = mag k q)
      ∧ (md.rm = 0 → 2 * |mag m e - mag k q| ≤ mag 1 q ∧ (2 * |mag m e - mag k q| = mag 1 q → k % 2 = 0))
      ∧ (md.rm = 1 → mag k q ≤ mag m e ∧ mag m e < mag (k + 1) q)
      ∧ (md.rm = 2 → if s then mag m e ≤ mag k q ∧ mag k q < mag m e + mag 1 q else mag k q ≤ mag m e ∧ mag m e < mag (k + 1) q)
      ∧ (md.rm = 3 → if s then mag k q ≤ mag m e ∧ mag m e < mag (k + 1) q else mag m e ≤ mag k q ∧ mag k q < mag m e + mag 1 q)
      ∧ (md.rm = 4 → 2 * |mag m e - mag k q| ≤ mag 1 q ∧ (2 * |mag m e - mag k q| = mag 1 q → mag m e < mag k q))

/-- The scalar operations of one FP row. -/
def fpRows : List ((Fin 192 → List Byte → Instr) × OzOp × FpOp) :=
  [(.fadd, .fadd, .add), (.fsub, .fsub, .sub), (.fmul, .fmul, .mul), (.fdiv, .fdiv, .div), (.fsqrt, .fsqrt, .sqrt), (.fmin, .fmin, .min),
   (.fmax, .fmax, .max), (.fma, .fma, .fma), (.fms, .fms, .fms), (.fnma, .fnma, .fnma), (.fabs, .fabs, .abs), (.fneg, .fneg, .neg),
   (.frint, .frint, .rint)]

/-- FADD, FSUB, FMUL, FDIV, FSQRT, FMIN, FMAX, FMA, FMS, FNMA, FABS, FNEG and FRINT.  A scalar form whose operation asks for no assist writes the
result to the low bits of A, clears the upper ones and sets its sticky flags in FPCTL; a vector form does so in every lane.  Where some
operation asks for the assist, FPA is raised and no f register is written (04 R71, R93; 05 R135-R149). -/
def Rules.FpResults : Prop :=
  ∀ x ∈ fpRows, ∀ (s u : State) (n : Fin 192) (b : List Byte) (i : Insn), Issues s n b i u → i.op = x.2.1 →
    let c := u.core n.val
    let md := c.fpMode
    let lane := fun (t : Fmt) (k : Nat) => t.run md x.2.2 ((c.fr i.a).toNat / 2 ^ (t.width * k) % 2 ^ t.width)
      ((c.fr i.b).toNat / 2 ^ (t.width * k) % 2 ^ t.width) ((c.fr i.c).toNat / 2 ^ (t.width * k) % 2 ^ t.width)
    (i.laneFmt = none → (lane i.fmt 0).fpa = false → ∃ t, exec (x.1 n b) s = .next t
        ∧ Retires u t n ((c.setF i.a (BitVec.ofNat 128 (lane i.fmt 0).bits)).stick (lane i.fmt 0).flags) (seqOf u n i))
    ∧ (∀ t', i.laneFmt = some t' → (∀ k, k < 128 / t'.width → (lane t' k).fpa = false) → ∃ t v fl, exec (x.1 n b) s = .next t
        ∧ Retires u t n ((c.setF i.a v).stick fl) (seqOf u n i)
        ∧ (∀ k, k < 128 / t'.width → v.toNat / 2 ^ (t'.width * k) % 2 ^ t'.width = (lane t' k).bits % 2 ^ t'.width)
        ∧ ∀ j, fl.testBit j = true ↔ ∃ k, k < 128 / t'.width ∧ (lane t' k).flags.testBit j = true)
    ∧ ((∃ k, k < (if i.laneFmt = none then 1 else 128 / (i.laneFmt.getD i.fmt).width) ∧ (lane (i.laneFmt.getD i.fmt) k).fpa = true) →
        c.vec = false → ∃ t, exec (x.1 n b) s = .next t
          ∧ Entered c (t.core n.val) (max 1 c.level.val) c.pc (BitVec.ofNat 64 (4 + 4294967296 * i.opc)) 0
              (syncOff (max 1 c.level.val) c.level.val))

/-- FCMP, scalar or lane by lane, where no lane asks for the assist: N if some lane of C is less than that of B, Z if every lane is equal, C if none
is less, V if some lane is unordered; FPCTL gets the OR of the lanes' flags, and no register is written (05 R144). -/
def Rules.FpCompare : Prop :=
  ∀ (s u : State) (n : Fin 192) (b : List Byte) (i : Insn), Issues s n b i u → i.op = .fcmp →
    let c := u.core n.val
    let t' := i.laneFmt.getD i.fmt
    let r := fun (k : Nat) => t'.cmp c.fpMode ((c.fr i.b).toNat / 2 ^ (t'.width * k) % 2 ^ t'.width) ((c.fr i.c).toNat / 2 ^ (t'.width * k) % 2 ^ t'.width)
    let ks := List.range (if i.laneFmt = none then 1 else 128 / t'.width)
    ks.all (fun k => !(r k).2.2) = true → ∃ t fl, exec (.fcmp n b) s = .next t
      ∧ Retires u t n ((c.setSys 0 (putNzcv c.status
          ⟨ks.any (fun k => (r k).1 = .less), ks.all (fun k => (r k).1 = .equal), ks.all (fun k => (r k).1 ≠ .less),
            ks.any (fun k => (r k).1 = .unordered)⟩)).stick fl) (seqOf u n i)
      ∧ ∀ j, fl.testBit j = ks.any (fun k => (r k).2.1.testBit j)

/-- FCVT, SCVTF, FCVTZS and FMV where no assist is asked for: the converted value in A, upper bits cleared, sticky flags set; FMV sets none (04 R71, R92; 05
R146). -/
def Rules.FpConversions : Prop :=
  ∀ (s u : State) (n : Fin 192) (b : List Byte) (i : Insn), Issues s n b i u →
    let c := u.core n.val
    let x := (c.fr i.b).toNat
    let cv := if i.opc = 0x10 then cvtFmt f32 f64 c.fpMode (x % 2 ^ 32) else cvtFmt f64 f32 c.fpMode (x % 2 ^ 64)
    let sc := i.fmt.ofInt64 c.fpMode (c.gr i.b).toInt
    let fi := cvtToInt i.fmt c.fpMode (x % 2 ^ i.fmt.width)
    (i.op = .fcvt → cv.fpa = false → ∃ t, exec (.fcvt n b) s = .next t
      ∧ Retires u t n ((c.setF i.a (BitVec.ofNat 128 cv.bits)).stick cv.flags) (seqOf u n i))
    ∧ (i.op = .scvtf → ∃ t, exec (.scvtf n b) s = .next t
      ∧ Retires u t n ((c.setF i.a (BitVec.ofNat 128 sc.bits)).stick sc.flags) (seqOf u n i))
    ∧ (i.op = .fcvtzs → fi.fpa = false → ∃ t, exec (.fcvtzs n b) s = .next t
      ∧ Retires u t n ((c.setG i.a (BitVec.ofNat 64 fi.bits)).stick fi.flags) (seqOf u n i))
    ∧ (i.op = .fmv → i.opc = 0x14 → ∃ t, exec (.fmv n b) s = .next t
      ∧ Retires u t n (c.setF i.a (BitVec.ofNat 128 ((c.gr i.b).toNat % 2 ^ i.fmt.width))) (seqOf u n i))
    ∧ (i.op = .fmv → i.opc = 0x15 → ∃ t, exec (.fmv n b) s = .next t
      ∧ Retires u t n (c.setG i.a (BitVec.ofNat 64 (x % 2 ^ i.fmt.width))) (seqOf u n i))

/-- One row of the vector integer table: what a lane of width `e` becomes from the same lanes of C and B. -/
def vecRows : List ((Fin 192 → List Byte → Instr) × OzOp × (Nat → Nat → Nat → Nat)) :=
  [(.vadd, .vadd, fun e c b => (c + b) % 2 ^ e), (.vsub, .vsub, fun e c b => (c + 2 ^ e - b) % 2 ^ e), (.vmul, .vmul, fun e c b => c * b % 2 ^ e),
   (.vand, .vand, fun _ c b => c &&& b), (.vor, .vor, fun _ c b => c ||| b), (.vxor, .vxor, fun _ c b => c ^^^ b),
   (.vandn, .vandn, fun e c b => c &&& (2 ^ e - 1 - b)), (.vshl, .vshl, fun e c b => c * 2 ^ b % 2 ^ e), (.vshr, .vshr, fun _ c b => c / 2 ^ b),
   (.vsar, .vsar, fun e c b => (sextNat c e / (2 ^ b : Nat) % (2 ^ e : Nat)).toNat),
   (.vmin, .vmin, fun e c b => if sextNat c e ≤ sextNat b e then c else b), (.vmax, .vmax, fun e c b => if sextNat c e ≤ sextNat b e then b else c),
   (.vminu, .vminu, fun _ c b => min c b), (.vmaxu, .vmaxu, fun _ c b => max c b),
   (.vcmpeq, .vcmpeq, fun e c b => if c = b then 2 ^ e - 1 else 0)]

/-- Lane `k` of width `e`. -/
def laneOf (e : Nat) (x : W128) (k : Nat) : Nat := x.toNat / 2 ^ (e * k) % 2 ^ e

/-- VADD, VSUB, VMUL, VAND, VOR, VXOR, VANDN, VSHL, VSHR, VSAR, VMIN, VMAX, VMINU, VMAXU and VCMPEQ act on every lane by itself; nothing but A changes
(05 R134). -/
def Rules.VectorLanes : Prop :=
  ∀ x ∈ vecRows, ∀ (s u : State) (n : Fin 192) (b : List Byte) (i : Insn), Issues s n b i u → i.op = x.2.1 →
    let c := u.core n.val
    ∃ t v, exec (x.1 n b) s = .next t ∧ Retires u t n (c.setF i.a v) (seqOf u n i)
      ∧ ∀ k, k < 128 / i.laneW → laneOf i.laneW v k = x.2.2 i.laneW (laneOf i.laneW (c.fr i.c) k) (laneOf i.laneW (c.fr i.b) k)

/-- VCMPGT compares lanes as signed values: the model's choice (assumption log 16). -/
def Rules.VectorGreater : Prop :=
  ∀ (s u : State) (n : Fin 192) (b : List Byte) (i : Insn), Issues s n b i u → i.op = .vcmpgt →
    let c := u.core n.val
    ∃ t v, exec (.vcmpgt n b) s = .next t ∧ Retires u t n (c.setF i.a v) (seqOf u n i)
      ∧ ∀ k, k < 128 / i.laneW → laneOf i.laneW v k =
        if sextNat (laneOf i.laneW (c.fr i.b) k) i.laneW < sextNat (laneOf i.laneW (c.fr i.c) k) i.laneW then 2 ^ i.laneW - 1 else 0

/-- VDUP copies the lane that the immediate names to every lane; VEXT moves it to A, zero-extended; VINS writes it from general register B and keeps
the other lanes (04 R92, R93). -/
def Rules.VectorMoves : Prop :=
  ∀ (s u : State) (n : Fin 192) (b : List Byte) (i : Insn), Issues s n b i u →
    let c := u.core n.val
    let e := i.laneW
    (i.op = .vdup → ∃ t v, exec (.vdup n b) s = .next t ∧ Retires u t n (c.setF i.a v) (seqOf u n i)
      ∧ ∀ k, k < 128 / e → laneOf e v k = laneOf e (c.fr i.b) i.byte)
    ∧ (i.op = .vext → ∃ t, exec (.vext n b) s = .next t
      ∧ Retires u t n (c.setG i.a (BitVec.ofNat 64 (laneOf e (c.fr i.b) i.byte))) (seqOf u n i))
    ∧ (i.op = .vins → ∃ t v, exec (.vins n b) s = .next t ∧ Retires u t n (c.setF i.a v) (seqOf u n i)
      ∧ ∀ k, k < 128 / e → laneOf e v k = if k = i.byte then (c.gr i.b).toNat % 2 ^ e else laneOf e (c.fr i.a) k)

/-! ### System registers -/

/-- MFS of a listed register at a sufficient level that IROUTE does not route away: A becomes its value, 0 for a write-only one; nothing else
changes (04 R75; 12 R333, R334). -/
def Rules.SystemRegisterReads : Prop :=
  ∀ (s u : State) (n : Fin 192) (b : List Byte) (i : Insn) (a : SysAcc), Issues s n b i u → i.op = .mfs →
    let c := u.core n.val
    sysAcc i.sysNo = some a → i.sysNo / 16384 ≤ c.level.val → c.routedAway i.sysNo = false →
      (∃ t, exec (.mfs n b) s = .next t ∧ Retires u t n (c.setG i.a (c.sysValue i.sysNo)) (seqOf u n i))
      ∧ (a = .wo → c.sysValue i.sysNo = 0) ∧ (a ≠ .wo → evLevel i.sysNo = none → c.sysValue i.sysNo = c.sysReg i.sysNo)

/-- MTS of a permitted value to a listed register at a sufficient level: the register is written; a write of STATUS, LCNT, LSTART or LEND makes no
loop-back, any other may (04 R75, R107).  For a register that is neither an event register nor EVREL, exactly that register changes, VBAR with
bits 11:0 at 0. -/
def Rules.SystemRegisterWrites : Prop :=
  ∀ (s u : State) (n : Fin 192) (b : List Byte) (i : Insn) (a : SysAcc), Issues s n b i u → i.op = .mts →
    let c := u.core n.val
    let v := c.gr i.a
    let d := c.writeSys i.sysNo v
    sysAcc i.sysNo = some a → a ≠ .ro → i.sysNo / 16384 ≤ c.level.val → sysForbidden i.sysNo v = false → c.mtsPriv i.sysNo v = false →
      (i.sysNo = 0 ∨ i.sysNo = 2 ∨ i.sysNo = 3 ∨ i.sysNo = 4 → ∃ t, exec (.mts n b) s = .next t ∧ Jumps u t n d (seqOf u n i))
      ∧ (¬(i.sysNo = 0 ∨ i.sysNo = 2 ∨ i.sysNo = 3 ∨ i.sysNo = 4) → ∃ t, exec (.mts n b) s = .next t ∧ Retires u t n d (seqOf u n i))
      ∧ (evLevel i.sysNo = none → i.sysNo ≠ 0x4201 →
          d = c.setSys i.sysNo (if i.sysNo = 0x4004 ∨ i.sysNo = 0x8004 ∨ i.sysNo = 0xC004 then v &&& ~~~0xFFF else v))

/-- MFS and MTS that may not be made: ILL 8 for an MTS to a read-only register and ILL 7 for one of a forbidden value, at any level; then PRIV one level up
from below the register's level, and ILL 9 for an unlisted number; no register but those of the entry changes (04 R75, R99, R100, R103). -/
def Rules.SystemRegisterExceptions : Prop :=
  ∀ (s u : State) (n : Fin 192) (b : List Byte) (i : Insn), Issues s n b i u → (u.core n.val).vec = false →
    let c := u.core n.val
    let lv := c.level.val
    let up := syncOff (max 1 lv) lv
    let con := fun (x : Instr) => x = .mfs n b ∧ i.op = .mfs ∨ x = .mts n b ∧ i.op = .mts
    let legal := i.op = .mts → sysAcc i.sysNo ≠ some .ro ∧ ¬((sysAcc i.sysNo).isSome = true ∧ sysForbidden i.sysNo (c.gr i.a) = true)
    ∀ x, con x →
      (lv < i.sysNo / 16384 → legal → ∃ t, exec x s = .next t ∧ EntryFrame u t n
        ∧ Entered c (t.core n.val) (lv + 1) c.pc (BitVec.ofNat 64 (2 + 4294967296 * i.sysNo)) 0 0x80)
      ∧ (i.sysNo / 16384 ≤ lv → sysAcc i.sysNo = none → ∃ t, exec x s = .next t ∧ EntryFrame u t n
        ∧ Entered c (t.core n.val) (max 1 lv) c.pc (BitVec.ofNat 64 (1 + 256 * 9)) 0 up)
      ∧ (i.op = .mts → sysAcc i.sysNo = some .ro → ∃ t, exec x s = .next t ∧ EntryFrame u t n
        ∧ Entered c (t.core n.val) (max 1 lv) c.pc (BitVec.ofNat 64 (1 + 256 * 8)) 0 up)
      ∧ (∀ a, i.op = .mts → sysAcc i.sysNo = some a → a ≠ .ro → sysForbidden i.sysNo (c.gr i.a) = true →
          ∃ t, exec x s = .next t ∧ EntryFrame u t n
            ∧ Entered c (t.core n.val) (max 1 lv) c.pc (BitVec.ofNat 64 (1 + 256 * 7)) 0 up)

/-- The event registers.  A write of `j` to EVCLM claims a pending bit: PEND clears and ACT sets; of a bit that is not pending it changes nothing.  To
EVEOI: ACT clears.  To EVSET: PEND sets.  MTS to EVREL releases the hold of the level, MTS to EVHOLD writes the holds (12 R333, R336, R337,
R343). -/
def Rules.EventRegisterWrites : Prop :=
  ∀ (s u : State) (n : Fin 192) (b : List Byte) (i : Insn), Issues s n b i u → i.op = .mts →
    let c := u.core n.val
    let v := c.gr i.a
    let q := seqOf u n i
    let ok := i.sysNo / 16384 ≤ c.level.val ∧ sysForbidden i.sysNo v = false ∧ c.mtsPriv i.sysNo v = false
    (∀ k j, k < 4 → v = BitVec.ofNat 64 j → j < 1024 → ok →
      (i.sysNo = 0x4100 + 64 * k + 49 → ∃ t d, exec (.evclmWrite n b) s = .next t ∧ Retires u t n d q
        ∧ (c.evBit evPend k j = true → d.evBit evPend k j = false ∧ d.evBit evAct k j = true)
        ∧ (c.evBit evPend k j = false → d = c)
        ∧ (∀ r, r ≠ evPend k (j / 64) → r ≠ evAct k (j / 64) → d.sysReg r = c.sysReg r) ∧ d.g = c.g ∧ d.f = c.f)
      ∧ (i.sysNo = 0x4100 + 64 * k + 50 → ∃ t d, exec (.eveoiWrite n b) s = .next t ∧ Retires u t n d q
        ∧ d.evBit evAct k j = false ∧ (∀ r, r ≠ evAct k (j / 64) → d.sysReg r = c.sysReg r) ∧ d.g = c.g ∧ d.f = c.f)
      ∧ (i.sysNo = 0x4100 + 64 * k + 51 → ∃ t d, exec (.evsetWrite n b) s = .next t ∧ Retires u t n d q
        ∧ d.evBit evPend k j = true ∧ (∀ r, r ≠ evPend k (j / 64) → d.sysReg r = c.sysReg r) ∧ d.g = c.g ∧ d.f = c.f))
    ∧ (ok → i.sysNo = 0x4201 → ∃ t, exec (.evrelWrite n b) s = .next t
        ∧ Retires u t n (c.setSys 0x8101 (putBit (c.sysReg 0x8101) c.level.val false)) q)
    ∧ (ok → i.sysNo = 0x8101 → ∃ t, exec (.evholdWrite n b) s = .next t ∧ Retires u t n (c.setSys 0x8101 v) q)

/-- RDFEAT, RDTIME, RDFRM and RDWIN where they do not trap: what A becomes: FEAT[imm], masked below H with FMSK; TIME; the frame number over the offset in the
frame; the window state (04 R97, R114, R115). -/
def Rules.ReadsOfTheBlock1 : Prop :=
  ∀ (s u : State) (n : Fin 192) (b : List Byte) (i : Insn), Issues s n b i u →
    let c := u.core n.val
    let q := seqOf u n i
    let ft := feat n.val i.byte
    let free := c.timeTrap = none
    (i.op = .rdfeat → 2 ≤ c.level.val → ∃ t, exec (.rdfeat n b) s = .next t ∧ Retires u t n (c.setG i.a ft) q)
    ∧ (i.op = .rdfeat → c.level.val ≤ 1 → bitOf (c.sysReg 0x8006) 1 = false → ∃ t, exec (.rdfeat n b) s = .next t
        ∧ Retires u t n (c.setG i.a (if bitOf (c.sysReg 0x8006) 0 then ft &&& c.sysReg (0x8020 + i.byte) else ft)) q)
    ∧ (i.op = .rdtime → free → ∃ t, exec (.rdtime n b) s = .next t ∧ Retires u t n (c.setG i.a u.clock.time) q)
    ∧ (i.op = .rdfrm → free → ∃ t v, exec (.rdfrm n b) s = .next t ∧ Retires u t n (c.setG i.a v) q
        ∧ fieldOf v 32 32 = (u.reg (frr (n.val / 48) 0x40)).toNat
        ∧ fieldOf v 0 32 = min 0xFFFFFFFF (u.time - u.tickInstant (n.val / 48)))
    ∧ (i.op = .rdwin → 1 ≤ c.level.val → ∃ t, exec (.rdwin n b) s = .next t
        ∧ Retires u t n (c.setG i.a (BitVec.ofNat 64 (u.windowState n.val))) q)

/-- At U with SCTL_S.UTD, RDTIME and RDFRM trap to S; else at U and S with HCTL.TTD to H; below H with HCTL.FTRAP RDFEAT traps to H (04 R97, R99,
R114). -/
def Rules.ReadsTrap : Prop :=
  ∀ (s u : State) (n : Fin 192) (b : List Byte) (i : Insn), Issues s n b i u → (u.core n.val).vec = false →
    let c := u.core n.val
    let lv := c.level.val
    ∀ x, (x = .rdtime n b ∧ i.op = .rdtime ∨ x = .rdfrm n b ∧ i.op = .rdfrm) →
      (lv = 0 → bitOf (c.sysReg 0x4006) 0 = true → ∃ t, exec x s = .next t ∧ Entered c (t.core n.val) 1 c.pc 9 0 0x80)
      ∧ (lv ≤ 1 → ¬(lv = 0 ∧ bitOf (c.sysReg 0x4006) 0 = true) → bitOf (c.sysReg 0x8006) 3 = true →
          ∃ t, exec x s = .next t ∧ Entered c (t.core n.val) 2 c.pc (BitVec.ofNat 64 (9 + 4294967296 * 3)) 0 0x80)

/-! ### Fences, waiting, return, partition switch -/

/-- The kinds of FENCE by row. -/
def fenceRows : List ((Fin 192 → List Byte → Instr) × Nat) := [(.fenceFull, 0), (.fenceAcqf, 1), (.fenceRelf, 2), (.fenceIfence, 3), (.fenceDev, 4)]

/-- FENCE FULL, ACQF, RELF, IFENCE and DEV with every earlier store performed and no device read outstanding retire and change nothing; FULL and RELF do not
retire while the store buffer holds a store (04 R108).  TLBSYNC retires at S and above when none of its core's TLBIs is in progress, and waits
otherwise (04 R110). -/
def Rules.FencesRetire : Prop :=
  ∀ (s u : State) (n : Fin 192) (b : List Byte) (i : Insn), Issues s n b i u →
    let c := u.core n.val
    (∀ x ∈ fenceRows, i.op = .fence → i.byte = x.2 → c.sb = [] → c.ext.all (·.fetch) = true → ∃ t, exec (x.1 n b) s = .next t ∧ Retires u t n c (seqOf u n i))
    ∧ (i.op = .fence → i.byte = 0 → c.sb ≠ [] → exec (.fenceFull n b) s = .next u)
    ∧ (i.op = .fence → i.byte = 2 → c.sb ≠ [] → exec (.fenceRelf n b) s = .next u)
    ∧ (i.op = .tlbsync → 1 ≤ c.level.val → c.tlbis = [] → ∃ t, exec (.tlbsync n b) s = .next t ∧ Retires u t n c (seqOf u n i))
    ∧ (i.op = .tlbsync → 1 ≤ c.level.val → c.tlbis ≠ [] → exec (.tlbsync n b) s = .next u)

/-- WAIT above U, not trapped, with the store buffer drained: HELD flags are released; with an enabled event pending or TIME at A it goes on at the next
instruction, and otherwise the core waits there and issues nothing (04 R111; 12 R340, R342). -/
def Rules.WaitRule : Prop :=
  ∀ (s u : State) (n : Fin 192) (b : List Byte) (i : Insn), Issues s n b i u → i.op = .wait →
    let c := u.core n.val
    let q := seqOf u n i
    let c' : Core := { c with held := [] }
    let stop := if i.a = 0 then none else some (c.gr i.a)
    let due := c'.wakeReady = true ∨ (i.a ≠ 0 ∧ (c.gr i.a).toNat ≤ u.time)
    1 ≤ c.level.val → ¬(c.level.val = 1 ∧ bitOf (c.sysReg 0x8006) 2 = true) → c.sb = [] →
      (due → ∃ t, exec (.wait n b) s = .next t ∧ EntryFrame u t n
        ∧ t.core n.val = { (c'.loopBack q).settled with run := .ready, bunk := (t.core n.val).bunk })
      ∧ (¬due → ∃ t, exec (.wait n b) s = .next t ∧ EntryFrame u t n ∧ t.core n.val = { c' with run := .waiting stop q }
        ∧ t.mayIssue n.val = false)

/-- RETI at T above U with P not above T: the hold of T is released; if no level is then deliverable at P, STATUS[8:0], PC and level are restored
from ESTAT_T and EPC_T, and no other register changes (04 R112; 12 R343).  With P above T, ILLRET is raised at T and nothing is
restored. -/
def Rules.ReturnRule : Prop :=
  ∀ (s u : State) (n : Fin 192) (b : List Byte) (i : Insn), Issues s n b i u → i.op = .reti →
    let c := u.core n.val
    let T := c.level.val
    let e := c.sysReg (0x4000 * T + 1)
    let P := fieldOf e 0 2
    let c' := c.setSys 0x8101 (putBit (c.sysReg 0x8101) T false)
    1 ≤ T →
      (P ≤ T → c'.highest P none = none → ∃ t, exec (.reti n b) s = .next t ∧ EntryFrame u t n
        ∧ (t.core n.val).level.val = P ∧ (t.core n.val).pc = c.sysReg (0x4000 * T)
        ∧ (∀ k, k < 9 → bitOf ((t.core n.val).sysReg 0) k = bitOf e (16 + k)) ∧ bitOf ((t.core n.val).sysReg 0x8101) T = false
        ∧ (∀ r, r ≠ 0 → r ≠ 0x8101 → (t.core n.val).sysReg r = c.sysReg r) ∧ (t.core n.val).g = c.g ∧ (t.core n.val).f = c.f
        ∧ (t.core n.val).sb = c.sb)
      ∧ (T < P → c.vec = false → ∃ t, exec (.reti n b) s = .next t ∧ EntryFrame u t n ∧ Entered c (t.core n.val) T c.pc 0x0A 0 0)

/-- RETI with a level deliverable at P enters that level in place of the return: EPC and the saved state stay those of the interrupted code, the level becomes
its target, whose hold sets (12 R346). -/
def Rules.ChainedReturn : Prop :=
  ∀ (s u : State) (n : Fin 192) (b : List Byte) (i : Insn) (k : Nat), Issues s n b i u → i.op = .reti →
    let c := u.core n.val
    let T := c.level.val
    let e := c.sysReg (0x4000 * T + 1)
    let P := fieldOf e 0 2
    let T' := c.target k
    1 ≤ T → P ≤ T → (c.setSys 0x8101 (putBit (c.sysReg 0x8101) T false)).highest P none = some k →
      ∃ t, exec (.reti n b) s = .next t ∧ (t.core n.val).level.val = T' ∧ (t.core n.val).sysReg (0x4000 * T') = c.sysReg (0x4000 * T)
        ∧ fieldOf ((t.core n.val).sysReg (0x4000 * T' + 1)) 0 2 = P
        ∧ fieldOf ((t.core n.val).sysReg (0x4000 * T' + 1)) 16 16 = fieldOf e 16 16
        ∧ (t.core n.val).sysReg (0x4000 * T' + 2) = BitVec.ofNat 64 (0x20 + k) ∧ bitOf ((t.core n.val).sysReg 0x8101) T' = true
        ∧ bitOf ((t.core n.val).sysReg 0) 8 = false
        ∧ (t.core n.val).pc = c.sysReg (0x4000 * T' + 4) + BitVec.ofNat 64 (0x100 + 0x80 * k)
        ∧ (t.core n.val).g = c.g ∧ (t.core n.val).f = c.f

/-- PSWITCH at H and M with a drained store buffer sets PARTID to A[5:0]; A[63:6] not 0 raises ILL 7, and below H PRIV is raised; nothing else changes the PARTID
(04 R116). -/
def Rules.PartitionSwitch : Prop :=
  ∀ (s u : State) (n : Fin 192) (b : List Byte) (i : Insn), Issues s n b i u → i.op = .pswitch →
    let c := u.core n.val
    let v := c.gr i.a
    (v.toNat < 64 → 2 ≤ c.level.val → c.sb = [] → ∃ t, exec (.pswitch n b) s = .next t
      ∧ Retires u t n { c.setSys 0x8008 v with pl := u.reg (corePage n.val 0x100) } (seqOf u n i) ∧ ((t.core n.val).part).toNat = v.toNat)
    ∧ (64 ≤ v.toNat → c.vec = false → ∃ t, exec (.pswitch n b) s = .next t ∧ EntryFrame u t n
        ∧ Entered c (t.core n.val) (max 1 c.level.val) c.pc (BitVec.ofNat 64 (1 + 256 * 7)) 0 (syncOff (max 1 c.level.val) c.level.val))
    ∧ (v.toNat < 64 → c.level.val ≤ 1 → c.vec = false → ∃ t, exec (.pswitch n b) s = .next t ∧ EntryFrame u t n
        ∧ Entered c (t.core n.val) (c.level.val + 1) c.pc 2 0 0x80)

/-! ### TLB and cache maintenance -/

/-- The scopes of TLBI by row. -/
def tlbiRows : List ((Fin 192 → List Byte → Instr) × Nat) :=
  [(.tlbiVaAsid, 0), (.tlbiVaAllAsid, 1), (.tlbiAsid, 2), (.tlbiVmidStage1, 3), (.tlbiIpa, 4), (.tlbiVmid, 5), (.tlbiAll, 6)]

/-- TLBI of each scope at its level, not trapped, with the store buffer drained and fewer than 16 in progress: a TLBI packet of that scope and operand sets
out for every bench, the core counts it in progress, and the instruction retires (04 R109; 07 R212). -/
def Rules.TlbiSends : Prop :=
  ∀ x ∈ tlbiRows, ∀ (s u : State) (n : Fin 192) (b : List Byte) (i : Insn), Issues s n b i u → i.op = .tlbi → i.byte = x.2 →
    let c := u.core n.val
    (if x.2 ≤ 3 then 1 else 2) ≤ c.level.val → ¬(c.level.val = 1 ∧ bitOf (c.sysReg 0x8006) 4 = true) → c.sb = [] → c.tlbis.length < 16 →
      ∃ t l, exec (x.1 n b) s = .next t ∧ (t.core n.val).tlbis = c.tlbis ++ [l] ∧ l.length = 24
        ∧ t.core n.val = { ({ c with tlbis := c.tlbis ++ [l] }.loopBack (seqOf u n i)).settled with bunk := (t.core n.val).bunk }
        ∧ t.mem = u.mem ∧ t.coh = u.coh
        ∧ ∀ bench, bench < 24 → ∃ f ∈ t.net.flights, f.pkt.op = 0x13 ∧ f.pkt.dst.toNat = 8 * (bench / 6) + bench % 6
            ∧ (tlbiOf f.pkt).scope = x.2 ∧ (tlbiOf f.pkt).a = c.gr i.a
            ∧ (tlbiOf f.pkt).vmid = BitVec.ofNat 16 (fieldOf (c.sysReg 0x8010) 48 16)

/-- The operations of CMO and CMOSW by row. -/
def cmoRows : List ((Fin 192 → List Byte → Instr) × Nat) :=
  [(.cmoCleanMem, 0), (.cmoInvMem, 1), (.cmoCinvMem, 2), (.cmoCleanL2, 3), (.cmoInvI, 4)]
def cmoswRows : List ((Fin 192 → List Byte → Instr) × Nat) := [(.cmoswClean, 0), (.cmoswInvalidate, 1), (.cmoswCleanInvalidate, 2)]

/-- CMO of each operation above U whose address translates and is not refused, with room in the store buffer: the line of the physical address enters the
store buffer behind every earlier store, and the instruction retires (08 R234, R235).  CMOSW of each operation at H and M with a legal
operand acts on the way that the operand names, and retires, once no fill of that line is outstanding and the eviction buffer has room (08 R243);
a reserved field of the operand raises ILL (08 R236). -/
def Rules.CacheMaintenance : Prop :=
  (∀ x ∈ cmoRows, ∀ (s u v : State) (n : Fin 192) (b : List Byte) (i : Insn) (pa : Nat) (mt : MemType), Issues s n b i u → i.op = .cmo → i.byte = x.2 →
    1 ≤ (u.core n.val).level.val → (u.core n.val).sb.length < 48 →
    u.translate n.val ((u.core n.val).gr i.a) .read (u.core n.val).level.val 1 = (.ok pa mt, v) → v.confOwner pa 1 = none →
      ∃ t e, exec (x.1 n b) s = .next t
        ∧ Retires v t n { v.core n.val with sb := (v.core n.val).sb ++ [e] } (seqOf u n i)
        ∧ e.addr = 64 * (pa / 64) ∧ e.cmo = some (if x.2 = 1 ∧ 2 ≤ (u.core n.val).level.val then 9 else x.2)
        ∧ e.data = [])
  ∧ (∀ x ∈ cmoswRows, ∀ (s u : State) (n : Fin 192) (b : List Byte) (i : Insn), Issues s n b i u → i.op = .cmosw → i.byte = x.2 →
    let a := (u.core n.val).gr i.a
    fieldOf a 2 6 = 0 → fieldOf a 20 12 = 0 → fieldOf a 36 28 = 0 → fieldOf a 0 2 ≤ 2 →
    fieldOf a 8 12 < (if fieldOf a 0 2 = 0 then 128 else if fieldOf a 0 2 = 1 then 256 else 4096) →
    fieldOf a 32 4 < (if fieldOf a 0 2 = 0 then 8 else if fieldOf a 0 2 = 1 then 4 else 16) → 2 ≤ (u.core n.val).level.val →
      let v := u.cmosw n.val x.2 (fieldOf a 0 2) (fieldOf a 8 12) (fieldOf a 32 4)
      let waits := u.swWaits n.val (fieldOf a 0 2) (fieldOf a 8 12) (fieldOf a 32 4)
      (waits = true → exec (x.1 n b) s = .next u)
      ∧ (waits = false → ∃ t, exec (x.1 n b) s = .next t ∧ Retires v t n (v.core n.val) (seqOf u n i) ∧ (v.core n.val).g = (u.core n.val).g
        ∧ (v.core n.val).f = (u.core n.val).f ∧ (v.core n.val).sys = (u.core n.val).sys
        ∧ v.mem = u.mem))
  ∧ (∀ x ∈ cmoswRows, ∀ (s u : State) (n : Fin 192) (b : List Byte) (i : Insn), Issues s n b i u → i.op = .cmosw → i.byte = x.2 →
    let c := u.core n.val
    c.vec = false → fieldOf (c.gr i.a) 2 6 ≠ 0 → ∃ t, exec (x.1 n b) s = .next t ∧ EntryFrame u t n
      ∧ Entered c (t.core n.val) (max 1 c.level.val) c.pc (BitVec.ofNat 64 (1 + 256 * 5)) 0 (syncOff (max 1 c.level.val) c.level.val))

/-! ### Translation -/

/-- Translation without a walk.  An address of the wrong form faults with SUB 16 (07 R184, R185); with both stages, or the H-regime, off the
physical address is the virtual one, and it faults only for a fetch from memory that is no code, or for a confidential range (07
R184, R196; 15 R423); a TLB hit gives its page and the offset if the rights of both stages suffice, and their fault otherwise (07
R191, R202, R203); a hit for a write needs an entry marked dirty (07 R194).  TLBs and counters aside, nothing changes. -/
def Rules.TranslationRules : Prop :=
  ∀ (s : State) (n : Nat) (va : W64) (acc : Acc) (lv bytes : Nat),
    let c := s.core n
    let r := s.translate n va acc lv bytes
    let one := if acc = .fetch then 0x10 else 0x12
    let stage1 := if 2 ≤ lv then bitOf (c.sysReg 0x8013) 0 else bitOf (c.sysReg 0x4011) 0
    let bad := if stage1 then ¬(∀ k, 47 ≤ k → k < 64 → bitOf va k = bitOf va 47) else ¬(∀ k, 42 ≤ k → k < 64 → bitOf va k = false)
    ViaCaches s r.2
      ∧ (bad → r.1 = .fault ⟨one, 16, va, none⟩)
      ∧ (¬bad → stage1 = false → (lv < 2 → bitOf (c.sysReg 0x8011) 0 = false) → acc ≠ .fetch →
          (lv < 2 ∨ s.confOwner (va.toNat % 2 ^ 42) bytes = none → ∃ mt, r.1 = .ok (va.toNat % 2 ^ 42) mt)
          ∧ (2 ≤ lv → (s.confOwner (va.toNat % 2 ^ 42) bytes).isSome = true → r.1 = .fault ⟨0x12, 112, va, none⟩))
      ∧ (∀ e, ¬bad → stage1 = true → acc ≠ .fetch → acc.writes = false ∨ e.dirty = true →
          c.dtlb.filter (fun x => x.matches c (decide (2 ≤ lv)) (va.toNat % 2 ^ 48) && (x.dirty || !acc.writes || (x.permFault acc lv va).isSome)) = [e] →
          (rightsMissing e.r1 acc lv = true → r.1 = .fault ⟨0x12, 64 + e.l1, va, none⟩)
          ∧ (rightsMissing e.r1 acc lv = false → e.hreg = false → rightsMissing e.r2 acc lv = true →
              ∃ a, r.1 = .fault ⟨0x13, 68 + e.l2, va, some a⟩)
          ∧ (rightsMissing e.r1 acc lv = false → (e.hreg = true ∨ rightsMissing e.r2 acc lv = false) → lv < 2 →
              ∃ mt, r.1 = .ok (e.pa + va.toNat % 2 ^ 48 % 2 ^ (12 + 9 * e.sz)) mt))

/-! ### Loads, stores, atomics -/

/-- A load by row: its operation, its length in bytes, and what its value `x` does to the core (04 R71, R86). -/
structure LoadSpec where
  con : Fin 192 → List Byte → Instr
  op : OzOp
  len : Insn → Nat
  put : Insn → Nat → Core → Core

def loadSpecs : List LoadSpec :=
  [ ⟨.ld, .ld, fun i => i.w / 8, fun i x c => c.setG i.a (BitVec.ofNat 64 x)⟩,
    ⟨.ldx, .ldx, fun i => i.w / 8, fun i x c => c.setG i.a (BitVec.ofInt 64 (sextNat x i.w))⟩,
    ⟨.fld, .fld, fun i => if i.pfx.size = some 0 then 4 else 8, fun i x c => c.setF i.a (BitVec.ofNat 128 x)⟩,
    ⟨.vld, .vld, fun _ => 16, fun i x c => c.setF i.a (BitVec.ofNat 128 x)⟩ ]

/-- LD, LDX, FLD and VLD whose parts translate to `ps`, none of them refused: with the youngest older store to their bytes in the store buffer
holding all of them, they take its bytes, also one that crosses a page as they do (06 R166, R167); with no older store to their bytes, those that the parts
give (06 R167, R168), or POISON at H (04 R99; 08 R233), and they wait, issued, while these have not come (06 R179); with a part of their bytes in older
stores they are discarded and issue again later (06 R167).  The value is zero-extended, or sign-extended by LDX; nothing else changes (04 R71, R86). -/
def Rules.LoadsRead : Prop :=
  ∀ x ∈ loadSpecs, ∀ (s u v : State) (n : Fin 192) (b : List Byte) (i : Insn) (ps : List Part), Issues s n b i u → i.op = x.op →
    let c := u.core n.val
    let q := seqOf u n i
    let m : MemAcc := { va := i.ea q c, len := x.len i, acc := .read, strict := i.ordIs 3 }
    u.placeParts n.val m true m.pages = (.ok ps, v) → (∀ p ∈ ps, p.refused = false) →
    ¬((∃ e ∈ (v.core n.val).sb, e.mt = .dev) ∧ ∃ p ∈ ps, p.mt = .dev) →
      ViaCaches u v
      ∧ (∀ l, forwardAll (v.core n.val).sb ps = .data l →
          ∃ t, exec (x.con n b) s = .next t ∧ Retires v t n (x.put i (leNat l) (v.core n.val)) q)
      ∧ (forwardAll (v.core n.val).sb ps = .partly → exec (x.con n b) s = .next
          (v.setCore n.val (Core.redirect { v.core n.val with replay := ps.map (fun p => (p.pa, p.len)), issued := false })))
      ∧ (∀ p l, ps = [p] → (∃ e, ((v.core n.val).sb.filter (fun e => e.overlaps p.pa p.len)).getLast? = some e ∧ e.addr ≤ p.pa
            ∧ p.pa + p.len ≤ e.addr + e.data.length ∧ l = (e.data.drop (p.pa - e.addr)).take p.len) →
          forwardAll (v.core n.val).sb ps = .data l)
      ∧ ((∀ p ∈ ps, ∀ e ∈ (v.core n.val).sb, e.overlaps p.pa p.len = false) → ∀ w l,
          (v.readParts n.val i.hintCode ps = (some (l, none), w) →
            ViaCaches v w ∧ ∃ t, exec (x.con n b) s = .next t ∧ Retires w t n (x.put i (leNat l) (w.core n.val)) q)
          ∧ (v.readParts n.val i.hintCode ps = (none, w) → exec (x.con n b) s = .next (w.setCore n.val { w.core n.val with issued := true }))
          ∧ (∀ a, v.readParts n.val i.hintCode ps = (some (l, some a), w) → c.vec = false →
              ∃ t, exec (x.con n b) s = .next t ∧ EntryFrame w t n ∧ Entered (w.core n.val) (t.core n.val) (max 2 c.level.val) c.pc
                (BitVec.ofNat 64 (0x18 + 131072 * Nat.log2 (x.len i))) a (syncOff (max 2 c.level.val) c.level.val)))

/-- Stores by row: the operation and the bytes. -/
def storeRows : List ((Fin 192 → List Byte → Instr) × OzOp × (Insn → Core → List Byte)) :=
  [(.st, .st, fun i c => leBytes (i.w / 8) (c.gr i.a).toNat),
   (.fst, .fst, fun i c => leBytes (if i.pfx.size = some 0 then 4 else 8) (c.fr i.a).toNat),
   (.vst, .vst, fun i c => leBytes 16 (c.fr i.a).toNat)]

/-- ST, FST and VST whose parts translate to `ps`: they enter the store buffer behind all older stores, one entry for each page, under the partition that
stores, and retire; a part that a confidential range refuses enters nothing and is counted.  No memory changes, and nothing else.  A buffer
that has no room for them holds them back (06 R166, R168; 15 R423). -/
def Rules.StoresEnterTheBuffer : Prop :=
  ∀ x ∈ storeRows, ∀ (s u v : State) (n : Fin 192) (b : List Byte) (i : Insn) (ps : List Part), Issues s n b i u → i.op = x.2.1 →
    let c := u.core n.val
    let q := seqOf u n i
    let l := x.2.2 i c
    let m : MemAcc := { va := i.ea q c, len := l.length, acc := .write, strict := i.ordIs 3 }
    let es := sbOf c.part i.hintCode ps l
    let w := v.refuseParts n.val ps
    u.placeParts n.val m true m.pages = (.ok ps, v) →
      ((v.core n.val).sb.length + es.length ≤ 48 →
        ∃ t, exec (x.1 n b) s = .next t ∧ Retires w t n { w.core n.val with sb := (w.core n.val).sb ++ es } q
          ∧ w.mem = v.mem ∧ w.core n.val = v.core n.val)
      ∧ (48 < (v.core n.val).sb.length + es.length → exec (x.1 n b) s = .next v)
      ∧ (∀ p, ps = [p] → p.len = l.length →
          es = if p.refused then [] else [{ addr := p.pa, data := l, mt := p.mt, part := c.part, hint := i.hintCode }])

/-- Atomics by row: the operation and what it stores, from the width, A, C and the old value; none: nothing is stored. -/
def atomRows : List ((Fin 192 → List Byte → Instr) × OzOp × (Nat → Nat → Nat → Nat → Option Nat)) :=
  [(.amoswp, .amoswp, fun _ _ c _ => some c), (.amoadd, .amoadd, fun w _ c o => some ((o + c) % 2 ^ w)), (.amoand, .amoand, fun _ _ c o => some (o &&& c)),
   (.amoor, .amoor, fun _ _ c o => some (o ||| c)), (.amoxor, .amoxor, fun _ _ c o => some (o ^^^ c)),
   (.amomin, .amomin, fun w _ c o => some (if sextNat c w < sextNat o w then c else o)),
   (.amomax, .amomax, fun w _ c o => some (if sextNat o w < sextNat c w then c else o)), (.cas, .cas, fun _ a c o => if o = a then some c else none)]

/-- An atomic whose address translates to `p`, no older store of its core in its way.  On a line that the L1D holds writable and unpoisoned, with no injected
error about: A becomes the old value zero-extended and the new value is stored into the line (04 R91; 05 R133; 08 R227).  Elsewhere in DRAM the read
and the write are one step at home, and outside DRAM a read is sent, whose answer A takes while the write enters the store buffer, which acquire ordering
awaits (04 R95): the model's ways (assumption log 34).  Nothing else changes. -/
def Rules.AtomicsPerform : Prop :=
  ∀ x ∈ atomRows, ∀ (s u v : State) (n : Fin 192) (b : List Byte) (i : Insn) (p : Part), Issues s n b i u → i.op = x.2.1 →
    let c := u.core n.val
    let q := seqOf u n i
    let m : MemAcc := { va := c.gr i.b, len := i.w / 8, acc := .rmw, strict := true }
    let new := fun old => x.2.2 i.w ((c.gr i.a).toNat % 2 ^ i.w) ((c.gr i.c).toNat % 2 ^ i.w) old
    let r := benchRtr (n.val / 8)
    u.placeParts n.val m true m.pages = (.ok [p], v) → p.refused = false → (v.core n.val).atomWaits i p = false →
      (∀ l, v.cached p.mt p.pa = true → v.err.flaws = [] → v.evicting n.val (p.pa / 64) = false →
        (∀ g ∈ (v.core n.val).given, ¬(g.line = p.pa / 64 ∧ g.un = true)) →
        v.l1dLine n.val (p.pa / 64) = some l → l.st = .m ∨ l.st = .e → l.poison = false →
          let old := leNat (((lineBytes l.data).drop (p.pa % 64)).take p.len)
          let w := match new old with
            | some k => v.storeLine n.val (p.pa / 64) (p.pa % 64) (leBytes p.len k) 0
            | none => v
          ∃ t, exec (x.1 n b) s = .next t ∧ Retires w t n ((w.core n.val).setG i.a (BitVec.ofNat 64 old)) q)
      ∧ (∀ l w, v.cached p.mt p.pa = false → v.isDram p.pa = true →
          v.wholeAccess r 0 (v.core n.val).part p.pa p.len none = (.done l false false, w) →
          (new (leNat l) = none → ∃ t, exec (x.1 n b) s = .next t ∧ Retires w t n ((w.core n.val).setG i.a (BitVec.ofNat 64 (leNat l))) q)
          ∧ (∀ k l' bad lost w', new (leNat l) = some k →
              w.wholeAccess r 0 (v.core n.val).part p.pa p.len (some (leBytes p.len k, false)) = (.done l' bad lost, w') →
              ∃ t, exec (x.1 n b) s = .next t ∧ Retires w' t n ((w'.core n.val).setG i.a (BitVec.ofNat 64 (leNat l))) q))
      ∧ (v.isDram p.pa = false → v.cached p.mt p.pa = false → (v.core n.val).sb.length < 48 →
          ((∀ y ∈ (v.core n.val).ext, ¬(y.addr = p.pa ∧ y.fetch = false)) →
            exec (x.1 n b) s = .next ((v.sendRead n.val p.pa p.len).updCore n.val (fun c => { c with issued := true })))
          ∧ (∀ y d k, (v.core n.val).ext.find? (fun y => y.addr = p.pa && !y.fetch) = some y → y.got = some (d, false) →
              (∀ y ∈ (v.core n.val).ext, y.wrote = false) → new (leNat (leBytes p.len d.toNat)) = some k → i.ordIs 0 = false → i.ordIs 2 = false →
              ∃ t, exec (x.1 n b) s = .next t
                ∧ Retires v t n (Core.setG { v.core n.val with
                    sb := (v.core n.val).sb ++ [{ addr := p.pa, data := leBytes p.len k, mt := p.mt, part := (v.core n.val).part }]
                    ext := (v.core n.val).ext.map (fun y => if y.addr = p.pa && !y.fetch then { y with wrote := true } else y) } i.a
                      (BitVec.ofNat 64 (leNat (leBytes p.len d.toNat)))) q))

/-- What a load, store or atomic asks of memory, by row: how it accesses, whether its address is that of an operand or in B, and its length. -/
def accessRows : List ((Fin 192 → List Byte → Instr) × OzOp × Acc × (Insn → Nat)) :=
  (loadSpecs.map (fun x => (x.con, x.op, .read, x.len)))
    ++ (storeRows.map (fun x => (x.1, x.2.1, .write, fun i => (x.2.2 i {}).length)))
    ++ (atomRows.map (fun x => (x.1, x.2.1, .rmw, fun i => i.w / 8)))

/-- The first page of an access decides its exceptions: ALIGN where the address is not a multiple of the length and the access is atomic, carries the
NT prefix, or goes to device memory; a translation fault with its cause, SUB, FAR and FAR2_H; a walk that is started, once the walker is free, and
waited for.  CAUSE.WR
is set for stores and atomics, CAUSE.SZ is the length (04 R87, R91, R95, R99, R102; 07 R197, R199, R200). -/
def Rules.AccessesTrap : Prop :=
  ∀ x ∈ accessRows, ∀ (s u v : State) (n : Fin 192) (b : List Byte) (i : Insn), Issues s n b i u → i.op = x.2.1 → (u.core n.val).vec = false →
    let c := u.core n.val
    let lv := c.level.val
    let len := x.2.2.2 i
    let rmw := decide (x.2.2.1 = .rmw)
    let va := if rmw then c.gr i.b else i.ea (seqOf u n i) c
    let wr := if x.2.2.1 = .read then 0 else 65536
    let first := min len (4096 - va.toNat % 4096)
    let lvl := fun (k : Nat) => max k lv
    (∀ pa mt, u.translate n.val va x.2.2.1 lv first = (.ok pa mt, v) → va.toNat % len ≠ 0 → rmw = true ∨ i.ordIs 3 = true ∨ mt = .dev →
      ∃ t, exec (x.1 n b) s = .next t ∧ EntryFrame v t n
        ∧ Entered (v.core n.val) (t.core n.val) (lvl 1) c.pc (BitVec.ofNat 64 (3 + wr + 131072 * Nat.log2 len)) va (syncOff (lvl 1) lv))
    ∧ (∀ f, u.translate n.val va x.2.2.1 lv first = (.fault f, v) →
        let T := lvl (if f.cause = 0x11 ∨ f.cause = 0x13 ∨ f.cause = 0x14 then 2 else 1)
        f.cause ∈ [0x10, 0x11, 0x12, 0x13, 0x14] → ∃ t, exec (x.1 n b) s = .next t ∧ EntryFrame v t n
          ∧ (t.core n.val).level.val = T ∧ (t.core n.val).sysReg (0x4000 * T) = c.pc
          ∧ (t.core n.val).sysReg (0x4000 * T + 2) = BitVec.ofNat 64 (f.cause + 256 * f.sub + wr + 131072 * Nat.log2 len)
          ∧ (t.core n.val).sysReg (0x4000 * T + 3) = f.far ∧ (∀ a, f.far2 = some a → (t.core n.val).sysReg 0x8007 = a)
          ∧ (t.core n.val).g = c.g ∧ (t.core n.val).f = c.f ∧ (t.core n.val).sb = c.sb)
    ∧ (u.translate n.val va x.2.2.1 lv first = (.walk, v) →
        exec (x.1 n b) s = .next (v.setCore n.val
          { v.core n.val with walk := (v.core n.val).walk.or (some ⟨va, x.2.2.1, lv, Nat.log2 len, [], false⟩), issued := true }))

/-- A store into a line that the L1D holds writable is what a load of that line then reads, in its bytes and, beside them, as before (08 R227); no copy
of any other core changes. -/
def Rules.StoredBytesAreRead : Prop :=
  ∀ (s : State) (n line off hint use : Nat) (l : CLine) (bytes : List Byte),
    s.l1dLine n line = some l → l.st = .m ∨ l.st = .e → off + bytes.length ≤ 64 →
      let t := s.storeLine n line off bytes use
      ∃ d p w, t.loadLine n line hint = (some (d, p), w)
        ∧ ((lineBytes d).drop off).take bytes.length = bytes
        ∧ (lineBytes d).take off = (lineBytes l.data).take off
        ∧ (lineBytes d).drop (off + bytes.length) = (lineBytes l.data).drop (off + bytes.length)
        ∧ (∀ m, m ≠ n → (w.core m).l1d = (s.core m).l1d) ∧ w.mem = s.mem

/-- STORE_BUFFER_WRITE.  The 16 oldest entries ask for the lines that they miss; an empty buffer does nothing.  The oldest entry is a store within a line that
the L1D holds writable: its bytes are stored and it leaves the buffer.  It is a store that the caches do not serve: it sets out, WR_CS for control space
and WR_PT elsewhere, once, under the partition that stored it, and stays until it is answered.  It is a CMO of a line of DRAM: it sets out for home; a
CLEAN_L2 is done in the bench.  PARTIAL_OVERLAP_REPLAY lets a load issue again when no older store to its bytes is left; FETCH_FILL_COMPLETE waits for
the block, fills with it, and ends the wait (06 R153, R166, R167; 08 R227, R235; 10 R271). -/
def Rules.StoreBufferDrains : Prop :=
  ∀ (s : State) (n : Fin 192), s.stalled = false → s.domUp n.val = true →
    let c := s.core n.val
    let u := s.askOwn n.val
    let asked := fun line => ∃ m ∈ u.coh.misses, m.line = line ∧ m.core / 8 = n.val / 8
    (c.sb = [] → exec (.storeBufferWrite n) s = .next s)
    ∧ ViaCaches s u
    ∧ (∀ e rest l, c.sb = e :: rest → e.cmo = none → e.sent = none → e.data ≠ [] → e.addr % 64 + e.data.length ≤ 64 →
        u.cached e.mt e.addr = true → u.evicting n.val (e.addr / 64) = false →
        u.l1dLine n.val (e.addr / 64) = some l → l.st = .m ∨ l.st = .e →
          let w := u.storeLine n.val (e.addr / 64) (e.addr % 64) e.data e.hint
          exec (.storeBufferWrite n) s = .next (w.setCore n.val { w.core n.val with sb := rest }))
    ∧ (∀ e rest d, c.sb = e :: rest → e.cmo = none → e.sent = none → e.data ≠ [] → e.addr % 64 + e.data.length ≤ 64 →
        u.cached e.mt e.addr = false → u.destOf e.addr = some d →
          ∃ t f, exec (.storeBufferWrite n) s = .next t ∧ t.core n.val = { u.core n.val with sb := { e with sent := some u.net.tag } :: rest }
            ∧ t.net.flights = u.net.flights ++ [f] ∧ f.pkt.op = (if inControl e.addr then 0x0B else 0x0A)
            ∧ f.pkt.addr = BitVec.ofNat 42 e.addr ∧ f.pkt.part = e.part ∧ f.pkt.tag = u.net.tag ∧ f.pkt.dst = BitVec.ofNat 7 d.1
            ∧ f.pkt.inl = BitVec.ofNat 256 (leNat e.data) ∧ t.mem = u.mem ∧ t.coh = u.coh)
    ∧ (∀ e rest, c.sb = e :: rest → e.sent.isSome = true → exec (.storeBufferWrite n) s = .next u)
    ∧ (∀ e rest op d, c.sb = e :: rest → e.cmo = some op → e.sent = none → ¬asked (e.addr / 64) → op % 8 ≠ 3 → u.isDram e.addr = true →
        u.destOf e.addr = some d →
          ∃ t f, exec (.storeBufferWrite n) s = .next t ∧ t.core n.val = { u.core n.val with sb := { e with sent := some u.net.tag } :: rest }
            ∧ t.net.flights = u.net.flights ++ [f] ∧ f.pkt.op = 0x0C ∧ f.pkt.inl = BitVec.ofNat 256 op ∧ f.pkt.part = e.part
            ∧ f.pkt.tag = u.net.tag ∧ f.pkt.dst = BitVec.ofNat 7 d.1 ∧ t.mem = u.mem ∧ t.coh = u.coh)
    ∧ (∀ e rest op, c.sb = e :: rest → e.cmo = some op → e.sent = none → ¬asked (e.addr / 64) → op % 8 = 3 →
          ∃ t, exec (.storeBufferWrite n) s = .next t ∧ (t.core n.val).sb = rest ∧ t.mem = u.mem ∧ t.net = u.net)
    ∧ ((∀ r ∈ c.replay, ∀ e ∈ c.sb, e.overlaps r.1 r.2 = false) →
        exec (.partialOverlapReplay n) s = .next (s.setCore n.val { c with replay := [] }))
    ∧ (c.fetchWait = none → exec (.fetchFillComplete n) s = .next s)
    ∧ (∀ line, c.fetchWait = some line →
        let mine := fun (m : Miss) => m.core = n.val ∧ m.line = line ∧ m.fetch = true
        ((∃ m ∈ s.coh.misses, mine m ∧ m.got = none) → exec (.fetchFillComplete n) s = .next s)
        ∧ ((∀ m ∈ s.coh.misses, ¬mine m) → (∀ x ∈ c.ext, x.fetch = true → x.addr / 64 = line → x.got.isSome = true) →
            exec (.fetchFillComplete n) s = .next (s.setCore n.val { c with fetchWait := none }))
        ∧ ((∃ m ∈ s.coh.misses, mine m) → (∀ m ∈ s.coh.misses, mine m → m.got.isSome = true) →
            (∀ x ∈ c.ext, x.fetch = true → x.addr / 64 = line → x.got.isSome = true) →
            (∀ m ∈ (cacheFill n.val line s).coh.misses, ¬mine m) →
            let v := cacheFill n.val line s
            exec (.fetchFillComplete n) s = .next (v.setCore n.val { v.core n.val with fetchWait := none })))

/-- Run-ahead.  A load to write-back memory whose lines have not come begins an episode: RACNT counts, and the core issues nothing else until its end.  With
PL_CTL.RA off or at a shadow there is none.  In every case no register, no store buffer entry and no byte of memory changes.  An episode ends when
the load's lines have come, and the core goes on with the load itself (06 R169-R175, R180). -/
def Obligations.RunAhead : Prop :=
  ∀ (s : State) (n : Fin 192), s.stalled = false →
    let c := s.core n.val
    (∀ b prog, bitOf c.pl 2 = false ∨ c.isShadow = true → exec (.runAheadEntry n b prog) s = .next s)
    ∧ (∀ b prog, ∃ t, exec (.runAheadEntry n b prog) s = .next t ∧ t.mem = s.mem ∧ t.stools = s.stools ∧ (t.core n.val).g = c.g
        ∧ (t.core n.val).f = c.f ∧ (t.core n.val).sys = c.sys ∧ (t.core n.val).pc = c.pc ∧ (t.core n.val).sb = c.sb)
    ∧ (∀ b prog i, s.mayIssue n.val = true → c.isShadow = false → c.raDone = false → bitOf c.pl 2 = true → headSerialises prog = false →
        s.time ≠ s.tickInstant (n.val / 48) → ozDecode b = .ok i → s.missing n.val i ≠ [] →
          ∃ t r, exec (.runAheadEntry n b prog) s = .next t ∧ (t.core n.val).ra = some r ∧ r.lines = s.missing n.val i
            ∧ t.reg (corePage n.val 0x120) = s.reg (corePage n.val 0x120) + 1 ∧ t.mayIssue n.val = false)
    ∧ (c.ra = none → exec (.runAheadExit n) s = .next s)
    ∧ (∀ r, c.ra = some r → (∀ l ∈ r.lines, ∀ m ∈ s.coh.misses, m.core = n.val → m.line = l → m.fetch = false → m.hint < 4 → m.got.isSome = true) →
        exec (.runAheadExit n) s = .next (s.setCore n.val { c with ra := none, raDone := true, fetchWait := none, stuck := false }))

/-- The TLBI rows.  A core of the addressed bench performs the TLBI: its matching TLB entries go, the others stay, a walk in progress is abandoned (07
R212-R214); an answer counts its bench as done for the core that waits (04 R110). -/
def Rules.TlbiPerformed : Prop :=
  ∀ (s : State) (n : Fin 192), s.stalled = false →
    let c := s.core n.val
    (∀ k : Packet, (∃ f ∈ s.net.flights, f.pkt = { k with op := 0x13 }) → s.atGate { k with op := 0x13 } = false → s.domUp n.val = true →
      k.dst.toNat = benchRouter n.val → ∃ t, exec (.tlbiPacket n k) s = .next t ∧ (t.core n.val).walk = none
        ∧ (∀ e, e ∈ (t.core n.val).dtlb ↔ e ∈ c.dtlb ∧ (tlbiOf k).hits e = false)
        ∧ (∀ e, e ∈ (t.core n.val).itlb ↔ e ∈ c.itlb ∧ (tlbiOf k).hits e = false)
        ∧ (∀ w e, (w, some e) ∈ (t.core n.val).l2tlb ↔ (w, some e) ∈ c.l2tlb ∧ (tlbiOf k).hits e = false)
        ∧ (∀ m, m ≠ n.val → t.core m = s.core m) ∧ t.mem = s.mem ∧ (t.core n.val).g = c.g ∧ (t.core n.val).sys = c.sys)
    ∧ (∀ k q : Packet, s.atGate { k with op := 0x25 } = false → s.net.outs.find? (fun q => q.tag = k.tag && q.src = k.dst && q.srcp = k.dstp) = some q → benchOf q = some (n.val / 8) →
        ∃ t, exec (.tlbiAck k) s = .next t
          ∧ t.core n.val = { c with tlbis := (c.tlbis.map (fun l => l.filter (· ≠ q.tag.toNat))).filter (fun l => !l.isEmpty) }
          ∧ t.net.outs.length + 1 = s.net.outs.length ∧ t.mem = s.mem)

/-- The walk of the H-regime through four levels, answer by answer: where it reads, and the entry that it installs from a leaf whose rights suffice and
whose A, and for a write D, are 1; an entry with V at 0, and missing rights, fault at their level (07 R188-R196).  TABLE_READ_RESPONSE takes the next
answer, and with the last one installs the entry and ends the walk (07 R195-R197, R201). -/
def Rules.TableWalks : Prop :=
  (∀ (v : WalkEnv) (acc : Acc) (lv : Nat) (e0 e1 e2 e3 : W64), 2 ≤ lv →
    let a := v.va.toNat % 2 ^ 48
    let oa := fun (e : W64) => fieldOf e 12 30 * 4096
    let t0 := oa v.hxroot + 8 * (a / 2 ^ 39 % 512)
    let t1 := oa e0 + 8 * (a / 2 ^ 30 % 512)
    let t2 := oa e1 + 8 * (a / 2 ^ 21 % 512)
    let t3 := oa e2 + 8 * (a / 2 ^ 12 % 512)
    let rs := [WalkReply.word e0, .word e1, .word e2, .word e3]
    let fc := if v.fetch then 0x10 else 0x12
    (∀ t ∈ [t0, t1, t2, t3], inControl t = false ∧ t < v.vtop ∧ v.barred t = false) →
    (∀ e ∈ [e0, e1, e2], bitOf e 0 = true ∧ bitOf e 1 = true ∧ bitOf e 63 = false ∧ fieldOf e 52 6 = 0 ∧ fieldOf e 42 10 = 0 ∧ fieldOf e 2 10 = 0) →
    bitOf e3 1 = true → bitOf e3 63 = false → fieldOf e3 42 10 = 0 → fieldOf e3 9 3 = 0 → fieldOf e3 2 3 ≤ 2 →
      v.run acc lv (rs.take 0) = .error (.read t0 0 0) ∧ v.run acc lv (rs.take 1) = .error (.read t1 0 1)
      ∧ v.run acc lv (rs.take 2) = .error (.read t2 0 2) ∧ v.run acc lv (rs.take 3) = .error (.read t3 0 3)
      ∧ (bitOf e3 0 = false → v.run acc lv rs = .error (.fault ⟨fc, 32 + 3, v.va, none⟩))
      ∧ (bitOf e3 0 = true → rightsMissing (teRights e3) acc lv = true → v.run acc lv rs = .error (.fault ⟨fc, 64 + 3, v.va, none⟩))
      ∧ (bitOf e3 0 = true → rightsMissing (teRights e3) acc lv = false → bitOf e3 6 = true → (acc.writes = true → bitOf e3 7 = true) →
          ∃ e, v.run acc lv rs = .ok e ∧ e.pa = oa e3 ∧ e.va = a / 4096 * 4096 ∧ e.sz = 0 ∧ e.hreg = true ∧ e.r1 = teRights e3))
  ∧ (∀ (s v : State) (n : Fin 192) (w : Walk) (pa x y : Nat) (d : BitVec 512), s.stalled = false → s.coreRuns n.val = true → (s.core n.val).walk = some w → w.spec = false →
    (s.walkEnv n.val w.va w.acc w.lv).run w.acc w.lv w.replies = .error (.read pa x y) → s.walkLine n.val (pa / 64) = (some (d, false), v) →
    let word := BitVec.ofNat 64 (leNat (((lineBytes d).drop (pa % 64)).take 8))
    let r := (v.walkEnv n.val w.va w.acc w.lv).run w.acc w.lv (w.replies ++ [.word word])
    (∀ e, r = .ok e → exec (.tableReadResponse n) s =
        .next ((v.setCore n.val { (v.core n.val).installTlb (decide (w.acc = .fetch)) e with walk := none }).count (corePage n.val 0x14C)))
    ∧ (∀ a b c, r = .error (.read a b c) → exec (.tableReadResponse n) s =
        .next (v.setCore n.val { v.core n.val with walk := some { w with replies := w.replies ++ [.word word] } })))

/-- CACHE_FILL of a line that has come for a load, with the L2 ready and room in its eviction buffer: the wait for it ends, and the bench's L2 holds the
line or the load has its data; a line that has not come, or a full eviction buffer, changes nothing (08 R221-R226, R243). -/
def Rules.FillsComplete : Prop :=
  ∀ (s : State) (n : Fin 192) (a : PAddr) (m : Miss), s.stalled = false →
    let line := a.toNat / 64
    let ready := s.cacheReady (benchPage (n.val / 8) 0 0) = true ∧ (s.evb (n.val / 8)).length < 16
    ((∀ m ∈ s.coh.misses, m.core = n.val → m.line = line → m.got = none) → exec (.cacheFill n a) s = .next s)
    ∧ (¬ready → exec (.cacheFill n a) s = .next s)
    ∧ (s.coh.misses.find? (fun m => m.core == n.val && m.line == line && m.got.isSome) = some m → ready →
        m.un = false → m.fetch = false → m.spec = false → m.hint ≠ 5 →
          ∃ t, exec (.cacheFill n a) s = .next t ∧ m ∉ t.coh.misses
            ∧ ((t.l2Line (n.val / 8) line).isSome = true ∨ ∃ g ∈ (t.core n.val).given, g.line = line)
            ∧ t.mem = s.mem ∧ (t.core n.val).g = (s.core n.val).g ∧ (t.core n.val).sb = (s.core n.val).sb)
/-! ### The Lintos engines -/

/-- The engine with N, Z, C and V written in the places of 16 R431: C at 0, Z at 1, N at 2, V at 3; the rest of F stays. -/
def stlFlags (t : Stool) (n z c v : Bool) : Stool := { t with f := putBit (putBit (putBit (putBit t.f 0 c) 1 z) 2 n) 3 v }

/-- The same with C and V kept, for a result `x` of width `w`. -/
def stlNz (t : Stool) (w x : Nat) : Stool := stlFlags t (x.testBit (w - 1)) (decide (x = 0)) (bitOf t.f 0) (bitOf t.f 3)

/-- No node on the way from the engine to the page of a control-window access has a parity error to inject (10 R296). -/
def StlArrives (u : State) (k : Fin 34) (a : Nat) : Prop :=
  let c := fieldOf ((u.stool k.val).lr 4) 0 5 * 8388608 + a % 8388608
  ∀ n ∈ nodePath (stoolNode k.val) (((pageOf c).map Page.node).getD 0),
    (u.force (stoolPage k.val 0) 1).bit (stoolPage (nodeStool n) 0x1C) 29 = false

/-- The operand of a matrix instruction or an index load of `n` bytes at address `a`: the bytes of the SRAM, an engine-local register, or what the
control window answers; `v` is the state after the access (16 R432, R433, R443). -/
def StlReads (u v : State) (k : Fin 34) (a n m : Nat) : Prop :=
  a % n = 0 ∧
    ((a < 0x40000 ∧ ∃ l, u.sramRead k.val a n = (false, l, v) ∧ m = leNat l)
      ∨ (0x40000 ≤ a ∧ a < 0x40100 ∧ n = 4 ∧ v = u ∧ m = ((u.stool k.val).readLr (a - 0x40000)).toNat)
      ∨ (0x800000 ≤ a ∧ a < 0x1000000 ∧ u.stlLost v k.val = false ∧ StlArrives u k a
          ∧ (u.force (stoolPage k.val 0) 1).ctlRead1 (192 + k.val) (fieldOf ((u.stool k.val).lr 4) 0 5 * 8388608 + a % 8388608) n = some (m, v)))

/-- A store of `n` bytes of value `x` at address `a`. -/
def StlWrites (u v : State) (k : Fin 34) (a n x : Nat) : Prop :=
  a % n = 0 ∧
    ((a < 0x40000 ∧ v = u.sramWrite k.val a (leBytes n x))
      ∨ (0x40000 ≤ a ∧ a < 0x40100 ∧ n = 4 ∧ v = u.setStool k.val ((u.stool k.val).writeLr (a - 0x40000) (BitVec.ofNat 32 x)))
      ∨ (0x800000 ≤ a ∧ a < 0x1000000 ∧ u.stlLost v k.val = false ∧ StlArrives u k a
          ∧ ∃ y, (u.force (stoolPage k.val 0) 1).ctlWrite1 (192 + k.val) 0 (fieldOf ((u.stool k.val).lr 4) 0 5 * 8388608 + a % 8388608) n x = some (y, v)))

/-- One matrix row: its constructor, its base divided by 8, the result from the width, A, M and C, the flags C and V, and whether A is written. -/
structure StlAlu where
  con : Fin 34 → List Byte → Instr
  row : Nat
  val : (w a m : Nat) → Bool → Nat
  cout : (w a m : Nat) → Bool → Bool
  vout : (w a m : Nat) → Bool → Bool
  writes : Bool

/-- The matrix rows with a result. -/
def IsStlAlu (x : StlAlu) : Prop := x ∈
  [ ⟨.stlAdd, 2, fun w a m _ => (a + m) % 2 ^ w, fun w a m _ => decide (2 ^ w ≤ a + m), fun w a m _ => outside w (sextNat a w + sextNat m w), true⟩,
    ⟨.stlAdc, 3, fun w a m c => (a + m + one c) % 2 ^ w, fun w a m c => decide (2 ^ w ≤ a + m + one c),
      fun w a m c => outside w (sextNat a w + sextNat m w + one c), true⟩,
    ⟨.stlSub, 4, fun w a m _ => (a + 2 ^ w - m) % 2 ^ w, fun _ a m _ => decide (m ≤ a), fun w a m _ => outside w (sextNat a w - sextNat m w), true⟩,
    ⟨.stlSbc, 5, fun w a m c => (a + 2 ^ w - m + 2 ^ w - one (!c)) % 2 ^ w, fun _ a m c => decide (m + one (!c) ≤ a),
      fun w a m c => outside w (sextNat a w - sextNat m w - one (!c)), true⟩,
    ⟨.stlAnd, 6, fun _ a m _ => a &&& m, fun _ _ _ _ => false, fun _ _ _ _ => false, true⟩,
    ⟨.stlOr, 7, fun _ a m _ => a ||| m, fun _ _ _ _ => false, fun _ _ _ _ => false, true⟩,
    ⟨.stlXor, 8, fun _ a m _ => a ^^^ m, fun _ _ _ _ => false, fun _ _ _ _ => false, true⟩,
    ⟨.stlCmp, 9, fun w a m _ => (a + 2 ^ w - m) % 2 ^ w, fun _ a m _ => decide (m ≤ a), fun w a m _ => outside w (sextNat a w - sextNat m w), false⟩ ]

/-- ADD, ADC, SUB, SBC, AND, OR, XOR, CMP and LD, with an immediate or an operand in memory, at 8, 16 and 32 bits: A becomes the result zero-extended (CMP:
nothing), N, Z, C and V are those of 04 R117 at the width (LD: N and Z), and nothing else of the engine changes; a read that is answered leaves
everything but its own effects alone (16 R436). -/
def Rules.StlArithmetic : Prop :=
  ∀ (s u v : State) (k : Fin 34) (b : List Byte) (i : StlInsn) (m : Nat), StlIssues s k b i u → i.op < 0x50 →
    let t := stlNext s k i
    let w := i.w
    let a := t.a.toNat % 2 ^ w
    (if i.op % 8 = 0 then v = u ∧ m = (if i.long then i.imm else (sextNat i.imm 16 % (2 ^ w : Nat)).toNat) else StlReads u v k (i.addr t) (w / 8) m) → m < 2 ^ w →
      (∀ x, IsStlAlu x → i.op / 8 = x.row →
        let y := x.val w a m (bitOf t.f 0)
        let r := if x.writes then { t with a := BitVec.ofNat 32 y } else t
        ∃ e, exec (x.con k b) s = .next e
          ∧ StlCompletes v e k (stlFlags r (y.testBit (w - 1)) (decide (y = 0)) (x.cout w a m (bitOf t.f 0)) (x.vout w a m (bitOf t.f 0))))
      ∧ (i.op / 8 = 0 → ∃ e, exec (.stlLd k b) s = .next e ∧ StlCompletes v e k (stlNz { t with a := BitVec.ofNat 32 m } w m))

/-- XLD and YLD of an immediate or of memory, POP, POPX, POPY, POPF, STL_RET and IRET: what the value read becomes; a pop moves SP up by its bytes; XLD and
YLD write N and Z, POPF and IRET all of F and BK, nothing else changes (16 R433, R437, R439, R451). -/
def Rules.StlLoads : Prop :=
  ∀ (s u v : State) (k : Fin 34) (b : List Byte) (i : StlInsn) (m : Nat), StlIssues s k b i u →
    let t := stlNext s k i
    let a16 := 65536 * (i.bank.getD t.bk).toNat + i.imm
    let putF := fun (t : Stool) (x : Nat) => { t with f := BitVec.ofNat 8 x, bk := BitVec.ofNat 8 (x / 256) }
    (i.op = 0x50 → ∃ e, exec (.xld k b) s = .next e ∧ StlCompletes u e k (stlNz { t with x := BitVec.ofNat 16 i.imm } 16 (i.imm % 65536)))
    ∧ (i.op = 0x53 → ∃ e, exec (.yld k b) s = .next e ∧ StlCompletes u e k (stlNz { t with y := BitVec.ofNat 16 i.imm } 16 (i.imm % 65536)))
    ∧ (StlReads u v k a16 2 m →
        (i.op = 0x51 → ∃ e, exec (.xld k b) s = .next e ∧ StlCompletes v e k (stlNz { t with x := BitVec.ofNat 16 m } 16 (m % 65536)))
        ∧ (i.op = 0x54 → ∃ e, exec (.yld k b) s = .next e ∧ StlCompletes v e k (stlNz { t with y := BitVec.ofNat 16 m } 16 (m % 65536))))
    ∧ (StlReads u v k t.sp.toNat 4 m →
        let t4 := { t with sp := t.sp + 4 }
        (i.op = 0x66 → ∃ e, exec (.pop k b) s = .next e ∧ StlCompletes v e k { t4 with a := BitVec.ofNat 32 m })
        ∧ (i.op = 0x6C → ∃ e, exec (.popf k b) s = .next e ∧ StlCompletes v e k (putF t4 m))
        ∧ (i.op = 0x7D → ∃ e, exec (.stlRet k b) s = .next e ∧ StlCompletes v e k { t4 with pc := BitVec.ofNat 24 m })
        ∧ (i.op = 0x7E → ∀ w p, StlReads v w k (t.sp + 4).toNat 4 p →
            ∃ e, exec (.iret k b) s = .next e ∧ StlCompletes w e k { putF t m with sp := t.sp + 8, pc := BitVec.ofNat 24 p }))
    ∧ (StlReads u v k t.sp.toNat 2 m →
        (i.op = 0x68 → ∃ e, exec (.popx k b) s = .next e ∧ StlCompletes v e k { t with sp := t.sp + 2, x := BitVec.ofNat 16 m })
        ∧ (i.op = 0x6A → ∃ e, exec (.popy k b) s = .next e ∧ StlCompletes v e k { t with sp := t.sp + 2, y := BitVec.ofNat 16 m }))

/-- ST, XST, YST, PUSH, PUSHX, PUSHY, PUSHF, CALL and CALLF: the value stored, at the operand's address or below SP, which moves down; CALL and CALLF store the
next PC as 4 bytes and go on at their target; no register else and no flag changes (16 R433, R436, R437, R439). -/
def Rules.StlStores : Prop :=
  ∀ (s u v : State) (k : Fin 34) (b : List Byte) (i : StlInsn), StlIssues s k b i u →
    let t := stlNext s k i
    let a16 := 65536 * (i.bank.getD t.bk).toNat + i.imm
    let d4 := { t with sp := t.sp - 4 }
    let d2 := { t with sp := t.sp - 2 }
    let in16 := fun (x : Nat) => BitVec.ofNat 24 (t.pc.toNat / 65536 * 65536 + x % 65536)
    (i.op < 0x50 → i.op / 8 = 1 → StlWrites u v k (i.addr t) (i.w / 8) (t.a.toNat % 2 ^ i.w) →
      ∃ e, exec (.stlSt k b) s = .next e ∧ StlCompletes v e k t)
    ∧ (i.op = 0x52 → StlWrites u v k a16 2 t.x.toNat → ∃ e, exec (.xst k b) s = .next e ∧ StlCompletes v e k t)
    ∧ (i.op = 0x55 → StlWrites u v k a16 2 t.y.toNat → ∃ e, exec (.yst k b) s = .next e ∧ StlCompletes v e k t)
    ∧ (i.op = 0x65 → StlWrites u v k d4.sp.toNat 4 t.a.toNat → ∃ e, exec (.push k b) s = .next e ∧ StlCompletes v e k d4)
    ∧ (i.op = 0x67 → StlWrites u v k d2.sp.toNat 2 t.x.toNat → ∃ e, exec (.pushx k b) s = .next e ∧ StlCompletes v e k d2)
    ∧ (i.op = 0x69 → StlWrites u v k d2.sp.toNat 2 t.y.toNat → ∃ e, exec (.pushy k b) s = .next e ∧ StlCompletes v e k d2)
    ∧ (i.op = 0x6B → StlWrites u v k d4.sp.toNat 4 (256 * t.bk.toNat + t.f.toNat) →
        ∃ e, exec (.pushf k b) s = .next e ∧ StlCompletes v e k d4)
    ∧ (i.op = 0x7B → StlWrites u v k d4.sp.toNat 4 t.pc.toNat →
        ∃ e, exec (.call k b) s = .next e ∧ StlCompletes v e k { d4 with pc := in16 i.imm })
    ∧ (i.op = 0x7C → StlWrites u v k d4.sp.toNat 4 t.pc.toNat →
        ∃ e, exec (.callf k b) s = .next e ∧ StlCompletes v e k { d4 with pc := BitVec.ofNat 24 i.imm })

/-- A store to the SRAM of an engine is what a later read of it gives; every other byte, every other engine and every register stay (16 R432, R458). -/
def Rules.StlMemory : Prop :=
  ∀ (s : State) (k a n x : Nat), x < 256 ^ n →
    leNat (Memory.readN ((s.sramWrite k a (leBytes n x)).stool k).sram a n) = x
    ∧ (∀ y, (y < a ∨ a + n ≤ y) → Memory.read ((s.sramWrite k a (leBytes n x)).stool k).sram y = Memory.read (s.stool k).sram y)
    ∧ (∀ j, j ≠ k → (s.sramWrite k a (leBytes n x)).stool j = s.stool j)
    ∧ (s.sramWrite k a (leBytes n x)).stool k = { s.stool k with sram := ((s.sramWrite k a (leBytes n x)).stool k).sram }
    ∧ (Memory.wf (s.stool k).sram = true → Memory.wf ((s.sramWrite k a (leBytes n x)).stool k).sram = true)
    ∧ (s.sramWrite k a (leBytes n x)).regs = s.regs ∧ (s.sramWrite k a (leBytes n x)).mem = s.mem

/-- One row that computes on registers: its constructor, its opcode, and what it makes of the engine whose PC is already the next one. -/
def IsStlPure (x : (Fin 34 → List Byte → Instr) × Nat × (Nat → Stool → Stool)) : Prop :=
  let sub := fun (w : Nat) (r : Stool) (x y : Nat) =>
    stlFlags r (((x + 2 ^ w - y) % 2 ^ w).testBit (w - 1)) (decide (x = y)) (decide (y ≤ x)) (outside w (sextNat x w - sextNat y w))
  let jump := fun (t : Stool) (a : Nat) => { t with pc := BitVec.ofNat 24 (t.pc.toNat / 65536 * 65536 + a % 65536) }
  let rel := fun (t : Stool) (r8 : Nat) => jump t (((t.pc.toNat : Int) + sextNat r8 8) % 65536).toNat
  let acc := fun (t : Stool) (x : Nat) => { t with a := BitVec.ofNat 32 x }
  let shift := fun (t : Stool) (y : Nat) (c : Bool) => stlFlags (acc t y) (y.testBit 31) (decide (y = 0)) c false
  x ∈
  [ (.xinc, 0x56, fun _ t => stlNz { t with x := t.x + 1 } 16 (t.x + 1).toNat), (.xdec, 0x57, fun _ t => stlNz { t with x := t.x - 1 } 16 (t.x - 1).toNat),
    (.yinc, 0x58, fun _ t => stlNz { t with y := t.y + 1 } 16 (t.y + 1).toNat), (.ydec, 0x59, fun _ t => stlNz { t with y := t.y - 1 } 16 (t.y - 1).toNat),
    (.xcmp, 0x5A, fun i t => sub 16 t t.x.toNat i), (.ycmp, 0x5B, fun i t => sub 16 t t.y.toNat i),
    (.movxa, 0x5C, fun _ t => stlNz { t with x := BitVec.setWidth 16 t.a } 16 (t.a.toNat % 65536)),
    (.movya, 0x5E, fun _ t => stlNz { t with y := BitVec.setWidth 16 t.a } 16 (t.a.toNat % 65536)),
    (.movxs, 0x60, fun _ t => { t with x := t.sp }), (.movsx, 0x61, fun _ t => { t with sp := t.x }),
    (.movba, 0x62, fun _ t => { t with bk := BitVec.setWidth 8 t.a }), (.movab, 0x63, fun _ t => { t with a := BitVec.setWidth 32 t.bk }),
    (.bkld, 0x64, fun i t => { t with bk := BitVec.ofNat 8 i }),
    (.stlMul, 0x6D, fun _ t =>
      let y := t.a.toNat % 65536 * t.x.toNat
      stlFlags (acc t y) (y.testBit 31) (decide (y = 0)) false false),
    (.divu, 0x6E, fun _ t =>
      if t.x = 0 then stlFlags { t with a := 0xFFFFFFFF, y := BitVec.setWidth 16 t.a } (bitOf t.f 2) false true (bitOf t.f 3)
      else
        stlFlags { t with a := BitVec.ofNat 32 (t.a.toNat / t.x.toNat), y := BitVec.ofNat 16 (t.a.toNat % t.x.toNat) } (bitOf t.f 2)
          (decide (t.a.toNat / t.x.toNat = 0)) false (bitOf t.f 3)),
    (.aneg, 0x6F, fun _ t => sub 32 (acc t (4294967296 - t.a.toNat)) 0 t.a.toNat),
    (.br, 0x70, fun i t => rel t i), (.jp, 0x79, fun i t => jump t i), (.jpf, 0x7A, fun i t => { t with pc := BitVec.ofNat 24 i }),
    (.jpx, 0x7F, fun _ t => jump t t.x.toNat), (.stlNop, 0x80, fun _ t => t),
    (.inton, 0x82, fun _ t => { t with f := putBit t.f 4 true }), (.intoff, 0x83, fun _ t => { t with f := putBit t.f 4 false }),
    (.ainc, 0x85, fun _ t => stlNz { t with a := t.a + 1 } 32 (t.a + 1).toNat), (.adec, 0x86, fun _ t => stlNz { t with a := t.a - 1 } 32 (t.a - 1).toNat),
    (.anot, 0x87, fun _ t => stlNz { t with a := ~~~t.a } 32 (~~~t.a).toNat),
    (.brCond, 0x71, fun i t => if bitOf t.f 1 then rel t i else t), (.brCond, 0x72, fun i t => if bitOf t.f 1 then t else rel t i),
    (.brCond, 0x73, fun i t => if bitOf t.f 0 then rel t i else t), (.brCond, 0x74, fun i t => if bitOf t.f 0 then t else rel t i),
    (.brCond, 0x75, fun i t => if bitOf t.f 2 then rel t i else t), (.brCond, 0x76, fun i t => if bitOf t.f 2 then t else rel t i),
    (.brCond, 0x77, fun i t => if bitOf t.f 3 then rel t i else t), (.brCond, 0x78, fun i t => if bitOf t.f 3 then t else rel t i),
    (.stlShl, 0x88, fun k t => shift t (t.a.toNat * 2 ^ k % 2 ^ 32) (decide (1 ≤ k) && decide (k ≤ 32) && t.a.toNat.testBit (32 - k))),
    (.stlShr, 0x89, fun k t => shift t (t.a.toNat / 2 ^ k) (decide (1 ≤ k) && decide (k ≤ 32) && t.a.toNat.testBit (k - 1))),
    (.stlSar, 0x8A, fun k t => shift t (t.a.toInt / (2 ^ k : Nat) % 4294967296).toNat (decide (1 ≤ k) && t.a.toNat.testBit (if k ≤ 32 then k - 1 else 31))) ]

/-- The rows that compute on an engine's registers alone: XINC to BKLD, STL_MUL, DIVU, ANEG, the branches and jumps, AINC, ADEC, ANOT, the shifts, INTON, INTOFF
and STL_NOP.  The registers and flags that 16 R437 names for a row change as it says, the PC goes to the next instruction or to the target,
STLCNT counts, and nothing else changes (16 R437-R439). -/
def Rules.StlRegisterRows : Prop :=
  ∀ x, IsStlPure x → ∀ (s u : State) (k : Fin 34) (b : List Byte) (i : StlInsn), StlIssues s k b i u → i.op = x.2.1 →
    ∃ e, exec (x.1 k b) s = .next e ∧ StlCompletes u e k (x.2.2 i.imm (stlNext s k i))

/-- RDTIME, RDTIMH, RDFEAT and IDLE: A becomes TIME[31:0] with TIME[63:32] captured, the captured half, or FEAT; IDLE ends at once where a level is pending,
enabled and above PL, and otherwise the engine waits there and issues nothing (16 R437, R452, R462).  MOVAX and MOVAY write N and Z of the 32-bit
result: the model's reading (assumption log 33). -/
def Rules.StlReadsAndWaits : Prop :=
  ∀ (s u : State) (k : Fin 34) (b : List Byte) (i : StlInsn), StlIssues s k b i u →
    let t := stlNext s k i
    let hi := BitVec.ofNat 32 (u.time / 4294967296)
    let on := ∃ l, l < 4 ∧ (u.stool k.val).levelOn l = true ∧ fieldOf t.f 5 3 < l + 1
    (i.op = 0x8B → ∃ e, exec (.stlRdtime k b) s = .next e ∧ StlCompletes u e k { t with a := BitVec.ofNat 32 u.time, timeHi := some hi })
    ∧ (i.op = 0x8C → ∃ e, exec (.rdtimh k b) s = .next e ∧ StlCompletes u e k { t with a := t.timeHi.getD hi })
    ∧ (i.op = 0x8D → i.imm < 4 → ∃ e, exec (.stlRdfeat k b) s = .next e ∧ StlCompletes u e k { t with a := stlFeat k.val i.imm })
    ∧ stlFeat k.val 0 = 0x00041001 ∧ stlFeat k.val 2 = 0 ∧ stlFeat k.val 3 = 0
    ∧ (i.op = 0x81 → on → ∃ e, exec (.idle k b) s = .next e ∧ StlCompletes u e k t)
    ∧ (i.op = 0x81 → ¬on → ∃ e, exec (.idle k b) s = .next e ∧ e = u.setStool k.val ((u.stool k.val).take { t with waiting := true })
        ∧ e.stlReady k.val = false)
    ∧ (i.op = 0x5D → ∃ e, exec (.movax k b) s = .next e
        ∧ StlCompletes u e k (stlNz { t with a := BitVec.setWidth 32 t.x } 32 t.x.toNat))
    ∧ (i.op = 0x5F → ∃ e, exec (.movay k b) s = .next e
        ∧ StlCompletes u e k (stlNz { t with a := BitVec.setWidth 32 t.y } 32 t.y.toNat))

/-- Engine `c` entered a handler as `d`: `pushed` and {BK, F} lie on its stack, PL is `pl`, the PC comes from the vector word; I, A, X, Y and BK stay, as does
every byte of its SRAM outside the stack words (16 R448). -/
structure StlEntered (c d : Stool) (pushed vec pl : Nat) : Prop where
  sp : d.sp = c.sp - 8
  pl : fieldOf d.f 5 3 = pl
  flags : ∀ j, j < 5 → bitOf d.f j = bitOf c.f j
  first : leNat (Memory.readN d.sram (c.sp - 4).toNat 4) = pushed
  second : leNat (Memory.readN d.sram (c.sp - 8).toNat 4) = 256 * c.bk.toNat + c.f.toNat
  pc : d.pc = BitVec.ofNat 24 (leNat (Memory.readN d.sram vec 4))
  rest : d.a = c.a ∧ d.x = c.x ∧ d.y = c.y ∧ d.bk = c.bk ∧ d.halted = c.halted ∧ d.waiting = false
  sram : ∀ a, (a < (c.sp - 8).toNat ∨ (c.sp - 8).toNat + 4 ≤ a) → (a < (c.sp - 4).toNat ∨ (c.sp - 4).toNat + 4 ≤ a) →
    Memory.read d.sram a = Memory.read c.sram a
  local_ : ∀ o, o ≠ 0xC → o ≠ 0x10 → o ≠ 0x14 → d.lr o = c.lr o

/-- Every Lintos row. -/
def IsStlCon (con : Fin 34 → List Byte → Instr) : Prop := con ∈
  [.stlLd, .stlSt, .stlAdd, .stlAdc, .stlSub, .stlSbc, .stlAnd, .stlOr, .stlXor, .stlCmp, .xld, .xst, .yld, .yst, .xinc, .xdec, .yinc, .ydec, .xcmp,
   .ycmp, .movxa, .movax, .movya, .movay, .movxs, .movsx, .movba, .movab, .bkld, .push, .pop, .pushx, .popx, .pushy, .popy, .pushf, .popf, .stlMul,
   .divu, .aneg, .br, .brCond, .jp, .jpf, .call, .callf, .stlRet, .iret, .jpx, .stlNop, .idle, .inton, .intoff, .swx, .ainc, .adec, .anot, .stlShl,
   .stlShr, .stlSar, .stlRdtime, .rdtimh, .stlRdfeat]

/-- SWX, ILL and BUS: with SP a multiple of 4, PL not 5 and no injected error about, the entry of 16 R449: SWX pushes the next PC with cause 0, bytes that
spell no instruction and RDFEAT from 4 on the PC with cause 1, a misaligned or unmapped read of LD with cause 2 and its address in EADR; ECAUSE
and EPC are written.  At PL 5 the engine halts with ECAUSE[8] and PG_ERR.DFLT, its registers unchanged (16 R450). -/
def Rules.StlExceptions : Prop :=
  ∀ (s u : State) (k : Fin 34) (b : List Byte), s.stalled = false → k.val < 32 → s.stlReady k.val = true → (s.stool k.val).deliverable = none →
    u.err.flaws = [] → u.reg (stoolPage k.val 0x1C) = 0 → (u.stool k.val).sp.toNat % 4 = 0 →
    let c := u.stool k.val
    let taken := fun (e : State) (cause pushed : Nat) => StlEntered c (e.stool k.val) pushed (0xFF10 + 4 * cause) 5
      ∧ fieldOf ((e.stool k.val).lr 0xC) 0 2 = cause ∧ (e.stool k.val).lr 0x10 = BitVec.ofNat 32 c.pc.toNat ∧ e.regs = u.regs ∧ e.mem = u.mem
      ∧ ∀ j, j ≠ k.val → e.stool j = u.stool j
    (∀ i, stlDecode b = .ok i → s.stlFetch k.val c.pc.toNat 0 i.len = (none, u) → fieldOf c.f 5 3 ≠ 5 →
      (i.op = 0x84 → ∃ e, exec (.swx k b) s = .next e ∧ taken e 0 ((c.pc.toNat + i.len) % 16777216))
      ∧ (i.op = 0x8D → 4 ≤ i.imm → ∃ e, exec (.stlRdfeat k b) s = .next e ∧ taken e 1 c.pc.toNat)
      ∧ (i.op < 8 → i.op ≠ 0 →
          let a := i.addr (stlNext s k i)
          (a % (i.w / 8) ≠ 0 ∨ (0x40000 ≤ a ∧ a < 0x40100 ∧ i.w ≠ 32) ∨ (0x40100 ≤ a ∧ a < 0x800000) ∨ 0x1000000 ≤ a) →
            ∃ e, exec (.stlLd k b) s = .next e ∧ taken e 2 c.pc.toNat ∧ (e.stool k.val).lr 0x14 = BitVec.ofNat 32 a))
    ∧ (∀ j, stlDecode b = .ill j → s.stlFetch k.val c.pc.toNat 0 j = (none, u) → fieldOf c.f 5 3 ≠ 5 →
        ∀ con, IsStlCon con → ∃ e, exec (con k b) s = .next e ∧ taken e 1 c.pc.toNat)
    ∧ (∀ i, stlDecode b = .ok i → s.stlFetch k.val c.pc.toNat 0 i.len = (none, u) → fieldOf c.f 5 3 = 5 → i.op = 0x84 →
        ∃ e, exec (.swx k b) s = .next e ∧ e.stool k.val = { (c.setLr 0xC (putBit (c.lr 0xC) 8 true)) with halted := true }
          ∧ e.bit (stoolPage k.val 0x14) 0 = true ∧ e.stlReady k.val = false)

/-- STL_INTERRUPT_ENTRY with SP a multiple of 4 and no injected error about: the highest level that is pending, enabled and not below PL, with F.I at 1, is
entered with its vector and PL; the PC pushed is that of the next instruction.  With none deliverable, nothing happens (16 R447, R448). -/
def Rules.StlInterruptEntry : Prop :=
  ∀ (s : State) (k : Fin 34), s.stalled = false → k.val < 32 → s.stlReady k.val = true →
    let c := s.stool k.val
    let ready := fun (l : Nat) => c.levelOn l = true ∧ bitOf c.f 4 = true ∧ fieldOf c.f 5 3 ≤ l
    (∀ l, l < 4 → ready l → (∀ j, l < j → j < 4 → ¬ready j) → s.err.flaws = [] → s.reg (stoolPage k.val 0x1C) = 0 → c.sp.toNat % 4 = 0 →
      ∃ e, exec (.stlInterruptEntry k) s = .next e ∧ StlEntered c (e.stool k.val) c.pc.toNat (0xFF00 + 4 * l) (l + 1)
        ∧ (e.stool k.val).lreg = c.lreg ∧ e.regs = s.regs ∧ e.mem = s.mem ∧ ∀ j, j ≠ k.val → e.stool j = s.stool j)
    ∧ ((∀ l, l < 4 → ¬ready l) → exec (.stlInterruptEntry k) s = .next s)

/-- STOOL_FIRE: a fire to an engine of a running domain sets its pending bit, bits 9:6 ignored, and changes no other register of it; CONTROL_WINDOW_TIMEOUT:
without an access that waits, nothing; a load that waits completes with 0, STL_TOCNT counts, STL_TOADR holds the address and PG_ERR.CNTOUT sets, or
with LCTL.TOEXC BUS is raised (16 R444, R446; 12 R329). -/
def Rules.StlFiresAndTimeouts : Prop :=
  ∀ (s : State) (k : Fin 34), s.stalled = false → k.val < 32 →
    let c := s.stool k.val
    (∀ j lvl bit, s.ev.fires[j]? = some (.stool k.val lvl bit) → lvl < 4 →
        (∃ p, pageOf (stoolPage k.val 0) = some p ∧ s.pageUp p = true) → c.waiting = false →
      exec (.stoolFire j) s = .next
        (({ s with ev := { s.ev with fires := s.ev.fires.eraseIdx j } }).setStool k.val
          (c.setLr (0x20 + 8 * lvl + 4 * (bit % 64 / 32)) (putBit (c.lr (0x20 + 8 * lvl + 4 * (bit % 64 / 32))) (bit % 32) true))))
    ∧ (c.cw = none → exec (.controlWindowTimeout k) s = .next s)
    ∧ (∀ b i, c.cw = some b → stlDecode b = .ok i → i.op < 8 → i.op ≠ 0 → s.err.flaws = [] → c.pc.toNat + i.len ≤ 0x40000 →
        c.waiting = false → s.bit (stoolPage k.val 0x40) 0 = true → ¬s.soft.contains (stoolPage k.val 0 / 4096) →
        bitOf (c.lr 0) 0 = false → s.reg (stoolPage k.val 0x1C) = 0 →
          let a := i.addr (stlNext s k i)
          a % (i.w / 8) = 0 → 0x800000 ≤ a → a < 0x1000000 →
            ∃ e, exec (.controlWindowTimeout k) s = .next e ∧ (e.stool k.val).a = 0 ∧ (e.stool k.val).cw = none
              ∧ (e.stool k.val).pc = c.pc + BitVec.ofNat 24 i.len ∧ (e.stool k.val).x = c.x ∧ (e.stool k.val).sp = c.sp
              ∧ e.reg (stoolPage k.val 0x58) = s.reg (stoolPage k.val 0x58) + 1
              ∧ e.reg (stoolPage k.val 0x5C) = BitVec.ofNat 32 (fieldOf (c.lr 4) 0 5 * 8388608 + a % 8388608)
              ∧ e.bit (stoolPage k.val 0x14) 1 = true ∧ e.mem = s.mem)

/-- The chip stools run as one engine: chip stool 1 takes no instruction of its own, and with both in one state and no injected error about, STL_NOP at chip
stool 0 leaves them in one state again, both past it (16 R460, R461). -/
def Rules.ChipStoolsRunTogether : Prop :=
  ∀ (s : State) (b : List Byte),
    (∀ con, IsStlCon con → exec (con 33 b) s = .next s)
    ∧ (∀ i, stlDecode b = .ok i → i.op = 0x80 → s.stalled = false → s.stlReady 32 = true → (s.stool 32).deliverable = none → s.stool 33 = s.stool 32 →
        s.bit (stoolPage 33 0x40) 0 = true → s.err.flaws = [] → s.reg (stoolPage 32 0x1C) = 0 → s.reg (stoolPage 33 0x1C) = 0 →
        (s.stool 32).pc.toNat + i.len ≤ 0x40000 → s.soft.contains (stoolPage 33 0 / 4096) = false →
          ∃ e, exec (.stlNop 32 b) s = .next e ∧ e.stool 32 = e.stool 33
            ∧ e.stool 32 = { s.stool 32 with pc := (s.stool 32).pc + BitVec.ofNat 24 i.len }
            ∧ e.reg (stoolPage 32 0x60) = s.reg (stoolPage 32 0x60) ∧ e.mem = s.mem)
/-! ### Errors and control space -/

/-- A detector that finds an error: its PG_ERR bit sets, a corrected error counts in PG_ERRCNT up to 0xFFFF, and with its mask bit at 1 one report sets out for
the page's first aggregator, unless the page's domain is in Stop; nothing else changes (02 R30; 18 R492, R495, R496).  AGGREGATOR_LATCH takes the first report for the aggregator: AG_STAT and the
class counter, the class's record where it is not VALID, and the report goes on to the parent where the mask passes its class (18 R496);
where several of a class may arrive in one cycle, the record takes one of them, which one is free (18 R497; assumption log 1). -/
def Obligations.ErrorsAreReported : Prop :=
  (∀ (s : State) (base bit : Nat) (p : Page) (part : Option PartId), pageOf base = some p → bit < 32 →
    let t := s.raise base bit part
    OnlyRegsErr s t [p.base + 0x14, p.base + 0x20]
      ∧ t.bit (p.base + 0x14) bit = true ∧ (∀ k, k ≠ bit → t.bit (p.base + 0x14) k = s.bit (p.base + 0x14) k)
      ∧ t.fld (p.base + 0x20) 0 16
        = (if errClass p.kind bit = .corrected then min 0xFFFF (s.fld (p.base + 0x20) 0 16 + 1) else s.fld (p.base + 0x20) 0 16)
      ∧ (s.bit (p.base + 0x18) bit = false ∨ s.pageUp p = false → t.err.reports = s.err.reports)
      ∧ (∃ r l, t.err.seen = r :: l
          ∧ t.err.reports = (if s.bit (p.base + 0x18) bit ∧ s.pageUp p then s.err.reports ++ [r] else s.err.reports) ∧ r.dest = firstAgg p ∧ r.bit = bit
          ∧ r.cls = errClass p.kind bit ∧ r.part = part ∧ r.inj = false ∧ r.time = s.clock.time))
  ∧ (∀ (s : State) (n : BitVec 16), s.stalled = false →
    let b := 4096 * n.toNat
    ((∀ r ∈ s.err.reports, r.dest ≠ n.toNat) → exec (.aggregatorLatch n) s = .next s)
    ∧ (∀ r rs, takeReport n.toNat s.err.reports = some (r, rs) → rivals r rs ≠ [] → ∃ t q, exec (.aggregatorLatch n) s = .next t
        ∧ q ∈ r :: rivals r rs ∧ t.bit (b + 0x40) r.cls.code = true ∧ t.reg (b + 0x50 + 4 * r.cls.code) = s.reg (b + 0x50 + 4 * r.cls.code) + 1
        ∧ (s.bit (b + 0x84 + 16 * r.cls.code) 31 = false → t.reg (b + 0x80 + 16 * r.cls.code) = BitVec.ofNat 32 q.addr)
        ∧ t.mem = s.mem ∧ t.cores = s.cores ∧ t.stools = s.stools)
    ∧ (∀ r rs, takeReport n.toNat s.err.reports = some (r, rs) → rivals r rs = [] → r.bit < 32 →
        let k := r.cls.code
        let rec_ := b + 0x80 + 16 * k
        ∃ t, exec (.aggregatorLatch n) s = .next t ∧ t.bit (b + 0x40) k = true ∧ t.reg (b + 0x50 + 4 * k) = s.reg (b + 0x50 + 4 * k) + 1
          ∧ (s.bit (rec_ + 4) 31 = true → t.reg rec_ = s.reg rec_ ∧ t.reg (rec_ + 4) = s.reg (rec_ + 4))
          ∧ (s.bit (rec_ + 4) 31 = false → t.reg rec_ = BitVec.ofNat 32 r.addr ∧ t.bit (rec_ + 4) 31 = true
              ∧ t.reg64 (rec_ + 8) = r.time.toNat)
          ∧ (∀ up, aggParent n.toNat = some up → t.err.reports = if s.bit (b + 0x44) k then rs ++ [{ r with dest := up }] else rs)
          ∧ t.mem = s.mem ∧ t.cores = s.cores ∧ t.stools = s.stools))

/-- Which writes are refused.  REGISTER_WRITE of a size other than 1, 2, 4 and 8, or not aligned: no access (02 R26).  A write of 1 or 2 bytes: only PG_ERR.SIZE (02
R26).  A write by a PARTID that does not own the page: only PG_ERR.OWN_REF (02 R33).  A write to a page in a soft reset: nothing (02 R31).  A permitted
4-byte write is performed, whatever the page and the register: as the register's rules say, and of a register without an effect of its own each bit as its
access code says (00 R4).  One of 8 bytes is two of 4: the lower is performed, and the upper is on its way (02 R26).  A core's access that nothing answers
times out at its router, and a closed fence counts it (02 R21, R32; 10 R287). -/
def Obligations.WritesAndRefusals : Prop :=
  ∀ (s : State) (i : Initiator) (a : BitVec 28) (v : W64), s.stalled = false →
    let x := a.toNat
    let o := x % 4096 / 4 * 4
    (∀ n, (n ≠ 1 ∧ n ≠ 2 ∧ n ≠ 4 ∧ n ≠ 8) ∨ x % n ≠ 0 → exec (.registerWrite i a n v) s = .next s)
    ∧ (∀ p, s.pageAt x = some p → s.writeVoid p o = true → ∀ n ∈ [1, 2, 4], x % n = 0 → exec (.registerWrite i a n v) s = .next s)
    ∧ (∀ p, s.pageAt x = some p → s.writeVoid p o = false → s.mayWrite p (s.partOf i) = false →
        x % 4 = 0 → exec (.registerWrite i a 4 v) s = .next (s.detect p 31 (0x3F000000000 + (p.base + o)) (some (s.partOf i)) false))
    ∧ (∀ p, s.pageAt x = some p → s.writeVoid p o = false → s.partOf i = 0 → ∀ n ∈ [1, 2], x % n = 0 →
        exec (.registerWrite i a n v) s = .next (s.detect p 30 (0x3F000000000 + (p.base + o)) none false))
    ∧ (∀ p, s.pageAt x = some p → s.writeVoid p o = false → s.mayWrite p (s.partOf i) = true → (s.partOf i ≠ 0 → p.sysOnly o = false) →
        let u := s.writeReg (iniCode i) (s.partOf i) s.power.aon p o (BitVec.setWidth 32 v)
        (x % 4 = 0 → exec (.registerWrite i a 4 v) s = .next u)
        ∧ (x % 8 = 0 → ∃ t k, exec (.registerWrite i a 8 v) s = .next t ∧ t = { u with net := { u.net with ctl := u.net.ctl ++ [k] } }
            ∧ k.addr = a + 4 ∧ k.be = 15 ∧ k.part = s.partOf i ∧ k.data = some (BitVec.setWidth 32 (v >>> 32))))
    ∧ (∀ p r, MayWrite s i x p → p.kind = .probe ∨ p.kind = .modIv ∨ p.kind = .timCopy ∨ p.kind = .pwt → 0x40 ≤ x % 4096 → p.row (x % 4096) = some r →
        let y := p.base + x % 4096
        let m : W32 := BitVec.ofNat 32 (r.rw ||| if s.bit (p.base + 0xC) 2 then 0 else r.rwl)
        ∃ t, exec (.registerWrite i a 4 v) s = .next t ∧ OnlyRegs s t [y]
          ∧ ∀ k, k < 32 → t.bit y k = (if bitOf (BitVec.ofNat 32 r.w1s) k && bitOf v k then true
              else if bitOf (BitVec.ofNat 32 r.w1c) k && bitOf v k then false
              else if bitOf m k then bitOf v k else s.bit y k))
    ∧ (∀ n, i = .core n → s.pageAt x = none → x % 4 = 0 → exec (.registerWrite i a 4 v) s
        = .next ((s.fenceCtl x).timeoutAt (benchRouter n.val) 0 (0x3F000000000 + x) (s.core n.val).part))
    ∧ (∀ g d, pageOf x = some g → g.domain = some d → s.domUp d = false → (∀ y, routerDomain (fenceRouter d) = some y → s.domUp y = true) →
        s.fenceCtl x = (s.count (routerPage (fenceRouter d) 0x5C)).raise (routerPage (fenceRouter d) 0) 1)

/-- The rows of the page header.  LOCK_SET: LOCK is 1 and EN as written, no soft reset starts (00 R5; 02 R29, R31).  SOFT_RESET with LOCK 0: the page is in reset,
its arms cleared; with LOCK 1 only EN is written (02 R31).  SOFT_RESET_DONE: BUSY ends, READY is 1, PG_ERRCNT 0 and the functional registers
that the reset takes hold their reset values.  ERRMASK_WRITE: the mask, and an error whose bit is set already is forwarded (02 R30) with what its latest detection
reported (the model's reading, assumption log 73).  ERRINJ_ARM of bits that arm: they are armed, and a bit of the at-once method
sets its PG_ERR bit (18 R503, R504).  PG_OWNER_WRITE with LOCK 0: the owner (02 R33, R35).  AG_STAT_CLEAR: the written classes, with VALID of their
records (18 R497). -/
def Obligations.PageHeaderRows : Prop :=
  ∀ (s : State) (i : Initiator) (n : BitVec 16) (v : W32) (p : Page),
    let b := 4096 * n.toNat
    (MayWrite s i (b + 0xC) p →
      exec (.lockSet i n v) s = .next (s.setReg (p.base + 0xC) ((v &&& 1) ||| 4))
      ∧ (s.bit (p.base + 0xC) 2 = true → exec (.softReset i n v) s = .next (s.setReg (p.base + 0xC) (4 ||| (v &&& 1))))
      ∧ (s.bit (p.base + 0xC) 2 = false → bitOf v 2 = false → ∃ t, exec (.softReset i n v) s = .next t
          ∧ pageNo p.cab p.block p.page ∈ t.soft ∧ t.reg (p.base + 0x1C) = 0))
    ∧ (∀ g, s.stalled = false → pageOf b = some g → pageNo g.cab g.block g.page ∈ s.soft → s.softReady g = true → g.kind ≠ .cmr → g.kind ≠ .pwd →
        ∃ t, exec (.softResetDone n) s = .next t ∧ pageNo g.cab g.block g.page ∉ t.soft ∧ t.bit (g.base + 0x10) 1 = true ∧ t.reg (g.base + 0x20) = 0
          ∧ (∀ o, 0x40 ≤ o → o < 0x1000 → g.softKeeps o = false → t.reg (g.base + o) = resetValue (g.base + o))
          ∧ (∀ a, a < g.base ∨ g.base + 0x1000 ≤ a → t.reg a = s.reg a))
    ∧ (∀ g, s.stalled = false → pageOf b = some g → pageNo g.cab g.block g.page ∉ s.soft → exec (.softResetDone n) s = .next s)
    ∧ (MayWrite s i (b + 0x18) p → ∃ t, exec (.errmaskWrite i n v) s = .next t ∧ OnlyRegsErr s t [p.base + 0x18] ∧ t.reg (p.base + 0x18) = v
        ∧ (v &&& ~~~(s.reg (p.base + 0x18)) &&& s.reg (p.base + 0x14) = 0 → t.err = s.err)
        ∧ (∀ k r, k < 32 → v &&& ~~~(s.reg (p.base + 0x18)) &&& s.reg (p.base + 0x14) = BitVec.ofNat 32 (2 ^ k) →
            s.err.seen.find? (fun q => q.page = pageNo p.cab p.block p.page && q.bit = k) = some r →
            t.err = { s.err with reports := s.err.reports ++ [r] }))
    ∧ (MayWrite s i (b + 0x1C) p →
        ((∀ k, k < 32 → bitOf v k = true → p.atOnce.testBit k = false) → ∃ t, exec (.errinjArm i n v) s = .next t ∧ OnlyRegs s t [p.base + 0x1C]
          ∧ ∀ k, k < 32 → t.bit (p.base + 0x1C) k = (s.bit (p.base + 0x1C) k || (bitOf v k && p.errBits.testBit k)))
        ∧ (∀ k, k < 32 → p.atOnce.testBit k = true → ∃ t, exec (.errinjArm i n (BitVec.ofNat 32 (2 ^ k))) s = .next t
            ∧ t.bit (p.base + 0x14) k = true ∧ OnlyRegsErr s t [p.base + 0x14, p.base + 0x20]))
    ∧ (MayWrite s i (b + 0x24) p → s.bit (p.base + 0xC) 2 = false → ∃ t, exec (.pgOwnerWrite i n v) s = .next t ∧ OnlyRegs s t [p.base + 0x24]
        ∧ t.fld (p.base + 0x24) 0 6 = fieldOf v 0 6)
    ∧ (MayWrite s i (b + 0x40) p → p.kind = .agg → ∃ t, exec (.agStatClear i n v) s = .next t
        ∧ OnlyRegs s t ((p.base + 0x40) :: (List.range 5).map (fun k => p.base + 0x84 + 16 * k))
        ∧ ∀ k, k < 5 → t.bit (p.base + 0x40) k = (s.bit (p.base + 0x40) k && !bitOf v k)
            ∧ t.bit (p.base + 0x84 + 16 * k) 31 = (s.bit (p.base + 0x84 + 16 * k) 31 && !bitOf v k))

/-- No node of a path has a parity error to inject (10 R296; 18 R504). -/
def PathClear (s : State) (path : List Nat) : Prop := ∀ m ∈ path, s.bit (stoolPage (nodeStool m) 0x1C) 29 = false

/-- Control-space packets and the control network.  RD_CS and WR_CS of 1, 2, 4 or 8 aligned bytes at a gateway are held by its bridge, counted in CB_CNT, and
forwarded with the packet's PARTID, 8 bytes as two halves, the lower first; a seventeenth waits; CONTROL_BRIDGE_EXPIRY frees one that nothing answered (02 R26;
10 R289, R298).  CONTROL_NODE_ACCEPT: a request travels to the page's node, which performs it; a node of the path that finds a parity error discards it and
reports bit 29; a bridge answers with DATA_S or ACK when the last half has its answer (10 R295-R298).  A JTAG access acts as PARTID 0 where
JTAG is in DBG, and otherwise not at all (15 R425). -/
def Rules.ControlNetwork : Prop :=
  ∀ (s : State), s.stalled = false →
    (∀ (k : Packet) (kind : RouterKind), kind = routerKind k.dst.toNat →
      kind = .computeGateway ∨ kind = .memoryGateway ∨ kind = .iocGateway → k.dstp = 0 → inControl k.addr.toNat = true →
      ∀ x ∈ [(Instr.rdCs k, { k with op := 0x04 }, false), (Instr.wrCs k, { k with op := 0x0B }, true)], s.atGate x.2.1 = false →
        let g := k.dst.toNat
        let n := k.size.toNat + 1
        let a := k.addr.toNat - 0x3F000000000
        let node := 1 + routerCabinet g
        let src := if g = gatewayRouter (routerCabinet g) 0 then 1 else 2
        let free := s.freeTags node src
        let word := fun (j : Nat) => if x.2.2 then some (BitVec.extractLsb' (32 * j) 32 k.inl) else none
        (16 ≤ (s.net.bridges.filter (fun b => b.gw = g)).length → exec x.1 s = .next s)
        ∧ ((s.net.bridges.filter (fun b => b.gw = g)).length < 16 → n ∈ [1, 2, 4, 8] → a % n = 0 →
          ∃ t, exec x.1 s = .next t ∧ t.reg (routerPage g 0x7C) = s.reg (routerPage g 0x7C) + 1
            ∧ OnlyRegs { s.arrive x.2.1 with net := t.net } t [routerPage g 0x7C]
            ∧ (n = 4 → t.net.bridges = s.net.bridges ++ [⟨g, x.2.1, free.take 1, ([] : List W32)⟩]
                ∧ t.net.ctl = s.net.ctl ++ (free.take 1).map (fun q => ⟨node, src, q, k.part, 15, BitVec.ofNat 28 a, word 0⟩))
            ∧ (∀ q r l, n = 8 → free = q :: r :: l → t.net.bridges = s.net.bridges ++ [⟨g, x.2.1, [q, r], ([] : List W32)⟩]
                ∧ t.net.ctl = s.net.ctl ++ [⟨node, src, q, k.part, 15, BitVec.ofNat 28 a, word 0⟩,
                    ⟨node, src, r, k.part, 15, BitVec.ofNat 28 (a + 4), word 1⟩])
            ∧ (∀ q l, n < 4 → free = q :: l → ∃ m, t.net.ctl = s.net.ctl ++ [m] ∧ m.tag = q ∧ m.part = k.part ∧ m.addr = BitVec.ofNat 28 a
                ∧ (∀ i, i < 4 → m.be.getLsbD i = decide (a % 4 ≤ i ∧ i < a % 4 + n)) ∧ m.data.isSome = x.2.2)))
    ∧ (∀ (g : Fin 14) (j : Nat),
        ((s.net.bridges.filter (fun b => b.gw = bridgeRouter g.val))[j]? = none → exec (.controlBridgeExpiry g j) s = .next s)
        ∧ ∀ x, (s.net.bridges.filter (fun b => b.gw = bridgeRouter g.val))[j]? = some x →
          exec (.controlBridgeExpiry g j) s = .next { s with net := { s.net with bridges := s.net.bridges.erase x } })
    ∧ (∀ (x : CtlAccess) (p : Page), pageOf x.addr.toNat = some p →
        let k := ctlPktOf x
        let there := nodePath x.node.val p.node
        let u := { s with net := { s.net with ctl := s.net.ctl.erase k } }
        (s.ctlBehind k = true → exec (.controlNodeAccept x) s = .next s)
        ∧ (s.ctlBehind k = false → PathClear s there →
          (∀ n, x.badRequest = some n → n.val ∈ there → exec (.controlNodeAccept x) s = .next (u.raise (stoolPage (nodeStool n.val) 0) 29))
          ∧ ((∀ n, x.badRequest = some n → n.val ∉ there) → s.pageUp p = true → x.be = 15 →
            let o := x.addr.toNat % 4096 / 4 * 4
            let done := match x.data with
              | some v => (0, u.acceptWrite (u.ctlIni k) x.part s.power.aon p o v)
              | none => ((u.readReg (u.ctlIni k) p o).1.toNat, (u.readReg (u.ctlIni k) p o).2)
            let back := nodePath p.node x.node.val
            PathClear done.2 back →
              (∀ n, x.badResponse = some n → n.val ∈ back →
                exec (.controlNodeAccept x) s = .next (done.2.raise (stoolPage (nodeStool n.val) 0) 29))
              ∧ ((∀ n, x.badResponse = some n → n.val ∉ back) → exec (.controlNodeAccept x) s = .next (done.2.ctlAnswer k done.1)))))
    ∧ (∀ (k : CtlPkt) (v : Nat), v < 2 ^ 32 →
        (s.bridgeAcc k = none → s.ctlAnswer k v = s)
        ∧ ∀ b, s.bridgeAcc k = some b →
          (b.left.erase k.tag ≠ [] → ∃ w, (s.ctlAnswer k v) = { s with net := { s.net with bridges := w } } ∧ w.length = s.net.bridges.length
              ∧ { b with left := b.left.erase k.tag, data := b.data ++ [BitVec.ofNat 32 v] } ∈ w)
          ∧ (b.left.erase k.tag = [] → ∃ f, (s.ctlAnswer k v)
                = { s with net := { s.net with bridges := s.net.bridges.erase b, flights := s.net.flights ++ [f] } }
              ∧ f.pkt.dst = b.pkt.src ∧ f.pkt.dstp = b.pkt.srcp ∧ f.pkt.tag = b.pkt.tag ∧ f.pkt.op = (if k.data.isSome then 0x22 else 0x21)
              ∧ (k.data = none → b.data = [] → f.pkt.inl = BitVec.ofNat 256 v)
              ∧ (∀ lo, k.data = none → b.data = [lo] → f.pkt.inl = BitVec.ofNat 256 (lo.toNat + 4294967296 * v))))
    ∧ (∀ (x : JtagAccess) (p : Page) v, s.pageAt (x.addr.toNat / 4 * 4) = some p → x.be = 15 → x.data = some v → PathClear s (nodePath 0 p.node) →
        exec (.jtagControlAccess x) s = .next (if s.dbg.testBit 0 then s.acceptWrite 226 0 s.power.aon p (x.addr.toNat % 4096 / 4 * 4) v else s))

/-- INITIATOR_TIMEOUT: a request that nothing answered is given up: TOCNT counts, TO_ADR holds its address, the router reports TOUT, and what the request was
for ends: a load reads 0, a store is done, a fetch is let go (10 R285-R287).  A request that a regulator still holds, or that waits for a cache
that is not ready, does not expire.  TO_CFG takes
values from 100 to 10,000,000 only (10 R286). -/
def Rules.InitiatorTimeouts : Prop :=
  ∀ (s : State), s.stalled = false →
    (∀ j, s.net.outs[j]? = none → exec (.initiatorTimeout j) s = .next s)
    ∧ (∀ j q, s.net.outs[j]? = some q →
        (∃ f ∈ s.net.flights, (f.held = true ∨ s.atUnready f = true) ∧ f.pkt.tag = q.tag ∧ f.pkt.src = q.src ∧ f.pkt.srcp = q.srcp ∧ f.pkt.op = q.op) →
          exec (.initiatorTimeout j) s = .next s)
    ∧ (∀ j q b n, s.net.outs[j]? = some q → (∀ f ∈ s.net.flights, f.held = false ∧ s.atUnready f = false) → benchOf q = some b → n / 8 = b → n < 192 → q.op = 0x03 ∨ q.op = 0x04 →
        ∃ t, exec (.initiatorTimeout j) s = .next t ∧ t.net.outs = s.net.outs.eraseIdx j
          ∧ t.reg (routerPage q.src.toNat 0x4C) = s.reg (routerPage q.src.toNat 0x4C) + 1
          ∧ t.reg (routerPage q.src.toNat 0x50) = BitVec.ofNat 32 q.addr.toNat ∧ t.bit (routerPage q.src.toNat 0x14) 0 = true
          ∧ (∀ x ∈ (t.core n).ext, x.tag = q.tag → x.got = some (0, false))
          ∧ (t.core n).g = (s.core n).g ∧ t.mem = s.mem)
    ∧ (∀ (i : Initiator) (r : Fin 82) (v : W32) p, MayWrite s i (routerPage r.val 0x48) p →
        (100 ≤ fieldOf v 0 24 → fieldOf v 0 24 ≤ 10000000 → exec (.toCfgWrite i r v) s = .next (s.setNat (routerPage r.val 0x48) (fieldOf v 0 24)))
        ∧ (fieldOf v 0 24 < 100 ∨ 10000000 < fieldOf v 0 24 → exec (.toCfgWrite i r v) s = .next (s.raise (routerPage r.val 0) 5)))
/-! ### TIME and frames -/

/-- TIME.  TIME_INCREMENT adds 1, or 0 or 2 where the fraction borrows or carries, and a pending step, and never touches memory (03 R38, R40); ADJ takes
values of at most 500 ppm (03 R39); a step while ticks run is refused (03 R40); a read of TIME_LO captures TIME_HI for its initiator (03 R41). -/
def Rules.TimeRules : Prop :=
  ∀ (s : State) (i : Initiator) (v : W32) (p : Page), s.stalled = false →
    (∃ t, exec .timeIncrement s = .next t ∧ t.mem = s.mem ∧ t.otp = s.otp ∧ t.stools = s.stools
      ∧ (s.clock.locked = false → t = s)
      ∧ (s.clock.locked = true →
          let sum := (s.clock.acc.toNat : Int) + sextNat (s.reg (tim 0x48)).toNat 32
          t.clock.step = none
          ∧ t.clock.time = s.clock.time + (if sum < 0 then 0 else if 4294967296 ≤ sum then 2 else 1) + s.clock.step.getD 0
          ∧ (t.clock.acc.toNat : Int) = sum % 4294967296))
    ∧ (MayWrite s i (tim 0x48) p →
        ((sextNat v.toNat 32).natAbs ≤ 0x20C49B → exec (.adjWrite i v) s = .next (s.setReg (tim 0x48) v))
        ∧ (0x20C49B < (sextNat v.toNat 32).natAbs → exec (.adjWrite i v) s = .next (s.raise (tim 0) 0)))
    ∧ (MayWrite s i (tim 0x54) p →
        (s.running = true → exec (.timeStep i v) s = .next (s.raise (tim 0) 1))
        ∧ (s.running = false → s.clock.step = none → exec (.timeStep i v) s
            = .next { s with clock := { s.clock with step := some (BitVec.ofNat 64 ((s.reg (tim 0x50)).toNat + 4294967296 * v.toNat)) } }))
    ∧ (∀ c : Fin 8, MayRead s (pageBase c.val 2 1 + 0x40) p → exec (.timeLoRead i c) s
        = .next { s with clock := { s.clock with
            caps := SMap.set none s.clock.caps (iniCode i * 268435456 + (pageBase c.val 2 1 + 0x44)) (some (BitVec.ofNat 32 (s.time / 4294967296))) } })

/-- Starting and stopping.  RUN_START of a stopped unit whose source values are in range: RUN is 1, and an internal source expects its first instant; out of
range: only CFG (03 R43, R47, R49).  RUN_STOP: RUN and VALID are 0, no event or message is left, no window raises an event any more, no regulator is metered, a commit in
progress is cancelled (03 R47).  FNUM_WRITE while ticks run is refused (03 R46). -/
def Rules.FrameStartAndStop : Prop :=
  ∀ (s : State) (i : Initiator) (v : W32) (p : Page),
    let ok := s.sourceOk (s.reg (frm 0x60)).toNat s.period (s.fld (frm 0x68) 0 27) s.tol
    (MayWrite s i (frm 0x40) p →
      (s.running = false → ok = true → ∃ t, exec (.runStart i v) s = .next t ∧ t.running = true ∧ t.mem = s.mem
          ∧ (∀ a, a ≠ frm 0x40 → t.reg a = s.reg a) ∧ t.frame.events = [] ∧ t.frame.due = none
          ∧ (s.kind = 0 → t.frame.expected = some (BitVec.ofNat 64 (firstInternal (s.reg64 (frm 0x58)) s.time s.period)))
          ∧ (s.kind ≠ 0 → t.frame.expected = none))
      ∧ (s.running = false → ok = false → ∃ t, exec (.runStart i v) s = .next t ∧ t.running = false ∧ t.bit (frm 0x14) 4 = true ∧ t.frame = s.frame)
      ∧ (∃ t, exec (.runStop i v) s = .next t ∧ t.running = false ∧ t.bit (frm 0x44) 0 = false ∧ t.mem = s.mem ∧ t.cores = s.cores
          ∧ t.frame.expected = none ∧ t.frame.events = [] ∧ t.frame.due = none ∧ t.frame.msgs = [] ∧ t.frame.metered = []
          ∧ (∀ n, n < 192 → t.windowState n = s.windowState n ∧ ∀ w ∈ t.winsOf n, w.ended = true ∧ w.closed = true ∧ w.old = false)
          ∧ t.armed = false ∧ t.checking = false))
    ∧ (MayWrite s i (frm 0x48) p →
        (s.running = true → exec (.fnumWrite i v) s = .next (s.raise (frm 0) 3))
        ∧ (s.running = false → exec (.fnumWrite i v) s = .next (s.setReg (frm 0x48) v)))

/-- The tick at the master.  INTERNAL_TICK at or after its instant, with ticks running from the internal source and no commit armed: FNUM counts, the tick instant and
VALID are written, the next instant is one PERIOD on, and every receiver is sent a message (03 R42, R46, R48, R51); before it, or
with another source, nothing.  FRAME_IN_EDGE and GPTP_BOUNDARY act only for their own source; an event inside the tolerance is accepted (03 R42, R44, R45);
a boundary of a port that is not synchronised is none (03 R44).  TICK_MISS with no event by the expected instant plus TOL: MISSCNT and MISS; in holdover the
tick is given at that instant, and without it the unit is late (03 R44). -/
def Rules.MasterTicks : Prop :=
  ∀ (s : State), s.stalled = false →
    (∀ x, s.frame.expected = some x → s.running = true → s.kind = 0 → x.toNat ≤ s.time → s.armed = false →
        s.reg (frm 0x1C) = 0 →
        ∃ t, exec .internalTick s = .next t ∧ t.fnum = s.fnum + 1 ∧ t.reg64 (frm 0x50) = x.toNat ∧ t.bit (frm 0x44) 0 = true
          ∧ t.frame.expected = some (x + BitVec.ofNat 64 s.period) ∧ t.frame.msgs = s.frame.msgs ++ (List.range 7).map (fun c => ⟨c, s.fnum + 1, x⟩)
          ∧ t.mem = s.mem ∧ t.cores = s.cores ∧ t.frame.owed = s.frame.owed)
    ∧ (s.running = false ∨ s.kind ≠ 0 ∨ s.frame.expected = none ∨ (∃ x, s.frame.expected = some x ∧ s.time < x.toNat) →
        exec .internalTick s = .next s)
    ∧ (s.running = false ∨ s.kind ≠ 1 → exec .frameInEdge s = .next s)
    ∧ (∀ x, s.running = true → s.kind = 1 → s.frame.expected = some x → s.frame.late = false → s.time + 160 < 2 ^ 64 → x.toNat ≤ s.time + 80 + s.tol →
        s.time + 80 + s.tol < x.toNat + 2 * s.tol + 1 → ∃ t, exec .frameInEdge s = .next t ∧ t.bit (frm 0x44) 1 = false
          ∧ t.frame.due = some ⟨s.clock.time + 80, none⟩ ∧ t.frame.expected = some (s.clock.time + 80 + BitVec.ofNat 64 s.period))
    ∧ (∀ (p : Fin 8) j, s.running = false ∨ s.kind ≠ 2 ∨ s.srcPort ≠ p.val → exec (.gptpBoundary p j) s = .next s)
    ∧ (∀ (p : Fin 8), s.running = true → s.kind = 2 → s.srcPort = p.val →
        exec (.gptpBoundary p .stepBack) s = .next ((s.count16 (frm 0x88)).raise (frm 0) 2))
    ∧ (∀ (p : Fin 8), s.running = true → s.kind = 2 → s.srcPort = p.val →
        (s.bit (tsp p.val 0x48) 1 = true → s.frame.expected = none → s.time + 80 < 2 ^ 64 →
          ∃ t, exec (.gptpBoundary p .ran) s = .next t ∧ t.frame.due = some ⟨s.clock.time + 80, none⟩ ∧ t.regs = s.regs)
        ∧ (s.bit (tsp p.val 0x48) 1 = false → exec (.gptpBoundary p .ran) s = .next s))
    ∧ (∀ x, s.frame.expected = some x → s.running = true → s.kind ≠ 0 → s.frame.due = none → s.frame.late = false → x.toNat + s.tol ≤ s.time →
        s.bit (frm 0x40) 1 = true → s.armed = false → s.frame.events = [] → s.reg (frm 0x1C) = 0 →
        ∃ t, exec .tickMiss s = .next t ∧ t.fnum = s.fnum + 1 ∧ t.reg64 (frm 0x50) = x.toNat + s.tol ∧ t.bit (frm 0x44) 1 = true
          ∧ t.frame.expected = some (x + BitVec.ofNat 64 s.period) ∧ t.frame.late = false ∧ t.cores = s.cores)
    ∧ (∀ x, s.frame.expected = some x → s.running = true → s.kind ≠ 0 → s.frame.due = none → s.frame.late = false → x.toNat + s.tol ≤ s.time →
        s.bit (frm 0x40) 1 = false → s.frame.events = [] → ∃ t, exec .tickMiss s = .next t ∧ t.frame.late = true
          ∧ t.fld (frm 0x80) 0 16 = min 0xFFFF (s.fld (frm 0x80) 0 16 + 1) ∧ t.bit (frm 0x14) 0 = true ∧ t.fnum = s.fnum)
    ∧ (s.frame.expected = none → exec .tickMiss s = .next s)

/-- TICK_MESSAGE at a cabinet's receiver: before the tick instant, or with no message, nothing; with both copies broken the tick is lost and reported; with one
intact the cabinet has the frame number and tick instant of the master, its regulators count from 0 with the exhaustions of the ended frame in RG_PREV,
and they are metered (03 R51, R58, R61). -/
def Rules.ReceiverTicks : Prop :=
  ∀ (s : State) (c : Fin 7) (a b : Bool), s.stalled = false →
    ((∀ m ∈ s.frame.msgs, m.cab ≠ c.val) → exec (.tickMessage c a b) s = .next s)
    ∧ (∀ m, s.frame.msgs.find? (fun m => m.cab = c.val) = some m →
        (s.time < m.instant.toNat → exec (.tickMessage c a b) s = .next s)
        ∧ (m.instant.toNat ≤ s.time → s.domUp (264 + c.val) = true → a = false → b = false → s.reg (frr c.val 0x1C) = 0 →
            ∃ t, exec (.tickMessage c a b) s = .next t ∧ t.frame.msgs = s.frame.msgs.erase m ∧ t.bit (frr c.val 0x14) 0 = true
              ∧ t.reg (frr c.val 0x40) = s.reg (frr c.val 0x40) ∧ t.cores = s.cores)
        ∧ (m.instant.toNat ≤ s.time → s.domUp (264 + c.val) = true → a = true ∨ b = true →
            (∀ o ∈ s.frame.owed, o.cab ≠ c.val) → s.net.flights = [] →
            ∃ t, exec (.tickMessage c a b) s = .next t ∧ t.frame.msgs = s.frame.msgs.erase m ∧ t.reg (frr c.val 0x40) = m.fnum
              ∧ t.reg64 (frr c.val 0x44) = m.instant.toNat ∧ c.val ∈ t.frame.metered ∧ t.mem = s.mem
              ∧ ∀ rg ∈ cabRegulators c.val, t.reg (rg + 0x50) = s.reg (rg + 0x48) ∧ t.reg (rg + 0x54) = s.reg (rg + 0x4C)
                  ∧ t.reg (rg + 0x48) = 0 ∧ t.reg (rg + 0x4C) = 0 ∧ ∀ k, k < 64 → t.used rg .urg k = 0 ∧ t.used rg .bulk k = 0 ∧ t.used rg .bytes k = 0))

/-- Windows.  WINDOW_START at tick instant plus START of a valid window, once a frame: WCUR shows it and its PARTID, level 3 bit 1 is raised; WINDOW_END at its end:
WCUR shows IN 0, bit 2 is raised, and its grace point is fixed; WINDOW_GRACE_POINT: an overrun, counted and reported, if the core still runs the window's
PARTID and the window is not continued (03 R53-R55).  Before its time, none of them does anything. -/
def Rules.WindowEvents : Prop :=
  ∀ (s : State) (n : Fin 192) (i : Fin 16), s.stalled = false →
    let e := winEntry n.val i.val false
    let t0 := s.tickInstant (n.val / 48) + s.winStart e
    let cur := wcur n.val
    (∀ k p, pageOf cur = some p → (s.readReg k p (cur % 4096)).1 = BitVec.ofNat 32 (s.windowState n.val % 32 + 256 * (s.windowState n.val / 256 % 64)))
    ∧ (s.running = false ∨ s.winValid e = false ∨ s.time < t0 → exec (.windowStart n i) s = .next s)
    ∧ (s.running = true → s.bit (frm 0x44) 0 = true → s.domUp (264 + n.val / 48) = true → s.winValid e = true → t0 ≤ s.time → s.winsOf n.val = [] →
        s.domUp n.val = false ∨ s.isShadow n.val = true →
        ∃ t w, exec (.windowStart n i) s = .next t ∧ t.winsOf n.val = [w] ∧ w.idx = i.val ∧ w.part = s.winPart e
          ∧ w.stop = BitVec.ofNat 64 (t0 + s.winLen e) ∧ t.windowState n.val % 4294967296 = i.val + 32 + 256 * (s.winPart e).toNat + if s.time < w.stop.toNat then 16 else 0)
    ∧ (s.running = true → s.bit (frm 0x44) 0 = true → s.domUp (264 + n.val / 48) = true → s.winValid e = true → t0 ≤ s.time → s.winsOf n.val = [] →
        s.domUp n.val = true → s.isShadow n.val = false → (s.core n.val).run = .ready →
        ∃ t, exec (.windowStart n i) s = .next t ∧ (t.core n.val).evBit evPend 3 1 = true ∧ t.mem = s.mem ∧ (t.core n.val).g = (s.core n.val).g)
    ∧ (∀ w, s.winsOf n.val = [w] → w.idx = i.val → w.ended = false → w.old = false →
        (s.time < w.stop.toNat → exec (.windowEnd n i) s = .next s)
        ∧ (w.stop.toNat ≤ s.time → w.lost = false → ∃ t x, exec (.windowEnd n i) s = .next t ∧ t.winsOf n.val = [x] ∧ x.ended = true
            ∧ x.grace = BitVec.ofNat 64 (w.stop.toNat + s.fld (frr (n.val / 48) 0x4C) 0 16) ∧ t.windowState n.val = i.val + 32 + 256 * w.part.toNat ∧ x.part = w.part
            ∧ x.contd = s.hasWindow n.val (w.stop.toNat - s.tickInstant (n.val / 48)) w.part))
    ∧ (∀ w, s.winsOf n.val = [w] → w.idx = i.val → w.ended = true → w.closed = false →
        (s.time < w.grace.toNat → exec (.windowGracePoint n i) s = .next s)
        ∧ (w.grace.toNat ≤ s.time → w.contd = true ∨ (s.core n.val).part ≠ w.part → ∃ t, exec (.windowGracePoint n i) s = .next t
            ∧ t.winsOf n.val = [{ w with closed := true }] ∧ t.regs = s.regs ∧ t.cores = s.cores)
        ∧ (w.grace.toNat ≤ s.time → w.contd = false → (s.core n.val).part = w.part → s.domState n.val = 3 → s.isShadow n.val = false →
            ∃ t, exec (.windowGracePoint n i) s = .next t ∧ t.fld (cur + 4) 0 16 = min 0xFFFF (s.fld (cur + 4) 0 16 + 1)
              ∧ t.bit ((winPage n.val + 0x14)) 0 = true))

/-- Commits.  CMT_ARM of an idle unit: CHECKING; while one is armed or checking: nothing (03 R64).  CMT_DISARM: a checking or armed commit ends as cancelled (03 R67).
COMMIT_CHECK_END: a target that is not after the next frame is refused with REASON 1, stopped ticks with REASON 2, a failing window table, source or page
with REASON 3, 4 or 5, and exactly the rest is armed, at the master and at every running receiver (03 R64).  A shadow register written while RUN is 0 takes effect at once on both banks (03
R47), and while a commit is checking or armed the write has no effect but LATE (03 R65). -/
def Rules.CommitRules : Prop :=
  ∀ (s : State) (i : Initiator) (v : W32) (p : Page),
    (MayWrite s i (cmt 0x44) p →
      (s.armed = false → s.checking = false → ∃ t, exec (.cmtArm i v) s = .next t ∧ t.checking = true ∧ t.armed = false
          ∧ (∀ a, a ≠ cmt 0x48 → t.reg a = s.reg a) ∧ t.mem = s.mem ∧ t.cores = s.cores)
      ∧ (s.armed = true ∨ s.checking = true → exec (.cmtArm i v) s = .next s)
      ∧ (s.armed = true ∨ s.checking = true → ∃ t, exec (.cmtDisarm i v) s = .next t ∧ t.armed = false ∧ t.checking = false ∧ t.bit (cmt 0x48) 3 = true
          ∧ (∀ c, c < 7 → t.reg (cmr c 0x44) = 0) ∧ t.cores = s.cores)
      ∧ (s.armed = false → s.checking = false → exec (.cmtDisarm i v) s = .next s))
    ∧ (s.stalled = false →
        (s.checking = false → exec .commitCheckEnd s = .next s)
        ∧ (s.checking = true → frameAfter (s.reg (cmt 0x40)) (s.fnum + 1) = false → ∃ t, exec .commitCheckEnd s = .next t ∧ t.armed = false
            ∧ t.checking = false ∧ t.fld (cmt 0x48) 8 4 = 1 ∧ t.bit (cmt 0x14) 0 = true)
        ∧ (s.checking = true → frameAfter (s.reg (cmt 0x40)) (s.fnum + 1) = true → s.running = false → ∃ t, exec .commitCheckEnd s = .next t
            ∧ t.armed = false ∧ t.fld (cmt 0x48) 8 4 = 2)
        ∧ (s.checking = true → frameAfter (s.reg (cmt 0x40)) (s.fnum + 1) = true → s.running = true →
            let wins := ∀ n, n < 192 → s.windowFail n = none
            let src := s.sourceOk (s.reg (frm 0x70)).toNat (s.fld (frm 0x74) 0 27) (s.fld (frm 0x78) 0 27) (s.fld (frm 0x7C) 0 16) = true
            let pages := s.failingPages = []
            ∃ t, exec .commitCheckEnd s = .next t ∧ t.checking = false ∧ (t.armed = true ↔ wins ∧ src ∧ pages)
              ∧ (wins → src → pages → ∀ c, c < 7 → s.domUp (264 + c) = true → t.reg (cmr c 0x44) = 1)
              ∧ (¬wins → t.fld (cmt 0x48) 8 4 = 3) ∧ (wins → ¬src → t.fld (cmt 0x48) 8 4 = 4)
              ∧ (wins → src → ¬pages → t.fld (cmt 0x48) 8 4 = 5) ∧ t.cores = s.cores))
    ∧ (∀ (x : BitVec 28) (v : W64) r a, MayWrite s i x.toNat p → p.kind = .rg → p.row (x.toNat % 4096) = some r → r.act = some a →
        let y := p.base + x.toNat % 4096
        let z := p.base + (a + (x.toNat % 4096 - r.off))
        let w := maskedWrite r (s.bit (p.base + 0xC) 2) (s.reg y) (BitVec.ofNat 32 v.toNat)
        (s.armed = true ∨ s.checking = true → ∃ t, exec (.registerWrite i x 4 v) s = .next t ∧ t.reg y = s.reg y ∧ t.reg z = s.reg z
            ∧ t.bit (cmt 0x14) 1 = true ∧ t.fld (cmt 0x58) 0 16 = min 0xFFFF (s.fld (cmt 0x58) 0 16 + 1))
        ∧ (s.armed = false → s.checking = false → s.running = true → exec (.registerWrite i x 4 v) s = .next (s.setReg y w))
        ∧ (s.armed = false → s.checking = false → s.running = false → exec (.registerWrite i x 4 v) s = .next ((s.setReg y w).setReg z w)))

/-- A regulator grants a packet unless its partition's meter has used its budget: REGULATOR_GRANT charges the flits, and the packet goes on (03 R57, R58); an exhausted
meter of a metered regulator holds an urgent or bulk request, and a controller's passes and charges a write-back of the SLC all the same (03 R59); no packet passes
one of its channel that is not held, or is of its own partition (10 R276).  DRAIN_CLEAR ends a drain when no flit of the old epoch is left (10 R279).
PACKET_SWITCH sends a packet to the port that its route names, one hop further; at its destination it leaves for its port; after 15 hops, or with its header
lost, it is discarded and counted; an uncorrected error of its second flit poisons it (10 R272, R276, R277); it stays behind an earlier packet of
its buffer, and while an urgent packet is ready for the port (10 R274, R276). -/
def Obligations.FabricRules : Prop :=
  ∀ (s : State), s.stalled = false →
    (∀ j f rg, s.net.flights[j]? = some f → f.wait = some rg → s.reg (rg + 0x1C) = 0 → routerKind f.rtr ≠ .bench →
        let m := if f.pkt.vc = 3 then Meter.urg else .bulk
        let p := f.pkt.part.toNat
        let granted := listSet s.net.flights j { f with wait := none, held := false }
        (s.overtakes j f = true → exec (.regulatorGrant j) s = .next s)
        ∧ (s.overtakes j f = false → isByteRg rg = false →
            let a := rg + m.usedOff + 4 * p
            (s.exhausted rg m p = false → ∃ t, exec (.regulatorGrant j) s = .next t ∧ t.net.flights = granted
                ∧ (t.reg a).toNat = min 0xFFFFFFFF ((s.reg a).toNat + (if f.pkt.op ∈ [0x08, 0x09, 0x18, 0x1A, 0x20, 0x24] then 2 else 1))
                ∧ t.mem = s.mem ∧ t.cores = s.cores)
            ∧ (s.exhausted rg m p = true → f.pkt.vc = 3 ∨ f.pkt.vc = 0 → ∃ t, exec (.regulatorGrant j) s = .next t
                ∧ t.net.flights = listSet s.net.flights j { f with held := true } ∧ t.reg a = s.reg a))
        ∧ (s.overtakes j f = false → isByteRg rg = true →
            let a := rg + Meter.bytes.usedOff + 4 * p
            s.exhausted rg .bytes p = false ∨ (f.pkt.op = 0x08 ∧ f.pkt.inl = 0) → ∃ t, exec (.regulatorGrant j) s = .next t
              ∧ t.net.flights = granted ∧ (t.reg a).toNat = min 0xFFFFFFFF ((s.reg a).toNat + 64) ∧ t.cores = s.cores))
    ∧ (∀ j, s.net.flights[j]? = none → exec (.regulatorGrant j) s = .next s)
    ∧ (∀ r : Fin 82,
        ((∀ f ∈ s.net.flights, f.rtr = r.val → f.out = false → f.pkt.epoch = s.epoch r.val ∨ (f.wait.isSome ∧ routerKind r.val = .bench)) →
          exec (.drainClear r) s = .next (s.setBit (routerPage r.val 0x44) 1 false))
        ∧ ((∃ f ∈ s.net.flights, f.rtr = r.val ∧ f.out = false ∧ f.pkt.epoch ≠ s.epoch r.val ∧ f.wait = none) → exec (.drainClear r) s = .next s))
    ∧ (∀ (r : Fin 82) (k : Packet) e, (∀ f ∈ s.net.flights, f.pkt ≠ k) → exec (.packetSwitch r ⟨k, e⟩) s = .next s)
    ∧ (∀ (r : Fin 82) e pre f post, s.net.flights = pre ++ f :: post → f.rtr = r.val → f.wait = none → f.out = false →
        (∀ g ∈ pre, g.pkt ≠ f.pkt) → (∃ g ∈ pre, g.wait = none ∧ g.rtr = f.rtr ∧ g.port = f.port ∧ g.out = false ∧ bufferOf g.pkt = bufferOf f.pkt) →
          exec (.packetSwitch r ⟨f.pkt, e⟩) s = .next s)
    ∧ (∀ (r : Fin 82) (k : Packet) e, k.vc ≠ 3 → s.strayed r.val k = false → s.fenced (s.intoDomains r.val k) = false →
        (∃ x ∈ s.rivals r.val (s.outPort r.val k), x.2.pkt.vc = 3) → exec (.packetSwitch r ⟨k, e⟩) s = .next s)
    ∧ (∀ (r : Fin 82) (k : Packet) f, s.net.flights = [f] → f.pkt = k → f.rtr = r.val → f.wait = none → f.out = false → s.enabled (routerPage r.val 0) = true →
        s.reg (routerPage r.val 0x1C) = 0 → opListed k.op = true → (∀ j, j < 4 → s.bit (probePage r.val (0x60 + 0x20 * j)) 0 = false) →
        (s.arbiter r.val (s.outPort r.val k)).bodies.length < 4 → isResponse k = true ∨ s.closing (s.intoDomains r.val k) = false →
        (∀ q, s.crossingHeld r.val q = false ∧ s.crossingHeld q r.val = false) → s.fenced (s.intoDomains r.val k) = false →
          let gone := ({ s with net := { s.net with flights := [] } }).hopDrop r.val
          (k.dst.toNat = r.val →
            (∃ t g, exec (.packetSwitch r ⟨k, .none⟩) s = .next t
              ∧ t.net.flights = [g] ∧ g.out = true ∧ g.pkt = k ∧ g.port = k.dstp.val ∧ t.regs = s.regs)
            ∧ (k.op ≠ 0x20 → k.op ≠ 0x08 → exec (.packetSwitch r ⟨k, .header⟩) s = .next gone)
            ∧ (k.op ∈ [0x08, 0x09, 0x18, 0x1A, 0x20, 0x24] → ∃ t g, exec (.packetSwitch r ⟨k, .second⟩) s = .next t
              ∧ t.net.flights = [g] ∧ g.pkt = { k with poison := true } ∧ t.bit (routerPage r.val 0x14) 4 = true)
            ∧ ∃ t g, exec (.packetSwitch r ⟨k, .corrected⟩) s = .next t ∧ t.net.flights = [g] ∧ g.pkt = k ∧ t.bit (routerPage r.val 0x14) 3 = true)
          ∧ (k.dst.toNat ≠ r.val → k.hops = 15 → k.op ≠ 0x20 → k.op ≠ 0x08 → exec (.packetSwitch r ⟨k, .none⟩) s = .next gone)
          ∧ (k.dst.toNat ≠ r.val → k.hops ≠ 15 → ∀ q, neighbour r.val (s.outPort r.val k) = some q →
              ∃ t g, exec (.packetSwitch r ⟨k, .none⟩) s = .next t ∧ t.net.flights = [g] ∧ g.rtr = q
                ∧ g.pkt = { k with hops := k.hops + 1 } ∧ g.out = false ∧ t.regs = s.regs))
/-! ### The root of trust -/

/-- The rows that write a mailbox command, with their OP (15 R427). -/
def IsMailbox (x : (Initiator → Fin 3 → W32 → Instr) × Nat) : Prop := x ∈
  [(.rng, 0x01), (.bootimg, 0x10), (.diceNext, 0x20), (.mrExtend, 0x21), (.attest, 0x22), (.getpub, 0x23), (.slotInstall, 0x30), (.slotErase, 0x31),
   (.confSet, 0x32), (.confClr, 0x33), (.keyGen, 0x40), (.keyErase, 0x41), (.keyPub, 0x42), (.ctrAdv, 0x50), (.dbgChal, 0x60), (.dbgResp, 0x61),
   (.lcAdv, 0x70), (.provHash, 0x71), (.provRevoke, 0x72), (.provCfg, 0x73)]

/-- A write of MB_CMD.  With the known-answer tests not failed and the page's command at its end, the command is accepted: it waits behind those of every page,
with the arguments, the buffer and the length as they stand at the write, under the page's PG_OWNER, and BUSY is 1 (15 R410, R427).  While BUSY is 1 it is
turned away; with a failed test nothing happens. -/
def Rules.MailboxCommands : Prop :=
  ∀ x, IsMailbox x → ∀ (s : State) (i : Initiator) (p : Fin 3) (v : W32) (g : Page),
    let n := p.val + 1
    MayWrite s i (rtm n 0x40) g →
      (s.bit (rts 0x44) 1 = false → s.bit (rtm n 0x44) 0 = false → exec (x.1 i p v) s
        = .next (({ s with rot := { s.rot with queue := s.rot.queue ++ [
            ({ page := n, op := x.2, part := BitVec.ofNat 6 (s.fld (rtm n 0x24) 0 6),
               args := [s.reg (rtm n 0x48), s.reg (rtm n 0x4C), s.reg (rtm n 0x50), s.reg (rtm n 0x54)],
               buf := s.reg64 (rtm n 0x58), len := s.fld (rtm n 0x60) 0 16 } : MbCmd)] } }).setNat (rtm n 0x44) 1))
      ∧ (s.bit (rts 0x44) 1 = false → s.bit (rtm n 0x44) 0 = true → exec (x.1 i p v) s = .next (s.raise (rtm n 0) 0))
      ∧ (s.bit (rts 0x44) 1 = true → exec (x.1 i p v) s = .next s)

/-- The oldest mailbox command is `c`, behind it `rest`, and the root of trust runs, with no injection armed. -/
structure MbFront (s : State) (c : MbCmd) (rest : List MbCmd) : Prop where
  runs : s.stalled = false
  front : s.rot.queue = c :: rest
  ready : s.bit (rts 0x44) 0 = true
  sound : s.bit (rts 0x44) 1 = false
  calm : s.reg (rts 0x1C) = 0

/-- MAILBOX_COMMAND_DONE ends `c` with RESULT 0, OUT0 `o0`, OUT1 `o1` and its page's source, on the block as the command left it, `u`. -/
def MbGrants (s : State) (c : MbCmd) (o0 o1 : W32) (u : State) : Prop :=
  exec .mailboxCommandDone s
    = .next ((((u.setReg (rtm c.page 0x64) o0).setReg (rtm c.page 0x68) o1).setNat (rtm c.page 0x44) 2).fire (0x6FF + c.page))

/-- It ends `c` with RESULT `k`, PG_ERR.MB_ERR and the source, on the block as the command left it, `v`. -/
def MbFails (s v : State) (c : MbCmd) (k : Nat) : Prop :=
  exec .mailboxCommandDone s
    = .next (((((v.setReg (rtm c.page 0x64) 0).setReg (rtm c.page 0x68) 0).setNat (rtm c.page 0x44) (2 + 256 * k)).raise (rtm c.page 0) 0).fire
        (0x6FF + c.page))

/-- The block when the oldest command has left the queue. -/
def mbTaken (s : State) (rest : List MbCmd) : State := { s with rot := { s.rot with queue := rest } }

/-- It ends `c` with RESULT `k`, and nothing else but the queue has changed. -/
def MbRefuses (s : State) (c : MbCmd) (rest : List MbCmd) (k : Nat) : Prop := MbFails s (mbTaken s rest) c k

/-- What a command leaves: only the root of trust and the key slots may have changed. -/
def RotOnly (s u : State) : Prop :=
  u = { s with rot := u.rot, mem := { s.mem with keys := u.mem.keys }, fresh := u.fresh }

/-- The key commands, from page 1 under PARTID 0.  SLOT_INSTALL of an empty slot puts a key into it in all engines and records its owner; of a slot that holds one
RESULT 3.  SLOT_ERASE of a slot that no confidential entry names empties it; of another RESULT 3 (15 R419).  KEY_GEN of a free handle makes a key of the
type, with the owner and the flags of its argument; of a handle in use RESULT 3.  KEY_ERASE frees the handle (15 R420).  Any other page or PARTID may not
install or erase a slot: RESULT 1. -/
def Rules.KeyCommands : Prop :=
  ∀ (s : State) (c : MbCmd) (rest : List MbCmd), MbFront s c rest →
    let k := c.arg 0
    let admin := c.page = 1 ∧ c.part = 0
    (c.op = 0x30 → admin → k < 1024 → SMap.get 0 s.mem.keys k = 0 → ∃ u, MbGrants s c 0 0 u ∧ RotOnly s u ∧ SMap.get 0 u.mem.keys k ≠ 0
        ∧ (∀ j, j ≠ k → SMap.get 0 u.mem.keys j = SMap.get 0 s.mem.keys j)
        ∧ SMap.get none u.rot.slots k = some (BitVec.ofNat 6 (c.arg 1), Nat.testBit (c.arg 1) 8) ∧ u.rot.queue = rest)
    ∧ (c.op = 0x30 → admin → k < 1024 → SMap.get 0 s.mem.keys k ≠ 0 → MbRefuses s c rest 3)
    ∧ (c.op = 0x30 ∨ c.op = 0x31 → ¬admin → MbRefuses s c rest 1)
    ∧ (c.op = 0x30 ∨ c.op = 0x31 → admin → 1023 < k → MbRefuses s c rest 2)
    ∧ (c.op = 0x31 → admin → k < 1024 → (∀ e, e < 16 → s.bit (rts (0x500 + 16 * e)) 31 = true → s.fld (rts (0x500 + 16 * e)) 0 10 ≠ k) →
        ∃ u, MbGrants s c 0 0 u ∧ RotOnly s u ∧ SMap.get 0 u.mem.keys k = 0 ∧ SMap.get none u.rot.slots k = none
          ∧ (∀ j, j ≠ k → SMap.get 0 u.mem.keys j = SMap.get 0 s.mem.keys j ∧ SMap.get none u.rot.slots j = SMap.get none s.rot.slots j))
    ∧ (c.op = 0x31 → admin → k < 1024 → (∃ e, e < 16 ∧ s.bit (rts (0x500 + 16 * e)) 31 = true ∧ s.fld (rts (0x500 + 16 * e)) 0 10 = k) →
        MbRefuses s c rest 3)
    ∧ (c.op = 0x40 → c.part = 0 ∨ (BitVec.ofNat 6 (c.arg 2) = c.part ∧ Nat.testBit (c.arg 2) 9 = false) → k < 256 → 1 ≤ c.arg 1 → c.arg 1 ≤ 6 →
        (SMap.get none s.rot.handles k = none → ∃ u key, MbGrants s c 0 0 u ∧ RotOnly s u
          ∧ SMap.get none u.rot.handles k = some ⟨c.arg 1, BitVec.ofNat 6 (c.arg 2), Nat.testBit (c.arg 2) 8, Nat.testBit (c.arg 2) 9, key⟩
          ∧ key.length = (if c.arg 1 = 1 then 16 else if c.arg 1 = 2 then 32 else if c.arg 1 = 3 then 64 else if c.arg 1 = 4 then 48
              else if c.arg 1 = 5 then 2400 else 3168)
          ∧ ∀ j, j ≠ k → SMap.get none u.rot.handles j = SMap.get none s.rot.handles j)
        ∧ ((SMap.get none s.rot.handles k).isSome = true → MbRefuses s c rest 3))
    ∧ (∀ h, c.op = 0x41 → k < 256 → SMap.get none s.rot.handles k = some h →
        (c.part = 0 ∨ h.owner = c.part → ∃ u, MbGrants s c 0 0 u ∧ RotOnly s u ∧ SMap.get none u.rot.handles k = none
          ∧ ∀ j, j ≠ k → SMap.get none u.rot.handles j = SMap.get none s.rot.handles j)
        ∧ (¬(c.part = 0 ∨ h.owner = c.part) → MbRefuses s c rest 1))

/-- The commands that provision, from page 1 under PARTID 0: nothing of the block but the configuration area changes.  CTR_ADV moves a counter up only (15
R409).  LC_ADV takes the steps Manufacturing to Open, Open to Field, Open or Field to Analysis and no other; from Open to Field BOOTCFG and the boot keys
must be in order; the grants of Manufacturing last until the next one (assumption log 88; 15 R405, R406).  PROV_HASH and PROV_CFG write before Field only, and not a revoked slot; PROV_REVOKE revokes in Open and Field (15 R408,
R427). -/
def Rules.ProvisioningCommands : Prop :=
  ∀ (s : State) (c : MbCmd) (rest : List MbCmd), MbFront s c rest →
    let k := c.arg 0
    let admin := c.page = 1 ∧ c.part = 0
    let lc := s.otp.lc.val
    let left := fun (u : State) => u = { mbTaken s rest with otp := u.otp }
    (c.op = 0x50 → admin → k < 64 → ∃ u, MbGrants s c 0 0 u ∧ left u ∧ u.otp = { s.otp with ctrs := u.otp.ctrs }
        ∧ (SMap.get 0 u.otp.ctrs k).toNat = max (SMap.get 0 s.otp.ctrs k).toNat (c.arg 1)
        ∧ ∀ j, j ≠ k → SMap.get 0 u.otp.ctrs j = SMap.get 0 s.otp.ctrs j)
    ∧ (c.op = 0x50 ∨ c.op = 0x70 ∨ c.op = 0x71 ∨ c.op = 0x72 ∨ c.op = 0x73 → ¬admin → MbRefuses s c rest 1)
    ∧ (c.op = 0x70 → admin → ¬((lc = 0 ∧ k = 1) ∨ (lc = 1 ∧ (k = 2 ∨ k = 3)) ∨ (lc = 2 ∧ k = 3)) → MbRefuses s c rest 6)
    ∧ (c.op = 0x70 → admin → lc = 0 → k = 1 →
        ((s.keyHash 0).valid = true ∨ (s.keyHash 4).valid = true → ∃ u, MbGrants s c 0 0 u ∧ u.otp = { s.otp with lc := 1 } ∧ u.rot.uds.length = 48
          ∧ (∀ a, a ≠ rts 0x44 → u.reg a = s.reg a) ∧ u.fld (rts 0x44) 8 4 = 15 ∧ u.mem = s.mem)
        ∧ ((s.keyHash 0).valid = false → (s.keyHash 4).valid = false → MbRefuses s c rest 6))
    ∧ (c.op = 0x70 → admin → lc = 1 → k = 2 →
        (1 ≤ fieldOf s.otp.bootcfg 0 4 → fieldOf s.otp.bootcfg 0 4 ≤ 6 → s.bootKeysOk = true →
          ∃ u, MbGrants s c 0 0 u ∧ left u ∧ u.otp = { s.otp with lc := 2 })
        ∧ (s.bootKeysOk = false → MbRefuses s c rest 6))
    ∧ (c.op = 0x70 → admin → lc = 1 ∨ lc = 2 → k = 3 →
        (s.dbg.testBit 0 = true → ∃ u, MbGrants s c 0 0 u ∧ u.otp = { s.otp with lc := 3, hashes := [] } ∧ u.rot.uds = []
          ∧ u.regs = s.regs ∧ u.mem = s.mem)
        ∧ (s.dbg.testBit 0 = false → MbRefuses s c rest 1))
    ∧ (c.op = 0x71 ∨ c.op = 0x73 → admin → 2 ≤ lc → MbRefuses s c rest 1)
    ∧ (c.op = 0x71 → admin → lc < 2 → k < 12 → 48 ≤ c.len →
        ((s.keyHash k).revoked = true → MbRefuses s c rest 3)
        ∧ (∀ h v, (s.keyHash k).revoked = false → (mbTaken s rest).mbRead c 0 48 = .ok h v → ∃ u, MbGrants s c 0 0 u ∧ u = { v with otp := u.otp }
            ∧ u.otp = { v.otp with hashes := u.otp.hashes } ∧ u.keyHash k = ⟨h, true, false⟩ ∧ ∀ j, j ≠ k → u.keyHash j = v.keyHash j)
        ∧ (∀ v, (s.keyHash k).revoked = false → (mbTaken s rest).mbRead c 0 48 = .bad v → MbFails s v c 5)
        ∧ (∀ v, (s.keyHash k).revoked = false → (mbTaken s rest).mbRead c 0 48 = .held v →
            exec .mailboxCommandDone s = .next { v with rot := s.rot }))
    ∧ (c.op = 0x72 → admin → lc = 1 ∨ lc = 2 → k < 12 → ∃ u, MbGrants s c 0 0 u ∧ left u ∧ u.otp = { s.otp with hashes := u.otp.hashes }
        ∧ u.keyHash k = { s.keyHash k with revoked := true } ∧ ∀ j, j ≠ k → u.keyHash j = s.keyHash j)
    ∧ (c.op = 0x72 → admin → lc = 0 ∨ lc = 3 → MbRefuses s c rest 1)
    ∧ (c.op = 0x73 → admin → lc < 2 → ∃ u, MbGrants s c 0 0 u ∧ left u
        ∧ u.otp = { s.otp with bootcfg := u.otp.bootcfg } ∧ ∀ b, b < 64 → u.otp.bootcfg.getLsbD b
          = if b < 20 then Nat.testBit k b else if 32 ≤ b ∧ b < 41 then Nat.testBit (c.arg 1) (b - 32) else false)

/-- Boot, measurement and debug.  DICE_NEXT above layer 0 and below layer 7 stores its measurement in the next measurement register and the layer goes up;
MR_EXTEND of a register from 8 to 15 replaces it by the digest of it and the data, and of one below 8 is RESULT 1 (15 R415-R417).  BOOTIMG after a boot is
RESULT 6; of an image that fails a check RESULT 4, counted in RT_BOOTSTAT (15 R412, R414).  DBG_RESP without a challenge is RESULT 6 (15 R425).  CONF_CLR
of a valid entry by its owner or PARTID 0 erases its slot and ends the entry (15 R422).  A buffer outside visible DRAM or that a confidential entry bars is
RESULT 5, and a command whose buffer must wait stays first (15 R427; assumption log 24).  RNG, GETPUB, KEY_PUB and DBG_CHAL write what they answer to the
buffer (15 R418, R420, R425, R427). -/
def Obligations.BootAndMeasurement : Prop :=
  ∀ (s : State) (c : MbCmd) (rest : List MbCmd), MbFront s c rest →
    let k := c.arg 0
    let s0 := mbTaken s rest
    let answers := fun (v : State) (l : List Byte) => ∀ w x, v.mbAccess c c.buf l.length (some l) = .ok x w → MbGrants s c 0 0 w
    (c.op = 0x10 → c.page = 1 → s.bit (rts 0x44) 2 = true → MbRefuses s c rest 6)
    ∧ (c.op = 0x10 ∨ c.op = 0x20 ∨ c.op = 0x60 ∨ c.op = 0x61 → c.page ≠ 1 → MbRefuses s c rest 1)
    ∧ (∀ hdr v, c.op = 0x10 → c.page = 1 → s.bit (rts 0x44) 2 = false → s0.mbRead c 0 0x1700 = .ok hdr v →
        let fails := fun (w : State) (code : Nat) => ∃ t, exec .mailboxCommandDone s = .next t ∧ t.fld (rtm c.page 0x44) 8 4 = 4
          ∧ t.fld (rts 0x48) 4 4 = min 15 (w.fld (rts 0x48) 4 4 + 1) ∧ t.fld (rts 0x48) 8 4 = code ∧ t.bit (rts 0x44) 2 = w.bit (rts 0x44) 2
        (leNat (hdr.take 4) ≠ 0x4E524A42 → v.headCode hdr = 1)
        ∧ (v.headCode hdr ≠ 0 → fails v (v.headCode hdr))
        ∧ (∀ body w, v.headCode hdr = 0 → v.mbRead c 0x1700 (leNat ((hdr.drop 0x10).take 4)) = .ok body w →
          let code := if sha384 body ≠ (hdr.drop 0x40).take 48 then 5
            else if leNat ((hdr.drop 8).take 4) < (w.ctr (leNat ((hdr.drop 0xC).take 1))).toNat then 6 else 0
          let e := c.buf + 0x1700 + leNat ((hdr.drop 0x14).take 4)
          (code = 0 → ∃ u, MbGrants s c (BitVec.ofNat 32 e) (BitVec.ofNat 32 (e / 4294967296)) u
            ∧ u.fld (rts 0x44) 4 3 = 1 ∧ u.bit (rts 0x44) 2 = true ∧ u.bit (rts 0x44) 3 = true ∧ u.mr 0 = sha384 (hdr.take 256)
            ∧ u.otp = w.otp ∧ u.mem = w.mem)
          ∧ (code ≠ 0 → fails w code)))
    ∧ (∀ m v, c.op = 0x20 → c.page = 1 → 1 ≤ s.fld (rts 0x44) 4 3 → s.fld (rts 0x44) 4 3 ≤ 6 → 48 ≤ c.len → s0.mbRead c 0 48 = .ok m v →
        v.fld (rts 0x44) 4 3 = s.fld (rts 0x44) 4 3 →
        ∃ u, MbGrants s c 0 0 u ∧ u.fld (rts 0x44) 4 3 = s.fld (rts 0x44) 4 3 + 1 ∧ (m.length = 48 → u.mr (s.fld (rts 0x44) 4 3 + 1) = m)
          ∧ (∀ j, j ≠ s.fld (rts 0x44) 4 3 + 1 → u.mr j = v.mr j) ∧ u.otp = v.otp ∧ u.mem = v.mem)
    ∧ (c.op = 0x21 → k < 8 → MbRefuses s c rest 1)
    ∧ (c.op = 0x21 → 8 ≤ k → k ≤ 15 → 48 ≤ c.len →
        (∀ d v, s0.mbRead c 0 48 = .ok d v → ∃ u, MbGrants s c 0 0 u ∧ u.mr k = sha384 (v.mr k ++ d)
          ∧ (∀ j, j ≠ k → u.mr j = v.mr j) ∧ u.regs = v.regs ∧ u.otp = v.otp ∧ u.mem = v.mem)
        ∧ (s.isDram (c.buf / 64 * 64) = false ∨ s0.confBars c.buf c.len c.part = true → MbRefuses s c rest 5)
        ∧ (∀ v, s0.mbRead c 0 48 = .held v → exec .mailboxCommandDone s = .next { v with rot := s.rot }))
    ∧ (c.op = 0x01 → c.len ≤ 4096 → answers (s0.random c.len).2 (s0.random c.len).1)
    ∧ (c.op = 0x01 → 4096 < c.len → MbRefuses s c rest 2)
    ∧ (c.op = 0x23 → k < 2 → s.fld (rts 0x44) 4 3 ≠ 0 →
        let out := publicKey (k + 1) (s.deviceKey (k + 1))
        out.length ≤ c.len → answers (s0.random (if k = 0 then 112 else 32)).2 out)
    ∧ (∀ h, c.op = 0x42 → k < 256 → SMap.get none s.rot.handles k = some h → c.part = 0 ∨ h.owner = c.part → 4 ≤ h.type →
        let out := publicKey (if h.type = 4 then 1 else h.type) h.key
        out.length ≤ c.len → answers s0 out)
    ∧ (∀ w x, c.op = 0x60 → c.page = 1 → 48 ≤ c.len →
        let chal := (s0.random 32).1
        (s0.random 32).2.mbAccess c c.buf (chal ++ uidBytes).length (some (chal ++ uidBytes)) = .ok x w →
          MbGrants s c 0 0 { w with rot := { w.rot with challenge := some chal } })
    ∧ (c.op = 0x61 → c.page = 1 → 193 ≤ c.len → s.rot.challenge = none → MbRefuses s c rest 6)
    ∧ (c.op = 0x33 → k < 16 → s.bit (rts (0x500 + 16 * k)) 31 = true →
        (c.part = 0 ∨ s.fld (rts (0x500 + 16 * k)) 24 6 = c.part.toNat → ∃ u, MbGrants s c 0 0 u ∧ u.bit (rts (0x500 + 16 * k)) 31 = false
          ∧ SMap.get 0 u.mem.keys (s.fld (rts (0x500 + 16 * k)) 0 10) = 0
          ∧ (∀ a, a ≠ rts (0x500 + 16 * k) → a ≠ rts (0x504 + 16 * k) → a ≠ rts (0x508 + 16 * k) → u.reg a = s.reg a))
        ∧ (¬(c.part = 0 ∨ s.fld (rts (0x500 + 16 * k)) 24 6 = c.part.toNat) → MbRefuses s c rest 1))

/-- The root of trust's own rows.  KAT_DONE: READY, and core 0 of cabinet 0, in Stop until then, is released at the reset address with every register at its
reset value; with a failed test KAT_FAIL and its report, after which no core starts (15 R410).  RVBAR_WRITE of an address in the boot ROM or in DRAM takes it,
unless LOCK is 1 (15 R411).  EMRAM_ACCESS: an aligned write of 8 bytes by PARTID 0 in the application area is stored; a refused access changes nothing but
RT_REFCNT and its registers and reports (02 R23; 15 R407).  Without a mailbox command, MAILBOX_COMMAND_DONE does nothing. -/
def Rules.RootOfTrustRows : Prop :=
  ∀ (s : State), s.stalled = false →
    (s.rot.queue = [] → exec .mailboxCommandDone s = .next s)
    ∧ (∀ ok, s.bit (rts 0x44) 0 = true → exec (.katDone ok) s = .next s)
    ∧ (s.bit (rts 0x44) 0 = false → s.domState 0 = 0 → ∃ t, exec (.katDone true) s = .next t
        ∧ t = { s with regs := t.regs, cores := t.cores } ∧ (∀ a, a ≠ rts 0x44 → a ≠ dstat 0 → t.reg a = s.reg a) ∧ t.bit (rts 0x44) 0 = true
        ∧ (∀ k, k ≠ 0 → t.bit (rts 0x44) k = s.bit (rts 0x44) k) ∧ t.domState 0 = 3
        ∧ t.core 0 = { pc := BitVec.ofNat 64 (s.reg64 (rts 0x4C)) } ∧ ∀ n, n ≠ 0 → t.core n = s.core n)
    ∧ (s.bit (rts 0x44) 0 = false → s.domState 0 ≠ 0 → exec (.katDone true) s = .next (s.setBit (rts 0x44) 0 true))
    ∧ (s.bit (rts 0x44) 0 = false → ∃ t, exec (.katDone false) s = .next t ∧ t.bit (rts 0x44) 0 = true ∧ t.bit (rts 0x44) 1 = true
        ∧ t.bit (rts 0x14) 3 = true ∧ OnlyRegsErr s t [rts 0x44, rts 0x14, rts 0x20])
    ∧ (∀ (i : Initiator) (hi : Bool) (v : W32) (g : Page), MayWrite s i (rts (0x4C + 4 * b2n hi)) g →
        let w := if hi then v &&& 0x3FF else v &&& 0xFFFFF000
        let t := s.setReg (rts (0x4C + 4 * b2n hi)) w
        let a := t.fld (rts 0x4C) 12 20 * 4096 + 4294967296 * t.fld (rts 0x50) 0 10
        (s.bit (rts 0xC) 2 = true → exec (.rvbarWrite i hi v) s = .next s)
        ∧ (s.bit (rts 0xC) 2 = false → inRom a = true ∨ s.isDram a = true → exec (.rvbarWrite i hi v) s = .next t)
        ∧ (s.bit (rts 0xC) 2 = false → inRom a = false → s.isDram a = false → exec (.rvbarWrite i hi v) s = .next (s.raise (rts 0) 4)))
    ∧ (∀ (w : EmAccess) (i : Initiator) (d : W64), w.who = some i → w.data = some d → s.reg (rts 0x1C) = 0 →
        (w.size = 8 → w.off.toNat % 8 = 0 → 0x100000 ≤ w.off.toNat → w.off.toNat < 0xF00000 → s.partOf i = 0 →
          ∃ t, exec (.emramAccess w) s = .next t ∧ t = { s with mem := { s.mem with emram := t.mem.emram } }
            ∧ (∀ k, k < 8 → Memory.read t.mem.emram (w.off.toNat + k) = (leBytes 8 d.toNat).getD k 0)
            ∧ ∀ a, (a < w.off.toNat ∨ w.off.toNat + 8 ≤ a) → Memory.read t.mem.emram a = Memory.read s.mem.emram a)
        ∧ (w.size ≠ 8 ∨ w.off.toNat < 0x100000 → ∃ t, exec (.emramAccess w) s = .next t
            ∧ OnlyRegsErr s t [rts 0x64, rts 0x6C, rts 0x70, rts 0x14, rts 0x20] ∧ t.reg (rts 0x64) = s.reg (rts 0x64) + 1 ∧ t.bit (rts 0x14) 0 = true))
    ∧ (∀ (w : EmAccess) (i : Initiator), w.who = some i → w.data = none → s.reg (rts 0x1C) = 0 → (∀ k, k < w.size → s.emRight (s.partOf i) (w.off.toNat + k) false = true) →
        exec (.emramAccess w) s = .next s)
/-! ### Power -/

/-- The domains that must be in Run before domain `d` wakes, ancestors first, that are not, and `d` (17 R464). -/
def WakesAll (s : State) (ch : List Nat) (d : Nat) : Prop :=
  ch.getLast? = some d ∧ ∀ k, k ∈ ch → k ≠ d → s.domState k ≠ 3 ∧ (domParent d = some k ∨ ∃ p, domParent d = some p ∧ domParent p = some k)

/-- Commands to the power controller.  A DCMD while a sequence runs is refused: PG_ERR and source 0x301 (17 R466).  DCMD_STOP of a domain in Run whose children are in
Stop, that is empty and unbound: its STATE is 2 and its sequence runs.  DCMD_WAKE of a domain in Stop: the chain of its wake starts, its first domain waking (17
R464, R471).  DCMD_RESET of a cell or a bench in Run: reset at once, RKIND 4 or 3, a reset core at the reset vector, its locked pages still locked (00 R5;
17 R485, R486; 15 R411).  CABINET_RESET of a
compute cabinet: RKIND 2, and no image is left; of another: PG_ERR (17 R485). -/
def Rules.PowerCommands : Prop :=
  ∀ (s : State) (i : Initiator) (v : W32) (g : Page),
    let d := fieldOf v 0 9
    let free := s.power.seq = none ∧ s.power.wakeq = []
    (MayWrite s i (pwq 0x40) g →
      (¬free → ∀ x, x = .dcmdStop i v ∨ x = .dcmdWake i v ∨ x = .dcmdReset i v → exec x s = .next ((s.raise (pwq 0) 0).fire 0x301))
      ∧ (free → d < 296 → s.domState d = 3 → (∀ k, k < 296 → domParent k = some d → s.domState k = 0) → s.notEmpty d = false →
          (d < 192 → (s.core d).bunk.bound = false) → ∃ t, exec (.dcmdStop i v) s = .next t ∧ t.power.seq = some (.stop d) ∧ t.domState d = 2
            ∧ OnlyRegs { s with power := t.power } t [pwq 0x44, dstat d] ∧ t.fld (pwq 0x44) 1 7 = 0)
      ∧ (free → d < 296 → s.domState d ≠ 3 → ∃ t, exec (.dcmdStop i v) s = .next t ∧ t.power = s.power ∧ t.fld (pwq 0x44) 1 7 = 1
          ∧ t.bit (pwq 0x14) 0 = true)
      ∧ (free → d < 296 → s.domState d = 0 → ∃ t ch, exec (.dcmdWake i v) s = .next t ∧ t.power.seq = some (.wake ch d 1 true) ∧ WakesAll s ch d
          ∧ OnlyRegs { s with power := t.power } t [pwq 0x44, dstat (ch.headD d)] ∧ t.domState (ch.headD d) = 1)
      ∧ (free → d < 192 → s.domState d = 3 → ∃ t, exec (.dcmdReset i v) s = .next t ∧ t.core d = { pc := BitVec.ofNat 64 (s.reg64 (rts 0x4C)) }
          ∧ t.fld (dstat d) 12 3 = 4 ∧ t.fld (dstat d) 4 4 = 4 ∧ t.domState d = 3
          ∧ ∀ p : Page, p.domain = some d → t.bit (p.base + 0xC) 2 = s.bit (p.base + 0xC) 2)
      ∧ (free → 192 ≤ d → d < 216 → ∃ t, exec (.dcmdReset i v) s = .next t
          ∧ t = (((s.setNat (pwq 0x44) (65536 * d)).resetBench (d - 192) 3).fire 0x300) ∧ t.fld (dstat d) 12 3 = 3))
    ∧ (∀ c : Fin 8, MayWrite s i (cabCtl c.val 0x4C) g →
        (4 ≤ c.val → exec (.cabinetReset i c v) s = .next (s.raise (cabCtl c.val 0) 2))
        ∧ (c.val < 4 → s.power.seq = none → ∃ t, exec (.cabinetReset i c v) s = .next t ∧ t = s.resetCabinet c.val
            ∧ ∀ k, (k = 264 + c.val ∨ (192 + 6 * c.val ≤ k ∧ k < 198 + 6 * c.val) ∨ (48 * c.val ≤ k ∧ k < 48 * c.val + 48)) →
                t.fld (dstat k) 12 3 = 2 ∧ t.bit (dstat k) 2 = false ∧ SMap.get none t.power.images k = none))

/-- How sequences end.  STOP_SEQUENCE_DONE, once the domain has sent what it owes and awaits nothing, of a cell once its core has completed what has issued: STATE 0, IMG 1, the save image in the Chest, of a cell with its registers, PC and level, and the core itself loses all
(17 R468, R475, R476).  WAKE_DONE of the last domain: STATE 3, IMG 0, the saved core resumes (17 R471).  WAKE_FAILURE: STATE 0 and WFAIL with its cause,
those below with cause 4, and of a DCMD 0x300
fires (17 R466, R473).  EVENT_WAKE starts the first queued wake (17 R470).  An event without its sequence changes nothing. -/
def Rules.PowerSequences : Prop :=
  ∀ (s : State), s.stalled = false → s.power.crst = [] →
    (∀ d : Fin 296, s.power.seq = some (.stop d.val) → (d.val < 192 → (s.core d.val).sb = [] ∧ (s.core d.val).issued = false ∧ (s.core d.val).tlbis = []
        ∧ ∀ m ∈ s.coh.misses, m.core = d.val → m.got.isSome = true) →
        (192 ≤ d.val → s.domWorks d.val = false) →
          ∃ t img, exec (.stopSequenceDone d) s = .next t ∧ t.power.seq = none ∧ t.domState d.val = 0 ∧ t.bit (dstat d.val) 2 = true
            ∧ SMap.get none t.power.images d.val = some img
            ∧ (d.val < 192 → t.core d.val = {} ∧ ∃ c, img.core = some c ∧ c.g = (s.core d.val).g ∧ c.f = (s.core d.val).f ∧ c.sys = (s.core d.val).sys
                ∧ c.pc = (s.core d.val).pc ∧ c.level = (s.core d.val).level))
    ∧ (∀ d : Fin 296, s.power.seq = some (.stop d.val) → d.val < 192 → (s.core d.val).issued = true → exec (.stopSequenceDone d) s = .next s)
    ∧ (∀ d : Fin 296, s.power.seq = some (.stop d.val) → 192 ≤ d.val →
        (∃ r q, (r, q) ∈ domainPorts d.val ∧ ((∃ p ∈ s.net.outs, p.src.toNat = r ∧ p.srcp.val = q)
            ∨ ∃ f ∈ s.net.flights, f.rtr = r ∧ f.port = q ∧ isResponse f.pkt = true))
          ∨ (264 ≤ d.val ∧ d.val < 268 ∧ SMap.get none s.power.dvfs (d.val - 264) ≠ none) → exec (.stopSequenceDone d) s = .next s)
    ∧ (∀ d : Fin 296, s.power.seq = none → exec (.stopSequenceDone d) s = .next s ∧ exec (.wakeDone d) s = .next s
        ∧ ∀ k, exec (.wakeFailure d k) s = .next s)
    ∧ (∀ (d : Fin 296) src dcmd, s.power.seq = some (.wake [d.val] d.val src dcmd) → s.err.flaws = [] → src < 16 →
          ∃ t, exec (.wakeDone d) s = .next t ∧ t.power.seq = none ∧ t.domState d.val = 3 ∧ t.bit (dstat d.val) 2 = false ∧ t.fld (dstat d.val) 4 4 = src
            ∧ SMap.get none t.power.images d.val = none)
    ∧ (∀ (d : Fin 296) (k : Fin 4) rest tgt src dcmd, s.power.seq = some (.wake (d.val :: rest) tgt src dcmd) → k ≠ 0 → d.val ∉ rest →
        (∀ j ∈ rest, j < 296) → ∃ t, exec (.wakeFailure d k) s = .next t ∧ t.power.seq = none ∧ t.domState d.val = 0 ∧ t.bit (dstat d.val) 3 = true
          ∧ t.fld (dstat d.val) 8 4 = k.val ∧ (∀ j ∈ rest, t.domState j = 0 ∧ t.bit (dstat j) 3 = true ∧ t.fld (dstat j) 8 4 = 4)
          ∧ t.bit (pwq 0x14) 1 = true ∧ t.reg64 (pwq 0x4C) = s.time ∧ (dcmd = true → .source 0x300 ∈ t.ev.fires))
    ∧ (∀ n rest, s.power.seq = none → s.power.wakeq = n :: rest → n < 296 → s.domState n = 0 →
        ∃ t ch, exec .eventWake s = .next t ∧ t.power.wakeq = rest ∧ t.power.seq = some (.wake ch n 2 false) ∧ WakesAll s ch n
          ∧ OnlyRegs { s with power := t.power } t [dstat (ch.headD n)])
    ∧ (s.power.wakeq = [] → exec .eventWake s = .next s)

/-- What a power-on reset leaves: every field at its reset value but the eMRAM, the configuration area, the persistent keys and the device secret, the waiting
commands and the free values drawn; the device is held in reset; `low` tells whether PORST_N holds it (assumption log 88) (15 R405, R409, R420; 17 R487; 19 R521). -/
def PowerOnReset (s t : State) (low : Bool) : Prop :=
  t = { State.reset with
    pending := s.pending, fresh := s.fresh, otp := s.otp, rot := t.rot
    mem := { State.reset.mem with emram := s.mem.emram }
    power := { State.reset.power with inReset := true, porst := low } }
    ∧ t.rot = ({ uds := s.rot.uds, handles := t.rot.handles } : RotSt)
    ∧ (∀ h k, (h, some k) ∈ t.rot.handles → k.persist = true ∧ (h, some k) ∈ s.rot.handles)

/-- Resets of the whole device, whatever it does.  PORST_N low and a dip of the always-on supply: a power-on reset, in which it is held until
POWER_ON_RESET_RELEASE (19 R521, R528).  SYSRST_N low outside a power-on reset, and CHIP_SYSRST: TIME and the always-on count run on; the eMRAM, the DRAM array, the Chest
and the stools' SRAMs stay; RKIND is 1 everywhere; the cores are as after reset; in a power-on reset SYSRST_N changes nothing (17 R485-R487; 19 R528). -/
def Rules.DeviceResets : Prop :=
  ∀ s : State,
    let system := fun (t : State) => t.clock.time = s.clock.time ∧ t.power.aon = s.power.aon ∧ t.otp = s.otp ∧ t.mem.emram = s.mem.emram
      ∧ t.mem.dram = s.mem.dram ∧ t.power.chest = s.power.chest ∧ t.pending = s.pending ∧ t.cores = State.reset.cores ∧ t.err = State.reset.err
      ∧ t.net = State.reset.net ∧ (∀ k, k < 34 → t.stool k = { sram := (s.stool k).sram }) ∧ (∀ d, d < 296 → t.fld (dstat d) 12 3 = 1)
      ∧ (∀ a, (∀ d, d < 296 → a ≠ dstat d) → t.reg a = State.reset.reg a)
    (∃ t, exec .porstNLow s = .next t ∧ PowerOnReset s t true) ∧ (∃ t, exec .aonSupplyDip s = .next t ∧ PowerOnReset s t s.power.porst)
      ∧ exec .powerOnResetRelease s = .next { s with power := { s.power with inReset := false, porst := false } }
      ∧ (s.power.inReset = false → ∃ t, exec .sysrstNLow s = .next t ∧ system t)
      ∧ (s.power.inReset = true → exec .sysrstNLow s = .next s)
      ∧ (∀ (i : Initiator) (v : W32) (g : Page), MayWrite s i (pwc 0x40) g → ∃ t, exec (.chipSysrst i v) s = .next t ∧ system t)

/-- Chip Stop and its end.  CHIP_STOP with every domain in Stop and no sequence: the chip is in Stop, the entry captured, the time PLL off, PWR_REQ low; otherwise it is refused
(17 R478).  WAKE_N or the timer in chip Stop, not frozen: PWR_REQ goes high and the source is recorded (17 R479).  PWR_GOOD: the PLL restarts; it fails to lock, or
PWR_GOOD fails to come: chip Stop again with the cause in CHIP_WFAIL (17 R479; 19 R523).  TIME_PLL_LOCK: the chip runs, TIME is the entry's plus the time the always-on
count measured, and 0x303 fires (17 R480, R481).  AON_LO_READ captures the upper half of the count (17 R489). -/
def Rules.ChipStopAndWake : Prop :=
  ∀ (s : State),
    let calm := s.err.frozen = none
    let woken := fun (src : Nat) (s t : State) => t = { (s.setNat (pwc 0x48) src) with power := { s.power with chip := .waitGood, pwrReqLow := false } }
    let failed := fun (k : Nat) (t : State) => t.power.chip = .stop ∧ t.reg (pwc 0x4C) = BitVec.ofNat 32 (k + 2147483648) ∧ t.bit (pwc 0x14) 1 = true
      ∧ t.mem = s.mem ∧ t.clock = s.clock
    (∀ (i : Initiator) (v : W32) (c : BitVec 48) (g : Page), MayWrite s i (pwc 0x40) g →
      ((∀ d, d < 296 → s.domState d = 0) → s.power.seq = none → s.power.wakeq = [] → ∃ t, exec (.chipStop i v c) s = .next t ∧ t.power.chip = .stop
          ∧ t.power.aonEntry = c ∧ t.power.pwrReqLow = true ∧ t.clock = { s.clock with locked := false } ∧ t.reg64 (pwc 0x60) = s.time ∧ t.mem = s.mem)
      ∧ ((∃ d, d < 296 ∧ s.domState d ≠ 0) → exec (.chipStop i v c) s = .next (({ s with power := { s.power with aon := c } }).raise (pwc 0) 0)))
    ∧ (calm → s.power.chip = .stop → ∃ t, exec .wakeNFall s = .next t ∧ woken 1 s t)
    ∧ (s.power.chip ≠ .stop → exec .wakeNFall s = .next s)
    ∧ (calm → s.power.chip = .stop → s.power.inReset = false → s.bit (pwc 0x5C) 31 = true → ∃ t, exec .aonTimerMatch s = .next t
        ∧ woken 2 { s with power := { s.power with aon := BitVec.ofNat 48 ((s.reg (pwc 0x58)).toNat + 4294967296 * s.fld (pwc 0x5C) 0 16) } } t)
    ∧ (s.bit (pwc 0x5C) 31 = false → exec .aonTimerMatch s = .next s)
    ∧ (calm → s.power.chip = .waitGood → exec .pwrGoodRise s = .next { s with power := { s.power with chip := .waitPll } }
        ∧ ∃ t, exec .pwrGoodTimeout s = .next t ∧ failed 1 t ∧ t.power.pwrReqLow = true)
    ∧ (calm → s.power.chip = .waitPll → ∃ t, exec .chipWakePllFail s = .next t ∧ failed 2 t ∧ t.power.owe302 = true)
    ∧ (∀ c : BitVec 48, calm → s.power.chip = .waitPll → ∃ t, exec (.timePllLock c) s = .next t ∧ t.power.chip = .run ∧ t.power.aon = c
        ∧ t.clock.locked = true ∧ t.clock.time = BitVec.ofNat 64 (s.reg64 (pwc 0x60) + (c - s.power.aonEntry).toNat * 1000000000 / 32768)
        ∧ .source 0x303 ∈ t.ev.fires ∧ (s.power.owe302 = true → .source 0x302 ∈ t.ev.fires) ∧ t.bit (tim 0x4C) 0 = true)
    ∧ (∀ c : BitVec 48, s.power.chip ≠ .waitPll → exec (.timePllLock c) s = .next s ∧ exec .chipWakePllFail s = .next s)
    ∧ (∀ (i : Initiator) (c : BitVec 48) (g : Page), MayRead s (pwc 0x50) g → exec (.aonLoRead i c) s
        = .next { s with power := { s.power with aon := c }, clock := { s.clock with
            caps := SMap.set none s.clock.caps (iniCode i * 268435456 + pwc 0x54) (some (BitVec.ofNat 32 (c.toNat / 4294967296))) } })

/-- The next step of a DVFS sequence from a point in force to a target: lowering the clock goes first, raising it last (17 R483). -/
def nextStep (mv mhz tmv tmhz : Nat) : Option DvfsStep :=
  if tmhz < mhz then some (.clock tmhz) else if tmv ≠ mv then some (.voltage tmv) else if tmhz ≠ mhz then some (.clock tmhz) else none

/-- Operating points and temperature.  DVFS_REQUEST of a pair in a compute cabinet's range and near enough to the others: it is the target, and a sequence starts with the
step that comes first; of another pair, or other than the point in force elsewhere: PG_ERR only (01 R12, R13; 17 R482, R483).  DVFS_STEP_DONE, or a PMIC_STATUS_POLL whose
bit is 1: the step's value is in force and the next step starts; with the PMIC off a voltage step waits (17 R483; 19 R519).  DVFS_TIMEOUT: the target is the point in force
again, and 0x30C + c fires.  TEMPERATURE_SAMPLE: the readings, and with two more than 45 degrees apart TDIFF and 0x304 (01 R14; 17 R484).  THERMTRIP_SAMPLE: at 135 degrees the
ball is asserted; with PORST_N low, as the model has it until the release (assumption log 88), it is released below 130 (19 R529). -/
def Rules.OperatingPoints : Prop :=
  ∀ (s : State),
    (∀ (i : Initiator) (c : Fin 8) (v : W32) (g : Page), MayWrite s i (cabCtl c.val 0x40) g →
      let mv := fieldOf v 0 10
      let mhz := fieldOf v 16 12
      (4 ≤ c.val → mv = s.curMv c.val → mhz = s.curMhz c.val → exec (.dvfsRequest i c v) s = .next s)
      ∧ (4 ≤ c.val → mv ≠ s.curMv c.val ∨ mhz ≠ s.curMhz c.val → exec (.dvfsRequest i c v) s = .next (s.raise (cabCtl c.val 0) 0))
      ∧ (c.val < 4 → dvfsRange mv mhz = false → exec (.dvfsRequest i c v) s = .next (s.raise (cabCtl c.val 0) 0))
      ∧ (c.val < 4 → dvfsRange mv mhz = true → s.mvTooFar c.val mv = false → s.dvfsStep c.val = none →
          ∃ t, exec (.dvfsRequest i c v) s = .next t ∧ t.tgtMv c.val = mv ∧ t.tgtMhz c.val = mhz
            ∧ t.dvfsStep c.val = nextStep (s.curMv c.val) (s.curMhz c.val) mv mhz ∧ t.curMv c.val = s.curMv c.val ∧ t.curMhz c.val = s.curMhz c.val
            ∧ t.bit (cabCtl c.val 0x44) 31 = (t.dvfsStep c.val).isSome))
    ∧ (s.stalled = false → ∀ c : Fin 4,
        (s.dvfsStep c.val = none → exec (.dvfsStepDone c) s = .next s ∧ exec (.dvfsTimeout c) s = .next s)
        ∧ (∀ k, k < 4096 → s.dvfsStep c.val = some (.clock k) → ∃ t, exec (.dvfsStepDone c) s = .next t ∧ t.curMhz c.val = k ∧ t.curMv c.val = s.curMv c.val
            ∧ t.dvfsStep c.val = nextStep (s.curMv c.val) k (s.tgtMv c.val) (s.tgtMhz c.val))
        ∧ (∀ k, k < 1024 → s.dvfsStep c.val = some (.voltage k) → s.bit (pwc 0x80) 31 = true → ∀ x, (x = .dvfsStepDone c ∨
            ∃ b : Byte, x = .pmicStatusPoll c (some b) ∧ bitOf b (s.fld (pwc (0x84 + 4 * c.val)) 8 3) = true) →
              ∃ t, exec x s = .next t ∧ t.curMv c.val = k ∧ t.curMhz c.val = s.curMhz c.val
                ∧ t.dvfsStep c.val = nextStep k (s.curMhz c.val) (s.tgtMv c.val) (s.tgtMhz c.val))
        ∧ (∀ k, s.dvfsStep c.val = some (.voltage k) → s.bit (pwc 0x80) 31 = false → exec (.dvfsStepDone c) s = .next s)
        ∧ exec (.pmicStatusPoll c none) s = .next s
        ∧ (∀ x, s.dvfsStep c.val = some x → ∃ t, exec (.dvfsTimeout c) s = .next t ∧ t.dvfsStep c.val = none ∧ t.bit (cabCtl c.val 0x44) 31 = false
            ∧ t.tgtMv c.val = s.curMv c.val ∧ t.tgtMhz c.val = s.curMhz c.val ∧ t.bit (cabCtl c.val 0x14) 1 = true
            ∧ t.ev.fires = s.ev.fires ++ [.source (0x30C + c.val)]))
    ∧ (s.stalled = false → s.reg (pwt 0x1C) = 0 → ∀ l : List W16,
        let at_ := fun (c : Nat) => sextNat (l.getD c 0).toNat 16
        ∃ t, exec (.temperatureSample l) s = .next t ∧ (∀ c, c < 8 → t.reg (pwt (0x40 + 4 * c)) = BitVec.ofNat 32 (l.getD c 0).toNat)
          ∧ ((∃ a b, a < 8 ∧ b < 8 ∧ 720 < at_ a - at_ b) → t.bit (pwt 0x60) 31 = true ∧ t.bit (pwt 0x14) 0 = true ∧ t.ev.fires = s.ev.fires ++ [.source 0x304])
          ∧ ((∀ a b, a < 8 → b < 8 → at_ a - at_ b ≤ 720) → t.ev = s.ev ∧ t.err = s.err))
    ∧ (∀ l : List W16,
        let at_ := fun (c : Nat) => sextNat (l.getD c 0).toNat 16
        let set_ := fun (b : Bool) => exec (.thermtripSample l) s = .next { s with power := { s.power with thermtrip := b } }
        ((∃ c, c < 8 ∧ 2160 ≤ at_ c) → set_ true)
          ∧ ((∀ c, c < 8 → at_ c < 2080) → s.power.porst = true → set_ false)
          ∧ ((∀ c, c < 8 → at_ c < 2160) → s.power.porst = false → exec (.thermtripSample l) s = .next s))
/-! ### Caches, engines and home slices -/

/-- `x` leaves the register at `a` with the bits `m` of `v` and its other bits, and changes nothing else (00 R4). -/
def Takes (s : State) (x : Instr) (a : Nat) (m v : W32) : Prop := exec x s = .next (s.setReg a ((s.reg a &&& ~~~m) ||| (v &&& m)))

/-- The registers of a core's page.  PL_CTL takes bits 2:0 (06 R181).  PCLR: PL_STAT.PCLRB is 1 and every direction counter at 0b01, which PREDICTOR_INIT_DONE ends
(06 R180, R182).  RETCNT_LO and BRPOS_LO read: the upper half is captured for the initiator (03 R41; 06 R180; 09 R265).  CACHE_INIT_DONE: READY (08 R244). -/
def Rules.CorePageRows : Prop :=
  ∀ (s : State) (i : Initiator) (n : Fin 192) (v : W32) (g : Page),
    let captures := fun (a : Nat) (x : Nat) => { s with clock := { s.clock with
      caps := SMap.set none s.clock.caps (iniCode i * 268435456 + a) (some (BitVec.ofNat 32 (x / 4294967296))) } }
    (MayWrite s i (corePage n.val 0x100) g → Takes s (.plCtlWrite i n v) (corePage n.val 0x100) 7 v)
    ∧ (MayWrite s i (corePage n.val 0x104) g → exec (.pclr i n v) s
        = .next ((s.setCore n.val { s.core n.val with pred := [] }).setBit (corePage n.val 0x108) 0 true))
    ∧ (MayRead s (corePage n.val 0x110) g → exec (.retcntLoRead i n) s = .next (captures (corePage n.val 0x114) (s.reg64 (corePage n.val 0x110))))
    ∧ (MayRead s (corePage n.val 0x170) g → exec (.brposLoRead i n) s = .next (captures (corePage n.val 0x174) (s.core n.val).bunk.brpos.toNat))
    ∧ (s.stalled = false → exec (.predictorInitDone n) s
        = .next ((s.setCore n.val { s.core n.val with pred := [] }).setBit (corePage n.val 0x108) 0 false))
    ∧ (s.stalled = false → ∀ e : Fin 248, ∀ p, pageOf (cachePage e.val) = some p →
        exec (.cacheInitDone e) s = .next (if s.pageUp p then s.setBit (cachePage e.val + 0x10) 1 true else s))

/-- The rows that start a maintenance engine, with their OP (08 R239, R241). -/
def IsMeGo (x : (Initiator → Fin 56 → W32 → Instr) × Nat) : Prop := x ∈ [(.meClean, 1), (.meInvalidate, 2), (.meCleanInvalidate, 3)]

/-- Maintenance engines.  GO with the engine idle, a range inside the address space, READY and EN: the sweep runs with the range, the operation, the scope and
the page's owner as they stand, ME_STAT is BUSY, in set mode for a range of more lines than the cache holds twice; a range of length 0 is DONE at once, and
a GO while one runs is refused (08 R238-R240).  ABORT marks the sweep, which stops at or after its position, and ME_ABORT_DONE ends it; ME_SWEEP_DONE goes on
with one that is not marked: on a line that the cache holds it acts, and it waits before one whose write-back or fill is outstanding; with no line left and
every write-back accepted it is DONE, and the engine's source fires (08 R238, R240-R243; assumption log 14). -/
def Rules.MaintenanceEngines : Prop :=
  ∀ (s : State) (e : Fin 56),
    let b := enginePage e.val
    let lo := (s.reg (b + 0x40)).toNat + 4294967296 * s.fld (b + 0x44) 0 10
    let len := (s.reg (b + 0x48)).toNat + 4294967296 * s.fld (b + 0x4C) 0 10
    let sets := decide ((if e.val < 24 then 65536 else 32768) < (lo + len + 63) / 64 - lo / 64)
    (∀ (i : Initiator) (v : W32) (g : Page), MayWrite s i (b + 0x54) g →
      (∀ x, IsMeGo x → s.fld (b + 0x50) 0 2 = x.2 →
        (s.engine e.val = none → len ≠ 0 → lo + len ≤ 0x40000000000 → s.bit (b + 0x10) 1 = true → s.bit (b + 0xC) 0 = true →
          ∃ t, exec (x.1 i e v) s = .next t
            ∧ t.engine e.val = some
              { lo := lo, len := len, op := x.2, scope := s.bit (b + 0x50) 4, part := BitVec.ofNat 6 (s.fld (b + 0x24) 0 6),
                abort := false, pos := if sets then 0 else lo / 64 }
            ∧ t.fld (b + 0x58) 0 4 = 1 ∧ t.reg (b + 0x64) = 0 ∧ t.reg (b + 0x68) = 0
            ∧ t.bit (b + 0x58) 4 = sets ∧ t.reg (b + 0x5C) = BitVec.ofNat 32 (if sets then 0 else lo / 64 * 64)
            ∧ OnlyRegs { s with coh := t.coh } t [b + 0x58, b + 0x5C, b + 0x60, b + 0x64, b + 0x68])
        ∧ (s.engine e.val = none → len = 0 → ∃ t, exec (x.1 i e v) s = .next t ∧ t.reg (b + 0x58) = 2 ∧ t.coh = s.coh
            ∧ t.ev.fires = s.ev.fires ++ [.source (engineSource e.val)])
        ∧ ((s.engine e.val).isSome = true → exec (x.1 i e v) s = .next (s.raise b 3)))
      ∧ (∀ w, s.engine e.val = some w → w.abort = false → ∃ p, w.pos ≤ p ∧ exec (.meAbort i e v) s
          = .next (({ s with fresh := s.fresh + 1 }).setEngine e.val (some { w with abort := true, stop := some p })))
      ∧ (∀ w, s.engine e.val = some w → w.abort = true → exec (.meAbort i e v) s = .next s)
      ∧ (s.engine e.val = none → exec (.meAbort i e v) s = .next s))
    ∧ (s.stalled = false →
        (s.engine e.val = none → exec (.meSweepDone e) s = .next s ∧ exec (.meAbortDone e) s = .next s)
        ∧ (∀ w, s.engine e.val = some w →
            let ends := fun (x : Instr) (code : Nat) => ∃ t, exec x s = .next t ∧ t.engine e.val = none ∧ t.fld (b + 0x58) 0 4 = code
              ∧ .source (engineSource e.val) ∈ t.ev.fires ∧ t.stools = s.stools ∧ t.clock = s.clock ∧ t.otp = s.otp ∧ t.cores = s.cores ∧ t.mem = s.mem
            (w.abort = false → exec (.meAbortDone e) s = .next s)
            ∧ (w.abort = true → exec (.meSweepDone e) s = .next s)
            ∧ (w.abort = false → w.stop = none → s.meNext e.val w = none → s.meOutstanding e.val w = false → ends (.meSweepDone e) 2)
            ∧ (w.abort = true → s.meNext e.val w = none → s.meOutstanding e.val w = false → ends (.meAbortDone e) 4)
            ∧ (∀ x, w.abort = false → w.stop = none → s.meNext e.val w = some x → s.meStalls e.val x = true → ∃ t y, exec (.meSweepDone e) s = .next t
                ∧ t.engine e.val = some y ∧ y.out = w.out ∧ t.cores = s.cores ∧ t.mem = s.mem ∧ t.net = s.net
                ∧ t.coh = { s.coh with me := t.coh.me } ∧ t.ev = s.ev)
            ∧ (∀ x l, w.abort = false → w.stop = none → e.val < 24 → w.scope = false → w.op ≠ 1 → s.meNext e.val w = some x →
                s.meStalls e.val x = false → s.l2Line e.val x = some l → (∀ n, n / 8 = e.val → s.l1dLine n x = none) →
                let w0 := if s.meKey e.val w x = w.pos then w else { w with pos := s.meKey e.val w x, acted := [] }
                let w1 := { w0 with acted := w0.acted ++ [x], out := w0.out ++ [x] }
                ((s.meLineL2 e.val w0 x).setEngine e.val (some w1)).meNext e.val w1 = none → ∃ t, exec (.meSweepDone e) s = .next t
                  ∧ t.l2 e.val = (s.l2 e.val).modify 16 (l2Set x) x (fun _ => none) ∧ t.reg (b + 0x64) = s.reg (b + 0x64) + 1
                  ∧ ((l.st = .m ∨ l.st = .o) → l.tagOnly = false → ¬(w.op = 2 ∧ w.part = 0) →
                      ∃ y ∈ t.evb e.val, y.line = x ∧ y.data = l.data ∧ y.poison = l.poison))))

/-- The packet `q` arrives at home slice `j` of its visible line, which is ready; no grant or write-back of the line is on its way, and no injected error
is about. -/
structure AtHome (s : State) (q : Packet) (j : Nat) : Prop where
  runs : s.stalled = false
  gate : s.atGate q = false
  slice : sliceOf q.dst.toNat = some j
  port : q.dstp = 0
  ready : s.cacheReady (slicePage j 0 0) = true
  enabled : s.enabled (slicePage j 0 0) = true
  room : (s.evb (24 + j)).length < 16
  dram : s.isDram (64 * pktLine q) = true
  home : homeSlice (64 * pktLine q) = j
  sure : q.spec = false
  calm : s.err.flaws = [] ∧ s.reg (slicePage j 0 0x1C) = 0
  quiet : (s.arrive q).granting (pktLine q) = false ∧ (s.arrive q).incoming (pktLine q) = false ∧ s.evLine (24 + j) (pktLine q) = none
  idle : s.coh.txs = [] ∧ s.coh.waitq = []

/-- In `t` the slice has answered `q`: one packet more has set out, with the operation `op`, for the packet's source. -/
def Answered (s t : State) (q : Packet) (op : BitVec 8) (f : Flight) : Prop :=
  t.net.flights = (s.arrive q).net.flights ++ [f] ∧ f.pkt.op = op ∧ f.pkt.dst = q.src ∧ f.pkt.dstp = q.srcp ∧ f.pkt.tag = q.tag ∧ t.mem = s.mem

/-- Requests at home that find their line in the SLC and no copy of it elsewhere.  RD_SH and RD_UN of a bench: the line in DATA, granted E, and a directory
entry with that bench alone (08 R228-R231).  RD_NC: the bytes in DATA_S.  WR_LN of a whole line and WR_PT: the line in the SLC is dirty with the bytes written, and
ACK (08 R231; 10 R270, R271).  WR_BK: the line in the SLC holds the data, and ACK (08 R229, R243).  EV_CL: the bench leaves the entry, and ACK (08 R229).  CMO of the L1Is:
no L1I holds the line any more, and ACK (08 R234).  A request for a line whose transaction is in progress waits (08 R232); so
does one for a line whose grant is on its way (assumption log 81). -/
def Rules.HomeRequests : Prop :=
  ∀ (s : State) (k : Packet) (j : Nat),
    let line := pktLine k
    let found := fun (l : CLine) => s.dir j = {} ∧ (s.slc j).find 16 (slcSet line) line = some l
    (∀ x ∈ [(Instr.rdSh k, (0x01 : BitVec 8)), (.rdUn k, 0x02)], ∀ b l, AtHome s { k with op := x.2 } j → found l → benchOf k = some b → b < 24 →
      s.mayUse (slicePage j 0 0) k.part.toNat 0 = true → s.awaits { k with op := x.2 } = true →
        ∃ t f, exec x.1 s = .next t ∧ Answered s t { k with op := x.2 } 0x20 f ∧ f.pkt.line = l.data ∧ f.pkt.poison = l.poison ∧ f.pkt.inl = 1
          ∧ (t.dir j).find line = some { line := line, sharers := putBit 0 b true, owner := none, uniq := true } ∧ t.cores = s.cores)
    ∧ (∀ l, AtHome s { k with op := 0x03 } j → found l → ∃ t f, exec (.rdNc k) s = .next t ∧ Answered s t { k with op := 0x03 } 0x21 f
        ∧ f.pkt.inl = BitVec.ofNat 256 (leNat (((lineBytes l.data).drop (k.addr.toNat % 64)).take (min 32 (k.size.toNat + 1)))) ∧ f.pkt.poison = l.poison
        ∧ t.cores = s.cores)
    ∧ (∀ l, AtHome s { k with op := 0x09 } j → found l → k.be = BitVec.allOnes 64 → ∃ t f, exec (.wrLn k) s = .next t ∧ Answered s t { k with op := 0x09 } 0x22 f
        ∧ (t.slc j).find 16 (slcSet line) line = some { line := line, st := .m, data := k.line, poison := k.poison } ∧ t.cores = s.cores)
    ∧ (∀ l, AtHome s { k with op := 0x0A } j → found l → ∃ t f y, exec (.wrPt k) s = .next t ∧ Answered s t { k with op := 0x0A } 0x22 f
        ∧ (t.slc j).find 16 (slcSet line) line = some y ∧ y.st = .m ∧ y.poison = (l.poison || k.poison) ∧ t.cores = s.cores
        ∧ ∀ i, i < 64 → (lineBytes y.data).getD i 0 =
          if bitOf k.be i = true ∧ k.addr.toNat % 64 ≤ i ∧ i < k.addr.toNat % 64 + min 32 (k.size.toNat + 1) then
            (leBytes 32 k.inl.toNat).getD (i - k.addr.toNat % 64) 0
          else (lineBytes l.data).getD i 0)
    ∧ (∀ l, AtHome s { k with op := 0x08 } j → (s.slc j).find 16 (slcSet line) line = some l → ∃ t f, exec (.wrBk k) s = .next t
        ∧ Answered s t { k with op := 0x08 } 0x22 f ∧ t.cores = s.cores
        ∧ (t.slc j).find 16 (slcSet line) line = some { line := line, st := .m, data := k.line, poison := k.poison })
    ∧ (∀ b, AtHome s { k with op := 0x10 } j → benchOf k = some b → s.l2Line b line = none → s.getting b line = false → ∃ t f, exec (.evCl k) s = .next t
        ∧ Answered s t { k with op := 0x10 } 0x22 f ∧ t.coh = (s.modDir j line (fun e => e.without b)).coh ∧ t.cores = s.cores ∧ t.regs = s.regs)
    ∧ (AtHome s { k with op := 0x0C } j → k.inl.toNat % 8 = 4 → s.dir j = {} → ∃ t f, exec (.cmoPacket k) s = .next t
        ∧ Answered s t { k with op := 0x0C } 0x22 f ∧ (∀ n, n < 192 → ∀ l ∈ (t.core n).l1i.valid, l.line ≠ line)
        ∧ (∀ n, (t.core n).arch = (s.core n).arch) ∧ ∀ n, (t.core n).l1d = (s.core n).l1d)
    ∧ (∀ x ∈ [(Instr.rdSh k, (0x01 : BitVec 8)), (.rdUn k, 0x02), (.cmoPacket k, 0x0C)], ∀ y, s.stalled = false → s.atGate { k with op := x.2 } = false →
        sliceOf k.dst.toNat = some j → k.dstp = 0 → s.cacheReady (slicePage j 0 0) = true → s.enabled (slicePage j 0 0) = true →
        (s.evb (24 + j)).length < 16 → s.isDram (64 * line) = true → homeSlice (64 * line) = j → k.spec = false → s.tx j line = some y ∨ (s.arrive { k with op := x.2 }).granting line = true →
          ∃ t, exec x.1 s = .next t ∧ t.coh = { s.coh with waitq := s.coh.waitq ++ [(j, { k with op := x.2 })] } ∧ t.mem = s.mem ∧ t.cores = s.cores)

/-- Snoops, recalls and answers.  SNP that shares, and RCL, at a bench whose L2 holds the line and no L1D does: the L2 keeps it as O or S, or loses it, and answers with the
line where it is dirty, SNP_DATA, and without it otherwise, SNP_ACK (08 R227, R228, R230).  SNP_ACK and SNP_DATA at home take their bench off what the transaction
waits for.  DATA gives a bench's misses their line, DATA_S a core's read its bytes; ACK takes the store that waits out of the store buffer, or the line
out of the eviction buffer (10 R271).  LOG at a shadow that loads its snapshot takes the line in; CRD returns 8 lines, and the line that waits for a place goes; LOG_LINE_TIMER sends the open line, or keeps it while the
ring of 512 is full (09 R249, R251, R252, R254).  What arrives only once it has got there waits in the fabric (10 R276); a snoop waits for a cache that is not ready or a
fill (08 R243, R244). -/
def Rules.SnoopsAndAnswers : Prop :=
  ∀ (s : State) (k : Packet), s.stalled = false →
    let line := pktLine k
    let r := k.dst.toNat
    let b := 6 * (r / 8) + r % 8
    (∀ x ∈ [(Instr.snp k, (0x11 : BitVec 8), false), (.rcl k, 0x12, true)], ∀ l, routerKind r = .bench → s.cacheReady (benchPage b 0 0) = true →
      s.atGate { k with op := x.2.1 } = false → s.unfilled b line = false →
      (x.2.2 = false → k.inl.toNat % 4 = 0) → s.l2Line b line = some l → (∀ n, n < 192 → n / 8 = b → s.l1dLine n line = none) →
        let dirty := decide (l.st = .m ∨ l.st = .o) && !l.tagOnly
        ∃ t f, exec x.1 s = .next t ∧ Answered s t { k with op := x.2.1 } (if dirty then 0x24 else 0x23) f
          ∧ (dirty = true → f.pkt.line = l.data ∧ f.pkt.poison = l.poison)
          ∧ t.l2 b = (s.l2 b).modify 16 (l2Set line) line (fun l => if x.2.2 then none
              else some { l with st := if l.st = .m then .o else if l.st = .e then .s else l.st }))
    ∧ (∀ x ∈ [(Instr.snp k, (0x11 : BitVec 8)), (.rcl k, 0x12)], routerKind r = .bench → s.cacheReady (benchPage b 0 0) = false ∨ s.unfilled b line = true →
        exec x.1 s = .next s)
    ∧ (∀ x ∈ [(Instr.snpAck k, (0x23 : BitVec 8), false), (.snpData k, 0x24, true)], ∀ q j c y, s.atGate { k with op := x.2.1 } = false → s.net.outs = [q] → answers k q = true →
        sliceOf r = some j → benchOf k = some c → s.coh.txs = [y] → s.coh.waitq = [] → y.slice = j → y.recalling = none → pktLine y.req = pktLine q →
        y.left.contains c = true → y.left.filter (· ≠ c) ≠ [] → ∃ t, exec x.1 s = .next t ∧ t.net.outs = [] ∧ t.mem = s.mem ∧ t.cores = s.cores
          ∧ t.coh = { s.coh with txs := [{ y with left := y.left.filter (· ≠ c), data := if x.2.2 then some (k.line, k.poison) else y.data }] })
    ∧ (∀ q c, s.net.outs = [q] → answers k q = true → sliceOf q.src.toNat = none → benchOf q = some c →
        (∀ x ∈ [(0x20 : BitVec 8), 0x21, 0x22], s.atGate { k with op := x } = false) → s.coh.txs = [] → s.coh.waitq = [] →
        (∃ t, exec (.data k) s = .next t ∧ t.net.outs = [] ∧ t.cores = s.cores ∧ t.mem = s.mem ∧ t.regs = s.regs ∧ t.coh = { s.coh with misses := t.coh.misses }
          ∧ t.coh.misses.length = s.coh.misses.length
          ∧ ∀ m ∈ s.coh.misses, m.tag = q.tag → m.core / 8 = c → m.line = pktLine q →
              { m with got := some (k.line, k.poison, if k.inl.toNat % 4 = 1 then .e else if k.inl.toNat % 4 = 2 then .m else .s) } ∈ t.coh.misses)
        ∧ (∃ t, exec (.dataS k) s = .next t ∧ t.net.outs = [] ∧ t.mem = s.mem ∧ t.regs = s.regs ∧ t.coh = s.coh
          ∧ ∀ n, n < 192 → t.core n = if n / 8 = c then
              { s.core n with ext := (s.core n).ext.map (fun e => if e.tag = q.tag then { e with got := some (k.inl, k.poison) } else e) } else s.core n)
        ∧ (∃ t, exec (.ack k) s = .next t ∧ t.net.outs = [] ∧ t.mem = s.mem ∧ t.regs = s.regs
          ∧ (q.op = 0x08 → t.cores = s.cores ∧ t.evb c = (s.evb c).eraseP (fun v => v.line == pktLine q))
          ∧ (q.op ≠ 0x08 → ∀ n e rest, n / 8 = c → (s.core n).sb = e :: rest →
              t.core n = if e.sent = some q.tag then { s.core n with sb := rest } else s.core n)))
    ∧ (s.net.outs = [] → ∀ x ∈ [(Instr.data k, (0x20 : BitVec 8)), (.dataS k, 0x21), (.ack k, 0x22), (.snpAck k, 0x23), (.snpData k, 0x24)],
        s.atGate { k with op := x.2 } = false → (x.2 = 0x20 → routerKind r ≠ .bench) →
          exec x.1 s = .next ((s.arrive { k with op := x.2 }).count (routerPage r 0x58)))
    ∧ (∀ x ∈ [(Instr.data k, (0x20 : BitVec 8)), (.dataS k, 0x21), (.ack k, 0x22), (.snpAck k, 0x23), (.snpData k, 0x24), (.crd k, 0x19), (.log k, 0x18),
          (.snp k, 0x11), (.rcl k, 0x12), (.rdSh k, 0x01), (.rdUn k, 0x02), (.wrBk k, 0x08), (.evCl k, 0x10), (.cmoPacket k, 0x0C)],
        s.atGate { k with op := x.2 } = true → exec x.1 s = .next s)
    ∧ (let q := k.addr.toNat
       let c := (s.core q).bunk
       let l := logLineOf { k with op := 0x18 }
       q < 192 → (s.logWay (q / 8)).isSome = true → s.atGate { k with op := 0x18 } = false → c.bound = true → c.shadow = true → c.partner = k.tag.toNat → c.halted = false → c.loaded = false →
       c.broken = false → c.lines = [] → c.slot = 0 → c.eaten < 7 → l.snap = true → l.seq = c.expect → c.snap.length + l.slots.length < 139 → s.reg (corePage q 0x1C) = 0 →
         ∃ t, exec (.log k) s = .next t ∧ t.core q = { s.core q with bunk := { c with
           snap := c.snap ++ l.slots, expect := c.expect + 1, eaten := c.eaten + 1 } } ∧ t.mem = s.mem ∧ t.regs = s.regs)
    ∧ (let n := k.addr.toNat
       let q := { k with op := 0x19 }
       let c := s.core n
       s.atGate q = false →
        (c.bunk.out = [] → ∃ t, exec (.crd k) s = .next t ∧ t = { s.arrive q with cores := t.cores }
          ∧ (∀ j, t.core j = if j = n then { c with bunk := { c.bunk with unread := c.bunk.unread - 8 } } else s.core j))
        ∧ (∀ l, c.bunk.out = [l] → c.bunk.unread < 520 → l.slots.length ≤ 7 → ∃ t f, exec (.crd k) s = .next t ∧ t.net.flights = (s.arrive q).net.flights ++ [f]
          ∧ f.pkt.op = 0x18 ∧ logLineOf f.pkt = l ∧ (t.core n).bunk.out = [] ∧ (t.core n).bunk.unread = c.bunk.unread - 8 + 1))
    ∧ (∀ n : Fin 192, let c := (s.core n.val).bunk
        (c.cur = [] → exec (.logLineTimer n) s = .next s)
        ∧ (c.cur ≠ [] → 512 ≤ c.unread → ∃ t, exec (.logLineTimer n) s = .next t ∧ t.net = s.net
            ∧ t.core n.val = { s.core n.val with bunk := { c with cur := [], curCtl := 0, seq := c.seq + 1, out := c.out ++ [⟨c.seq, false, c.curCtl, c.cur⟩] } })
        ∧ (c.cur ≠ [] → c.cur.length ≤ 7 → c.out = [] → c.unread < 512 → ∃ t f, exec (.logLineTimer n) s = .next t ∧ t.net.flights = s.net.flights ++ [f] ∧ f.pkt.op = 0x18
            ∧ logLineOf f.pkt = ⟨c.seq, false, c.curCtl, c.cur⟩
            ∧ t.core n.val = { s.core n.val with bunk := { c with cur := [], curCtl := 0, seq := c.seq + 1, unread := c.unread + 1 } }
            ∧ t.mem = s.mem ∧ t.regs = s.regs))
/-! ### Memory controllers and inline protection -/

/-- Bring-up.  MC_INIT: training starts (11 R318).  TRAINING_DONE of both channels: TRAINED; of one that failed: its failure bits and PG_ERR (11 R318).  IPE_ON with a key in
slot 0, a trained controller and sealed regions in order: ON and TINIT; otherwise refused, whether ON is 0 or 1 (11 R312).  TREE_INIT_DONE: the counters are 0, ACTIVE; with the last of
all, visible DRAM is seven eighths of the capacity of all controllers (11 R300, R312).  KEY_RANGE_WRITE, MR4_READ, REENCRYPT_DONE and PERIODIC_CALIBRATION: what they write (11
R306, R315, R318, R319); the events of a controller's domain that does not run change nothing. -/
def Rules.MemoryBringUp : Prop :=
  ∀ (s : State) (i : Initiator) (m : Fin 16) (v : W32) (g : Page),
    (MayWrite s i (mc m.val 0x44) g → ∃ t, exec (.mcInit i m v) s = .next t
      ∧ t = { s with mem := { s.mem with inited := insertOnce m.val s.mem.inited, training := insertOnce m.val s.mem.training } } ∧ m.val ∈ t.mem.training)
    ∧ (MayWrite s i (ipe m.val 0x40) g →
        (s.bit (ipe m.val 0x40) 0 = false → s.slotKey 0 ≠ 0 → s.trained m.val = true → (s.sealRegions m.val).all (regionOk (s.capacity m.val)) = true →
          regionsOverlap (s.sealRegions m.val) = false → exec (.ipeOn i m v) s = .next ((s.setBit (ipe m.val 0x40) 0 true).setBit (ipe m.val 0x44) 1 true))
        ∧ (s.slotKey 0 = 0 ∨ s.trained m.val = false →
            exec (.ipeOn i m v) s = .next ((s.setBit (ipe m.val 0x44) 3 true).raise (ipe m.val 0) 5))
        ∧ (s.bit (ipe m.val 0x40) 0 = true → s.slotKey 0 ≠ 0 → s.trained m.val = true → (s.sealRegions m.val).all (regionOk (s.capacity m.val)) = true →
            regionsOverlap (s.sealRegions m.val) = false → exec (.ipeOn i m v) s = .next s))
    ∧ (∀ r : Fin 64, (MayWrite s i (ipe m.val (0x200 + 8 * r.val)) g → Takes s (.keyRangeWrite i m r false v) (ipe m.val (0x200 + 8 * r.val)) 0x801FFFFF v)
        ∧ (MayWrite s i (ipe m.val (0x204 + 8 * r.val)) g → Takes s (.keyRangeWrite i m r true v) (ipe m.val (0x204 + 8 * r.val)) 0xFFDFFFFF v))
    ∧ (s.stalled = false →
        (∀ a b k, s.mcUp m.val = false → exec (.trainingDone m a b) s = .next s ∧ exec (.treeInitDone m) s = .next s ∧ exec (.mr4Read m k) s = .next s)
        ∧ (∀ a b, m.val ∉ s.mem.training → exec (.trainingDone m a b) s = .next s)
        ∧ (s.mcUp m.val = true → m.val ∈ s.mem.training → ∃ t, exec (.trainingDone m true true) s = .next t ∧ t.trained m.val = true ∧ m.val ∉ t.mem.training)
        ∧ (∀ a b, s.mcUp m.val = true → m.val ∈ s.mem.training → (a && b) = false → ∃ t, exec (.trainingDone m a b) s = .next t ∧ m.val ∉ t.mem.training
            ∧ t.bit (mc m.val 0x48) 1 = !a ∧ t.bit (mc m.val 0x48) 2 = !b ∧ t.bit (mc m.val 0x14) 2 = true ∧ t.mem.vtop = s.mem.vtop)
        ∧ (s.bit (ipe m.val 0x44) 1 = false → exec (.treeInitDone m) s = .next s)
        ∧ (s.mcUp m.val = true → s.bit (ipe m.val 0x44) 1 = true → ∃ t, exec (.treeInitDone m) s = .next t ∧ t.ipeActive m.val = true ∧ t.bit (ipe m.val 0x44) 1 = false
            ∧ (∀ c, c / 4194304 = m.val → SMap.get {} t.mem.ctrs c = {}) ∧ t.tree m.val = s.tree m.val + 1 ∧ t.mem.dram = s.mem.dram
            ∧ ((∀ j, j < 16 → s.trained j = true ∧ (j ≠ m.val → s.ipeActive j = true) ∧ s.reg (mc j 0x40) = s.reg (mc 0 0x40)) → s.bit (mc 0 0x48) 3 = false →
                t.mem.vtop = 14 * 2147483648 * 2 ^ s.fld (mc 0 0x40) 4 2))
        ∧ ((∀ r ∈ s.mem.reenc, r.mc ≠ m.val) → exec (.reencryptDone m) s = .next s)
        ∧ (∀ r, s.mem.reenc.find? (fun r => r.mc = m.val) = some r → ∃ t, exec (.reencryptDone m) s = .next t ∧ t.mem.reenc = s.mem.reenc.erase r
            ∧ OnlyRegs { s with mem := t.mem } t [ipe m.val 0x44] ∧ t.mem = { s.mem with reenc := t.mem.reenc }
            ∧ (t.bit (ipe m.val 0x44) 2 = true ↔ ∃ q ∈ t.mem.reenc, q.mc = m.val))
        ∧ (∀ k : Byte, s.mcUp m.val = true → s.reg (mc m.val 0x1C) = 0 → (k.toNat < 4 → exec (.mr4Read m k) s = .next (s.setFld (mc m.val 0x48) 4 3 k.toNat))
            ∧ (4 ≤ k.toNat → exec (.mr4Read m k) s = .next ((s.setFld (mc m.val 0x48) 4 3 4).raise (mc m.val 0) 4)))
        ∧ exec (.periodicCalibration m) s = .next s)

/-- Lines of DRAM, with no injection about.  DRAM_WRITE of a visible line of the controller, whose domain runs, performs the oldest write that it has accepted, with
that write's data, POISON and slot, or, with none accepted, one from outside the model (assumption log 77): with a key in the slot the array holds the line, with the slot, its key, POISON
and, in a sealed region, the tree in its tag; with an empty slot the line is zeros and poisoned (11 R305, R306, R308).  DRAM_READ of a line whose tag fits: the
line without poison in DATA to the request that waits; of one never written, whose slot is empty, that was altered or replayed, or lost on the link or in
the array: POISON, the error and the FAIL registers (11 R309).  Other lines are never touched; an invisible line is neither read nor written (11 R300); a line
that a re-encryption or a sweep holds waits (11 R315, R317). -/
def Obligations.DramLines : Prop :=
  ∀ (s : State) (m : Fin 16) (a : PAddr), s.stalled = false → s.err.flaws = [] → s.reg (ipe m.val 0x1C) = 0 → s.reg (mc m.val 0x1C) = 0 →
    let line := a.toNat / 64
    let sealed_ := (s.treeIndex m.val (64 * line)).isSome
    (∀ x d p, s.serves m.val line = false ∨ s.mcUp m.val = false ∨ s.lineFree m.val line = false →
      exec (.dramRead m a x) s = .next s ∧ exec (.dramWrite m a d p) s = .next s)
    ∧ (s.serves m.val line = true → s.mcUp m.val = true → s.lineFree m.val line = true →
      (∀ d0 p0 k d p,
        ((∀ r ∈ s.mem.queue, r.mc = m.val → r.pkt.addr.toNat / 64 = line → r.pkt.op ≠ 0x08 ∧ r.pkt.op ≠ 0x09)
            ∧ k = s.slotOf m.val (64 * line) ∧ d = d0 ∧ p = p0)
          ∨ (∃ q rest, s.mem.queue = ⟨m.val, q, k⟩ :: rest ∧ q.addr.toNat / 64 = line ∧ (q.op = 0x08 ∨ q.op = 0x09) ∧ d = q.line ∧ p = q.poison) →
        ∃ t, exec (.dramWrite m a d0 p0) s = .next t
          ∧ (s.slotKey k ≠ 0 → lineData t.mem.dram line = d
              ∧ SMap.get none t.mem.tags line = some { slot := k, key := s.slotKey k, poison := p, isSealed := sealed_, tree := s.tree m.val })
          ∧ (s.slotKey k = 0 → lineData t.mem.dram line = 0 ∧ t.bit (ipe m.val 0x14) 4 = true ∧ (SMap.get none t.mem.tags line).map LineTag.poison = some true)
          ∧ (∀ l, l ≠ line → lineData t.mem.dram l = lineData s.mem.dram l ∧ SMap.get none t.mem.tags l = SMap.get none s.mem.tags l)
          ∧ t.cores = s.cores ∧ t.otp = s.otp)
      ∧ (∀ q sl, s.mem.queue = [⟨m.val, q, sl⟩] → q.addr.toNat / 64 = line → q.op ≠ 0x08 → q.op ≠ 0x09 →
          let answers := fun (x : DramCheck) (bad : Bool) (t : State) => ∃ f, exec (.dramRead m a x) s = .next t ∧ t.net.flights = s.net.flights ++ [f]
            ∧ t.mem.queue = [] ∧ f.pkt.op = 0x20 ∧ f.pkt.dst = q.src ∧ f.pkt.dstp = q.srcp ∧ f.pkt.tag = q.tag ∧ f.pkt.line = lineData s.mem.dram line
            ∧ f.pkt.poison = bad ∧ t.mem.dram = s.mem.dram ∧ t.cores = s.cores
          let fails := fun (x : DramCheck) (kind bit : Nat) => ∃ t, answers x true t ∧ t.bit (ipe m.val 0x14) bit = true
            ∧ t.reg (ipe m.val 0x58) = BitVec.ofNat 32 (64 * line) ∧ t.fld (ipe m.val 0x5C) 16 8 = kind
          (∀ x : DramCheck, x.board = .none → x.link = .lost → ∃ t, answers x true t ∧ t.bit (mc m.val 0x14) 1 = true ∧ t.fld (ipe m.val 0x5C) 16 8 = 5)
          ∧ (SMap.get none s.mem.tags line = none → ∃ t, answers {} true t)
          ∧ ∀ tag, SMap.get none s.mem.tags line = some tag →
            let good := tag.poison = false ∧ s.slotKey tag.slot ≠ 0 ∧ s.slotKey tag.slot = tag.key ∧ tag.fails = none ∧ tag.isSealed = sealed_
              ∧ (sealed_ = true → tag.tree = s.tree m.val)
            (good → ∃ t, answers {} false t ∧ t.mem.tags = s.mem.tags)
            ∧ (good → ∃ t, answers { word := .corrected } false t ∧ t.bit (ipe m.val 0x14) 0 = true)
            ∧ fails { word := .lost } 1 1
            ∧ (tag.fails = some 1 → fails {} 1 1)
            ∧ (tag.fails ≠ some 1 → tag.poison = true → ∃ t, answers {} true t)
            ∧ (tag.fails ≠ some 1 → tag.poison = false → s.slotKey tag.slot = 0 → fails {} 4 4)
            ∧ (good → ∀ d i, s.treeIndex m.val (64 * line) = some i → fails { board := .replayed d } (if s.ctrCached m.val 0 (i / 64) then 2 else 3)
                (if s.ctrCached m.val 0 (i / 64) then 2 else 3))
            ∧ (∀ k : BitVec 10, s.slotKey k.toNat ≠ 0 → fails { board := .altered false k sealed_ } 2 2)))

/-- Sweeps of inline protection.  GO under its OP with ACTIVE, the range in the address space: it runs, and SW_POS is its next line; while one runs it is refused
(11 R317, R323).  ABORT marks it, and it stops at or after its position.  SWEEP_DONE goes on with it: it waits where its budget is used up (03 R59); at its end it is DONE, or
ABORTED where it is marked, and the source fires; a zeroing sweep that nothing holds leaves zeros in every visible line of the range that the controller
holds, and no sweep touches a line outside its range (11 R317; assumption log 14). -/
def Rules.ProtectionSweeps : Prop :=
  ∀ (s : State) (m : Fin 16),
    let lo := (s.reg (ipe m.val 0x60)).toNat + 4294967296 * s.fld (ipe m.val 0x64) 0 10
    let len := (s.reg (ipe m.val 0x68)).toNat + 4294967296 * s.fld (ipe m.val 0x6C) 0 10
    (∀ (i : Initiator) (v : W32) (g : Page), MayWrite s i (ipe m.val 0x74) g →
      (∀ op, op = 1 ∨ op = 2 → s.fld (ipe m.val 0x70) 0 2 = op →
        let x := if op = 1 then Instr.sweepRewrite i m v else .sweepZero i m v
        (s.sweep m.val = none → len ≠ 0 → lo + len ≤ 0x40000000000 → s.ipeActive m.val = true → ∃ t, exec x s = .next t
            ∧ t.sweep m.val = some
              { lo := lo, len := len, op := op, scope := false, part := BitVec.ofNat 6 (s.fld (ipe m.val 0x24) 0 6), abort := false, pos := lo / 64 }
            ∧ t.reg (ipe m.val 0x78) = 1 ∧ t.reg (ipe m.val 0x84) = 0
            ∧ (s.serves m.val (lo / 64) = true → t.reg (ipe m.val 0x7C) = BitVec.ofNat 32 (lo / 64 * 64))
            ∧ OnlyRegs { s with mem := t.mem } t [ipe m.val 0x78, ipe m.val 0x7C, ipe m.val 0x80, ipe m.val 0x84] ∧ t.mem = { s.mem with sw := t.mem.sw })
        ∧ ((s.sweep m.val).isSome = true → exec x s = .next (s.raise (ipe m.val 0) 6)))
      ∧ (∀ w, s.sweep m.val = some w → w.abort = false → ∃ p, w.pos ≤ p ∧ exec (.sweepAbort i m v) s
          = .next (({ s with fresh := s.fresh + 1 }).setSweep m.val (some { w with abort := true, stop := some p })))
      ∧ (∀ w, s.sweep m.val = some w → w.abort = true → exec (.sweepAbort i m v) s = .next s)
      ∧ (s.sweep m.val = none → exec (.sweepAbort i m v) s = .next s))
    ∧ (s.stalled = false → ∀ l : List (PAddr × DramCheck),
        (s.sweep m.val = none → exec (.sweepDone ⟨m, l⟩) s = .next s)
        ∧ (∀ w, s.sweep m.val = some w → w.lo / 64 ≤ w.pos → (∀ x, w.stop = some x → x ≤ w.endLine) →
            ∃ t, exec (.sweepDone ⟨m, l⟩) s = .next t ∧ t.cores = s.cores ∧ t.otp = s.otp
              ∧ (∀ j, j ∉ rangeLines w.lo w.len → lineData t.mem.dram j = lineData s.mem.dram j)
              ∧ (s.swNext m.val w w.pos = none → t.sweep m.val = none ∧ .source (0x180 + m.val) ∈ t.ev.fires
                  ∧ t.fld (ipe m.val 0x78) 0 4 = (if w.abort then 4 else 2) ∧ t.mem.dram = s.mem.dram)
              ∧ (∀ j, s.swNext m.val w w.pos = some j → s.exhausted (mcPage m.val 2 0) .bytes w.part.toNat = true →
                  t.sweep m.val = some { w with pos := j } ∧ t.mem.dram = s.mem.dram
                  ∧ (s.budget (mcPage m.val 2 0) .bytes w.part.toNat ≠ 0 → t.ev.fires = s.ev.fires))
              ∧ (w.op = 2 → w.abort = false → w.stop = none → w.got = none → s.isMetered (mcPage m.val 2 0) = false → s.sealRegions m.val = [] →
                  t.sweep m.val = none ∧ .source (0x180 + m.val) ∈ t.ev.fires ∧ t.fld (ipe m.val 0x78) 0 4 = 2
                  ∧ ∀ j ∈ rangeLines w.lo w.len, w.pos ≤ j → s.serves m.val j = true → lineData t.mem.dram j = 0)))
/-! ### Events, interrupts, heartbeat, freeze, engines' pages -/

/-- SOURCE_FIRE.  A source whose route is off is counted in NORTCNT and does nothing else; one routed to a core in Run with no group sets the pending bit; with its group's
interval running, a bit that was not pending is HELD; one for a core in Stop sets the bit in the image (12 R329, R336, R339; 17 R470).  SWFIRE_WRITE fires its source (12
R348).  MSI_MESSAGE: 4 bytes at offset 0 for a source with EN, from the requester that ERT_HI names, if it names one: fired and counted; otherwise refused with its
reason, counted and reported (12 R331, R332).  MODERATION_INTERVAL_END: the HELD flags of the group clear, and a new interval runs if one was set (12 R339). -/
def Rules.FiresAndMessages : Prop :=
  ∀ (s : State), s.stalled = false →
    (∀ j n, s.ev.fires[j]? = some (.source n) →
      let r := s.route n
      let c := s.core r.core
      let rest := { s with ev := { s.ev with fires := s.ev.fires.eraseIdx j } }
      let seen := if n < 0x2000 then rest.count (evc 0x48) else rest
      s.domUp 270 = true →
        (r.en = false → exec (.sourceFire j) s = .next (rest.count (evc 0x5C)))
        ∧ (r.en = true → r.core < 192 → s.domUp r.core = true → c.run = .ready →
            (r.grp = 0 → SMap.get none s.ev.groups 0 = none → exec (.sourceFire j) s
              = .next (seen.setCore r.core ((c.setEvBit evPend r.lvl r.bit true).clearHeld r.lvl r.bit)))
            ∧ (∀ x, SMap.get none s.ev.groups r.grp = some x → r.grp ≠ 0 → c.evBit evPend r.lvl r.bit = false →
                ∃ t, exec (.sourceFire j) s = .next t ∧ (t.core r.core).evBit evPend r.lvl r.bit = true
                  ∧ (1024 * r.lvl + r.bit, r.grp) ∈ (t.core r.core).held ∧ (∀ m, m ≠ r.core → t.core m = s.core m) ∧ t.mem = s.mem))
        ∧ (∀ img d, r.en = true → r.core < 192 → s.domUp r.core = false → SMap.get none s.power.images r.core = some img → img.core = some d →
            ∃ t img', exec (.sourceFire j) s = .next t ∧ SMap.get none t.power.images r.core = some img'
              ∧ img' = { img with core := some ((d.setEvBit evPend r.lvl r.bit true).clearHeld r.lvl r.bit) } ∧ t.cores = s.cores ∧ t.mem = s.mem))
    ∧ (∀ (i : Initiator) (j : Fin 4) (v : W32) (g : Page), MayWrite s i (pageBase 6 0x10 (2 + j.val) + 0x40) g →
        exec (.swfireWrite i j v) s = .next (s.fire (64 * j.val + fieldOf v 0 6)))
    ∧ (∀ m : MsiWrite, s.reg (evc 0x1C) = 0 →
        let n := 0x2000 + fieldOf m.data 0 12
        let hi := s.reg (ertHi n)
        let form := m.size = 4 ∧ m.off = 0 ∧ fieldOf m.data 12 20 = 0
        let mine := bitOf hi 31 = true → fieldOf hi 18 3 = m.port.val ∧ fieldOf hi 0 18 = m.req.toNat
        let refused := fun (k : Nat) => ∃ t, exec (.msiMessage m) s = .next t ∧ t.ev = s.ev ∧ t.reg (evc 0x50) = s.reg (evc 0x50) + 1
          ∧ t.fld (evc 0x54) 20 4 = k ∧ t.reg (evc 0x58) = BitVec.ofNat 32 m.req.toNat ∧ t.bit (evc 0x14) 0 = true
        (form → (s.route n).en = true → mine → exec (.msiMessage m) s = .next ((s.count (evc 0x4C)).fire n))
        ∧ (¬form → refused 3) ∧ (form → (s.route n).en = false → refused 1) ∧ (form → (s.route n).en = true → ¬mine → refused 2))
    ∧ (∀ g : BitVec 8,
        (SMap.get none s.ev.groups g.toNat = none → exec (.moderationIntervalEnd g) s = .next s)
        ∧ (∀ x, SMap.get none s.ev.groups g.toNat = some x → x.until_.toNat ≤ s.time → ∃ t, exec (.moderationIntervalEnd g) s = .next t
            ∧ (∀ n, n < 192 → ∀ h ∈ (t.core n).held, h.2 ≠ g.toNat) ∧ t.mem = s.mem
            ∧ (x.flagged = false → SMap.get none t.ev.groups g.toNat = none)
            ∧ (x.flagged = true → s.fld (modPage (0x400 + 4 * g.toNat)) 0 27 ≠ 0 → SMap.get none t.ev.groups g.toNat
                = some ⟨s.clock.time + BitVec.ofNat 64 (s.fld (modPage (0x400 + 4 * g.toNat)) 0 27), false⟩)))

/-- ERT_LO_WRITE of an entry that names a core or a stool, and no bit of level 3 below 4 of a core: the entry takes it; otherwise only PG_ERR (12 R328, R329).  DBELL_WRITE with LOCK
0 of an address that nothing else answers: the register takes it; of another: only PG_ERR; with LOCK 1 nothing (12 R331). -/
def Rules.EventTableWrites : Prop :=
  ∀ (s : State) (i : Initiator) (v : W32) (g : Page),
    (∀ e : BitVec 14, MayWrite s i (ertLo e.toNat) g →
      let c := fieldOf v 0 8
      let bad := bitOf v 31 = true ∧ (225 < c ∨ (c < 192 ∧ fieldOf v 9 2 = 3 ∧ fieldOf v 11 10 < 4))
      (¬bad → Takes s (.ertLoWrite i e v) (ertLo e.toNat) 0x9FFFFEFF v) ∧ (bad → exec (.ertLoWrite i e v) s = .next (s.raise g.base 0)))
    ∧ (∀ hi : Bool, MayWrite s i (evc (0x40 + 4 * b2n hi)) g →
        let m : W32 := if hi then 0x3FF else 0xFFFFF000
        let t := s.setReg (evc (0x40 + 4 * b2n hi)) ((s.reg (evc (0x40 + 4 * b2n hi)) &&& ~~~m) ||| (v &&& m))
        (s.bit (evc 0xC) 2 = true → exec (.dbellWrite i hi v) s = .next s)
        ∧ (s.bit (evc 0xC) 2 = false → doorbellOk t.doorbell = true → exec (.dbellWrite i hi v) s = .next t)
        ∧ (s.bit (evc 0xC) 2 = false → doorbellOk t.doorbell = false → exec (.dbellWrite i hi v) s = .next (s.raise (evc 0) 1)))

/-- INTERRUPT_ENTRY: at a boundary of a core that has entered nothing and has no issued access outstanding, the highest deliverable level is entered at its target: EPC, ESTAT, CAUSE, FAR, the hold, the vector of the level;
no general register, no other system register and no memory changes (04 R104; 12 R341, R343).  With none deliverable nothing happens. -/
def Obligations.InterruptEntry : Prop :=
  ∀ (s : State) (n : Fin 192), s.stalled = false → s.atBoundary n.val = true → (s.core n.val).issued = false → (s.core n.val).entered = none →
    s.reg (corePage n.val 0x1C) = 0 →
    let c := s.core n.val
    let ready := fun (k : Nat) => c.deliverable c.level.val none k = true
    (∀ k, k < 4 → ready k → (∀ j, k < j → j < 4 → ¬ready j) → c.target k ≠ 0 →
      let T := c.target k
      ∃ t, exec (.interruptEntry n) s = .next t ∧ EntryFrame s t n
        ∧ (let d := t.core n.val
           d.level.val = T ∧ d.sysReg (0x4000 * T) = c.pc ∧ fieldOf (d.sysReg (0x4000 * T + 1)) 0 2 = c.level.val
            ∧ fieldOf (d.sysReg (0x4000 * T + 1)) 16 16 = fieldOf (c.sysReg 0) 0 16 ∧ d.sysReg (0x4000 * T + 2) = BitVec.ofNat 64 (0x20 + k)
            ∧ d.sysReg (0x4000 * T + 3) = 0 ∧ bitOf (d.sysReg 0x8101) T = true ∧ bitOf (d.sysReg 0) 8 = false
            ∧ (∀ r, r ≠ 0 → r ≠ 0x8101 → r ≠ 0x4000 * T → r ≠ 0x4000 * T + 1 → r ≠ 0x4000 * T + 2 → r ≠ 0x4000 * T + 3 → d.sysReg r = c.sysReg r)
            ∧ d.pc = c.sysReg (0x4000 * T + 4) + BitVec.ofNat 64 (0x100 + 0x80 * k) ∧ d.g = c.g ∧ d.f = c.f ∧ d.sb = c.sb))
    ∧ ((∀ k, k < 4 → ¬ready k) → exec (.interruptEntry n) s = .next s)

/-- Heartbeat, freeze and capture.  HB_KICK: the kick timer restarts.  HB_RESUME with EN, no fatal error that stops it and no late kick: STOPPED clears.  HB_KICK_EXPIRY with KEN and no
kick in KIV milliseconds: STOPPED with cause 2.  HB_CTL_WRITE with LOCK 0: the register; EN 0 stops with cause 3; KEN with KIV 0 is refused (18 R498, R502).  FZ_CMD_FREEZE, and
FREEZE_N low with PINEN: frozen at this TIME, if FRZ is in DBG and no confidential entry is valid, and else counted and reported (18 R506, R507).  CAPSEL selects a
segment where the freeze grants it, and CAPRD gives its bits at TDO, its header first and circularly, and changes nothing else (18 R509, R510). -/
def Obligations.HeartbeatAndFreeze : Prop :=
  ∀ (s : State),
    let ready := s.dbg.testBit 2 = true ∧ s.confValid = false
    let frozen := fun (k : Nat) => .next { s with err := { s.err with frozen := some ⟨k, s.clock.time, s.dbg, s.fresh⟩ }, fresh := s.fresh + 1 }
    let refused := .next ((s.count (frz 0x4C)).raise (frz 0) 0)
    (∀ (i : Initiator) (v : W32) (g : Page),
      (MayWrite s i (chipAgg 0x108) g →
        (bitOf v 1 = false → exec (.hbKick i v) s = .next { s with err := { s.err with kickAt := s.clock.time, kickLate := false } })
        ∧ (bitOf v 0 = false → s.bit (chipAgg 0x100) 0 = true → s.bit (chipAgg 0x40) 2 = false ∨ s.bit (chipAgg 0x100) 2 = false →
            s.bit (chipAgg 0x100) 1 = false ∨ s.err.kickLate = false → exec (.hbResume i v) s = .next (s.setNat (chipAgg 0x104) 0))
        ∧ (bitOf v 0 = false → s.bit (chipAgg 0x100) 0 = false → exec (.hbResume i v) s = .next s))
      ∧ (MayWrite s i (chipAgg 0x100) g →
          (s.bit (chipAgg 0xC) 2 = true → exec (.hbCtlWrite i v) s = .next s)
          ∧ (bitOf v 1 = true → fieldOf v 8 8 = 0 → exec (.hbCtlWrite i v) s = .next s)
          ∧ (s.bit (chipAgg 0xC) 2 = false → bitOf v 1 = false → bitOf v 0 = true → exec (.hbCtlWrite i v) s = .next (s.setReg (chipAgg 0x100) (v &&& 0xFF07)))
          ∧ (s.bit (chipAgg 0xC) 2 = false → bitOf v 1 = false → bitOf v 0 = false → s.bit (chipAgg 0x104) 0 = false →
              exec (.hbCtlWrite i v) s = .next ((s.setReg (chipAgg 0x100) (v &&& 0xFF07)).setNat (chipAgg 0x104) 7)))
      ∧ (MayWrite s i (frz 0x40) g → (ready → exec (.fzCmdFreeze i v) s = frozen 2) ∧ (¬ready → exec (.fzCmdFreeze i v) s = refused)))
    ∧ (s.stalled = false →
        (s.bit (frz 0x44) 0 = false → exec .freezeNLow s = .next s)
        ∧ (s.bit (frz 0x44) 0 = true → (ready → exec .freezeNLow s = frozen 1) ∧ (¬ready → exec .freezeNLow s = refused))
        ∧ (s.bit (chipAgg 0x100) 1 = true → s.err.kickLate = false → s.err.kickAt.toNat + s.fld (chipAgg 0x100) 8 8 * 1000000 ≤ s.time →
            ∃ t, exec .hbKickExpiry s = .next t ∧ t.err = { s.err with kickLate := true } ∧ t.bit (chipAgg 0x104) 0 = true
              ∧ (s.bit (chipAgg 0x104) 0 = false → t.reg (chipAgg 0x104) = 5) ∧ ∀ a, a ≠ chipAgg 0x104 → t.reg a = s.reg a)
        ∧ (s.bit (chipAgg 0x100) 1 = false → exec .hbKickExpiry s = .next s))
    ∧ (∀ (v : W16) (k : Freeze), s.err.frozen = some k →
        (k.dbg.testBit 0 = true → k.dbg.testBit 2 = true → exec (.capsel v) s = .next { s with err := { s.err with seg := v } })
        ∧ (k.dbg.testBit 0 = false ∨ k.dbg.testBit 2 = false → exec (.capsel v) s = .next s))
    ∧ (s.err.frozen = none → ∀ b, exec (.caprd b) s = .next s)
    ∧ (∀ (b : Nat) (k : Freeze), s.err.frozen = some k →
        let g := s.err.seg.toNat
        let on := (g < 296 ∧ s.domUp g = true) ∨ (296 ≤ g ∧ g < 298)
        (k.dbg.testBit 0 = false ∨ k.dbg.testBit 2 = false → exec (.caprd b) s = .next s)
        ∧ (k.dbg.testBit 0 = true → k.dbg.testBit 2 = true → ∃ l len, exec (.caprd b) s = .next { s with err := { s.err with tdo := l } } ∧ l.length = b
            ∧ len < 4294967296 ∧ (¬on → len = 0)
            ∧ (∀ i, i < b → i < 16 → l.getD i false = s.err.seg.getLsbD i)
            ∧ (16 < b → (l.getD 16 false = true ↔ on))
            ∧ (k.src < 128 → ∀ i, i < b → 32 ≤ i → i < 64 → l.getD i false = Nat.testBit len (i - 32))
            ∧ (k.src < 128 → ∀ i, i < b → 64 ≤ i → i < 128 → l.getD i false = k.time.getLsbD (i - 64))
            ∧ ∀ i j, i < b → j < b → i % (128 + len) = j % (128 + len) → l.getD i false = l.getD j false))

/-- An engine's page, with no injected error about.  STL_RUN_START of a stopped engine: RUN, and the registers of a start with the PC of STL_PC0; of one that runs: nothing (16 R431, R456).
STL_RUN_STOP: RUN is 0, and an engine in IDLE leaves it (16 R456).  STL_WIN_ACCESS: a write stores the word, a read changes nothing (16 R455-R458). -/
def Rules.StlPageRows : Prop :=
  ∀ (s : State) (i : Initiator) (k : Fin 34) (v : W32) (g : Page), k.val < 32 →
    let c := s.stool k.val
    let run := stoolPage k.val 0x40
    (MayWrite s i run g →
      (s.bit run 0 = false → exec (.stlRunStart i k v) s = .next ((s.setBit run 0 true).setStool k.val
          { lreg := c.lreg, sram := c.sram, pc := BitVec.ofNat 24 (s.fld (stoolPage k.val 0x48) 0 24) }))
      ∧ (s.bit run 0 = true → exec (.stlRunStart i k v) s = .next (s.setBit run 0 true))
      ∧ (s.bit run 0 = false ∨ c.waiting = false → exec (.stlRunStop i k v) s = .next (s.setBit run 0 false))
      ∧ (s.bit run 0 = true → c.waiting = true → exec (.stlRunStop i k v) s
          = .next (((s.setBit run 0 false).setStool k.val { c with waiting := false }).count (stoolPage k.val 0x54))))
    ∧ (∀ w : Fin 512, s.err.flaws = [] → s.reg (stoolPage k.val 0x1C) = 0 →
        (MayWrite s i (stoolPage k.val (0x800 + 4 * w.val)) g → exec (.stlWinAccess i k w (some v)) s
          = .next (s.setStool k.val { c with
              sram := Memory.writeN c.sram (2048 * s.fld (stoolPage k.val 0x50) 0 7 + 4 * w.val) (leBytes 4 v.toNat) }))
        ∧ (MayRead s (stoolPage k.val (0x800 + 4 * w.val)) g → exec (.stlWinAccess i k w none) s = .next s))

/-! ### Virtual functions and transfer engines -/

/-- `b` is the lowest-numbered free run of `n` entries (13 R352). -/
def LowestFree (total : Nat) (runs : List (Nat × Nat)) (n b : Nat) : Prop :=
  runFree total runs b n = true ∧ ∀ c, c < b → runFree total runs c n = false

/-- The block as PF_COMMAND_DONE leaves it but for the event, with RESULT `k` for function `v`, on `u`, the block as the command's action left it. -/
def PfEnded (u : State) (k v : Nat) : State :=
  let t := (u.setNat (tePage 0 0x108) (2 * k + 256 * v)).setNat (tePage 0 0x10C) u.poolFree
  if k = 0 then t else t.teErr 0 0

/-- The physical function's commands.  A write of PF_CMD is taken with PF_ARG as it stands and BUSY becomes 1; while BUSY is 1 it has no effect but PF_REF.
PF_COMMAND_DONE ends the command, raises source 0x400 and leaves RESULT.  CREATE gives the lowest-numbered free runs and PARTID and COMPAT; DESTROY releases
them; RESET starts a reset, and no parked descriptor of the function is left; RESIZE of a function that shrinks keeps its bases.  A refused command changes nothing but
RESULT and PF_REF, and where more than one reason applies, RESULT is the lowest-numbered one (13 R352, R353, R366). -/
def Rules.PhysicalFunction : Prop :=
  (∀ x ∈ [(Instr.pfCreate, 1), (.pfDestroy, 2), (.pfReset, 3), (.pfResize, 4)], ∀ (s : State) (i : Initiator) (v : W32) (p : Page),
    MayWrite s i (tePage 0 0x100) p →
      (s.te.pf = none → exec (x.1 i v) s = .next (({ s with te := { s.te with pf := some (putField v 0 3 x.2, s.reg (tePage 0 0x104)) } }).setNat
          (tePage 0 0x108) (1 + 256 * fieldOf v 8 8)))
      ∧ (s.te.pf.isSome = true → exec (x.1 i v) s = .next ((s.raise (tePage 0 0) 0).fire 0x408)))
  ∧ (∀ (s : State), s.stalled = false → s.te.pf = none → exec .pfCommandDone s = .next s)
  ∧ (∀ (s : State) (c arg : W32), s.stalled = false → s.te.pf = some (c, arg) →
    let v := fieldOf c 8 8
    let op := fieldOf c 0 3
    let nq := fieldOf arg 0 7
    let nv := fieldOf arg 8 9
    let s' : State := { s with te := { s.te with pf := none } }
    let idle := s.vfActive v = false ∧ s.vfResetting v = false
    let refused := fun (k : Nat) => exec .pfCommandDone s = .next ((PfEnded s' k v).fire 0x400)
    let done := fun (u : State) => exec .pfCommandDone s = .next ((PfEnded u 0 v).fire 0x400)
    (op = 1 → s.vfExists v = true → refused 1)
    ∧ (op = 2 ∨ op = 3 ∨ op = 4 → s.vfExists v = false → refused 1)
    ∧ (op = 1 → s.vfExists v = false → ((∀ b, runFree 1024 s.qRuns b nq = false) ∨ (∀ b, runFree 4096 s.vRuns b nv = false)) → refused 2)
    ∧ (∀ qb vb, op = 1 → s.vfExists v = false → LowestFree 1024 s.qRuns nq qb → LowestFree 4096 s.vRuns nv vb →
        (nq = 0 ∨ 64 < nq ∨ 256 < nv → refused 5)
        ∧ (1 ≤ nq → nq ≤ 64 → nv ≤ 256 → ∃ u, done u ∧ u.te = s'.te ∧ u.vfExists v = true ∧ u.vfResetting v = false ∧ u.vfCompat v = bitOf arg 30
            ∧ (u.vfPart v).toNat = fieldOf arg 24 6 ∧ u.qbase v = qb ∧ u.nqp v = nq ∧ u.vbase v = vb ∧ u.nvec v = nv
            ∧ (∀ w, w < 256 → w ≠ v → u.reg (vfA w) = s.reg (vfA w) ∧ u.reg (vfB w) = s.reg (vfB w))
            ∧ ∀ a, a < 8 → u.apLen v a = 0))
    ∧ (op = 2 → s.vfExists v = true → (¬idle → refused 3)
        ∧ (idle → ∃ u, done u ∧ u.te = s'.te ∧ u.vfExists v = false ∧ (∀ q, q < 64 → u.qEn v q = false)
            ∧ ∀ w, w < 256 → w ≠ v → u.reg (vfA w) = s.reg (vfA w) ∧ u.reg (vfB w) = s.reg (vfB w)))
    ∧ (op = 3 → s.vfExists v = true → (s.vfResetting v = true → refused 3)
        ∧ (s.vfResetting v = false → ∃ u, done u ∧ u.vfResetting v = true ∧ OnlyRegs { s' with te := u.te } u [vfA v]
            ∧ ∀ e, e < 10 → u.teSlots e = s.teSlots e ∧ u.teParked e = (s.teParked e).filter (fun d => d.vf ≠ v)))
    ∧ (op = 4 → s.vfExists v = true → nq ≤ s.nqp v → nv ≤ s.nvec v →
        (¬idle → refused 3)
        ∧ (idle → s.vfCompat v = false → refused 4)
        ∧ (idle → s.vfCompat v = true → nq = 0 ∨ 64 < nq ∨ 256 < nv → refused 5)
        ∧ (idle → s.vfCompat v = true → 1 ≤ nq → nq ≤ 64 → nv ≤ 256 → ∃ u, done u ∧ u.te = s'.te ∧ u.vfExists v = true ∧ u.nqp v = nq ∧ u.nvec v = nv
            ∧ u.qbase v = s.qbase v ∧ u.vbase v = s.vbase v ∧ u.vfPart v = s.vfPart v
            ∧ ∀ q, q < nq → ∀ k, k < 8 → u.reg (qreg v q (4 * k)) = s.reg (qreg v q (4 * k)))))

/-- Queue registers and a function's reset.  A write of Q_CFG that sets EN zeroes the doorbell and both indices, sets the phase to 1 and clears HALT; one that clears
it leaves the rest of the queue to finish; one that the function or its queue does not take only sets QCFG_REF (13 R356).  A doorbell with both indices below
the ring's size is taken, and another only sets DB_BAD (13 R355).  VF_RST starts a reset once, and queues take no write while it runs; VF_RESET_DONE drops what is left of the function's descriptors, returns the queues to their reset values, clears
RSTBUSY and sets the function's bit in PF_RDONE (13 R366). -/
def Rules.QueueRegisters : Prop :=
  ∀ (s : State) (i : Initiator) (f : BitVec 8) (q : Fin 64) (v : W32) (p : Page),
    let n := f.toNat
    let a := qreg n q.val
    let taken := fun (x : W32) => s.queueOk n q.val = true ∧ fieldOf x 8 4 ≤ 9 ∧ fieldOf x 2 4 ≤ 12 ∧ (bitOf x 21 = true → fieldOf x 12 9 < s.nvec n)
    (MayWrite s i (a 0x10) p → s.vfResetting n = false →
      (let x := (v ||| 1) &&& 0x3FFF3F;
        (taken x → s.qEn n q.val = false → ∃ t, exec (.queueEnable i f q v) s = .next t ∧ OnlyRegs s t [a 0x10, a 0x14, a 0x18, a 0x1C]
          ∧ t.reg (a 0x10) = x ∧ t.reg (a 0x14) = 0 ∧ t.reg (a 0x18) = 0 ∧ t.bit (a 0x1C) 5 = true ∧ t.qHalt n q.val = false
          ∧ t.qBusy n q.val = s.qBusy n q.val)
        ∧ (¬taken x → exec (.queueEnable i f q v) s = .next (s.raise (vfPage n 0) 0)))
      ∧ (let x := v &&& ~~~1 &&& 0x3FFF3F;
        (taken x → s.qEn n q.val = true → ∃ t, exec (.queueDisable i f q v) s = .next t ∧ t.qEn n q.val = false
          ∧ t.bit (a 0x10) 1 = bitOf x 1 ∧ t.bit (a 0x10) 21 = bitOf x 21
          ∧ (∀ b ∈ [a 0, a 4, a 8, a 0xC, a 0x14, a 0x18], t.reg b = s.reg b)
          ∧ (∀ e, e ≠ 9 → t.teSlots e = s.teSlots e) ∧ t.mem = s.mem)
        ∧ (taken x → s.qEn n q.val = false → exec (.queueDisable i f q v) s = .next (s.setReg (a 0x10) x))
        ∧ (¬taken x → exec (.queueDisable i f q v) s = .next (s.raise (vfPage n 0) 0))))
    ∧ (MayWrite s i (a 0x14) p → s.vfResetting n = false →
        (s.queueOk n q.val = false → exec (.qDbWrite i f q v) s = .next (s.raise (vfPage n 0) 0))
        ∧ (s.queueOk n q.val = true → fieldOf v 0 16 < s.qSize n q.val → fieldOf v 16 16 < s.qSize n q.val →
            exec (.qDbWrite i f q v) s = .next (s.setReg (a 0x14) v))
        ∧ (s.queueOk n q.val = true → s.qSize n q.val ≤ fieldOf v 0 16 ∨ s.qSize n q.val ≤ fieldOf v 16 16 →
            exec (.qDbWrite i f q v) s = .next (s.raise (vfPage n 0) 1)))
    ∧ (MayWrite s i (vfPage n 0x44) p →
        (s.vfExists n = true → ∃ t, exec (.vfRstWrite i f v) s = .next t ∧ t.vfResetting n = true ∧ OnlyRegs { s with te := t.te } t [vfA n]
          ∧ (s.vfResetting n = false → ∀ e, e < 10 → t.teSlots e = s.teSlots e ∧ t.teParked e = (s.teParked e).filter (fun d => d.vf ≠ n)))
        ∧ (s.vfExists n = false → s.vfResetting n = false → exec (.vfRstWrite i f v) s = .next (s.raise (vfPage n 0) 0)))
    ∧ (MayWrite s i (a 0x10) p → s.vfResetting n = true →
        exec (.queueEnable i f q v) s = .next s ∧ exec (.queueDisable i f q v) s = .next s)
    ∧ (s.stalled = false → s.vfResetting n = false → exec (.vfResetDone f) s = .next s)
    ∧ (s.stalled = false → s.vfResetting n = true → ∃ t : State, exec (.vfResetDone f) s = .next (t.fire 0x401) ∧ t.vfResetting n = false
        ∧ t.bit (tePage 0 (0x120 + 4 * (n / 32))) (n % 32) = true ∧ (∀ r, r < 64 → ∀ k, k < 8 → t.reg (qreg n r (4 * k)) = 0)
        ∧ t.qbase n = s.qbase n ∧ t.nqp n = s.nqp n ∧ t.vfPart n = s.vfPart n ∧ t.vfCompat n = s.vfCompat n ∧ t.mem = s.mem
        ∧ (∀ e, e < 10 → t.teSlots e = (s.teSlots e).filter (fun d => d.vf ≠ n))
        ∧ (n ∉ s.te.soft → t.te = { s.te with slots := t.te.slots } ∧ ∀ k, k < 8 → ∀ o ∈ [0, 4, 8, 12, 16], t.reg (vfPage n (0x80 + 32 * k + o)) = s.reg (vfPage n (0x80 + 32 * k + o))))

/-- Descriptor `d`, of operation `op`, stands unfinished in slot `j` of engine `e`, which may issue its next piece. -/
structure MayPiece (s : State) (e : Fin 10) (j : Nat) (d : Desc) (op : Nat) : Prop where
  runs : s.stalled = false
  slot : (s.teSlots e.val)[j]? = some d
  isOp : d.op = op
  left : d.fin = none
  up : s.teUp e.val = true
  budget : s.teSpent e.val (s.vfPart d.vf) = false
  steady : s.vfResetting d.vf = false

/-- The operations of the engines, with the operation of the descriptor that each row takes further (13 R358). -/
def IsOperation (x : (Fin 10 → Nat → Instr) × Nat) : Prop := x ∈
  [(.copy, 0x01), (.fill, 0x02), (.aes, 0x10), (.hash, 0x18), (.ecdsaSign, 0x20), (.ecdsaVerify, 0x21), (.mlkemKeygen, 0x28), (.mlkemEncaps, 0x29),
   (.mlkemDecaps, 0x2A), (.txf, 0x40), (.rxb, 0x41)]

/-- The descriptor in slot `j` becomes `d'` on `t`. -/
def SlotBecomes (c : Instr) (s t : State) (e : Fin 10) (j : Nat) (d' : Desc) : Prop :=
  exec c s = .next (t.setSlots e.val (listSet (t.teSlots e.val) j d'))

/-- `c` writes the next piece of a gathered operation's output `out` on `u`, `input` bytes of input having been read: no more than the bytes to the next 4 KiB
boundary, after what `d` says is written; the descriptor is finished with the last piece (13 R358, R361). -/
def PutsOut (c : Instr) (s u : State) (e : Fin 10) (j : Nat) (d : Desc) (input : Nat) (out : List Byte) : Prop :=
  let b := d.dst + d.wrote
  let n := min (out.length - d.wrote) (4096 - b % 4096)
  let d' : Desc := { d with out := some out, wrote := d.wrote + n }
  (∀ k w, u.teWrite e.val d.vf b ((out.drop d.wrote).take n) = (.err k, w) → SlotBecomes c s w e j { d with fin := some (k, 0) })
  ∧ ∀ y z w, u.teWrite e.val d.vf b ((out.drop d.wrote).take n) = (.ok y z, w) → SlotBecomes c s w e j
      (if d.wrote + n < out.length then { d' with done := if input = 0 then d.wrote + n else d.done } else { d' with done := d.len, fin := some (0, 0) })

/-- The rows of the operations that gather input and then give an output, with their operations and bytes of input (13 R358). -/
def Gathering (d : Desc) (x : (Fin 10 → Nat → Instr) × Nat × Nat) : Prop := x ∈
  [(.hash, 0x18, d.len), (.ecdsaSign, 0x20, 48), (.ecdsaVerify, 0x21, 144), (.mlkemKeygen, 0x28, 0), (.mlkemEncaps, 0x29, d.len), (.mlkemDecaps, 0x2A, d.len)]

/-- The operations: what a piece reads, computes and writes, and where.  COPY reads a piece of at most 4 KiB that crosses no 4 KiB boundary of source or destination and writes
the same bytes; FILL writes AUX byte i mod 8 at byte i; ECDSA_VERIFY leaves RESULT 1 for a valid signature and 0 for another; the others read their
input in such pieces, and their key, and write what the named standard gives (13 R358, R360, R361; the standards' contents, assumption log 18).  A read that fails or is
poisoned ends the descriptor with the status, but a COPY carries the mark, runs to its end and then has status POISON (13 R364); an access that a
regulator holds waits (03 R59).  TXF hands the frame to the switch, a poisoned one too (18 R493), RXB posts a buffer (13 R369).  A row finds no descriptor of its
operation in the slot: nothing happens; with the partition's bytes spent, the descriptor is parked (13 R362). -/
def Obligations.EngineOperations : Prop :=
  (∀ x, IsOperation x → ∀ (s : State) (e : Fin 10) (j : Nat), s.stalled = false →
      ((s.teSlots e.val)[j]? = none → exec (x.1 e j) s = .next s)
      ∧ ∀ d, (s.teSlots e.val)[j]? = some d →
        (d.op ≠ x.2 ∨ d.fin.isSome = true ∨ s.teUp e.val = false → exec (x.1 e j) s = .next s)
        ∧ (d.op = x.2 → d.fin = none → s.teUp e.val = true → s.teSpent e.val (s.vfPart d.vf) = true → s.vfResetting d.vf = false →
            ∃ t, exec (x.1 e j) s = .next t ∧ t.teSlots e.val = (s.teSlots e.val).eraseIdx j ∧ t.teParked e.val = s.teParked e.val ++ [d]
              ∧ t.mem = s.mem ∧ t.coh = s.coh))
  ∧ (∀ (s : State) (e : Fin 10) (j : Nat) (d : Desc), MayPiece s e j d 0x01 → (d.src = d.dst ∨ d.src + d.len ≤ d.dst ∨ d.dst + d.len ≤ d.src) →
      let a := d.src + d.done
      let b := d.dst + d.done
      let n := min (d.len - d.done) (min (4096 - a % 4096) (4096 - b % 4096))
      (∀ h u, s.teRead e.val d.vf a n = (.held h, u) → exec (.copy e j) s = .next (s.holdFor h))
      ∧ (∀ k u, s.teRead e.val d.vf a n = (.err k, u) → SlotBecomes (.copy e j) s u e j { d with fin := some (k, 0) })
      ∧ ∀ x bad u, s.teRead e.val d.vf a n = (.ok x bad, u) →
        (∀ k w, u.teWrite e.val d.vf b x bad = (.err k, w) → SlotBecomes (.copy e j) s w e j { d with fin := some (k, 0) })
        ∧ ∀ w y z, u.teWrite e.val d.vf b x bad = (.ok y z, w) → SlotBecomes (.copy e j) s w e j
            { d with done := d.done + n, psn := d.psn || bad, fin := if d.len ≤ d.done + n then some (if d.psn || bad then 6 else 0, 0) else none })
  ∧ (∀ (s : State) (e : Fin 10) (j : Nat) (d : Desc), MayPiece s e j d 0x02 →
      let b := d.dst + d.done
      let n := min (d.len - d.done) (4096 - b % 4096)
      ∃ x : List Byte, x.length = n ∧ (∀ k, k < n → x.getD k 0 = BitVec.ofNat 8 (d.aux / 256 ^ ((d.done + k) % 8)))
        ∧ (∀ h w, s.teWrite e.val d.vf b x = (.held h, w) → exec (.fill e j) s = .next (s.holdFor h))
        ∧ (∀ k w, s.teWrite e.val d.vf b x = (.err k, w) → SlotBecomes (.fill e j) s w e j { d with fin := some (k, 0) })
        ∧ ∀ w y z, s.teWrite e.val d.vf b x = (.ok y z, w) → SlotBecomes (.fill e j) s w e j
            { d with done := d.done + n, fin := if d.len ≤ d.done + n then some (0, 0) else none })
  ∧ (∀ (s : State) (e : Fin 10) (j : Nat) (d : Desc) x, Gathering d x → MayPiece s e j d x.2.1 →
      (d.out = none → d.done < x.2.2 →
        let a := d.src + d.done
        let n := min (x.2.2 - d.done) (4096 - a % 4096)
        (∀ h u, s.teRead e.val d.vf a n = (.held h, u) → exec (x.1 e j) s = .next (s.holdFor h))
        ∧ (∀ k u, s.teRead e.val d.vf a n = (.err k, u) → SlotBecomes (x.1 e j) s u e j { d with fin := some (k, 0) })
        ∧ (∀ b u, s.teRead e.val d.vf a n = (.ok b true, u) → SlotBecomes (x.1 e j) s u e j { d with fin := some (6, 0) })
        ∧ ∀ b u, s.teRead e.val d.vf a n = (.ok b false, u) → SlotBecomes (x.1 e j) s u e j { d with acc := d.acc ++ b, done := d.done + n })
      ∧ ∀ o, d.out = some o → PutsOut (x.1 e j) s s e j d x.2.2 o)
  ∧ (∀ (s : State) (e : Fin 10) (j : Nat) (d : Desc) x, (x = (Instr.ecdsaSign e j, 0x20) ∨ x = (Instr.mlkemDecaps e j, 0x2A) ∨ x = (Instr.aes e j, 0x10)) → MayPiece s e j d x.2 →
      d.key = none → d.out = none → d.len ≤ d.done ∨ x.2 = 0x10 → (x.2 = 0x20 → 48 ≤ d.done) → refIsHandle d.keyRef = false →
        (∀ k u, s.teRead e.val d.vf d.keyRef d.keyLen = (.err k, u) → SlotBecomes x.1 s u e j { d with fin := some (k, 0) })
        ∧ ∀ b u, s.teRead e.val d.vf d.keyRef d.keyLen = (.ok b false, u) → SlotBecomes x.1 s u e j { d with key := some b })
  ∧ (∀ (s : State) (e : Fin 10) (j : Nat) (d : Desc), MayPiece s e j d 0x18 → d.out = none → d.len ≤ d.done →
      PutsOut (.hash e j) s s e j d d.len (digest d.aux d.acc))
  ∧ (∀ (s : State) (e : Fin 10) (j : Nat) (d : Desc) key, MayPiece s e j d 0x10 → d.key = some key → aesMode d.par = 1 ∨ aesMode d.par = 2 →
      let aad := aesAad d.par
      let a := d.src + d.done
      let p := d.done - aad
      let n := min (d.len - d.done) (min (4096 - a % 4096) (4096 - (d.dst + p) % 4096))
      let ks := aesKeys key
      let tag := gcmTag ks (sliceAt d.par 16 12) (d.acc.take aad)
      (aad ≤ d.done → d.done < d.len → ∀ x u, s.teRead e.val d.vf a n = (.ok x false, u) →
        let pay := (d.acc ++ x).drop aad
        let out := if aesMode d.par = 1 then ctrCrypt 16 ks (sliceAt d.par 16 16) pay else gcmCrypt ks (sliceAt d.par 16 12) pay
        ∀ y z w, u.teWrite e.val d.vf (d.dst + p) ((out.take (p + n)).drop p) = (.ok y z, w) →
          let next : Desc := { d with acc := d.acc ++ x, done := d.done + n }
          (next.done < d.len ∨ aesMode d.par = 1 ∨ aesDec d.par = false → SlotBecomes (.aes e j) s w e j next)
          ∧ (d.len ≤ next.done → aesMode d.par = 2 → aesDec d.par = true → SlotBecomes (.aes e j) s w e j
              { next with done := d.len, fin := some (if gcmTag ks (sliceAt d.par 16 12) ((d.acc ++ x).take aad) pay = sliceAt d.par 32 16 then 0 else 8, 0) }))
      ∧ (d.len ≤ d.done → aesMode d.par = 1 ∨ aesDec d.par = false →
          ∀ y z w, s.teWrite e.val d.vf (d.aux + (if aesMode d.par = 1 then 16 else 32))
              (if aesMode d.par = 1 then ctrBlock 16 (sliceAt d.par 16 16) (((d.acc.drop aad).length + 15) / 16)
                else tag (gcmCrypt ks (sliceAt d.par 16 12) (d.acc.drop aad))) = (.ok y z, w) →
            SlotBecomes (.aes e j) s w e j { d with done := d.len, fin := some (0, 0) }))
  ∧ (∀ (s : State) (e : Fin 10) (j : Nat) (d : Desc) key, MayPiece s e j d 0x20 → d.out = none → 48 ≤ d.done → d.key = some key →
      0 < beNat key → beNat key < p384N → PutsOut (.ecdsaSign e j) s (s.random 112).2 e j d 48 (ecSign (beNat key) d.acc (s.random 112).1))
  ∧ (∀ (s : State) (e : Fin 10) (j : Nat) (d : Desc), MayPiece s e j d 0x21 → d.out = none → 144 ≤ d.done →
      ∀ pub u, s.teRead e.val d.vf d.aux 96 = (.ok pub false, u) → SlotBecomes (.ecdsaVerify e j) s u e j
        { d with done := d.len, fin := some (0, if ecVerify pub (d.acc.take 48) (d.acc.drop 48) then 1 else 0) })
  ∧ (∀ (s : State) (e : Fin 10) (j : Nat) (d : Desc), MayPiece s e j d 0x28 → d.out = none →
      let k := kemKeys (kemSet d.set) ((s.random 64).1.take 32) ((s.random 64).1.drop 32)
      PutsOut (.mlkemKeygen e j) s (s.random 64).2 e j d 0 (k.1 ++ k.2))
  ∧ (∀ (s : State) (e : Fin 10) (j : Nat) (d : Desc), MayPiece s e j d 0x29 → d.out = none → d.len ≤ d.done → kemKeyOk (kemSet d.set) d.acc = true →
      PutsOut (.mlkemEncaps e j) s (s.random 32).2 e j d d.len (kemEncaps (kemSet d.set) d.acc (s.random 32).1))
  ∧ (∀ (s : State) (e : Fin 10) (j : Nat) (d : Desc) dk, MayPiece s e j d 0x2A → d.out = none → d.len ≤ d.done → d.key = some dk → kemDkOk (kemSet d.set) dk = true →
      PutsOut (.mlkemDecaps e j) s s e j d d.len (kemDecaps (kemSet d.set) dk d.acc))
  ∧ (∀ (s : State) (e : Fin 10) (j : Nat) (d : Desc), MayPiece s e j d 0x40 →
      (∀ h u, s.teRead e.val d.vf d.src d.len = (.held h, u) → exec (.txf e j) s = .next (s.holdFor h))
      ∧ (∀ k u, s.teRead e.val d.vf d.src d.len = (.err k, u) → SlotBecomes (.txf e j) s u e j { d with fin := some (k, 0) })
      ∧ ∀ x bad u, s.teRead e.val d.vf d.src d.len = (.ok x bad, u) →
          SlotBecomes (.txf e j) s (u.forward 8 (d.aux % 8) x bad) e j { d with done := d.len, fin := some (if bad then 6 else 0, 0) })
  ∧ (∀ (s : State) (e : Fin 10) (j : Nat) (d : Desc), MayPiece s e j d 0x41 →
      (d.par = [] → SlotBecomes (.rxb e j) s s e j { d with posted := true })
      ∧ ∀ q r, d.par = q :: r → ∀ y z u, s.teWrite 9 d.vf d.dst (d.acc.take (min d.acc.length d.len)) = (.ok y z, u) →
          SlotBecomes (.rxb e j) s u e j
            { d with done := min d.acc.length d.len, fin := some (if d.len < d.acc.length then 0x0A else 0, BitVec.ofNat 32 (d.acc.length % 65536 + 65536 * q.toNat)) })

/-- Starting and completing descriptors.  DESCRIPTOR_START takes the next descriptor of a ready queue at its head: the head goes on by one, BUSY is 1, and the descriptor
stands in a slot; without a ready queue, or with four slots taken, nothing happens (13 R361).  A descriptor that cannot be read halts its queue (13 R365).
DESCRIPTOR_COMPLETE writes the 16-byte entry at the CQ's producer index, which goes on by one, inverts the phase when it wraps, and frees the slot; with the CQ
full the queue waits (13 R355, R363), and with its partition's bytes spent a descriptor is parked first (13 R362). -/
def Obligations.DescriptorLife : Prop :=
  (∀ (s : State) (e : Fin 10), s.stalled = false →
    (s.teUp e.val = false ∨ (e.val < 8 ∧ 4 ≤ (s.teSlots e.val).length) → exec (.descriptorStart e) s = .next s)
    ∧ (s.teParked e.val = [] → (∀ x ∈ s.queues, s.queueReady e.val x.2.1 x.2.2 = false) → exec (.descriptorStart e) s = .next s)
    ∧ (∀ g v q b u, s.teUp e.val = true → s.teOn e.val = true → (e.val < 8 → (s.teSlots e.val).length < 4) → s.teParked e.val = [] → (g, v, q) ∈ s.queues →
        (∀ x ∈ s.queues, s.queueReady e.val x.2.1 x.2.2 = true ↔ x = (g, v, q)) →
        let h := s.qHead v q
        s.teRead e.val v (s.sqBase v q + 32 * h) 32 = (.ok b false, u) →
        let d : Desc := { vf := v, q := q, idx := h, bytes := b }
        (d.op = 1 ∨ d.op = 2 ∨ d.op = 0x18 → d.len ≠ 0 → opAccepted e.val d.op = true → d.fieldsOk = true →
          ∃ t, exec (.descriptorStart e) s = .next t ∧ t.qHead v q = (h + 1) % s.qSize v q % 65536
            ∧ t.qBusy v q = true ∧ t.cqProd v q = u.cqProd v q ∧ t.mem = u.mem
            ∧ (u.teSpent e.val (u.vfPart v) = false → t.teSlots e.val = u.teSlots e.val ++ [{ d with checked := true }])
            ∧ (u.teSpent e.val (u.vfPart v) = true → t.teSlots e.val = u.teSlots e.val ∧ t.teParked e.val = u.teParked e.val ++ [d]))
        ∧ (d.len ≠ 0 → opAccepted e.val d.op = false → u.teSpent e.val (u.vfPart v) = false → ∃ t, exec (.descriptorStart e) s = .next t
            ∧ t.teSlots e.val = u.teSlots e.val ++ [{ d with checked := true, fin := some (1, 0) }]))
    ∧ (∀ g v q r u, s.teUp e.val = true → s.teOn e.val = true → (e.val < 8 → (s.teSlots e.val).length < 4) → s.teParked e.val = [] → (g, v, q) ∈ s.queues →
        (∀ x ∈ s.queues, s.queueReady e.val x.2.1 x.2.2 = true ↔ x = (g, v, q)) →
        s.teRead e.val v (s.sqBase v q + 32 * s.qHead v q) 32 = (.held r, u) → exec (.descriptorStart e) s = .next (s.holdFor r))
    ∧ (∀ g v q k u, s.teUp e.val = true → s.teOn e.val = true → (e.val < 8 → (s.teSlots e.val).length < 4) → s.teParked e.val = [] → (g, v, q) ∈ s.queues →
        (∀ x ∈ s.queues, s.queueReady e.val x.2.1 x.2.2 = true ↔ x = (g, v, q)) →
        s.teRead e.val v (s.sqBase v q + 32 * s.qHead v q) 32 = (.err k, u) →
          ∃ t, exec (.descriptorStart e) s = .next t ∧ t.qHalt v q = true ∧ t.fld (qreg v q 0x1C) 2 3 = (if k = 5 then 3 else if k = 6 then 4 else 1)
            ∧ t.teSlots e.val = u.teSlots e.val))
  ∧ (∀ (s : State) (e : Fin 10) (j : Nat), s.stalled = false →
    ((s.teSlots e.val)[j]? = none → exec (.descriptorComplete e j) s = .next s)
    ∧ ∀ d, (s.teSlots e.val)[j]? = some d →
      (d.fin = none ∨ s.vfResetting d.vf = true
          ∨ (s.teSpent e.val (s.vfPart d.vf) = false ∧ (s.cqProd d.vf d.q + 1) % s.qSize d.vf d.q = s.cqHead d.vf d.q) →
        exec (.descriptorComplete e j) s = .next s)
      ∧ (d.fin.isSome = true → s.teUp e.val = true → s.vfResetting d.vf = false → s.teSpent e.val (s.vfPart d.vf) = true →
          ∃ t, exec (.descriptorComplete e j) s = .next t ∧ t.teSlots e.val = (s.teSlots e.val).eraseIdx j ∧ t.teParked e.val = s.teParked e.val ++ [d]
            ∧ t.mem = s.mem ∧ ∀ v q, t.cqProd v q = s.cqProd v q)
      ∧ ∀ st res x y z, d.fin = some (st, res) → s.teUp e.val = true → s.vfResetting d.vf = false → s.teSpent e.val (s.vfPart d.vf) = false →
          (s.cqProd d.vf d.q + 1) % s.qSize d.vf d.q ≠ s.cqHead d.vf d.q → (∀ k b, k < j → (s.teSlots e.val)[k]? = some b → b.vf ≠ d.vf ∨ b.q ≠ d.q) →
          let ph := s.bit (qreg d.vf d.q 0x1C) 5
          s.teWrite e.val d.vf (s.cqBase d.vf d.q + 16 * s.cqProd d.vf d.q)
              (leBytes 2 d.idx ++ leBytes 2 d.tag ++ [BitVec.ofNat 8 st, BitVec.ofNat 8 (b2n ph), 0, 0] ++ leBytes 4 d.done ++ leBytes 4 res.toNat) = (.ok y z, x) →
            (∃ t, exec (.descriptorComplete e j) s = .next t ∧ t.teSlots e.val = (x.teSlots e.val).eraseIdx j)
            ∧ (st = 0 → d.flags % 2 = 0 → ∃ t, exec (.descriptorComplete e j) s = .next t
                ∧ t.cqProd d.vf d.q = (x.cqProd d.vf d.q + 1) % x.qSize d.vf d.q % 65536 ∧ t.qHead d.vf d.q = x.qHead d.vf d.q
                ∧ t.bit (qreg d.vf d.q 0x1C) 5 = (x.bit (qreg d.vf d.q 0x1C) 5 != decide ((x.cqProd d.vf d.q + 1) % x.qSize d.vf d.q = 0))
                ∧ t.qHalt d.vf d.q = x.qHalt d.vf d.q ∧ t.mem = x.mem))

/-! ### The Ethernet switch -/

/-- Time, timestamps and gates of the switch.  A write of GDk_OFS_HI, where it is no step of the tick source, applies the whole offset of its domain and nothing else (14 R375).  A read of TS_LO takes the oldest
timestamp, which TS_HI and TS_INFO then return (14 R376).  CHANGE makes the administrative list pending; at its moment, the tick that starts the frame
QBV_FN or the base time, a later cycle's start where that has passed (log 26), it becomes the operational one and QBV_PEND clears, with source 0x510 + p; the end of an entry puts the next one in force, or
the first one at the end of the list or of the cycle (14 R377). -/
def Rules.TimestampsAndGates : Prop :=
  ∀ (s : State) (i : Initiator) (p : Fin 8) (v : W32) (g : Page),
    let a := fun (o : Nat) => tsp p.val o
    let only := fun (t : State) => t = { s with port := t.port, regs := t.regs }
    (∀ k : Fin 2, MayWrite s i (tsw (0x48 + 8 * k.val)) g →
      s.fld (tsp s.srcPort 0x48) 0 1 ≠ k.val ∨ s.kind ≠ 2
        ∨ s.gptpMove (SMap.get 0 s.port.gd k.val) (v ++ s.reg (tsw (0x44 + 8 * k.val)) : BitVec 64) = .ran → ∃ t, exec (.gdOffsetWrite i k v) s = .next t ∧ only t
      ∧ SMap.get 0 t.port.gd k.val = (v ++ s.reg (tsw (0x44 + 8 * k.val)) : BitVec 64)
      ∧ (∀ j, j ≠ k.val → SMap.get 0 t.port.gd j = SMap.get 0 s.port.gd j) ∧ t.reg (tsw (0x48 + 8 * k.val)) = v)
    ∧ (MayRead s (a 0x70) g →
        (SMap.get [] s.port.stamps p.val = [] → ∃ t, exec (.tsLoRead i p) s = .next t ∧ t = { s with port := t.port } ∧ t.tsInfo p.val = 0 ∧ t.tsHi p.val = 0)
        ∧ ∀ x rest, SMap.get [] s.port.stamps p.val = x :: rest → ∃ t, exec (.tsLoRead i p) s = .next t ∧ t = { s with port := t.port }
            ∧ SMap.get [] t.port.stamps p.val = rest ∧ t.tsHi p.val = BitVec.ofNat 32 (x.time.toNat / 4294967296)
            ∧ bitOf (t.tsInfo p.val) 0 = true ∧ bitOf (t.tsInfo p.val) 1 = x.sent ∧ fieldOf (t.tsInfo p.val) 16 16 = x.seq.toNat)
    ∧ (MayWrite s i (a 0x68) g → ∃ t x, exec (.qbvChange i p v) s = .next t ∧ only t ∧ t.bit (a 0x44) 2 = true ∧ t.gateList p.val = s.gateList p.val
        ∧ SMap.get none t.port.gatePend p.val = some x ∧ x.ct = s.fld (a 0x54) 0 27 ∧ x.entries.length = s.fld (a 0x58) 0 9
        ∧ x.frame = (if s.bit (a 0x4C) 1 then some (s.reg (a 0x64)) else none) ∧ x.begun = false
        ∧ ((s.gptp p.val).toNat ≤ s.reg64 (a 0x5C) → x.cct = s.reg64 (a 0x5C)))
    ∧ (s.stalled = false →
        (SMap.get none s.port.gatePend p.val = none → exec (.gateListSwitch p) s = .next s)
        ∧ (∀ x f, SMap.get none s.port.gatePend p.val = some x → x.frame = some f → x.begun = false → exec (.gateListSwitch p) s = .next s)
        ∧ (∀ x, SMap.get none s.port.gatePend p.val = some x → s.swUp = true →
            (x.frame.isSome = true ∧ x.begun = true) ∨ (x.frame = none ∧ x.cct ≤ (s.gptp p.val).toNat) → x.ct < 2 ^ 32 →
            ∃ t, exec (.gateListSwitch p) s = .next t ∧ t.gateList p.val = some ⟨x.ct, x.entries, 0, 0⟩ ∧ SMap.get none t.port.gatePend p.val = none
              ∧ t.bit (a 0x44) 2 = false ∧ (t.reg (a 0x50)).toNat = x.ct ∧ t.mem = s.mem)
        ∧ (∀ l, s.gateList p.val = some l → s.swUp = true → ∃ t, exec (.gateEntryEnd p) s = .next t ∧ t.mem = s.mem
            ∧ let spent := l.spent + (l.entries.getD l.idx (0, 0)).2
              t.gateList p.val = some (if l.idx + 1 < l.entries.length ∧ spent < l.ct then { l with idx := l.idx + 1, spent := spent } else { l with idx := 0, spent := 0 })))

/-- The table window.  A command starts while none is in progress, with the table, the index and, for a WRITE, the 16 data words as they stand; TABLE_OP_DONE
performs it: a WRITE puts the words into the entry, a READ gives its words, but 0 for the words of a SAK or an XPN salt, and an index beyond the table
sets BADIDX and changes nothing (14 R380). -/
def Rules.TableWindow : Prop :=
  (∀ (s : State) (i : Initiator) (v : W32) (g : Page), MayWrite s i (tsw 0x68) g →
    (s.port.tblOp.isSome = true → exec (.tblRead i v) s = .next s ∧ exec (.tblWrite i v) s = .next s)
    ∧ (s.port.tblOp = none →
        exec (.tblRead i v) s
          = .next (({ s with port := { s.port with tblOp := some ⟨s.fld (tsw 0x60) 0 8, s.fld (tsw 0x64) 0 24, none⟩ } }).setNat (tsw 0x6C) 1)
        ∧ exec (.tblWrite i v) s
          = .next (({ s with port := { s.port with tblOp := some ⟨s.fld (tsw 0x60) 0 8, s.fld (tsw 0x64) 0 24,
              some ((List.range 16).map (fun n => s.reg (tsw (0x80 + 4 * n))))⟩ } }).setNat (tsw 0x6C) 1)))
  ∧ (∀ (s : State), s.stalled = false → s.port.tblOp = none → exec .tableOpDone s = .next s)
  ∧ (∀ (s : State) (x : TblOp), s.stalled = false → s.port.tblOp = some x →
    let key := x.table * 16777216 + x.idx
    (tableSize x.table ≤ x.idx → exec .tableOpDone s = .next (({ s with port := { s.port with tblOp := none } }).setNat (tsw 0x6C) 2))
    ∧ (∀ d, x.idx < tableSize x.table → x.data = some d → ∃ t, exec .tableOpDone s = .next t ∧ t.port.tblOp = none ∧ t.reg (tsw 0x6C) = 0
        ∧ (∀ n, (SMap.get [] t.port.tables key).getD n 0 = d.getD n 0)
        ∧ (∀ k, k ≠ key → SMap.get [] t.port.tables k = SMap.get [] s.port.tables k) ∧ OnlyRegs { s with port := t.port } t [tsw 0x6C])
    ∧ (x.idx < tableSize x.table → x.data = none → ∃ t, exec .tableOpDone s = .next t ∧ t.port = { s.port with tblOp := none } ∧ t.reg (tsw 0x6C) = 0
        ∧ ∀ n, n < 16 → t.reg (tsw (0x80 + 4 * n))
            = (if 17 ≤ x.table ∧ x.table ≤ 24 ∧ 6 ≤ n then 0 else (SMap.get [] s.port.tables key).getD n 0)))

/-- Links and received frames.  A link that goes down clears SYNC, drops the frames that wait at the port and sets LINKDN; a change of the link fires source 0x500 + p
(14 R375, R404); with preemption enabled whether it is verified is free (assumption log 1).  A frame whose check sequence fails, or that finds its link down, changes nothing; another is counted, with the timestamp of an
802.1AS frame, one longer than 9,216 bytes is dropped and counted, and one at a port without a security association enters forwarding (14 R373, R376,
R381; the forwarding decision is free, assumption log 26). -/
def Rules.LinksAndFrames : Prop :=
  ∀ (s : State) (p : Fin 8), s.stalled = false →
    let a := fun (o : Nat) => tsp p.val o
    (∀ up, s.swUp = false ∨ s.bit (a 0x44) 0 = up → exec (.ethLinkChange p up) s = .next s)
    ∧ (s.swUp = true → s.bit (a 0x44) 0 = false → s.fld (a 0x40) 0 3 ≠ 0 →
        (s.bit (a 0x40) 16 = false → exec (.ethLinkChange p true) s = .next ((s.setBit (a 0x44) 0 true).fire (0x500 + p.val)))
        ∧ (s.bit (a 0x40) 16 = true → ∃ x, exec (.ethLinkChange p true) s
            = .next (((({ s with fresh := s.fresh + 1 }).setBit (a 0x44) 0 true).setBit (a 0x44) 1 x).fire (0x500 + p.val))))
    ∧ (s.swUp = true → s.bit (a 0x44) 0 = true → ∃ u, exec (.ethLinkChange p false) s = .next ((State.raise u (a 0) 0).fire (0x500 + p.val))
        ∧ u = { s with regs := u.regs, port := { s.port with egress := u.port.egress } } ∧ u.bit (a 0x44) 0 = false ∧ u.bit (a 0x48) 1 = false
        ∧ u.egress p.val = [] ∧ ∀ b, b ≠ a 0x44 → b ≠ a 0x48 → u.reg b = s.reg b)
    ∧ (∀ x : EthFrame, x.fcsOk = false ∨ s.bit (a 0x44) 0 = false → exec (.ethFrameReceive p x) s = .next s)
    ∧ (∀ x : EthFrame, x.fcsOk = true → s.swUp = true → s.bit (a 0x44) 0 = true → s.enabled (tsw 0) = true → s.enabled (a 0) = true → s.reg (a 0x1C) = 0 →
        let u := (s.count (a 0x80)).timestamp p.val false x.bytes
        (x.bytes.length ≤ 9216 → s.hasSa p.val = false → ∃ cls, cls < 8 ∧
          exec (.ethFrameReceive p x) s = .next (({ u with fresh := u.fresh + 2 }).forward p.val cls x.bytes))
        ∧ (9216 < x.bytes.length → exec (.ethFrameReceive p x) s = .next (({ u with fresh := u.fresh + 2 }).count (a 0x88)))
        ∧ (be16 x.bytes 12 ≠ 0x88F7 → u = s.setReg (a 0x80) (s.reg (a 0x80) + 1))
        ∧ (be16 x.bytes 12 = 0x88F7 → (SMap.get [] s.port.stamps p.val).length < 16 →
            ∃ st : Stamp, SMap.get [] u.port.stamps p.val = SMap.get [] s.port.stamps p.val ++ [st] ∧ st.time = s.clock.time ∧ st.sent = false)
        ∧ (be16 x.bytes 12 = 0x88F7 → 16 ≤ (SMap.get [] s.port.stamps p.val).length →
            u.reg (a 0x7C) = s.reg (a 0x7C) + 1 ∧ SMap.get [] u.port.stamps p.val = SMap.get [] s.port.stamps p.val))

/-! ### PCIe, Parraha, boot and low-speed I/O -/

/-- PCIe ports.  The first LINK_EN samples BIF, and the ports without lanes are absent (14 R382).  A link comes up only where it is enabled, out of PERST and present, at
a rate and a width within the limits, with source 0x600 + 16i; the rate and the width are free (14 R383, R404; assumption log 1).  An inbound request
that the lowest-numbered window that holds it allows reads or writes visible DRAM with the window's PARTID, and a read gets its completion; another sets IB_REF, and a
read gets UR (14 R386); a write to the doorbell goes to the event fabric (12 R331).  A completion answers
its outstanding request, one that failed or did not come in time gives all ones, counted and recorded (14 R385). -/
def Obligations.PciePorts : Prop :=
  ∀ (s : State) (p : Fin 4),
    let n := p.val
    let a := fun (o : Nat) => pciePage n o
    (∀ (i : Initiator) (v : W32) (g : Page), MayWrite s i (a 0x44) g → ∃ t, exec (.pcieLinkEnable i p v) s = .next t ∧ t.reg (a 0x44) = (v ||| 1) &&& 3
      ∧ t.mem = s.mem
      ∧ (s.port.lanes = none → t.port.lanes = some (s.fld (pciePage 0 0x40) 0 2)
          ∧ ∀ k, k < 4 → t.bit (pciePage k 0x48) 9 = decide (peWidth (s.fld (pciePage 0 0x40) 0 2) k = 0))
      ∧ (s.port.lanes.isSome = true → t.port = s.port ∧ ∀ b, b ≠ a 0x44 → t.reg b = s.reg b)
      ∧ (t.bit (a 0x48) 9 = false → n ∈ t.power.refclk))
    ∧ (s.stalled = false →
      (n ∈ s.power.refclk → s.bit (a 0x44) 0 = true → ∃ t, exec (.perstRelease p) s = .next t ∧ n ∈ t.power.perstHigh
        ∧ t = { s with power := { s.power with perstHigh := t.power.perstHigh } })
      ∧ (∀ up, s.peUp n = false ∨ s.bit (a 0x48) 0 = up → exec (.pcieLinkChange p up) s = .next s)
      ∧ (s.peUp n = true → s.bit (a 0x48) 0 = false → s.bit (a 0x44) 0 = true → s.bit (a 0x44) 1 = false → s.bit (a 0x48) 9 = false → n ∈ s.power.perstHigh →
          ∃ u, exec (.pcieLinkChange p true) s = .next (State.fire u (0x600 + 16 * n)) ∧ u.bit (a 0x48) 0 = true
            ∧ 1 ≤ u.fld (a 0x48) 1 3 ∧ u.fld (a 0x48) 1 3 ≤ max 1 (s.fld (a 0x40) 4 3) ∧ 1 ≤ u.fld (a 0x48) 4 5
            ∧ u.fld (a 0x48) 4 5 ≤ max 1 (peWidth (s.port.lanes.getD 0) n)
            ∧ OnlyRegs { s with fresh := u.fresh } u [a 0x48])
      ∧ (s.peUp n = true → s.bit (a 0x48) 0 = true → ∃ u, exec (.pcieLinkChange p false) s = .next (State.fire u (0x600 + 16 * n)) ∧ u.bit (a 0x48) 0 = false)
      ∧ (∀ cls, s.peUp n = true → exec (.pcieAerError p cls) s = .next ((s.raise (a 0) 2).fire (0x601 + 16 * n)))
      ∧ (∀ x : Tlp, s.peUp n = true → s.bit (a 0x48) 0 = true → s.enabled (a 0) = true → s.reg (a 0x1C) = 0 →
          let len := if x.write then x.data.length else x.len
          (x.write = true → x.addr.toNat / 4096 * 4096 = s.doorbell → exec (.pcieInboundRequest p x) s
            = .next (s.sendMsi 69 n { port := Fin.ofNat 8 n, req := BitVec.setWidth 18 x.req, off := BitVec.ofNat 12 x.addr.toNat, size := x.data.length
                                      data := BitVec.ofNat 64 (leNat x.data) }))
          ∧ (x.write = false ∨ x.addr.toNat / 4096 * 4096 ≠ s.doorbell →
              (s.ibTranslate n x.addr.toNat len x.write = none →
                let r := (s.raise (a 0) 1).fire (0x603 + 16 * n)
                exec (.pcieInboundRequest p x) s = .next (if x.write then r else r.sendTlp n .ur))
              ∧ ∀ pa part, s.ibTranslate n x.addr.toNat len x.write = some (pa, part) →
                  (∀ h t, s.wholeAccess 69 n part pa len (if x.write then some (x.data, x.poisoned) else none) = (.held h, t) →
                    exec (.pcieInboundRequest p x) s = .next (s.holdFor (h, part)))
                  ∧ ∀ l b lost t, s.wholeAccess 69 n part pa len (if x.write then some (x.data, x.poisoned) else none) = (.done l b lost, t) →
                    exec (.pcieInboundRequest p x) s = .next (if x.write then t else t.sendTlp n (.done l b))))
      ∧ (∀ x len wr pa part, s.ibTranslate n x len wr = some (pa, part) → ∃ w, w < 8 ∧
          let b := a (0x80 + 16 * w)
          let base := s.fld b 12 20 * 4096 + (s.reg (b + 4)).toNat * 4294967296
          base ≤ x ∧ x + len ≤ base + 4096 * s.fld (b + 12) 0 24 ∧ s.bit b (if wr then 1 else 0) = true
            ∧ pa = s.fld (b + 8) 0 30 * 4096 + (x - base) ∧ part = BitVec.ofNat 6 (s.fld (b + 12) 24 6) ∧ ∀ l ∈ rangeLines pa len, s.isDram (64 * l) = true)
      ∧ (∀ x : Completion, s.peUp n = true → s.reg (a 0x1C) = 0 →
          ((∀ r ∈ s.port.pcie, r.port ≠ n ∨ r.pkt.tag ≠ x.tag) → exec (.pcieCompletion p x) s = .next s)
          ∧ ∀ j q, s.port.pcie[j]? = some ⟨n, q⟩ → q.tag = x.tag → (∀ k r, k < j → s.port.pcie[k]? = some r → r.port ≠ n ∨ r.pkt.tag ≠ x.tag) →
              ∃ t f, exec (.pcieCompletion p x) s = .next t ∧ t.port = { s.port with pcie := s.port.pcie.eraseIdx j }
                ∧ t.net.flights = s.net.flights ++ [f] ∧ f.pkt.dst = q.src ∧ f.pkt.dstp = q.srcp ∧ f.pkt.tag = q.tag
                ∧ (x.ok = true → q.op = 0x03 → f.pkt.op = 0x21 ∧ f.pkt.poison = x.poisoned ∧ t = { s with net := t.net, port := t.port })
                ∧ (x.ok = false → t.reg (a 0x58) = s.reg (a 0x58) + 1 ∧ t.bit (a 0x14) 0 = true ∧ t.mem = s.mem))
      ∧ (∀ j q, s.port.pcie[j]? = some ⟨n, q⟩ → ∃ t f, exec (.pcieCompletionTimeout p j) s = .next t ∧ t.port = { s.port with pcie := s.port.pcie.eraseIdx j }
          ∧ t.reg (a 0x58) = s.reg (a 0x58) + 1 ∧ t.reg (a 0x5C) = BitVec.ofNat 32 q.addr.toNat ∧ t.bit (a 0x14) 0 = true
          ∧ t.net.flights = s.net.flights ++ [f] ∧ f.pkt.tag = q.tag ∧ f.pkt.poison = false
          ∧ (q.op = 0x03 → f.pkt.op = 0x21 ∧ f.pkt.inl = BitVec.ofNat 256 (2 ^ (8 * min 32 (q.size.toNat + 1)) - 1)))
      ∧ (∀ j, s.port.pcie[j]? = none → exec (.pcieCompletionTimeout p j) s = .next s))

/-- The Parraha routing rule, as the spec's lines give it: discard, X first and then Y, over a wrap the nearer way with a tie to the positive link (14 R388). -/
def Obligations.ParrahaRouting : Prop :=
  ∀ (me dst : BitVec 18) (hops : BitVec 10) (xn yn : Nat) (xw yw : Bool), 1 ≤ xn → xn ≤ 512 → 1 ≤ yn → yn ≤ 512 →
    let mx : Int := fieldOf me 0 9
    let my : Int := fieldOf me 9 9
    let tx : Int := fieldOf dst 0 9
    let ty : Int := fieldOf dst 9 9
    let dx := (tx - mx) % xn
    let dy := (ty - my) % yn
    let way := prlRoute me.toNat dst.toNat hops.toNat xn yn xw yw
    ((xn : Int) ≤ tx ∨ (yn : Int) ≤ ty ∨ hops = 1023 → way = .nowhere)
    ∧ (tx < xn → ty < yn → hops ≠ 1023 →
        (dx ≠ 0 → xw = true → way = if 2 * dx ≤ xn then .link 0 else .link 1)
        ∧ (dx ≠ 0 → xw = false → way = if mx < tx then .link 0 else .link 1)
        ∧ (dx = 0 → dy ≠ 0 → yw = true → way = if 2 * dy ≤ yn then .link 2 else .link 3)
        ∧ (dx = 0 → dy ≠ 0 → yw = false → way = if my < ty then .link 2 else .link 3)
        ∧ (dx = 0 → dy = 0 → way = .here))

/-- A packet of type `type` arrives at port `p`, whose link is up and whose page runs, with no injection armed. -/
structure PrlArrives (s : State) (p : Fin 4) (k : PrlPacket) : Prop where
  runs : s.stalled = false
  link : s.plLink p.val = true
  on : s.enabled (prlPage p.val 0) = true
  calm : s.reg (prlPage p.val 0x1C) = 0
  sound : k.crcOk = true

/-- The routed packet types with their rows (14 R390). -/
def IsRouted (x : (Fin 4 → PrlPacket → Instr) × Nat) : Prop := x ∈
  [(.parrahaWr, 0x1), (.parrahaRd, 0x2), (.parrahaRdr, 0x3), (.parrahaMsg, 0x4), (.parrahaNack, 0x5)]

/-- Routed packets.  One for another device leaves by the link that the routing names, with HOPS one more, or is dropped and counted where that link is down;
one with a wrong CRC is only counted and reported (14 R387, R388, R390).  At its destination a WR or RD that an inbound window allows acts on visible DRAM
with the window's PARTID, data of STAT POISON is stored poisoned (18 R493), and a refused one is answered with NACK or RDR REFUSED (14 R392); an RDR answers the oldest read of its tag, with zero data where it
was refused; a NACK is counted, recorded and fired (14 R393); a MSG goes to the next slot of the ring while there is one, and TAIL goes on (14 R394). -/
def Obligations.ParrahaPackets : Prop :=
  ∀ (s : State) (p : Fin 4) (k : PrlPacket),
    let n := p.val
    let a := fun (o : Nat) => prlPage n o
    let u := s.count (a 0x60)
    (∀ x, IsRouted x →
      (s.stalled = false → s.plLink n = false → exec (x.1 p k) s = .next s)
      ∧ (s.stalled = false → s.plLink n = true → s.enabled (a 0) = true → s.reg (a 0x1C) = 0 → k.crcOk = false →
          exec (x.1 p k) s = .next ((s.raise (a 0) 3).count (a 0x64)))
      ∧ (PrlArrives s p k → s.prlWay k = .nowhere → exec (x.1 p k) s = .next (u.count (a 0x68)))
      ∧ (∀ q, PrlArrives s p k → s.prlWay k = .link q → s.plLink q = true → exec (x.1 p k) s
          = .next { u with port := { u.port with sent := SMap.set none u.port.sent q (some ⟨x.2, { k with hops := k.hops + 1 }⟩) } })
      ∧ (∀ q, PrlArrives s p k → s.prlWay k = .link q → s.plLink q = false →
          exec (x.1 p k) s = .next ((u.count (prlPage q 0x68)).raise (prlPage q 0) 1)))
    ∧ (PrlArrives s p k → s.prlWay k = .here →
        (k.addr.toNat / 4096 * 4096 ≠ s.doorbell →
          (∀ pa part, s.iwTranslate k.addr.toNat k.data.length k.src.toNat true = some (pa, part) →
            (∀ h, s.wouldWait 70 0 part pa k.data.length true = some h → exec (.parrahaWr p k) s = .next (s.holdFor h))
            ∧ (s.wouldWait 70 0 part pa k.data.length true = none →
                exec (.parrahaWr p k) s = .next (u.portAccess 70 0 pa k.data.length part (some k.data) (decide (k.stat = 2))).2))
          ∧ (∀ q, s.iwTranslate k.addr.toNat k.data.length k.src.toNat true = none → s.prlWay { dst := k.src } = .link q → s.plLink q = true →
            ∃ t x, exec (.parrahaWr p k) s = .next t ∧ t = { u with port := { u.port with sent := t.port.sent } }
              ∧ SMap.get none t.port.sent q = some ⟨0x5, x⟩ ∧ x.dst = k.src ∧ x.tag = k.tag ∧ x.addr = k.addr ∧ x.stat = 1))
        ∧ (∀ pa part q l b lost w, s.iwTranslate k.addr.toNat k.len k.src.toNat false = some (pa, part) → s.wouldWait 70 0 part pa k.len false = none →
            u.wholeAccess 70 0 part pa k.len none = (.done l b lost, w) →
            s.prlWay { dst := k.src } = .link q → s.plLink q = true → ∃ t x, exec (.parrahaRd p k) s = .next t
              ∧ SMap.get none t.port.sent q = some ⟨0x3, x⟩ ∧ x.dst = k.src ∧ x.tag = k.tag
              ∧ (b = false → x.stat = 0 ∧ x.data = l) ∧ (b = true → x.stat = 2)
              ∧ t = { w with port := { w.port with sent := t.port.sent } })
        ∧ (∀ q, s.iwTranslate k.addr.toNat k.len k.src.toNat false = none → s.prlWay { dst := k.src } = .link q → s.plLink q = true →
            ∃ t x, exec (.parrahaRd p k) s = .next t ∧ SMap.get none t.port.sent q = some ⟨0x3, x⟩ ∧ x.stat = 1 ∧ x.data = [] ∧ x.tag = k.tag)
        ∧ (let w := if k.stat = 0 then u else (((u.count (a 0x6C)).setNat (a 0x70) (k.src.toNat + 1048576 * k.stat.val)).raise (a 0) 0).fire (0x642 + 16 * n)
           ((∀ r ∈ s.port.reads, r.tag ≠ k.tag.toNat) → exec (.parrahaRdr p k) s = .next w)
           ∧ ∀ j r, s.port.reads[j]? = some r → r.tag = k.tag.toNat → (∀ m y, m < j → s.port.reads[m]? = some y → y.tag ≠ k.tag.toNat) →
              ∃ t f, exec (.parrahaRdr p k) s = .next t ∧ t = { w with net := t.net, port := { w.port with reads := s.port.reads.eraseIdx j } }
                ∧ t.net.flights = w.net.flights ++ [f] ∧ f.pkt.op = 0x21 ∧ f.pkt.dst = r.pkt.src ∧ f.pkt.tag = r.pkt.tag
                ∧ f.pkt.poison = decide (k.stat = 2) ∧ (k.stat ≠ 0 → f.pkt.inl = 0))
        ∧ (exec (.parrahaNack p k) s = .next (((((u.count (a 0x6C)).setNat (a 0x70) (k.src.toNat + 1048576 * k.stat.val)).raise (a 0) 0).fire (0x642 + 16 * n))))
        ∧ (let full := (s.ringTail + 1) % s.ringSize = s.fld (prlPage 0 0x118) 0 16
           (s.bit (prlPage 0 0x10C) 31 = true → ¬full → s.inDram (s.ringBase + 128 * s.ringTail) 128 = true →
              s.wouldWait 70 0 0 (s.ringBase + 128 * s.ringTail) 128 true = none →
              ∃ w, exec (.parrahaMsg p k) s = .next (State.fire w (0x641 + 16 * n)) ∧ (w.reg (prlPage 0 0x11C)).toNat = (s.ringTail + 1) % s.ringSize
                ∧ w.port.phase = (s.port.phase != decide ((s.ringTail + 1) % s.ringSize = 0))
                ∧ w.mem = (u.portAccess 70 0 (s.ringBase + 128 * s.ringTail) 128 0
                    (some (fit 64 k.data ++ leBytes 4 k.src.toNat ++ [BitVec.ofNat 8 (k.data.length - 1), BitVec.ofNat 8 n, BitVec.ofNat 8 (b2n s.port.phase)]
                      ++ List.replicate 57 0)) false).2.mem)
           ∧ (∀ q, s.bit (prlPage 0 0x10C) 31 = false ∨ full → s.prlWay { dst := k.src } = .link q → s.plLink q = true →
              ∃ t x, exec (.parrahaMsg p k) s = .next t ∧ SMap.get none t.port.sent q = some ⟨0x5, x⟩ ∧ x.stat = 3 ∧ t.mem = s.mem)))

/-- Delay, ticks and links of Parraha, and the message ring's start.  DLY_REQ is answered with a DLY_RSP that carries t2 and t3; DLY_RSP sets PL_DLY to the truncated
half of (t4 - t1) - (t3 - t2), and DVALID (14 R395).  A TICK at a port that is not the frame source's is only counted, and a tick instant is announced once (14 R396).  Setting EN of
PX_MRCFG zeroes TAIL and the head and starts the phase at 1 (14 R394, R397). -/
def Obligations.ParrahaTime : Prop :=
  ∀ (s : State) (p : Fin 4) (k : PrlPacket),
    let n := p.val
    let a := fun (o : Nat) => prlPage n o
    let now := s.clock.time
    (s.stalled = false →
      (∀ up, s.plUp n = false ∨ s.bit (a 0x44) 0 = up → exec (.parrahaLinkChange p up) s = .next s)
      ∧ (∀ up, s.plUp n = true → s.bit (a 0x44) 0 ≠ up → (up = true → s.bit (a 0x40) 0 = true) →
          exec (.parrahaLinkChange p up) s = .next ((s.setBit (a 0x44) 0 up).fire (0x640 + 16 * n)))
      ∧ (s.plLink n = true → s.bit (a 0x40) 0 = true → s.fld (a 0x4C) 0 16 ≠ 0 → ∃ t x, exec (.delayMeasureTimer p) s = .next t
          ∧ SMap.get none t.port.t1 n = some now ∧ SMap.get none t.port.sent n = some ⟨0x9, x⟩ ∧ t = { s with port := t.port })
      ∧ (s.plLink n = false → exec (.delayMeasureTimer p) s = .next s)
      ∧ (∀ i f, s.tickAhead = some (i, f) → s.port.ticked = some (i, f) → exec .tickSend s = .next s)
      ∧ (∀ i f, s.tickAhead = some (i, f) → s.port.ticked ≠ some (i, f) → ∃ t, exec .tickSend s = .next t
          ∧ t = { s with port := { s.port with sent := t.port.sent, ticked := some (i, f) } }
          ∧ ∀ q, q < 4 → (s.bit (prlPage q 0x40) 1 = true → s.plLink q = true → ∃ x, SMap.get none t.port.sent q = some ⟨0x8, x⟩ ∧ x.data.length = 16
              ∧ leNat (x.data.take 4) = f.toNat ∧ (BitVec.ofNat 32 (leNat ((x.data.drop 4).take 4))) = BitVec.ofInt 32 ((i - now).toInt - 80)
              ∧ (s.kind ≠ 3 → leNat (x.data.drop 8) = i.toNat))
            ∧ (s.bit (prlPage q 0x40) 1 = false → SMap.get none t.port.sent q = SMap.get none s.port.sent q))
      ∧ (s.tickAhead = none → exec .tickSend s = .next s))
    ∧ (s.stalled = false → s.plLink n = true → s.reg (a 0x1C) = 0 → k.crcOk = true →
      (∃ t x, exec (.dlyReq p k) s = .next t ∧ SMap.get none t.port.sent n = some ⟨0xA, x⟩ ∧ leNat (x.data.take 8) = now.toNat
        ∧ leNat ((x.data.drop 8).take 8) = now.toNat ∧ OnlyRegs { s with port := t.port } t [a 0x60])
      ∧ (SMap.get none s.port.t1 n = none → exec (.dlyRsp p k) s = .next (s.count (a 0x60)))
      ∧ (∀ t1 t2 t3 : W64, SMap.get none s.port.t1 n = some t1 → k.data = leBytes 8 t2.toNat ++ leBytes 8 t3.toNat →
          ∃ t, exec (.dlyRsp p k) s = .next t ∧ t.bit (a 0x44) 1 = true ∧ SMap.get none t.port.t1 n = none
            ∧ t.reg (a 0x48) = BitVec.setWidth 32 (BitVec.ofInt 16 (Int.tdiv ((now - t1).toInt - (t3 - t2).toInt) 2)))
      ∧ (s.kind ≠ 3 ∨ s.srcPort ≠ n → exec (.parrahaTick p k) s = .next ((s.count (a 0x60)).count (a 0x58)))
      ∧ (s.running = false → s.kind = 3 → s.srcPort = n → ∃ t, exec (.parrahaTick p k) s = .next t ∧ t.reg (a 0x58) = s.reg (a 0x58) + 1
          ∧ (let inst := now - BitVec.setWidth 64 (BitVec.ofNat 16 (s.fld (a 0x48) 0 16)) + BitVec.ofInt 64 (tickRes k) + 80
             t.reg (a 0x50) = BitVec.setWidth 32 (inst - tickInstant k) ∧ t.reg (a 0x54) = BitVec.setWidth 32 ((inst - tickInstant k) >>> 32)
             ∧ ((inst - now).toInt ≤ 20 → t.reg (a 0x5C) = s.reg (a 0x5C) + 1 ∧ t.bit (a 0x14) 2 = true))))
    ∧ (∀ (i : Initiator) (v : W32) (g : Page), MayWrite s i (prlPage 0 0x10C) g → ∃ t, exec (.msgRingEnable i v) s = .next t
        ∧ t.reg (prlPage 0 0x10C) = putBit v 31 true &&& 0x8000000F
        ∧ (s.bit (prlPage 0 0x10C) 31 = false → t.reg (prlPage 0 0x11C) = 0 ∧ t.reg (prlPage 0 0x118) = 0 ∧ t.port = { s.port with phase := true })
        ∧ (s.bit (prlPage 0 0x10C) 31 = true → t.port = s.port ∧ ∀ b, b ≠ prlPage 0 0x10C → t.reg b = s.reg b))

/-- Boot, storage and low-speed I/O, and trace.  GO starts the xSPI controller and XSPI_DONE ends it: DONE and source 0x6CC, once no regulator holds its DMA write (03 R59; 14 R398, R400); a doorbell starts a
UFS transfer, whose end fires 0x6CD (14 R399, R400); CMD starts an operation of a low-speed controller, whose end empties the transmit FIFO, puts what came
into the receive FIFO and fires its source (14 R400).  Of an edge, the ball's level changes, and an enabled one fires source 0x680 + n (14 R401).  A trace line
at the exporter is sent, kept while there is room for 64 records, or counted in TR_LOST (14 R403).  A GO while one runs, an end with nothing begun
and a doorbell written 0 start nothing (assumption logs 29 and 30). -/
def Obligations.BootAndIo : Prop :=
  ∀ (s : State),
    (∀ (i : Initiator) (v : W32) (g : Page), MayWrite s i (bioPage 0 0x54) g →
      (s.port.xspi = false → exec (.xspiGo i v) s = .next (({ s with port := { s.port with xspi := true } }).setNat (bioPage 0 0x58) 1))
      ∧ (s.port.xspi = true → exec (.xspiGo i v) s = .next s))
    ∧ (∀ (i : Initiator) (o : BitVec 12) (v : W32) (g : Page), o = 0x458 ∨ o = 0x470 → MayWrite s i (bioPage 0 o.toNat) g →
        ∃ t, exec (.ufsDoorbell i o v) s = .next t ∧ t.reg (bioPage 0 o.toNat) = v ∧ OnlyRegs { s with port := t.port } t [bioPage 0 o.toNat]
          ∧ t.port = { s.port with ufs := s.port.ufs || v != 0 })
    ∧ (∀ (i : Initiator) (k : Fin 12) (v : W32) (g : Page), MayWrite s i (lowSpeed k.val 0x14) g → ∃ t, exec (.lowSpeedCommand i k v) s = .next t
        ∧ k.val ∈ t.port.busy ∧ (∀ j, j ≠ k.val → (j ∈ t.port.busy ↔ j ∈ s.port.busy)) ∧ t.reg (lowSpeed k.val 0x14) = v
        ∧ OnlyRegs { s with port := t.port } t [lowSpeed k.val 0x14])
    ∧ (s.stalled = false →
      (∀ ok d, s.port.xspi = false → exec (.xspiDone ok d) s = .next s)
      ∧ (∀ ok d, s.port.xspi = true → ok = false ∨ d = [] →
          exec (.xspiDone ok d) s = .next ((({ s with port := { s.port with xspi := false } }).setNat (bioPage 0 0x58) 2).fire 0x6CC))
      ∧ (∀ d, s.port.xspi = true →
          let pa := (s.reg (bioPage 0 0x4C)).toNat + 4294967296 * s.fld (bioPage 0 0x50) 0 10
          let x := d.take (s.reg (bioPage 0 0x48)).toNat
          let u : State := { s with port := { s.port with xspi := false } }
          let part := BitVec.ofNat 6 (s.fld (bioPage 0 0x24) 0 6)
          x ≠ [] → (∀ l ∈ rangeLines pa x.length, s.isDram (64 * l) = true) → s.confBars pa x.length part = false →
            (∀ h, s.wouldWait 68 2 part pa x.length true = some h → exec (.xspiDone true d) s = .next (s.holdFor h))
            ∧ (s.wouldWait 68 2 part pa x.length true = none →
                exec (.xspiDone true d) s = .next (((u.portAccess 68 2 pa x.length part (some x) false).2.setNat (bioPage 0 0x58) 2).fire 0x6CC)))
      ∧ (∀ ok a d, s.port.ufs = false → exec (.ufsTransferDone ok a d) s = .next s)
      ∧ (∀ ok a d, s.port.ufs = true → ok = false ∨ d = [] →
          exec (.ufsTransferDone ok a d) s = .next (({ s with port := { s.port with ufs := false } }).fire 0x6CD))
      ∧ (∀ (a : PAddr) d, s.port.ufs = true →
          let part := BitVec.ofNat 6 (s.fld (bioPage 0 0x24) 0 6)
          let u : State := { s with port := { s.port with ufs := false } }
          d ≠ [] → (∀ l ∈ rangeLines a.toNat d.length, s.isDram (64 * l) = true) → s.confBars a.toNat d.length part = false →
            (∀ h, s.wouldWait 68 2 part a.toNat d.length true = some h → exec (.ufsTransferDone true a d) s = .next (s.holdFor h))
            ∧ (s.wouldWait 68 2 part a.toNat d.length true = none →
                exec (.ufsTransferDone true a d) s = .next ((u.portAccess 68 2 a.toNat d.length part (some d) false).2.fire 0x6CD)))
      ∧ (∀ (k : Fin 12) d, k.val ∉ s.port.busy → exec (.lowSpeedTransferDone k d) s = .next s)
      ∧ (∀ (k : Fin 12) d, k.val ∈ s.port.busy → ∃ u, exec (.lowSpeedTransferDone k d) s = .next (State.fire u (0x6C0 + k.val)) ∧ k.val ∉ u.port.busy
          ∧ SMap.get [] u.port.tx k.val = [] ∧ SMap.get [] u.port.rx k.val = (SMap.get [] s.port.rx k.val ++ d).take 64 ∧ u = { s with port := u.port })
      ∧ (∀ (k : Fin 12) d, ∃ t, exec (.lowSpeedReceive k d) s = .next t ∧ t = { s with port := { s.port with rx := t.port.rx } }
          ∧ SMap.get [] t.port.rx k.val = if 4 ≤ k.val ∧ k.val < 8 then SMap.get [] s.port.rx k.val else (SMap.get [] s.port.rx k.val ++ d).take 64)
      ∧ (∀ (g : Fin 64) rise,
          let u := s.setBit (bioPage 3 (0x40 + 4 * (g.val / 32))) (g.val % 32) rise
          exec (.gpioEdge g rise) s
            = .next (if s.bit (bioPage 3 ((if rise then 0x58 else 0x60) + 4 * (g.val / 32))) (g.val % 32) then u.fire (0x680 + g.val) else u))
      ∧ (∀ k : Packet, k.dst = 71 → k.dstp = 1 → (∀ f ∈ s.net.flights, f.pkt ≠ { k with op := 0x1A }) →
          (s.traceOn = true → exec (.trc k) s = .next { s with port := { s.port with trace := [] } })
          ∧ (s.traceOn = false → s.port.trace.length ≤ 60 → ∃ t, exec (.trc k) s = .next t ∧ t.port.trace.length = s.port.trace.length + 4
              ∧ t = { s with port := { s.port with trace := t.port.trace } } ∧ s.port.trace <+: t.port.trace)
          ∧ (s.traceOn = false → 64 ≤ s.port.trace.length → ∃ t, exec (.trc k) s = .next t
              ∧ OnlyRegs s t [bioPage 3 0x104] ∧ t.reg (bioPage 3 0x104) = s.reg (bioPage 3 0x104) + 4)))

/-! ### The statements that join the parts above -/

/-- The queue: a step performs the command in front; an empty queue idles. -/
def Obligations.CommandQueue : Prop :=
  Rules.StepPerformsFront ∧ Rules.EmptyQueueIdles

/-- Decoding drops no bit: decode of encode of a decoded instruction is it. -/
def Obligations.EncodingRoundTrip : Prop :=
  Rules.OzEncodingRoundTrip ∧ Rules.StlEncodingRoundTrip

/-- Register 0, the flags' places, the conditions, and the frame of a fetch. -/
def Obligations.RegistersFlagsConditions : Prop :=
  Rules.RegisterZeroRule ∧ Rules.FlagsLeaveStatus ∧ Rules.ConditionTable ∧ Rules.FetchLeavesRegisters

/-- Integer instructions: results, flags and frame. -/
def Obligations.IntegerInstructions : Prop :=
  Rules.IntegerResults ∧ Rules.MultiplyAndMove ∧ Rules.CompareAndTest ∧ Rules.BitCountsAndMoves

/-- The divide instructions, and that a correct sequence divides. -/
def Obligations.DivideSequences : Prop :=
  Rules.DivideInstructions ∧ Rules.DivisionIsRight

/-- Branches, LOOP and the loop-back. -/
def Obligations.BranchesAndLoops : Prop :=
  Rules.Branches ∧ Rules.LoopBackRule

/-- SVC, HVC, MVC and BRK enter; HVC and MVC at U raise PRIV. -/
def Obligations.SystemCalls : Prop :=
  Rules.SystemCallsEnter ∧ Rules.SystemCallsAtUser

/-- Double faults, and bytes that spell no instruction. -/
def Obligations.DoubleFaultsAndIllegalBytes : Prop :=
  Rules.DoubleFaults ∧ Rules.IllegalBytesRaiseIll

/-- Floating-point arithmetic rounds once and writes its results. -/
def Obligations.FpArithmetic : Prop :=
  Rules.RoundingIsRight ∧ Rules.FpResults

/-- Floating-point compares, conversions and moves. -/
def Obligations.FpCompareAndConvert : Prop :=
  Rules.FpCompare ∧ Rules.FpConversions

/-- Vector integer instructions act lane by lane. -/
def Obligations.VectorInstructions : Prop :=
  Rules.VectorLanes ∧ Rules.VectorGreater ∧ Rules.VectorMoves

/-- MFS and MTS: reads, writes, exceptions and the event registers. -/
def Obligations.SystemRegisters : Prop :=
  Rules.SystemRegisterReads ∧ Rules.SystemRegisterWrites ∧ Rules.SystemRegisterExceptions ∧ Rules.EventRegisterWrites

/-- RDFEAT, RDTIME, RDFRM and RDWIN, and where they trap. -/
def Obligations.ReadsOfTheBlock : Prop :=
  Rules.ReadsOfTheBlock1 ∧ Rules.ReadsTrap

/-- Fences, TLBSYNC, WAIT and the partition switch. -/
def Obligations.FencesAndWaits : Prop :=
  Rules.FencesRetire ∧ Rules.WaitRule ∧ Rules.PartitionSwitch

/-- RETI restores, refuses, or enters the next level. -/
def Obligations.Returns : Prop :=
  Rules.ReturnRule ∧ Rules.ChainedReturn

/-- TLBI, CMO and CMOSW. -/
def Obligations.TlbAndCacheMaintenance : Prop :=
  Rules.TlbiSends ∧ Rules.TlbiPerformed ∧ Rules.CacheMaintenance

/-- Translation, permissions and table walks. -/
def Obligations.TranslationAndWalks : Prop :=
  Rules.TranslationRules ∧ Rules.TableWalks

/-- Loads read, stores enter the buffer, and both trap where they must. -/
def Obligations.LoadsAndStores : Prop :=
  Rules.LoadsRead ∧ Rules.StoresEnterTheBuffer ∧ Rules.AccessesTrap

/-- Atomics perform one read and write. -/
def Obligations.Atomics : Prop :=
  Rules.AtomicsPerform

/-- The store buffer: forwarding, draining and fills. -/
def Obligations.StoreBufferAndFills : Prop :=
  Rules.StoredBytesAreRead ∧ Rules.StoreBufferDrains ∧ Rules.FillsComplete

/-- Lintos instructions: arithmetic, registers, reads and waits. -/
def Obligations.StlInstructions : Prop :=
  Rules.StlArithmetic ∧ Rules.StlRegisterRows ∧ Rules.StlReadsAndWaits

/-- Lintos loads, stores and memory. -/
def Obligations.StlMemoryRows : Prop :=
  Rules.StlLoads ∧ Rules.StlStores ∧ Rules.StlMemory

/-- Lintos exceptions and interrupt entry. -/
def Obligations.StlExceptionsAndInterrupts : Prop :=
  Rules.StlExceptions ∧ Rules.StlInterruptEntry

/-- Lintos fires and timeouts, the chip pair, and their pages. -/
def Obligations.StlEventsAndPages : Prop :=
  Rules.StlFiresAndTimeouts ∧ Rules.ChipStoolsRunTogether ∧ Rules.StlPageRows

/-- Control-space packets, the control network and initiator timeouts. -/
def Obligations.ControlNetworkAndTimeouts : Prop :=
  Rules.ControlNetwork ∧ Rules.InitiatorTimeouts

/-- TIME, and starting and stopping the frame. -/
def Obligations.TimeAndFrameControl : Prop :=
  Rules.TimeRules ∧ Rules.FrameStartAndStop

/-- Ticks of the master and of a receiver. -/
def Obligations.FrameTicks : Prop :=
  Rules.MasterTicks ∧ Rules.ReceiverTicks

/-- Window events and commits. -/
def Obligations.WindowsAndCommits : Prop :=
  Rules.WindowEvents ∧ Rules.CommitRules

/-- Mailbox commands and the root of trust's own rows. -/
def Obligations.MailboxAndRootRows : Prop :=
  Rules.MailboxCommands ∧ Rules.RootOfTrustRows

/-- Key slots and handles; counters, lifecycle, hash slots and BOOTCFG. -/
def Obligations.KeyAndProvisioningCommands : Prop :=
  Rules.KeyCommands ∧ Rules.ProvisioningCommands

/-- Domain commands, sequences and operating points. -/
def Obligations.PowerControl : Prop :=
  Rules.PowerCommands ∧ Rules.PowerSequences ∧ Rules.OperatingPoints

/-- Device resets, chip Stop and wake. -/
def Obligations.ResetsStopAndWake : Prop :=
  Rules.DeviceResets ∧ Rules.ChipStopAndWake

/-- Core page rows and cache maintenance engines. -/
def Obligations.CorePagesAndMaintenance : Prop :=
  Rules.CorePageRows ∧ Rules.MaintenanceEngines

/-- Homes answer requests; snoops and answers arrive. -/
def Obligations.HomesAndSnoops : Prop :=
  Rules.HomeRequests ∧ Rules.SnoopsAndAnswers

/-- Memory controllers: bring-up, training and protection sweeps. -/
def Obligations.MemoryBringUpAndSweeps : Prop :=
  Rules.MemoryBringUp ∧ Rules.ProtectionSweeps

/-- Fires, messages and the event route table. -/
def Obligations.EventFabric : Prop :=
  Rules.FiresAndMessages ∧ Rules.EventTableWrites

/-- The physical function, queue registers and VF resets. -/
def Obligations.VirtualFunctions : Prop :=
  Rules.PhysicalFunction ∧ Rules.QueueRegisters

/-- The switch: timestamps, gates, tables, links and frames. -/
def Obligations.EthernetSwitch : Prop :=
  Rules.TimestampsAndGates ∧ Rules.TableWindow ∧ Rules.LinksAndFrames

end
end

