-- ==== Sys2Proof/Laws/Sparse.lean ====
section
/-! SUPPORT. Laws of sparse maps and byte memories: a read after a write, and that every operation keeps the canonical
form. -/

namespace Sys2Proof.Machine

/-! ### Reads -/

theorem SMap.get_erase {α : Type} (d : α) (m : SMap α) (k j : Nat) :
    SMap.get d (SMap.erase m k) j = if j = k then d else SMap.get d m j := by
  induction m with
  | nil => simp [SMap.erase, SMap.get]
  | cons p m ih =>
    obtain ⟨x, v⟩ := p
    by_cases h : x = k <;> by_cases g : x = j <;> simp_all [SMap.erase, SMap.get]

theorem SMap.get_insert {α : Type} (d : α) (m : SMap α) (k j : Nat) (v : α) :
    SMap.get d (SMap.insert m k v) j = if j = k then v else SMap.get d m j := by
  induction m with
  | nil => simp [SMap.insert, SMap.get, eq_comm]
  | cons p m ih =>
    obtain ⟨x, w⟩ := p
    simp only [SMap.insert]
    split
    · by_cases g : k = j <;> simp [SMap.get, g, eq_comm]
    · split
      · subst_vars; by_cases g : x = j <;> simp [SMap.get, g, eq_comm]
        intro e; exact absurd e.symm g
      · by_cases g : x = j
        · subst g; simp [SMap.get]; intro e; omega
        · simp [SMap.get, g, ih]

/-- What a key reads as after a write: the value at the key written, and what it read before elsewhere. -/
theorem SMap.get_set {α : Type} [DecidableEq α] (d : α) (m : SMap α) (k j : Nat) (v : α) :
    SMap.get d (SMap.set d m k v) j = if j = k then v else SMap.get d m j := by
  unfold SMap.set
  split
  · subst_vars; exact SMap.get_erase v m k j
  · exact SMap.get_insert d m k j v

@[simp] theorem SMap.get_set_same {α : Type} [DecidableEq α] (d : α) (m : SMap α) (k : Nat) (v : α) :
    SMap.get d (SMap.set d m k v) k = v := by simp [SMap.get_set]

theorem SMap.get_set_other {α : Type} [DecidableEq α] (d : α) (m : SMap α) (k j : Nat) (v : α) (h : j ≠ k) :
    SMap.get d (SMap.set d m k v) j = SMap.get d m j := by simp [SMap.get_set, h]

@[simp] theorem SMap.get_nil {α : Type} (d : α) (k : Nat) : SMap.get d ([] : SMap α) k = d := rfl

theorem SMap.get_filter {α : Type} (d : α) (m : SMap α) (p : Nat → Bool) (k : Nat) :
    SMap.get d (m.filter (fun c => p c.1)) k = if p k then SMap.get d m k else d := by
  induction m with
  | nil => simp
  | cons q m ih =>
    obtain ⟨x, v⟩ := q
    by_cases hp : p x <;> by_cases hx : x = k <;> simp_all [SMap.get]

/-! ### The canonical form -/

/-- Canonical from one bound is canonical from every lower one. -/
theorem SMap.canon_mono {α : Type} [DecidableEq α] (d : Nat → α) (m : SMap α) (lo lo' : Nat) (h : lo' ≤ lo)
    (c : SMap.canon d lo m = true) : SMap.canon d lo' m = true := by
  cases m with
  | nil => rfl
  | cons p m =>
    obtain ⟨k, v⟩ := p
    simp only [SMap.canon, Bool.and_eq_true, decide_eq_true_eq] at c ⊢
    exact ⟨⟨by omega, c.1.2⟩, c.2⟩

theorem SMap.canon_erase {α : Type} [DecidableEq α] (d : Nat → α) (m : SMap α) (lo k : Nat)
    (c : SMap.canon d lo m = true) : SMap.canon d lo (SMap.erase m k) = true := by
  induction m generalizing lo with
  | nil => rfl
  | cons p m ih =>
    obtain ⟨x, v⟩ := p
    simp only [SMap.canon, Bool.and_eq_true, decide_eq_true_eq] at c
    simp only [SMap.erase]
    split
    · exact SMap.canon_mono d _ (x + 1) lo (by omega) (ih (x + 1) c.2)
    · simp only [SMap.canon, Bool.and_eq_true, decide_eq_true_eq]
      exact ⟨c.1, ih (x + 1) c.2⟩

theorem SMap.canon_insert {α : Type} [DecidableEq α] (d : Nat → α) (m : SMap α) (lo k : Nat) (v : α)
    (hk : lo ≤ k) (hv : v ≠ d k) (c : SMap.canon d lo m = true) : SMap.canon d lo (SMap.insert m k v) = true := by
  induction m generalizing lo with
  | nil => simp [SMap.insert, SMap.canon, hk, hv]
  | cons p m ih =>
    obtain ⟨x, w⟩ := p
    simp only [SMap.canon, Bool.and_eq_true, decide_eq_true_eq] at c
    simp only [SMap.insert]
    split
    · simp only [SMap.canon, Bool.and_eq_true, decide_eq_true_eq]
      exact ⟨⟨hk, hv⟩, ⟨by omega, c.1.2⟩, c.2⟩
    · split
      · subst_vars; simp only [SMap.canon, Bool.and_eq_true, decide_eq_true_eq]
        exact ⟨⟨hk, hv⟩, c.2⟩
      · simp only [SMap.canon, Bool.and_eq_true, decide_eq_true_eq]
        exact ⟨c.1, ih (x + 1) (by omega) c.2⟩

/-- A write keeps the canonical form. -/
theorem SMap.canon_set {α : Type} [DecidableEq α] (d : Nat → α) (m : SMap α) (k : Nat) (v : α)
    (c : SMap.canon d 0 m = true) : SMap.canon d 0 (SMap.set (d k) m k v) = true := by
  unfold SMap.set
  split
  · exact SMap.canon_erase d m 0 k c
  · exact SMap.canon_insert d m 0 k v (by omega) ‹_› c

theorem SMap.canon_filter {α : Type} [DecidableEq α] (d : Nat → α) (m : SMap α) (lo : Nat) (p : Nat × α → Bool)
    (c : SMap.canon d lo m = true) : SMap.canon d lo (m.filter p) = true := by
  induction m generalizing lo with
  | nil => rfl
  | cons q m ih =>
    obtain ⟨x, v⟩ := q
    simp only [SMap.canon, Bool.and_eq_true, decide_eq_true_eq] at c
    by_cases hp : p (x, v) = true
    · simp only [List.filter_cons, hp, if_true, SMap.canon, Bool.and_eq_true, decide_eq_true_eq]
      exact ⟨c.1, ih (x + 1) c.2⟩
    · simp only [List.filter_cons, hp]
      exact SMap.canon_mono d _ (x + 1) lo (by omega) (ih (x + 1) c.2)

/-- Two canonical maps that read the same at every key are equal data. -/
theorem SMap.canon_ext {α : Type} [DecidableEq α] (d : α) (m m' : SMap α) (lo : Nat)
    (c : SMap.canon (fun _ => d) lo m = true) (c' : SMap.canon (fun _ => d) lo m' = true)
    (h : ∀ k, SMap.get d m k = SMap.get d m' k) : m = m' := by
  have low : ∀ (m : SMap α) (lo k : Nat), SMap.canon (fun _ => d) lo m = true → k < lo → SMap.get d m k = d := by
    intro m
    induction m with
    | nil => intros; rfl
    | cons q m ih =>
      intro lo k c hk
      obtain ⟨x, v⟩ := q
      simp only [SMap.canon, Bool.and_eq_true, decide_eq_true_eq] at c
      have : x ≠ k := by omega
      simp only [SMap.get, this, if_false]
      exact ih (x + 1) k c.2 (by omega)
  induction m generalizing m' lo with
  | nil =>
    cases m' with
    | nil => rfl
    | cons q m' =>
      obtain ⟨x, v⟩ := q
      simp only [SMap.canon, Bool.and_eq_true, decide_eq_true_eq] at c'
      have := h x
      simp [SMap.get] at this
      exact absurd this.symm c'.1.2
  | cons p m ih =>
    obtain ⟨x, v⟩ := p
    simp only [SMap.canon, Bool.and_eq_true, decide_eq_true_eq] at c
    cases m' with
    | nil =>
      have := h x
      simp [SMap.get] at this
      exact absurd this c.1.2
    | cons q m' =>
      obtain ⟨y, w⟩ := q
      simp only [SMap.canon, Bool.and_eq_true, decide_eq_true_eq] at c'
      have hxy : x = y := by
        rcases Nat.lt_trichotomy x y with l | e | l
        · have := h x
          simp only [SMap.get, if_true] at this
          rw [if_neg (by omega), low m' (y + 1) x c'.2 (by omega)] at this
          exact absurd this c.1.2
        · exact e
        · have := h y
          simp only [SMap.get, if_true] at this
          rw [if_neg (by omega), low m (x + 1) y c.2 (by omega)] at this
          exact absurd this.symm c'.1.2
      subst hxy
      have hv : v = w := by have := h x; simpa [SMap.get] using this
      subst hv
      congr 1
      refine ih m' (x + 1) c.2 c'.2 ?_
      intro k
      by_cases hk : x = k
      · subst hk; rw [low m (x + 1) x c.2 (by omega), low m' (x + 1) x c'.2 (by omega)]
      · have := h k
        simpa [SMap.get, hk] using this

/-! ### Byte memories -/

/-- A byte read after a byte is written. -/
theorem Memory.read_write (m : Memory) (a b : Nat) (v : Byte) :
    Memory.read (Memory.write m a v) b = if b = a then v else Memory.read m b := SMap.get_set _ m a b v

/-- A write of several bytes leaves every other byte alone. -/
theorem Memory.read_writeN_other (m : Memory) (a b : Nat) (l : List Byte) (h : b < a ∨ a + l.length ≤ b) :
    Memory.read (Memory.writeN m a l) b = Memory.read m b := by
  induction l generalizing m a with
  | nil => rfl
  | cons x l ih =>
    simp only [List.length_cons] at h
    rw [Memory.writeN, ih _ _ (by omega), Memory.read_write, if_neg (by omega)]

/-- A byte within what was written reads as written. -/
theorem Memory.read_writeN_same (m : Memory) (a k : Nat) (l : List Byte) (h : k < l.length) :
    Memory.read (Memory.writeN m a l) (a + k) = l[k] := by
  induction l generalizing m a k with
  | nil => simp at h
  | cons x l ih =>
    cases k with
    | zero => rw [Memory.writeN, Memory.read_writeN_other _ _ _ _ (by omega), Memory.read_write]; simp
    | succ k =>
      have e : a + (k + 1) = (a + 1) + k := by omega
      rw [Memory.writeN, e, ih _ _ _ (by simpa using h)]; simp

/-- Reading back what was written. -/
theorem Memory.readN_writeN (m : Memory) (a : Nat) (l : List Byte) :
    Memory.readN (Memory.writeN m a l) a l.length = l := by
  have aux : ∀ (n a : Nat) (m : Memory), (Memory.readN m a n).length = n := by
    intro n; induction n with
    | zero => intros; rfl
    | succ n ih => intros; simp [Memory.readN, ih]
  have nth : ∀ (n a k : Nat) (m : Memory) (h : k < (Memory.readN m a n).length),
      (Memory.readN m a n)[k] = Memory.read m (a + k) := by
    intro n; induction n with
    | zero => intro a k m h; simp [Memory.readN] at h
    | succ n ih =>
      intro a k m h
      cases k with
      | zero => simp [Memory.readN]
      | succ k => simp only [Memory.readN, List.getElem_cons_succ]; rw [ih]; congr 1; omega
  apply List.ext_getElem (by simp [aux])
  intro k h1 h2
  rw [nth, Memory.read_writeN_same m a k l h2]

theorem Memory.wf_write (m : Memory) (a : Nat) (v : Byte) (h : Memory.wf m = true) : Memory.wf (Memory.write m a v) = true :=
  SMap.canon_set (fun _ => Memory.blank) m a v h

theorem Memory.wf_writeN (m : Memory) (a : Nat) (l : List Byte) (h : Memory.wf m = true) :
    Memory.wf (Memory.writeN m a l) = true := by
  induction l generalizing m a with
  | nil => exact h
  | cons x l ih => exact ih _ _ (Memory.wf_write m a x h)

theorem Memory.wf_clear (m : Memory) (lo hi : Nat) (h : Memory.wf m = true) : Memory.wf (Memory.clear m lo hi) = true :=
  SMap.canon_filter (fun _ => Memory.blank) m 0 _ h

theorem Memory.read_clear (m : Memory) (lo hi a : Nat) :
    Memory.read (Memory.clear m lo hi) a = if a < lo ∨ hi ≤ a then Memory.read m a else Memory.blank := by
  have := SMap.get_filter Memory.blank m (fun k => decide (k < lo) || decide (hi ≤ k)) a
  simp only [Bool.or_eq_true, decide_eq_true_eq] at this
  exact this

/-- Canonical memories that read the same are equal data. -/
theorem Memory.ext_of_wf (m m' : Memory) (h : Memory.wf m = true) (h' : Memory.wf m' = true)
    (e : ∀ a, Memory.read m a = Memory.read m' a) : m = m' := SMap.canon_ext Memory.blank m m' 0 h h' e

end Sys2Proof.Machine
end

