-- ==== Sys2Proof/Laws/State.lean ====
section
/-! SUPPORT. One lemma for each field and each named update of the state, true by definition, and the reads after writes of registers,
cores and engines. -/

namespace Sys2Proof.Machine

/-! setReg -/

@[simp] theorem State.setReg_pending (s : State) (a : Nat) (v : W32) : (s.setReg a v).pending = s.pending := rfl
@[simp] theorem State.setReg_fresh (s : State) (a : Nat) (v : W32) : (s.setReg a v).fresh = s.fresh := rfl
@[simp] theorem State.setReg_soft (s : State) (a : Nat) (v : W32) : (s.setReg a v).soft = s.soft := rfl
@[simp] theorem State.setReg_cores (s : State) (a : Nat) (v : W32) : (s.setReg a v).cores = s.cores := rfl
@[simp] theorem State.setReg_stools (s : State) (a : Nat) (v : W32) : (s.setReg a v).stools = s.stools := rfl
@[simp] theorem State.setReg_clock (s : State) (a : Nat) (v : W32) : (s.setReg a v).clock = s.clock := rfl
@[simp] theorem State.setReg_frame (s : State) (a : Nat) (v : W32) : (s.setReg a v).frame = s.frame := rfl
@[simp] theorem State.setReg_ev (s : State) (a : Nat) (v : W32) : (s.setReg a v).ev = s.ev := rfl
@[simp] theorem State.setReg_err (s : State) (a : Nat) (v : W32) : (s.setReg a v).err = s.err := rfl
@[simp] theorem State.setReg_power (s : State) (a : Nat) (v : W32) : (s.setReg a v).power = s.power := rfl
@[simp] theorem State.setReg_net (s : State) (a : Nat) (v : W32) : (s.setReg a v).net = s.net := rfl
@[simp] theorem State.setReg_coh (s : State) (a : Nat) (v : W32) : (s.setReg a v).coh = s.coh := rfl
@[simp] theorem State.setReg_mem (s : State) (a : Nat) (v : W32) : (s.setReg a v).mem = s.mem := rfl
@[simp] theorem State.setReg_otp (s : State) (a : Nat) (v : W32) : (s.setReg a v).otp = s.otp := rfl
@[simp] theorem State.setReg_rot (s : State) (a : Nat) (v : W32) : (s.setReg a v).rot = s.rot := rfl
@[simp] theorem State.setReg_te (s : State) (a : Nat) (v : W32) : (s.setReg a v).te = s.te := rfl
@[simp] theorem State.setReg_port (s : State) (a : Nat) (v : W32) : (s.setReg a v).port = s.port := rfl

/-! setNat -/

@[simp] theorem State.setNat_pending (s : State) (a v : Nat) : (s.setNat a v).pending = s.pending := rfl
@[simp] theorem State.setNat_fresh (s : State) (a v : Nat) : (s.setNat a v).fresh = s.fresh := rfl
@[simp] theorem State.setNat_soft (s : State) (a v : Nat) : (s.setNat a v).soft = s.soft := rfl
@[simp] theorem State.setNat_cores (s : State) (a v : Nat) : (s.setNat a v).cores = s.cores := rfl
@[simp] theorem State.setNat_stools (s : State) (a v : Nat) : (s.setNat a v).stools = s.stools := rfl
@[simp] theorem State.setNat_clock (s : State) (a v : Nat) : (s.setNat a v).clock = s.clock := rfl
@[simp] theorem State.setNat_frame (s : State) (a v : Nat) : (s.setNat a v).frame = s.frame := rfl
@[simp] theorem State.setNat_ev (s : State) (a v : Nat) : (s.setNat a v).ev = s.ev := rfl
@[simp] theorem State.setNat_err (s : State) (a v : Nat) : (s.setNat a v).err = s.err := rfl
@[simp] theorem State.setNat_power (s : State) (a v : Nat) : (s.setNat a v).power = s.power := rfl
@[simp] theorem State.setNat_net (s : State) (a v : Nat) : (s.setNat a v).net = s.net := rfl
@[simp] theorem State.setNat_coh (s : State) (a v : Nat) : (s.setNat a v).coh = s.coh := rfl
@[simp] theorem State.setNat_mem (s : State) (a v : Nat) : (s.setNat a v).mem = s.mem := rfl
@[simp] theorem State.setNat_otp (s : State) (a v : Nat) : (s.setNat a v).otp = s.otp := rfl
@[simp] theorem State.setNat_rot (s : State) (a v : Nat) : (s.setNat a v).rot = s.rot := rfl
@[simp] theorem State.setNat_te (s : State) (a v : Nat) : (s.setNat a v).te = s.te := rfl
@[simp] theorem State.setNat_port (s : State) (a v : Nat) : (s.setNat a v).port = s.port := rfl

/-! setFld -/

@[simp] theorem State.setFld_pending (s : State) (a lo w v : Nat) : (s.setFld a lo w v).pending = s.pending := rfl
@[simp] theorem State.setFld_fresh (s : State) (a lo w v : Nat) : (s.setFld a lo w v).fresh = s.fresh := rfl
@[simp] theorem State.setFld_soft (s : State) (a lo w v : Nat) : (s.setFld a lo w v).soft = s.soft := rfl
@[simp] theorem State.setFld_cores (s : State) (a lo w v : Nat) : (s.setFld a lo w v).cores = s.cores := rfl
@[simp] theorem State.setFld_stools (s : State) (a lo w v : Nat) : (s.setFld a lo w v).stools = s.stools := rfl
@[simp] theorem State.setFld_clock (s : State) (a lo w v : Nat) : (s.setFld a lo w v).clock = s.clock := rfl
@[simp] theorem State.setFld_frame (s : State) (a lo w v : Nat) : (s.setFld a lo w v).frame = s.frame := rfl
@[simp] theorem State.setFld_ev (s : State) (a lo w v : Nat) : (s.setFld a lo w v).ev = s.ev := rfl
@[simp] theorem State.setFld_err (s : State) (a lo w v : Nat) : (s.setFld a lo w v).err = s.err := rfl
@[simp] theorem State.setFld_power (s : State) (a lo w v : Nat) : (s.setFld a lo w v).power = s.power := rfl
@[simp] theorem State.setFld_net (s : State) (a lo w v : Nat) : (s.setFld a lo w v).net = s.net := rfl
@[simp] theorem State.setFld_coh (s : State) (a lo w v : Nat) : (s.setFld a lo w v).coh = s.coh := rfl
@[simp] theorem State.setFld_mem (s : State) (a lo w v : Nat) : (s.setFld a lo w v).mem = s.mem := rfl
@[simp] theorem State.setFld_otp (s : State) (a lo w v : Nat) : (s.setFld a lo w v).otp = s.otp := rfl
@[simp] theorem State.setFld_rot (s : State) (a lo w v : Nat) : (s.setFld a lo w v).rot = s.rot := rfl
@[simp] theorem State.setFld_te (s : State) (a lo w v : Nat) : (s.setFld a lo w v).te = s.te := rfl
@[simp] theorem State.setFld_port (s : State) (a lo w v : Nat) : (s.setFld a lo w v).port = s.port := rfl

/-! setBit -/

@[simp] theorem State.setBit_pending (s : State) (a i : Nat) (b : Bool) : (s.setBit a i b).pending = s.pending := rfl
@[simp] theorem State.setBit_fresh (s : State) (a i : Nat) (b : Bool) : (s.setBit a i b).fresh = s.fresh := rfl
@[simp] theorem State.setBit_soft (s : State) (a i : Nat) (b : Bool) : (s.setBit a i b).soft = s.soft := rfl
@[simp] theorem State.setBit_cores (s : State) (a i : Nat) (b : Bool) : (s.setBit a i b).cores = s.cores := rfl
@[simp] theorem State.setBit_stools (s : State) (a i : Nat) (b : Bool) : (s.setBit a i b).stools = s.stools := rfl
@[simp] theorem State.setBit_clock (s : State) (a i : Nat) (b : Bool) : (s.setBit a i b).clock = s.clock := rfl
@[simp] theorem State.setBit_frame (s : State) (a i : Nat) (b : Bool) : (s.setBit a i b).frame = s.frame := rfl
@[simp] theorem State.setBit_ev (s : State) (a i : Nat) (b : Bool) : (s.setBit a i b).ev = s.ev := rfl
@[simp] theorem State.setBit_err (s : State) (a i : Nat) (b : Bool) : (s.setBit a i b).err = s.err := rfl
@[simp] theorem State.setBit_power (s : State) (a i : Nat) (b : Bool) : (s.setBit a i b).power = s.power := rfl
@[simp] theorem State.setBit_net (s : State) (a i : Nat) (b : Bool) : (s.setBit a i b).net = s.net := rfl
@[simp] theorem State.setBit_coh (s : State) (a i : Nat) (b : Bool) : (s.setBit a i b).coh = s.coh := rfl
@[simp] theorem State.setBit_mem (s : State) (a i : Nat) (b : Bool) : (s.setBit a i b).mem = s.mem := rfl
@[simp] theorem State.setBit_otp (s : State) (a i : Nat) (b : Bool) : (s.setBit a i b).otp = s.otp := rfl
@[simp] theorem State.setBit_rot (s : State) (a i : Nat) (b : Bool) : (s.setBit a i b).rot = s.rot := rfl
@[simp] theorem State.setBit_te (s : State) (a i : Nat) (b : Bool) : (s.setBit a i b).te = s.te := rfl
@[simp] theorem State.setBit_port (s : State) (a i : Nat) (b : Bool) : (s.setBit a i b).port = s.port := rfl

/-! count -/

@[simp] theorem State.count_pending (s : State) (a n : Nat) : (s.count a n).pending = s.pending := rfl
@[simp] theorem State.count_fresh (s : State) (a n : Nat) : (s.count a n).fresh = s.fresh := rfl
@[simp] theorem State.count_soft (s : State) (a n : Nat) : (s.count a n).soft = s.soft := rfl
@[simp] theorem State.count_cores (s : State) (a n : Nat) : (s.count a n).cores = s.cores := rfl
@[simp] theorem State.count_stools (s : State) (a n : Nat) : (s.count a n).stools = s.stools := rfl
@[simp] theorem State.count_clock (s : State) (a n : Nat) : (s.count a n).clock = s.clock := rfl
@[simp] theorem State.count_frame (s : State) (a n : Nat) : (s.count a n).frame = s.frame := rfl
@[simp] theorem State.count_ev (s : State) (a n : Nat) : (s.count a n).ev = s.ev := rfl
@[simp] theorem State.count_err (s : State) (a n : Nat) : (s.count a n).err = s.err := rfl
@[simp] theorem State.count_power (s : State) (a n : Nat) : (s.count a n).power = s.power := rfl
@[simp] theorem State.count_net (s : State) (a n : Nat) : (s.count a n).net = s.net := rfl
@[simp] theorem State.count_coh (s : State) (a n : Nat) : (s.count a n).coh = s.coh := rfl
@[simp] theorem State.count_mem (s : State) (a n : Nat) : (s.count a n).mem = s.mem := rfl
@[simp] theorem State.count_otp (s : State) (a n : Nat) : (s.count a n).otp = s.otp := rfl
@[simp] theorem State.count_rot (s : State) (a n : Nat) : (s.count a n).rot = s.rot := rfl
@[simp] theorem State.count_te (s : State) (a n : Nat) : (s.count a n).te = s.te := rfl
@[simp] theorem State.count_port (s : State) (a n : Nat) : (s.count a n).port = s.port := rfl

/-! count16 -/

@[simp] theorem State.count16_pending (s : State) (a : Nat) : (s.count16 a).pending = s.pending := rfl
@[simp] theorem State.count16_fresh (s : State) (a : Nat) : (s.count16 a).fresh = s.fresh := rfl
@[simp] theorem State.count16_soft (s : State) (a : Nat) : (s.count16 a).soft = s.soft := rfl
@[simp] theorem State.count16_cores (s : State) (a : Nat) : (s.count16 a).cores = s.cores := rfl
@[simp] theorem State.count16_stools (s : State) (a : Nat) : (s.count16 a).stools = s.stools := rfl
@[simp] theorem State.count16_clock (s : State) (a : Nat) : (s.count16 a).clock = s.clock := rfl
@[simp] theorem State.count16_frame (s : State) (a : Nat) : (s.count16 a).frame = s.frame := rfl
@[simp] theorem State.count16_ev (s : State) (a : Nat) : (s.count16 a).ev = s.ev := rfl
@[simp] theorem State.count16_err (s : State) (a : Nat) : (s.count16 a).err = s.err := rfl
@[simp] theorem State.count16_power (s : State) (a : Nat) : (s.count16 a).power = s.power := rfl
@[simp] theorem State.count16_net (s : State) (a : Nat) : (s.count16 a).net = s.net := rfl
@[simp] theorem State.count16_coh (s : State) (a : Nat) : (s.count16 a).coh = s.coh := rfl
@[simp] theorem State.count16_mem (s : State) (a : Nat) : (s.count16 a).mem = s.mem := rfl
@[simp] theorem State.count16_otp (s : State) (a : Nat) : (s.count16 a).otp = s.otp := rfl
@[simp] theorem State.count16_rot (s : State) (a : Nat) : (s.count16 a).rot = s.rot := rfl
@[simp] theorem State.count16_te (s : State) (a : Nat) : (s.count16 a).te = s.te := rfl
@[simp] theorem State.count16_port (s : State) (a : Nat) : (s.count16 a).port = s.port := rfl

/-! setReg64 -/

@[simp] theorem State.setReg64_pending (s : State) (a v : Nat) : (s.setReg64 a v).pending = s.pending := rfl
@[simp] theorem State.setReg64_fresh (s : State) (a v : Nat) : (s.setReg64 a v).fresh = s.fresh := rfl
@[simp] theorem State.setReg64_soft (s : State) (a v : Nat) : (s.setReg64 a v).soft = s.soft := rfl
@[simp] theorem State.setReg64_cores (s : State) (a v : Nat) : (s.setReg64 a v).cores = s.cores := rfl
@[simp] theorem State.setReg64_stools (s : State) (a v : Nat) : (s.setReg64 a v).stools = s.stools := rfl
@[simp] theorem State.setReg64_clock (s : State) (a v : Nat) : (s.setReg64 a v).clock = s.clock := rfl
@[simp] theorem State.setReg64_frame (s : State) (a v : Nat) : (s.setReg64 a v).frame = s.frame := rfl
@[simp] theorem State.setReg64_ev (s : State) (a v : Nat) : (s.setReg64 a v).ev = s.ev := rfl
@[simp] theorem State.setReg64_err (s : State) (a v : Nat) : (s.setReg64 a v).err = s.err := rfl
@[simp] theorem State.setReg64_power (s : State) (a v : Nat) : (s.setReg64 a v).power = s.power := rfl
@[simp] theorem State.setReg64_net (s : State) (a v : Nat) : (s.setReg64 a v).net = s.net := rfl
@[simp] theorem State.setReg64_coh (s : State) (a v : Nat) : (s.setReg64 a v).coh = s.coh := rfl
@[simp] theorem State.setReg64_mem (s : State) (a v : Nat) : (s.setReg64 a v).mem = s.mem := rfl
@[simp] theorem State.setReg64_otp (s : State) (a v : Nat) : (s.setReg64 a v).otp = s.otp := rfl
@[simp] theorem State.setReg64_rot (s : State) (a v : Nat) : (s.setReg64 a v).rot = s.rot := rfl
@[simp] theorem State.setReg64_te (s : State) (a v : Nat) : (s.setReg64 a v).te = s.te := rfl
@[simp] theorem State.setReg64_port (s : State) (a v : Nat) : (s.setReg64 a v).port = s.port := rfl

/-! clearRegs -/

@[simp] theorem State.clearRegs_pending (s : State) (a b : Nat) : (s.clearRegs a b).pending = s.pending := rfl
@[simp] theorem State.clearRegs_fresh (s : State) (a b : Nat) : (s.clearRegs a b).fresh = s.fresh := rfl
@[simp] theorem State.clearRegs_soft (s : State) (a b : Nat) : (s.clearRegs a b).soft = s.soft := rfl
@[simp] theorem State.clearRegs_cores (s : State) (a b : Nat) : (s.clearRegs a b).cores = s.cores := rfl
@[simp] theorem State.clearRegs_stools (s : State) (a b : Nat) : (s.clearRegs a b).stools = s.stools := rfl
@[simp] theorem State.clearRegs_clock (s : State) (a b : Nat) : (s.clearRegs a b).clock = s.clock := rfl
@[simp] theorem State.clearRegs_frame (s : State) (a b : Nat) : (s.clearRegs a b).frame = s.frame := rfl
@[simp] theorem State.clearRegs_ev (s : State) (a b : Nat) : (s.clearRegs a b).ev = s.ev := rfl
@[simp] theorem State.clearRegs_err (s : State) (a b : Nat) : (s.clearRegs a b).err = s.err := rfl
@[simp] theorem State.clearRegs_power (s : State) (a b : Nat) : (s.clearRegs a b).power = s.power := rfl
@[simp] theorem State.clearRegs_net (s : State) (a b : Nat) : (s.clearRegs a b).net = s.net := rfl
@[simp] theorem State.clearRegs_coh (s : State) (a b : Nat) : (s.clearRegs a b).coh = s.coh := rfl
@[simp] theorem State.clearRegs_mem (s : State) (a b : Nat) : (s.clearRegs a b).mem = s.mem := rfl
@[simp] theorem State.clearRegs_otp (s : State) (a b : Nat) : (s.clearRegs a b).otp = s.otp := rfl
@[simp] theorem State.clearRegs_rot (s : State) (a b : Nat) : (s.clearRegs a b).rot = s.rot := rfl
@[simp] theorem State.clearRegs_te (s : State) (a b : Nat) : (s.clearRegs a b).te = s.te := rfl
@[simp] theorem State.clearRegs_port (s : State) (a b : Nat) : (s.clearRegs a b).port = s.port := rfl

/-! setCore -/

@[simp] theorem State.setCore_pending (s : State) (n : Nat) (c : Core) : (s.setCore n c).pending = s.pending := rfl
@[simp] theorem State.setCore_fresh (s : State) (n : Nat) (c : Core) : (s.setCore n c).fresh = s.fresh := rfl
@[simp] theorem State.setCore_regs (s : State) (n : Nat) (c : Core) : (s.setCore n c).regs = s.regs := rfl
@[simp] theorem State.setCore_soft (s : State) (n : Nat) (c : Core) : (s.setCore n c).soft = s.soft := rfl
@[simp] theorem State.setCore_stools (s : State) (n : Nat) (c : Core) : (s.setCore n c).stools = s.stools := rfl
@[simp] theorem State.setCore_clock (s : State) (n : Nat) (c : Core) : (s.setCore n c).clock = s.clock := rfl
@[simp] theorem State.setCore_frame (s : State) (n : Nat) (c : Core) : (s.setCore n c).frame = s.frame := rfl
@[simp] theorem State.setCore_ev (s : State) (n : Nat) (c : Core) : (s.setCore n c).ev = s.ev := rfl
@[simp] theorem State.setCore_err (s : State) (n : Nat) (c : Core) : (s.setCore n c).err = s.err := rfl
@[simp] theorem State.setCore_power (s : State) (n : Nat) (c : Core) : (s.setCore n c).power = s.power := rfl
@[simp] theorem State.setCore_net (s : State) (n : Nat) (c : Core) : (s.setCore n c).net = s.net := rfl
@[simp] theorem State.setCore_coh (s : State) (n : Nat) (c : Core) : (s.setCore n c).coh = s.coh := rfl
@[simp] theorem State.setCore_mem (s : State) (n : Nat) (c : Core) : (s.setCore n c).mem = s.mem := rfl
@[simp] theorem State.setCore_otp (s : State) (n : Nat) (c : Core) : (s.setCore n c).otp = s.otp := rfl
@[simp] theorem State.setCore_rot (s : State) (n : Nat) (c : Core) : (s.setCore n c).rot = s.rot := rfl
@[simp] theorem State.setCore_te (s : State) (n : Nat) (c : Core) : (s.setCore n c).te = s.te := rfl
@[simp] theorem State.setCore_port (s : State) (n : Nat) (c : Core) : (s.setCore n c).port = s.port := rfl

/-! updCore -/

@[simp] theorem State.updCore_pending (s : State) (n : Nat) (f : Core → Core) : (s.updCore n f).pending = s.pending := rfl
@[simp] theorem State.updCore_fresh (s : State) (n : Nat) (f : Core → Core) : (s.updCore n f).fresh = s.fresh := rfl
@[simp] theorem State.updCore_regs (s : State) (n : Nat) (f : Core → Core) : (s.updCore n f).regs = s.regs := rfl
@[simp] theorem State.updCore_soft (s : State) (n : Nat) (f : Core → Core) : (s.updCore n f).soft = s.soft := rfl
@[simp] theorem State.updCore_stools (s : State) (n : Nat) (f : Core → Core) : (s.updCore n f).stools = s.stools := rfl
@[simp] theorem State.updCore_clock (s : State) (n : Nat) (f : Core → Core) : (s.updCore n f).clock = s.clock := rfl
@[simp] theorem State.updCore_frame (s : State) (n : Nat) (f : Core → Core) : (s.updCore n f).frame = s.frame := rfl
@[simp] theorem State.updCore_ev (s : State) (n : Nat) (f : Core → Core) : (s.updCore n f).ev = s.ev := rfl
@[simp] theorem State.updCore_err (s : State) (n : Nat) (f : Core → Core) : (s.updCore n f).err = s.err := rfl
@[simp] theorem State.updCore_power (s : State) (n : Nat) (f : Core → Core) : (s.updCore n f).power = s.power := rfl
@[simp] theorem State.updCore_net (s : State) (n : Nat) (f : Core → Core) : (s.updCore n f).net = s.net := rfl
@[simp] theorem State.updCore_coh (s : State) (n : Nat) (f : Core → Core) : (s.updCore n f).coh = s.coh := rfl
@[simp] theorem State.updCore_mem (s : State) (n : Nat) (f : Core → Core) : (s.updCore n f).mem = s.mem := rfl
@[simp] theorem State.updCore_otp (s : State) (n : Nat) (f : Core → Core) : (s.updCore n f).otp = s.otp := rfl
@[simp] theorem State.updCore_rot (s : State) (n : Nat) (f : Core → Core) : (s.updCore n f).rot = s.rot := rfl
@[simp] theorem State.updCore_te (s : State) (n : Nat) (f : Core → Core) : (s.updCore n f).te = s.te := rfl
@[simp] theorem State.updCore_port (s : State) (n : Nat) (f : Core → Core) : (s.updCore n f).port = s.port := rfl

/-! updBunk -/

@[simp] theorem State.updBunk_pending (s : State) (n : Nat) (f : Bunk → Bunk) : (s.updBunk n f).pending = s.pending := rfl
@[simp] theorem State.updBunk_fresh (s : State) (n : Nat) (f : Bunk → Bunk) : (s.updBunk n f).fresh = s.fresh := rfl
@[simp] theorem State.updBunk_regs (s : State) (n : Nat) (f : Bunk → Bunk) : (s.updBunk n f).regs = s.regs := rfl
@[simp] theorem State.updBunk_soft (s : State) (n : Nat) (f : Bunk → Bunk) : (s.updBunk n f).soft = s.soft := rfl
@[simp] theorem State.updBunk_stools (s : State) (n : Nat) (f : Bunk → Bunk) : (s.updBunk n f).stools = s.stools := rfl
@[simp] theorem State.updBunk_clock (s : State) (n : Nat) (f : Bunk → Bunk) : (s.updBunk n f).clock = s.clock := rfl
@[simp] theorem State.updBunk_frame (s : State) (n : Nat) (f : Bunk → Bunk) : (s.updBunk n f).frame = s.frame := rfl
@[simp] theorem State.updBunk_ev (s : State) (n : Nat) (f : Bunk → Bunk) : (s.updBunk n f).ev = s.ev := rfl
@[simp] theorem State.updBunk_err (s : State) (n : Nat) (f : Bunk → Bunk) : (s.updBunk n f).err = s.err := rfl
@[simp] theorem State.updBunk_power (s : State) (n : Nat) (f : Bunk → Bunk) : (s.updBunk n f).power = s.power := rfl
@[simp] theorem State.updBunk_net (s : State) (n : Nat) (f : Bunk → Bunk) : (s.updBunk n f).net = s.net := rfl
@[simp] theorem State.updBunk_coh (s : State) (n : Nat) (f : Bunk → Bunk) : (s.updBunk n f).coh = s.coh := rfl
@[simp] theorem State.updBunk_mem (s : State) (n : Nat) (f : Bunk → Bunk) : (s.updBunk n f).mem = s.mem := rfl
@[simp] theorem State.updBunk_otp (s : State) (n : Nat) (f : Bunk → Bunk) : (s.updBunk n f).otp = s.otp := rfl
@[simp] theorem State.updBunk_rot (s : State) (n : Nat) (f : Bunk → Bunk) : (s.updBunk n f).rot = s.rot := rfl
@[simp] theorem State.updBunk_te (s : State) (n : Nat) (f : Bunk → Bunk) : (s.updBunk n f).te = s.te := rfl
@[simp] theorem State.updBunk_port (s : State) (n : Nat) (f : Bunk → Bunk) : (s.updBunk n f).port = s.port := rfl

/-! setStool -/

@[simp] theorem State.setStool_pending (s : State) (k : Nat) (t : Stool) : (s.setStool k t).pending = s.pending := rfl
@[simp] theorem State.setStool_fresh (s : State) (k : Nat) (t : Stool) : (s.setStool k t).fresh = s.fresh := rfl
@[simp] theorem State.setStool_regs (s : State) (k : Nat) (t : Stool) : (s.setStool k t).regs = s.regs := rfl
@[simp] theorem State.setStool_soft (s : State) (k : Nat) (t : Stool) : (s.setStool k t).soft = s.soft := rfl
@[simp] theorem State.setStool_cores (s : State) (k : Nat) (t : Stool) : (s.setStool k t).cores = s.cores := rfl
@[simp] theorem State.setStool_clock (s : State) (k : Nat) (t : Stool) : (s.setStool k t).clock = s.clock := rfl
@[simp] theorem State.setStool_frame (s : State) (k : Nat) (t : Stool) : (s.setStool k t).frame = s.frame := rfl
@[simp] theorem State.setStool_ev (s : State) (k : Nat) (t : Stool) : (s.setStool k t).ev = s.ev := rfl
@[simp] theorem State.setStool_err (s : State) (k : Nat) (t : Stool) : (s.setStool k t).err = s.err := rfl
@[simp] theorem State.setStool_power (s : State) (k : Nat) (t : Stool) : (s.setStool k t).power = s.power := rfl
@[simp] theorem State.setStool_net (s : State) (k : Nat) (t : Stool) : (s.setStool k t).net = s.net := rfl
@[simp] theorem State.setStool_coh (s : State) (k : Nat) (t : Stool) : (s.setStool k t).coh = s.coh := rfl
@[simp] theorem State.setStool_mem (s : State) (k : Nat) (t : Stool) : (s.setStool k t).mem = s.mem := rfl
@[simp] theorem State.setStool_otp (s : State) (k : Nat) (t : Stool) : (s.setStool k t).otp = s.otp := rfl
@[simp] theorem State.setStool_rot (s : State) (k : Nat) (t : Stool) : (s.setStool k t).rot = s.rot := rfl
@[simp] theorem State.setStool_te (s : State) (k : Nat) (t : Stool) : (s.setStool k t).te = s.te := rfl
@[simp] theorem State.setStool_port (s : State) (k : Nat) (t : Stool) : (s.setStool k t).port = s.port := rfl

/-! fire -/

@[simp] theorem State.fire_pending (s : State) (k : Nat) : (s.fire k).pending = s.pending := rfl
@[simp] theorem State.fire_fresh (s : State) (k : Nat) : (s.fire k).fresh = s.fresh := rfl
@[simp] theorem State.fire_regs (s : State) (k : Nat) : (s.fire k).regs = s.regs := rfl
@[simp] theorem State.fire_soft (s : State) (k : Nat) : (s.fire k).soft = s.soft := rfl
@[simp] theorem State.fire_cores (s : State) (k : Nat) : (s.fire k).cores = s.cores := rfl
@[simp] theorem State.fire_stools (s : State) (k : Nat) : (s.fire k).stools = s.stools := rfl
@[simp] theorem State.fire_clock (s : State) (k : Nat) : (s.fire k).clock = s.clock := rfl
@[simp] theorem State.fire_frame (s : State) (k : Nat) : (s.fire k).frame = s.frame := rfl
@[simp] theorem State.fire_err (s : State) (k : Nat) : (s.fire k).err = s.err := rfl
@[simp] theorem State.fire_power (s : State) (k : Nat) : (s.fire k).power = s.power := rfl
@[simp] theorem State.fire_net (s : State) (k : Nat) : (s.fire k).net = s.net := rfl
@[simp] theorem State.fire_coh (s : State) (k : Nat) : (s.fire k).coh = s.coh := rfl
@[simp] theorem State.fire_mem (s : State) (k : Nat) : (s.fire k).mem = s.mem := rfl
@[simp] theorem State.fire_otp (s : State) (k : Nat) : (s.fire k).otp = s.otp := rfl
@[simp] theorem State.fire_rot (s : State) (k : Nat) : (s.fire k).rot = s.rot := rfl
@[simp] theorem State.fire_te (s : State) (k : Nat) : (s.fire k).te = s.te := rfl
@[simp] theorem State.fire_port (s : State) (k : Nat) : (s.fire k).port = s.port := rfl

/-! fireStool -/

@[simp] theorem State.fireStool_pending (s : State) (k l b : Nat) : (s.fireStool k l b).pending = s.pending := rfl
@[simp] theorem State.fireStool_fresh (s : State) (k l b : Nat) : (s.fireStool k l b).fresh = s.fresh := rfl
@[simp] theorem State.fireStool_regs (s : State) (k l b : Nat) : (s.fireStool k l b).regs = s.regs := rfl
@[simp] theorem State.fireStool_soft (s : State) (k l b : Nat) : (s.fireStool k l b).soft = s.soft := rfl
@[simp] theorem State.fireStool_cores (s : State) (k l b : Nat) : (s.fireStool k l b).cores = s.cores := rfl
@[simp] theorem State.fireStool_stools (s : State) (k l b : Nat) : (s.fireStool k l b).stools = s.stools := rfl
@[simp] theorem State.fireStool_clock (s : State) (k l b : Nat) : (s.fireStool k l b).clock = s.clock := rfl
@[simp] theorem State.fireStool_frame (s : State) (k l b : Nat) : (s.fireStool k l b).frame = s.frame := rfl
@[simp] theorem State.fireStool_err (s : State) (k l b : Nat) : (s.fireStool k l b).err = s.err := rfl
@[simp] theorem State.fireStool_power (s : State) (k l b : Nat) : (s.fireStool k l b).power = s.power := rfl
@[simp] theorem State.fireStool_net (s : State) (k l b : Nat) : (s.fireStool k l b).net = s.net := rfl
@[simp] theorem State.fireStool_coh (s : State) (k l b : Nat) : (s.fireStool k l b).coh = s.coh := rfl
@[simp] theorem State.fireStool_mem (s : State) (k l b : Nat) : (s.fireStool k l b).mem = s.mem := rfl
@[simp] theorem State.fireStool_otp (s : State) (k l b : Nat) : (s.fireStool k l b).otp = s.otp := rfl
@[simp] theorem State.fireStool_rot (s : State) (k l b : Nat) : (s.fireStool k l b).rot = s.rot := rfl
@[simp] theorem State.fireStool_te (s : State) (k l b : Nat) : (s.fireStool k l b).te = s.te := rfl
@[simp] theorem State.fireStool_port (s : State) (k l b : Nat) : (s.fireStool k l b).port = s.port := rfl

/-! report -/

@[simp] theorem State.report_pending (s : State) (r : Report) : (s.report r).pending = s.pending := rfl
@[simp] theorem State.report_fresh (s : State) (r : Report) : (s.report r).fresh = s.fresh := rfl
@[simp] theorem State.report_regs (s : State) (r : Report) : (s.report r).regs = s.regs := rfl
@[simp] theorem State.report_soft (s : State) (r : Report) : (s.report r).soft = s.soft := rfl
@[simp] theorem State.report_cores (s : State) (r : Report) : (s.report r).cores = s.cores := rfl
@[simp] theorem State.report_stools (s : State) (r : Report) : (s.report r).stools = s.stools := rfl
@[simp] theorem State.report_clock (s : State) (r : Report) : (s.report r).clock = s.clock := rfl
@[simp] theorem State.report_frame (s : State) (r : Report) : (s.report r).frame = s.frame := rfl
@[simp] theorem State.report_ev (s : State) (r : Report) : (s.report r).ev = s.ev := rfl
@[simp] theorem State.report_power (s : State) (r : Report) : (s.report r).power = s.power := rfl
@[simp] theorem State.report_net (s : State) (r : Report) : (s.report r).net = s.net := rfl
@[simp] theorem State.report_coh (s : State) (r : Report) : (s.report r).coh = s.coh := rfl
@[simp] theorem State.report_mem (s : State) (r : Report) : (s.report r).mem = s.mem := rfl
@[simp] theorem State.report_otp (s : State) (r : Report) : (s.report r).otp = s.otp := rfl
@[simp] theorem State.report_rot (s : State) (r : Report) : (s.report r).rot = s.rot := rfl
@[simp] theorem State.report_te (s : State) (r : Report) : (s.report r).te = s.te := rfl
@[simp] theorem State.report_port (s : State) (r : Report) : (s.report r).port = s.port := rfl

/-! see -/

@[simp] theorem State.see_pending (s : State) (r : Report) : (s.see r).pending = s.pending := rfl
@[simp] theorem State.see_fresh (s : State) (r : Report) : (s.see r).fresh = s.fresh := rfl
@[simp] theorem State.see_regs (s : State) (r : Report) : (s.see r).regs = s.regs := rfl
@[simp] theorem State.see_soft (s : State) (r : Report) : (s.see r).soft = s.soft := rfl
@[simp] theorem State.see_cores (s : State) (r : Report) : (s.see r).cores = s.cores := rfl
@[simp] theorem State.see_stools (s : State) (r : Report) : (s.see r).stools = s.stools := rfl
@[simp] theorem State.see_clock (s : State) (r : Report) : (s.see r).clock = s.clock := rfl
@[simp] theorem State.see_frame (s : State) (r : Report) : (s.see r).frame = s.frame := rfl
@[simp] theorem State.see_ev (s : State) (r : Report) : (s.see r).ev = s.ev := rfl
@[simp] theorem State.see_power (s : State) (r : Report) : (s.see r).power = s.power := rfl
@[simp] theorem State.see_net (s : State) (r : Report) : (s.see r).net = s.net := rfl
@[simp] theorem State.see_coh (s : State) (r : Report) : (s.see r).coh = s.coh := rfl
@[simp] theorem State.see_mem (s : State) (r : Report) : (s.see r).mem = s.mem := rfl
@[simp] theorem State.see_otp (s : State) (r : Report) : (s.see r).otp = s.otp := rfl
@[simp] theorem State.see_rot (s : State) (r : Report) : (s.see r).rot = s.rot := rfl
@[simp] theorem State.see_te (s : State) (r : Report) : (s.see r).te = s.te := rfl
@[simp] theorem State.see_port (s : State) (r : Report) : (s.see r).port = s.port := rfl

/-! capture -/

@[simp] theorem State.capture_pending (s : State) (i a : Nat) (v : W32) : (s.capture i a v).pending = s.pending := rfl
@[simp] theorem State.capture_fresh (s : State) (i a : Nat) (v : W32) : (s.capture i a v).fresh = s.fresh := rfl
@[simp] theorem State.capture_regs (s : State) (i a : Nat) (v : W32) : (s.capture i a v).regs = s.regs := rfl
@[simp] theorem State.capture_soft (s : State) (i a : Nat) (v : W32) : (s.capture i a v).soft = s.soft := rfl
@[simp] theorem State.capture_cores (s : State) (i a : Nat) (v : W32) : (s.capture i a v).cores = s.cores := rfl
@[simp] theorem State.capture_stools (s : State) (i a : Nat) (v : W32) : (s.capture i a v).stools = s.stools := rfl
@[simp] theorem State.capture_frame (s : State) (i a : Nat) (v : W32) : (s.capture i a v).frame = s.frame := rfl
@[simp] theorem State.capture_ev (s : State) (i a : Nat) (v : W32) : (s.capture i a v).ev = s.ev := rfl
@[simp] theorem State.capture_err (s : State) (i a : Nat) (v : W32) : (s.capture i a v).err = s.err := rfl
@[simp] theorem State.capture_power (s : State) (i a : Nat) (v : W32) : (s.capture i a v).power = s.power := rfl
@[simp] theorem State.capture_net (s : State) (i a : Nat) (v : W32) : (s.capture i a v).net = s.net := rfl
@[simp] theorem State.capture_coh (s : State) (i a : Nat) (v : W32) : (s.capture i a v).coh = s.coh := rfl
@[simp] theorem State.capture_mem (s : State) (i a : Nat) (v : W32) : (s.capture i a v).mem = s.mem := rfl
@[simp] theorem State.capture_otp (s : State) (i a : Nat) (v : W32) : (s.capture i a v).otp = s.otp := rfl
@[simp] theorem State.capture_rot (s : State) (i a : Nat) (v : W32) : (s.capture i a v).rot = s.rot := rfl
@[simp] theorem State.capture_te (s : State) (i a : Nat) (v : W32) : (s.capture i a v).te = s.te := rfl
@[simp] theorem State.capture_port (s : State) (i a : Nat) (v : W32) : (s.capture i a v).port = s.port := rfl

/-! retired -/

@[simp] theorem State.retired_pending (s : State) (n : Nat) : (s.retired n).pending = s.pending := rfl
@[simp] theorem State.retired_fresh (s : State) (n : Nat) : (s.retired n).fresh = s.fresh := rfl
@[simp] theorem State.retired_soft (s : State) (n : Nat) : (s.retired n).soft = s.soft := rfl
@[simp] theorem State.retired_cores (s : State) (n : Nat) : (s.retired n).cores = s.cores := rfl
@[simp] theorem State.retired_stools (s : State) (n : Nat) : (s.retired n).stools = s.stools := rfl
@[simp] theorem State.retired_clock (s : State) (n : Nat) : (s.retired n).clock = s.clock := rfl
@[simp] theorem State.retired_frame (s : State) (n : Nat) : (s.retired n).frame = s.frame := rfl
@[simp] theorem State.retired_ev (s : State) (n : Nat) : (s.retired n).ev = s.ev := rfl
@[simp] theorem State.retired_err (s : State) (n : Nat) : (s.retired n).err = s.err := rfl
@[simp] theorem State.retired_power (s : State) (n : Nat) : (s.retired n).power = s.power := rfl
@[simp] theorem State.retired_net (s : State) (n : Nat) : (s.retired n).net = s.net := rfl
@[simp] theorem State.retired_coh (s : State) (n : Nat) : (s.retired n).coh = s.coh := rfl
@[simp] theorem State.retired_mem (s : State) (n : Nat) : (s.retired n).mem = s.mem := rfl
@[simp] theorem State.retired_otp (s : State) (n : Nat) : (s.retired n).otp = s.otp := rfl
@[simp] theorem State.retired_rot (s : State) (n : Nat) : (s.retired n).rot = s.rot := rfl
@[simp] theorem State.retired_te (s : State) (n : Nat) : (s.retired n).te = s.te := rfl
@[simp] theorem State.retired_port (s : State) (n : Nat) : (s.retired n).port = s.port := rfl

/-! Core.setSys -/

@[simp] theorem Core.setSys_g (c : Core) (n : Nat) (v : W64) : (c.setSys n v).g = c.g := rfl
@[simp] theorem Core.setSys_f (c : Core) (n : Nat) (v : W64) : (c.setSys n v).f = c.f := rfl
@[simp] theorem Core.setSys_pc (c : Core) (n : Nat) (v : W64) : (c.setSys n v).pc = c.pc := rfl
@[simp] theorem Core.setSys_level (c : Core) (n : Nat) (v : W64) : (c.setSys n v).level = c.level := rfl
@[simp] theorem Core.setSys_run (c : Core) (n : Nat) (v : W64) : (c.setSys n v).run = c.run := rfl
@[simp] theorem Core.setSys_vec (c : Core) (n : Nat) (v : W64) : (c.setSys n v).vec = c.vec := rfl
@[simp] theorem Core.setSys_entered (c : Core) (n : Nat) (v : W64) : (c.setSys n v).entered = c.entered := rfl
@[simp] theorem Core.setSys_held (c : Core) (n : Nat) (v : W64) : (c.setSys n v).held = c.held := rfl
@[simp] theorem Core.setSys_sb (c : Core) (n : Nat) (v : W64) : (c.setSys n v).sb = c.sb := rfl
@[simp] theorem Core.setSys_replay (c : Core) (n : Nat) (v : W64) : (c.setSys n v).replay = c.replay := rfl
@[simp] theorem Core.setSys_itlb (c : Core) (n : Nat) (v : W64) : (c.setSys n v).itlb = c.itlb := rfl
@[simp] theorem Core.setSys_dtlb (c : Core) (n : Nat) (v : W64) : (c.setSys n v).dtlb = c.dtlb := rfl
@[simp] theorem Core.setSys_l2tlb (c : Core) (n : Nat) (v : W64) : (c.setSys n v).l2tlb = c.l2tlb := rfl
@[simp] theorem Core.setSys_l2rr (c : Core) (n : Nat) (v : W64) : (c.setSys n v).l2rr = c.l2rr := rfl
@[simp] theorem Core.setSys_walk (c : Core) (n : Nat) (v : W64) : (c.setSys n v).walk = c.walk := rfl
@[simp] theorem Core.setSys_tlbis (c : Core) (n : Nat) (v : W64) : (c.setSys n v).tlbis = c.tlbis := rfl
@[simp] theorem Core.setSys_l1i (c : Core) (n : Nat) (v : W64) : (c.setSys n v).l1i = c.l1i := rfl
@[simp] theorem Core.setSys_l1d (c : Core) (n : Nat) (v : W64) : (c.setSys n v).l1d = c.l1d := rfl
@[simp] theorem Core.setSys_pred (c : Core) (n : Nat) (v : W64) : (c.setSys n v).pred = c.pred := rfl
@[simp] theorem Core.setSys_rstack (c : Core) (n : Nat) (v : W64) : (c.setSys n v).rstack = c.rstack := rfl
@[simp] theorem Core.setSys_pl (c : Core) (n : Nat) (v : W64) : (c.setSys n v).pl = c.pl := rfl
@[simp] theorem Core.setSys_ra (c : Core) (n : Nat) (v : W64) : (c.setSys n v).ra = c.ra := rfl
@[simp] theorem Core.setSys_raDone (c : Core) (n : Nat) (v : W64) : (c.setSys n v).raDone = c.raDone := rfl
@[simp] theorem Core.setSys_fetchWait (c : Core) (n : Nat) (v : W64) : (c.setSys n v).fetchWait = c.fetchWait := rfl
@[simp] theorem Core.setSys_queue (c : Core) (n : Nat) (v : W64) : (c.setSys n v).queue = c.queue := rfl
@[simp] theorem Core.setSys_stuck (c : Core) (n : Nat) (v : W64) : (c.setSys n v).stuck = c.stuck := rfl
@[simp] theorem Core.setSys_xlWait (c : Core) (n : Nat) (v : W64) : (c.setSys n v).xlWait = c.xlWait := rfl
@[simp] theorem Core.setSys_issued (c : Core) (n : Nat) (v : W64) : (c.setSys n v).issued = c.issued := rfl
@[simp] theorem Core.setSys_came (c : Core) (n : Nat) (v : W64) : (c.setSys n v).came = c.came := rfl
@[simp] theorem Core.setSys_ext (c : Core) (n : Nat) (v : W64) : (c.setSys n v).ext = c.ext := rfl
@[simp] theorem Core.setSys_given (c : Core) (n : Nat) (v : W64) : (c.setSys n v).given = c.given := rfl
@[simp] theorem Core.setSys_bunk (c : Core) (n : Nat) (v : W64) : (c.setSys n v).bunk = c.bunk := rfl

/-! Core.setF -/

@[simp] theorem Core.setF_g (c : Core) (n : Nat) (v : W128) : (c.setF n v).g = c.g := rfl
@[simp] theorem Core.setF_sys (c : Core) (n : Nat) (v : W128) : (c.setF n v).sys = c.sys := rfl
@[simp] theorem Core.setF_pc (c : Core) (n : Nat) (v : W128) : (c.setF n v).pc = c.pc := rfl
@[simp] theorem Core.setF_level (c : Core) (n : Nat) (v : W128) : (c.setF n v).level = c.level := rfl
@[simp] theorem Core.setF_run (c : Core) (n : Nat) (v : W128) : (c.setF n v).run = c.run := rfl
@[simp] theorem Core.setF_vec (c : Core) (n : Nat) (v : W128) : (c.setF n v).vec = c.vec := rfl
@[simp] theorem Core.setF_entered (c : Core) (n : Nat) (v : W128) : (c.setF n v).entered = c.entered := rfl
@[simp] theorem Core.setF_held (c : Core) (n : Nat) (v : W128) : (c.setF n v).held = c.held := rfl
@[simp] theorem Core.setF_sb (c : Core) (n : Nat) (v : W128) : (c.setF n v).sb = c.sb := rfl
@[simp] theorem Core.setF_replay (c : Core) (n : Nat) (v : W128) : (c.setF n v).replay = c.replay := rfl
@[simp] theorem Core.setF_itlb (c : Core) (n : Nat) (v : W128) : (c.setF n v).itlb = c.itlb := rfl
@[simp] theorem Core.setF_dtlb (c : Core) (n : Nat) (v : W128) : (c.setF n v).dtlb = c.dtlb := rfl
@[simp] theorem Core.setF_l2tlb (c : Core) (n : Nat) (v : W128) : (c.setF n v).l2tlb = c.l2tlb := rfl
@[simp] theorem Core.setF_l2rr (c : Core) (n : Nat) (v : W128) : (c.setF n v).l2rr = c.l2rr := rfl
@[simp] theorem Core.setF_walk (c : Core) (n : Nat) (v : W128) : (c.setF n v).walk = c.walk := rfl
@[simp] theorem Core.setF_tlbis (c : Core) (n : Nat) (v : W128) : (c.setF n v).tlbis = c.tlbis := rfl
@[simp] theorem Core.setF_l1i (c : Core) (n : Nat) (v : W128) : (c.setF n v).l1i = c.l1i := rfl
@[simp] theorem Core.setF_l1d (c : Core) (n : Nat) (v : W128) : (c.setF n v).l1d = c.l1d := rfl
@[simp] theorem Core.setF_pred (c : Core) (n : Nat) (v : W128) : (c.setF n v).pred = c.pred := rfl
@[simp] theorem Core.setF_rstack (c : Core) (n : Nat) (v : W128) : (c.setF n v).rstack = c.rstack := rfl
@[simp] theorem Core.setF_pl (c : Core) (n : Nat) (v : W128) : (c.setF n v).pl = c.pl := rfl
@[simp] theorem Core.setF_ra (c : Core) (n : Nat) (v : W128) : (c.setF n v).ra = c.ra := rfl
@[simp] theorem Core.setF_raDone (c : Core) (n : Nat) (v : W128) : (c.setF n v).raDone = c.raDone := rfl
@[simp] theorem Core.setF_fetchWait (c : Core) (n : Nat) (v : W128) : (c.setF n v).fetchWait = c.fetchWait := rfl
@[simp] theorem Core.setF_queue (c : Core) (n : Nat) (v : W128) : (c.setF n v).queue = c.queue := rfl
@[simp] theorem Core.setF_stuck (c : Core) (n : Nat) (v : W128) : (c.setF n v).stuck = c.stuck := rfl
@[simp] theorem Core.setF_xlWait (c : Core) (n : Nat) (v : W128) : (c.setF n v).xlWait = c.xlWait := rfl
@[simp] theorem Core.setF_issued (c : Core) (n : Nat) (v : W128) : (c.setF n v).issued = c.issued := rfl
@[simp] theorem Core.setF_came (c : Core) (n : Nat) (v : W128) : (c.setF n v).came = c.came := rfl
@[simp] theorem Core.setF_ext (c : Core) (n : Nat) (v : W128) : (c.setF n v).ext = c.ext := rfl
@[simp] theorem Core.setF_given (c : Core) (n : Nat) (v : W128) : (c.setF n v).given = c.given := rfl
@[simp] theorem Core.setF_bunk (c : Core) (n : Nat) (v : W128) : (c.setF n v).bunk = c.bunk := rfl

/-! Core.settled -/

@[simp] theorem Core.settled_g (c : Core)  : (c.settled).g = c.g := rfl
@[simp] theorem Core.settled_f (c : Core)  : (c.settled).f = c.f := rfl
@[simp] theorem Core.settled_sys (c : Core)  : (c.settled).sys = c.sys := rfl
@[simp] theorem Core.settled_pc (c : Core)  : (c.settled).pc = c.pc := rfl
@[simp] theorem Core.settled_level (c : Core)  : (c.settled).level = c.level := rfl
@[simp] theorem Core.settled_run (c : Core)  : (c.settled).run = c.run := rfl
@[simp] theorem Core.settled_held (c : Core)  : (c.settled).held = c.held := rfl
@[simp] theorem Core.settled_sb (c : Core)  : (c.settled).sb = c.sb := rfl
@[simp] theorem Core.settled_itlb (c : Core)  : (c.settled).itlb = c.itlb := rfl
@[simp] theorem Core.settled_dtlb (c : Core)  : (c.settled).dtlb = c.dtlb := rfl
@[simp] theorem Core.settled_l2tlb (c : Core)  : (c.settled).l2tlb = c.l2tlb := rfl
@[simp] theorem Core.settled_l2rr (c : Core)  : (c.settled).l2rr = c.l2rr := rfl
@[simp] theorem Core.settled_walk (c : Core)  : (c.settled).walk = c.walk := rfl
@[simp] theorem Core.settled_tlbis (c : Core)  : (c.settled).tlbis = c.tlbis := rfl
@[simp] theorem Core.settled_l1i (c : Core)  : (c.settled).l1i = c.l1i := rfl
@[simp] theorem Core.settled_l1d (c : Core)  : (c.settled).l1d = c.l1d := rfl
@[simp] theorem Core.settled_pred (c : Core)  : (c.settled).pred = c.pred := rfl
@[simp] theorem Core.settled_rstack (c : Core)  : (c.settled).rstack = c.rstack := rfl
@[simp] theorem Core.settled_pl (c : Core)  : (c.settled).pl = c.pl := rfl
@[simp] theorem Core.settled_ra (c : Core)  : (c.settled).ra = c.ra := rfl
@[simp] theorem Core.settled_fetchWait (c : Core)  : (c.settled).fetchWait = c.fetchWait := rfl
@[simp] theorem Core.settled_queue (c : Core)  : (c.settled).queue = c.queue := rfl
@[simp] theorem Core.settled_stuck (c : Core)  : (c.settled).stuck = c.stuck := rfl
@[simp] theorem Core.settled_issued (c : Core)  : (c.settled).issued = false := rfl
@[simp] theorem Core.settled_bunk (c : Core)  : (c.settled).bunk = c.bunk := rfl

/-! Core.stick -/

@[simp] theorem Core.stick_g (c : Core) (k : Nat) : (c.stick k).g = c.g := rfl
@[simp] theorem Core.stick_f (c : Core) (k : Nat) : (c.stick k).f = c.f := rfl
@[simp] theorem Core.stick_pc (c : Core) (k : Nat) : (c.stick k).pc = c.pc := rfl
@[simp] theorem Core.stick_level (c : Core) (k : Nat) : (c.stick k).level = c.level := rfl
@[simp] theorem Core.stick_run (c : Core) (k : Nat) : (c.stick k).run = c.run := rfl
@[simp] theorem Core.stick_vec (c : Core) (k : Nat) : (c.stick k).vec = c.vec := rfl
@[simp] theorem Core.stick_entered (c : Core) (k : Nat) : (c.stick k).entered = c.entered := rfl
@[simp] theorem Core.stick_held (c : Core) (k : Nat) : (c.stick k).held = c.held := rfl
@[simp] theorem Core.stick_sb (c : Core) (k : Nat) : (c.stick k).sb = c.sb := rfl
@[simp] theorem Core.stick_replay (c : Core) (k : Nat) : (c.stick k).replay = c.replay := rfl
@[simp] theorem Core.stick_itlb (c : Core) (k : Nat) : (c.stick k).itlb = c.itlb := rfl
@[simp] theorem Core.stick_dtlb (c : Core) (k : Nat) : (c.stick k).dtlb = c.dtlb := rfl
@[simp] theorem Core.stick_l2tlb (c : Core) (k : Nat) : (c.stick k).l2tlb = c.l2tlb := rfl
@[simp] theorem Core.stick_l2rr (c : Core) (k : Nat) : (c.stick k).l2rr = c.l2rr := rfl
@[simp] theorem Core.stick_walk (c : Core) (k : Nat) : (c.stick k).walk = c.walk := rfl
@[simp] theorem Core.stick_tlbis (c : Core) (k : Nat) : (c.stick k).tlbis = c.tlbis := rfl
@[simp] theorem Core.stick_l1i (c : Core) (k : Nat) : (c.stick k).l1i = c.l1i := rfl
@[simp] theorem Core.stick_l1d (c : Core) (k : Nat) : (c.stick k).l1d = c.l1d := rfl
@[simp] theorem Core.stick_pred (c : Core) (k : Nat) : (c.stick k).pred = c.pred := rfl
@[simp] theorem Core.stick_rstack (c : Core) (k : Nat) : (c.stick k).rstack = c.rstack := rfl
@[simp] theorem Core.stick_pl (c : Core) (k : Nat) : (c.stick k).pl = c.pl := rfl
@[simp] theorem Core.stick_ra (c : Core) (k : Nat) : (c.stick k).ra = c.ra := rfl
@[simp] theorem Core.stick_raDone (c : Core) (k : Nat) : (c.stick k).raDone = c.raDone := rfl
@[simp] theorem Core.stick_fetchWait (c : Core) (k : Nat) : (c.stick k).fetchWait = c.fetchWait := rfl
@[simp] theorem Core.stick_queue (c : Core) (k : Nat) : (c.stick k).queue = c.queue := rfl
@[simp] theorem Core.stick_stuck (c : Core) (k : Nat) : (c.stick k).stuck = c.stuck := rfl
@[simp] theorem Core.stick_xlWait (c : Core) (k : Nat) : (c.stick k).xlWait = c.xlWait := rfl
@[simp] theorem Core.stick_issued (c : Core) (k : Nat) : (c.stick k).issued = c.issued := rfl
@[simp] theorem Core.stick_came (c : Core) (k : Nat) : (c.stick k).came = c.came := rfl
@[simp] theorem Core.stick_ext (c : Core) (k : Nat) : (c.stick k).ext = c.ext := rfl
@[simp] theorem Core.stick_given (c : Core) (k : Nat) : (c.stick k).given = c.given := rfl
@[simp] theorem Core.stick_bunk (c : Core) (k : Nat) : (c.stick k).bunk = c.bunk := rfl

/-! ### Reads after writes -/

theorem State.reg_setReg (s : State) (a b : Nat) (v : W32) : (s.setReg a v).reg b = if b = a then v else s.reg b := by
  unfold State.reg State.setReg
  by_cases h : b = a
  · subst h; simp
  · rw [if_neg h]
    have : SMap.get (resetValue b) (SMap.set (resetValue a) s.regs a v) b = SMap.get (resetValue b) s.regs b := by
      unfold SMap.set; split
      · rw [SMap.get_erase, if_neg h]
      · rw [SMap.get_insert, if_neg h]
    exact this

@[simp] theorem State.reg_setReg_same (s : State) (a : Nat) (v : W32) : (s.setReg a v).reg a = v := by
  rw [State.reg_setReg, if_pos rfl]

theorem State.reg_setReg_other (s : State) (a b : Nat) (v : W32) (h : b ≠ a) : (s.setReg a v).reg b = s.reg b := by
  rw [State.reg_setReg, if_neg h]

theorem State.reg_congr {s t : State} (h : t.regs = s.regs) (a : Nat) : t.reg a = s.reg a := by
  unfold State.reg; rw [h]

theorem State.core_congr {s t : State} (h : t.cores = s.cores) (n : Nat) : t.core n = s.core n := by
  unfold State.core; rw [h]

theorem State.stool_congr {s t : State} (h : t.stools = s.stools) (k : Nat) : t.stool k = s.stool k := by
  unfold State.stool; rw [h]

theorem State.core_setCore (s : State) (n m : Nat) (c : Core) : (s.setCore n c).core m = if m = n then c else s.core m :=
  SMap.get_set _ _ _ _ _

@[simp] theorem State.core_setCore_same (s : State) (n : Nat) (c : Core) : (s.setCore n c).core n = c := by
  rw [State.core_setCore, if_pos rfl]

theorem State.core_updCore (s : State) (n m : Nat) (f : Core → Core) :
    (s.updCore n f).core m = if m = n then f (s.core n) else s.core m := State.core_setCore s n m _

@[simp] theorem State.core_updCore_same (s : State) (n : Nat) (f : Core → Core) : (s.updCore n f).core n = f (s.core n) := by
  rw [State.core_updCore, if_pos rfl]

theorem State.stool_setStool (s : State) (k j : Nat) (t : Stool) : (s.setStool k t).stool j = if j = k then t else s.stool j :=
  SMap.get_set _ _ _ _ _

@[simp] theorem State.stool_setStool_same (s : State) (k : Nat) (t : Stool) : (s.setStool k t).stool k = t := by
  rw [State.stool_setStool, if_pos rfl]

theorem Core.sysReg_setSys (c : Core) (n m : Nat) (v : W64) : (c.setSys n v).sysReg m = if m = n then v else c.sysReg m := by
  unfold Core.sysReg Core.setSys
  by_cases h : m = n
  · subst h; simp
  · rw [if_neg h]; show SMap.get _ (SMap.set _ _ _ _) _ = _
    unfold SMap.set; split
    · rw [SMap.get_erase, if_neg h]
    · rw [SMap.get_insert, if_neg h]

/-- A general register after a write: register 0 stays 0 (04 R70). -/
theorem Core.gr_setG (c : Core) (n m : Nat) (v : W64) : (c.setG n v).gr m = if m = n ∧ n ≠ 0 then v else c.gr m := by
  unfold Core.gr Core.setG
  by_cases h0 : n = 0
  · simp [h0]
  · by_cases hm : m = 0
    · have : ¬ (m = n) := by omega
      simp [hm, Ne.symm h0]
    · simp [h0, hm, SMap.get_set]

theorem Core.fr_setF (c : Core) (n m : Nat) (v : W128) : (c.setF n v).fr m = if m = n then v else c.fr m :=
  SMap.get_set _ _ _ _ _

theorem Core.setG_frame (c : Core) (n : Nat) (v : W64) : c.setG n v = { c with g := (c.setG n v).g } := by
  unfold Core.setG; split <;> rfl

theorem Core.fr_setG (c : Core) (n m : Nat) (v : W64) : (c.setG n v).fr m = c.fr m := by rw [Core.setG_frame]; rfl
theorem Core.sysReg_setG (c : Core) (n m : Nat) (v : W64) : (c.setG n v).sysReg m = c.sysReg m := by rw [Core.setG_frame]; rfl
theorem Core.gr_setSys (c : Core) (n m : Nat) (v : W64) : (c.setSys n v).gr m = c.gr m := rfl
theorem Core.fr_setSys (c : Core) (n m : Nat) (v : W64) : (c.setSys n v).fr m = c.fr m := rfl
theorem Core.gr_setF (c : Core) (n m : Nat) (v : W128) : (c.setF n v).gr m = c.gr m := rfl
theorem Core.sysReg_setF (c : Core) (n m : Nat) (v : W128) : (c.setF n v).sysReg m = c.sysReg m := rfl

theorem Stool.lr_setLr (t : Stool) (o p : Nat) (v : W32) : (t.setLr o v).lr p = if p = o then v else t.lr p := by
  unfold Stool.lr Stool.setLr
  by_cases h : p = o
  · subst h; simp
  · rw [if_neg h]; show SMap.get _ (SMap.set _ _ _ _) _ = _
    unfold SMap.set; split
    · rw [SMap.get_erase, if_neg h]
    · rw [SMap.get_insert, if_neg h]

/-- A 64-bit count in two registers after a write. -/
theorem State.reg64_setReg64 (s : State) (a v : Nat) : (s.setReg64 a v).reg64 a = v % 2 ^ 64 := by
  unfold State.setReg64 State.reg64 State.setNat
  rw [State.reg_setReg_same, State.reg_setReg_other _ _ _ _ (by omega), State.reg_setReg_same]
  simp only [BitVec.toNat_ofNat]
  omega

theorem State.reg_setReg64_other (s : State) (a b v : Nat) (h : b ≠ a) (h' : b ≠ a + 4) : (s.setReg64 a v).reg b = s.reg b := by
  unfold State.setReg64 State.setNat
  rw [State.reg_setReg_other _ _ _ _ h', State.reg_setReg_other _ _ _ _ h]

end Sys2Proof.Machine
end

