-- ==== Sys2Proof/Laws/Ctl.lean ====
section
/-! SUPPORT. What a permitted control-space access does. -/

namespace Sys2Proof.Machine

/-- In a block that runs, a command's effect is performed. -/
theorem act_runs (s : State) (f : State → State) (h : s.stalled = false) : act s f = .next (f s) := by simp [act, h]

/-- In a block that stands still, a command leaves it as it is. -/
theorem act_stalled (s : State) (f : State → State) (h : s.stalled = true) : act s f = .next s := by simp [act, h]

/-- The page that answers at an offset is the page that stands there. -/
theorem State.pageOf_of_pageAt {s : State} {a : Nat} {p : Page} (h : s.pageAt a = some p) : pageOf a = some p := by
  unfold State.pageAt at h
  split at h
  · rename_i q hq
    split at h
    · cases h; exact hq
    · cases h
  · cases h

/-- A permitted write of 4 bytes is a write of the register (02 R26, R33). -/
theorem State.write4_mayWrite {s : State} {i : Initiator} {a : Nat} {p : Page} (h : MayWrite s i a p) (v : W32) :
    s.write4 i a v = s.writeReg (iniCode i) (s.partOf i) s.power.aon p (a % 4096) v := by
  have hv : BitVec.ofNat 32 (v.toNat % 4294967296) = v := by
    rw [Nat.mod_eq_of_lt v.isLt, BitVec.ofNat_toNat, BitVec.setWidth_eq]
  have hw : a % 4096 / 4 * 4 = a % 4096 := by have := h.word; omega
  have hm : s.mayWrite p (s.partOf i) = true := by
    rcases h.owns with h0 | h0 <;> simp [State.mayWrite, h0]
  have hs : ¬(s.partOf i ≠ 0 ∧ p.sysOnly (a % 4096) = true) := by
    rcases h.owns with h0 | h0 <;> simp [h0]
  simp only [State.write4, State.ctlStore, State.ctlWrite1, h.there, State.acceptWrite, hw, h.takes, hm]
  simp_all

/-- A command that is a permitted write answers the block that the register's write leaves. -/
theorem act_write4 {s : State} {i : Initiator} {a : Nat} {p : Page} (h : MayWrite s i a p) (v : W32) :
    act s (fun s => s.write4 i a v) = .next (s.writeReg (iniCode i) (s.partOf i) s.power.aon p (a % 4096) v) := by
  rw [act_runs _ _ h.runs, State.write4_mayWrite h]

/-- A read of 4 bytes that a page answers is a read of the register (02 R26). -/
theorem State.read4_mayRead {s : State} {a : Nat} {p : Page} (h : MayRead s a p) (i : Initiator) :
    s.read4 i a = (s.readReg (iniCode i) p (a % 4096 / 4 * 4)).2 := by
  simp [State.read4, State.ctlLoad, State.ctlRead1, h.there]

end Sys2Proof.Machine
end

