-- ==== Sys2Proof/Laws/Via.lean ====
section
/-! SUPPORT. What a fetch, a translation and an access through the caches leave alone, function by function. -/

namespace Sys2Proof.Machine

theorem ViaCaches.refl (s : State) : ViaCaches s s := by constructor <;> intros <;> rfl

theorem ViaCaches.trans {s t u : State} (h : ViaCaches s t) (k : ViaCaches t u) : ViaCaches s u where
  cores m := (k.cores m).trans (h.cores m)
  mem := k.mem.trans h.mem
  stools := k.stools.trans h.stools
  clock := k.clock.trans h.clock
  frame := k.frame.trans h.frame
  ev := k.ev.trans h.ev
  power := k.power.trans h.power
  otp := k.otp.trans h.otp
  rot := k.rot.trans h.rot
  te := k.te.trans h.te
  port := k.port.trans h.port
  soft := k.soft.trans h.soft
  pending := k.pending.trans h.pending

/-- Registers of pages, error records, the fabric, the shared caches and the free values drawn do not matter. -/
theorem ViaCaches.of_eq {s t : State} (h : t = { s with regs := t.regs, err := t.err, net := t.net, coh := t.coh, fresh := t.fresh }) :
    ViaCaches s t := by
  rw [h]; constructor <;> intros <;> rfl

theorem ViaCaches.updCore (s : State) (n : Nat) (f : Core → Core) (h : ∀ c, (f c).arch = c.arch) : ViaCaches s (s.updCore n f) := by
  constructor
  · intro m
    rw [State.core_updCore]; split
    · subst_vars; exact h _
    · rfl
  all_goals rfl

/-- A fold of steps that each leave these things alone. -/
theorem ViaCaches.foldl {α : Type} (f : State → α → State) (h : ∀ s x, ViaCaches s (f s x)) (l : List α) (s : State) :
    ViaCaches s (l.foldl f s) := by
  induction l generalizing s with
  | nil => exact ViaCaches.refl s
  | cons x l ih => exact (h s x).trans (ih _)

/-- A state that one of two ways leads to, the second doing nothing. -/
theorem ViaCaches.when {s t a : State} (h : ViaCaches s t) (p : Prop) [Decidable p] (k : ViaCaches t a) : ViaCaches s (if p then a else t) := by
  split
  · exact h.trans k
  · exact h

/-- Either branch. -/
theorem ViaCaches.ite {s a b : State} (p : Prop) [Decidable p] (ha : ViaCaches s a) (hb : ViaCaches s b) :
    ViaCaches s (if p then a else b) := by split <;> assumption

/-! ### Reports and injections -/

theorem ViaCaches.setReg (s : State) (a : Nat) (v : W32) : ViaCaches s (s.setReg a v) := ViaCaches.of_eq rfl
theorem ViaCaches.count (s : State) (a k : Nat) : ViaCaches s (s.count a k) := ViaCaches.of_eq rfl

theorem ViaCaches.detect (s : State) (p : Page) (b a : Nat) (q : Option PartId) (j : Bool) : ViaCaches s (s.detect p b a q j) := by
  unfold State.detect
  extract_lets -underBinder s1 s2 s3
  have h1 : ViaCaches s s1 := ViaCaches.of_eq rfl
  have h2 : ViaCaches s s2 := by
    refine h1.trans ?_
    simp only [s2]; split
    · exact ViaCaches.of_eq rfl
    · exact ViaCaches.refl _
  have h3 : ViaCaches s s3 := h2.trans (ViaCaches.of_eq rfl)
  split
  · exact h3.trans (ViaCaches.of_eq rfl)
  · exact h3

theorem ViaCaches.raise (s : State) (b k : Nat) (q : Option PartId) : ViaCaches s (s.raise b k q) := by
  unfold State.raise; split
  · exact ViaCaches.refl s
  · exact ViaCaches.detect s _ _ _ _ _

theorem ViaCaches.force (s : State) (b k : Nat) : ViaCaches s (s.force b k) := by
  unfold State.force; split
  · exact ViaCaches.refl s
  · split
    · exact (ViaCaches.detect s _ _ _ _ _).trans (ViaCaches.of_eq rfl)
    · exact ViaCaches.refl s

theorem ViaCaches.taint (s : State) (b k x : Nat) : ViaCaches s (s.taint b k x) := by
  unfold State.taint; split
  · exact ViaCaches.of_eq rfl
  · exact ViaCaches.refl s

theorem ViaCaches.found (s : State) (b k x : Nat) : ViaCaches s (s.found b k x) := by
  unfold State.found; split
  · exact ViaCaches.refl s
  · extract_lets -underBinder s1 s2
    exact ((ViaCaches.detect s _ _ _ _ _).trans (show ViaCaches s1 s2 from ViaCaches.of_eq rfl)).trans (ViaCaches.of_eq rfl)

theorem ViaCaches.foundAs (s : State) (b k : Nat) : ViaCaches s (s.foundAs b k) := by
  unfold State.foundAs; split
  · exact ViaCaches.refl s
  · exact ViaCaches.detect s _ _ _ _ _

theorem ViaCaches.foundClean (s : State) (p l : Nat) : ViaCaches s (s.foundClean p l) := by
  unfold State.foundClean
  extract_lets -underBinder s1
  exact ((ViaCaches.of_eq (t := { s with err := s1 }) rfl).trans (ViaCaches.of_eq rfl)).trans (ViaCaches.foundAs _ _ _)

theorem ViaCaches.checkUnit (s : State) (b k x : Nat) : ViaCaches s (s.checkUnit b k x) := by
  unfold State.checkUnit; split
  · exact ViaCaches.found s _ _ _
  · exact ViaCaches.refl s

theorem ViaCaches.tagCheck (s : State) (b k x : Nat) : ViaCaches s (s.tagCheck b k x) := by
  unfold State.tagCheck; split
  · exact (ViaCaches.found s _ _ _).trans (ViaCaches.of_eq rfl)
  · exact ViaCaches.refl s

/-! ### Requests -/

theorem ViaCaches.request (s : State) (r q : Nat) (p : Packet) : ViaCaches s (s.request r q p) := by
  unfold State.request
  extract_lets -underBinder s1 p1 s2
  exact (ViaCaches.force s _ _).trans (show ViaCaches s1 _ from ViaCaches.of_eq rfl)

theorem ViaCaches.homeRequest (s : State) (b l : Nat) (op : BitVec 8) (q : PartId) (i : BitVec 256) (d : BitVec 512) (x y : Bool) :
    ViaCaches s (s.homeRequest b l op q i d x y) := ViaCaches.request s _ _ _

theorem ViaCaches.miss (s : State) (n l : Nat) (a b c : Bool) (h v : Nat) : ViaCaches s (s.miss n l a b c h v) := by
  unfold State.miss; split
  · exact ViaCaches.refl s
  · split
    · exact ViaCaches.refl s
    · extract_lets -underBinder p t s1 m
      exact (ViaCaches.homeRequest s _ _ _ _ _ _ _ _).trans (show ViaCaches s1 _ from ViaCaches.of_eq rfl)

/-! ### Caches -/

theorem ViaCaches.modL1d (s : State) (n l : Nat) (f : CLine → Option CLine) : ViaCaches s (s.modL1d n l f) :=
  ViaCaches.updCore s n _ (by intro _; rfl)

theorem ViaCaches.modL2 (s : State) (b l : Nat) (f : CLine → Option CLine) : ViaCaches s (s.modL2 b l f) := ViaCaches.of_eq rfl

theorem ViaCaches.dropL1i (s : State) (n l : Nat) : ViaCaches s (s.dropL1i n l) := ViaCaches.updCore s n _ (by intro _; rfl)

theorem ViaCaches.takeL1 (s : State) (n l : Nat) (f : CLine → Option CLine) : ViaCaches s (s.takeL1 n l f) := by
  unfold State.takeL1; split
  · exact ViaCaches.refl s
  · extract_lets -underBinder s1
    refine ViaCaches.trans (t := s1) ?_ (ViaCaches.modL1d s1 _ _ _)
    simp only [s1]; split
    · exact ViaCaches.modL2 s _ _ _
    · exact ViaCaches.refl s

theorem ViaCaches.settleL1 (s : State) (b l : Nat) (k : Option Nat) (x : Bool) : ViaCaches s (s.settleL1 b l k x) := by
  unfold State.settleL1
  apply ViaCaches.foldl
  intro s n; split
  · exact ViaCaches.refl s
  · exact ViaCaches.takeL1 s _ _ _

theorem ViaCaches.include (s : State) (b l : Nat) : ViaCaches s (s.include b l) := by
  unfold State.include
  extract_lets -underBinder s1
  refine ViaCaches.trans (t := s1) (ViaCaches.of_eq rfl) ?_
  apply ViaCaches.foldl
  intro s n
  exact (ViaCaches.takeL1 s _ _ _).trans (ViaCaches.dropL1i _ _ _)

theorem ViaCaches.setEvb (s : State) (x : Nat) (l : List EvLine) : ViaCaches s (s.setEvb x l) := ViaCaches.of_eq rfl

theorem ViaCaches.sendBack (s : State) (b l : Nat) (q : PartId) (d : BitVec 512) (p : Bool) : ViaCaches s (s.sendBack b l q d p) :=
  (ViaCaches.setEvb s _ _).trans (ViaCaches.homeRequest _ _ _ _ _ _ _ _ _)

theorem ViaCaches.evictL2 (s : State) (b l : Nat) (q : PartId) : ViaCaches s (s.evictL2 b l q) := by
  unfold State.evictL2
  extract_lets -underBinder s1
  have h1 : ViaCaches s s1 := ViaCaches.include s b l
  split
  · exact h1
  · extract_lets -underBinder s2
    have h2 : ViaCaches s s2 := h1.trans ((ViaCaches.modL2 _ _ _ _).trans (ViaCaches.count _ _ _))
    split
    · exact h2.trans (ViaCaches.sendBack _ _ _ _ _ _)
    · exact h2.trans (ViaCaches.homeRequest _ _ _ _ _ _ _ _ _)

theorem ViaCaches.setL2 (s : State) (b : Nat) (c : Cache) : ViaCaches s (s.setL2 b c) := ViaCaches.of_eq rfl

theorem ViaCaches.fillL2 (s : State) (b : Nat) (x : CLine) (q : PartId) (k : Bool) : ViaCaches s (s.fillL2 b x q k).2 := by
  unfold State.fillL2
  extract_lets -underBinder page set s1
  have h1 : ViaCaches s s1 := ViaCaches.tagCheck s _ _ _
  split
  · extract_lets -underBinder s2
    have h2 : ViaCaches s s2 := h1.trans (ViaCaches.setL2 _ _ _)
    simp only; split
    · exact h2.trans (ViaCaches.setL2 _ _ _)
    · exact h2
  · split
    · exact h1
    · split
      · exact h1
      · extract_lets -underBinder s2 s3 s4
        have h2 : ViaCaches s s2 := by
          refine h1.trans ?_
          simp only [s2]; split
          · exact ViaCaches.evictL2 _ _ _ _
          · exact ViaCaches.refl _
        have h3 : ViaCaches s s3 := h2.trans (((ViaCaches.taint _ _ _ _).trans (ViaCaches.taint _ _ _ _)).trans (ViaCaches.taint _ _ _ _))
        have h4 : ViaCaches s s4 := h3.trans (ViaCaches.setL2 _ _ _)
        simp only; split
        · exact h4.trans (ViaCaches.setL2 _ _ _)
        · exact h4

theorem ViaCaches.fillL1d (s : State) (n : Nat) (x : CLine) (k : Bool) : ViaCaches s (s.fillL1d n x k) := by
  unfold State.fillL1d
  extract_lets -underBinder page set s1 c
  have h1 : ViaCaches s s1 := ViaCaches.tagCheck s _ _ _
  split
  · exact h1.trans (ViaCaches.updCore _ _ _ (by intro _; rfl))
  · split
    · exact h1
    · split
      · exact h1
      · extract_lets -underBinder s2 s3
        have h2 : ViaCaches s s2 := by
          refine h1.trans ?_
          simp only [s2]; split
          · exact ViaCaches.takeL1 _ _ _ _
          · exact ViaCaches.refl _
        exact (h2.trans (ViaCaches.taint _ _ _ _)).trans (ViaCaches.updCore _ _ _ (by intro _; rfl))

theorem ViaCaches.fillL1i (s : State) (n v : Nat) (x : CLine) (k : Bool) : ViaCaches s (s.fillL1i n v x k) := by
  unfold State.fillL1i
  simp only
  split
  · exact ViaCaches.refl s
  · exact (ViaCaches.taint _ _ _ _).trans (ViaCaches.updCore _ _ _ (by intro _; rfl))

theorem ViaCaches.lookL2 (s : State) (b : Nat) (h : Bool) : ViaCaches s (s.lookL2 b h) := by
  unfold State.lookL2
  extract_lets -underBinder s1
  split
  · exact ViaCaches.of_eq rfl
  · exact ViaCaches.of_eq rfl

theorem ViaCaches.hitL2 (s : State) (b l : Nat) (k : Bool) : ViaCaches s (s.hitL2 b l k) := by
  unfold State.hitL2
  extract_lets -underBinder s1
  have h1 : ViaCaches s s1 := ViaCaches.lookL2 s _ _
  split
  · exact h1
  · split
    · exact h1.trans (ViaCaches.setL2 _ _ _)
    · exact h1

theorem ViaCaches.missL2 (s : State) (n l : Nat) (x y : Bool) (h v : Nat) (k : Bool) : ViaCaches s (s.missL2 n l x y h v k) := by
  unfold State.missL2
  extract_lets -underBinder t
  split
  · exact ViaCaches.refl s
  · exact (show ViaCaches s t from ViaCaches.miss s _ _ _ _ _ _ _).trans (ViaCaches.lookL2 _ _ _)

theorem ViaCaches.hitL1d (s : State) (n l h : Nat) : ViaCaches s (s.hitL1d n l h) := by
  unfold State.hitL1d
  apply ViaCaches.updCore
  intro c
  simp only
  split
  · split <;> rfl
  · rfl

/-- What an access to a line finds injected there. -/
theorem ViaCaches.checkL1d (s : State) (n l : Nat) : ViaCaches s (s.checkL1d n l) := by
  unfold State.checkL1d
  extract_lets -underBinder page s1
  have h1 : ViaCaches s s1 := (ViaCaches.checkUnit s _ _ _).trans (ViaCaches.tagCheck _ _ _ _)
  clear_value s1
  split
  · split
    · split
      · exact h1.trans ((ViaCaches.found s1 _ _ _).trans (ViaCaches.modL1d _ _ _ _))
      · exact h1.trans ((ViaCaches.foundClean s1 _ _).trans (ViaCaches.modL1d _ _ _ _))
    · exact h1
  · exact h1

theorem ViaCaches.checkL2 (s : State) (b l : Nat) : ViaCaches s (s.checkL2 b l) := by
  unfold State.checkL2
  extract_lets -underBinder page s1
  have h1 : ViaCaches s s1 := (ViaCaches.checkUnit s _ _ _).trans (ViaCaches.tagCheck _ _ _ _)
  clear_value s1
  split
  · split
    · split
      · exact h1.trans ((ViaCaches.found s1 _ _ _).trans (ViaCaches.modL2 _ _ _ _))
      · exact h1.trans ((ViaCaches.foundClean s1 _ _).trans ((ViaCaches.include _ _ _).trans
          ((ViaCaches.modL2 _ _ _ _).trans (ViaCaches.homeRequest _ _ _ _ _ _ _ _ _))))
    · exact h1
  · exact h1

theorem ViaCaches.l1FromL2 (s : State) (n l h : Nat) : ViaCaches s (s.l1FromL2 n l h) := by
  unfold State.l1FromL2
  extract_lets -underBinder b v s1
  have h1 : ViaCaches s s1 := ViaCaches.settleL1 s _ _ _ _
  split
  · exact h1
  · exact h1.trans (ViaCaches.fillL1d _ _ _ _)

theorem ViaCaches.again (s : State) (b : Nat) (e : EvLine) (q : PartId) (h : Nat) : ViaCaches s (s.again b e q h).2 :=
  ViaCaches.fillL2 s _ _ _ _

theorem ViaCaches.loadMiss (s : State) (n l h : Nat) (k : Bool) : ViaCaches s (s.loadMiss n l h k).2 := by
  unfold State.loadMiss; split
  · exact ViaCaches.refl s
  · exact ViaCaches.missL2 s _ _ _ _ _ _ _

/-- A load through the caches. -/
theorem ViaCaches.loadLine (s : State) (n l h : Nat) : ViaCaches s (s.loadLine n l h).2 := by
  unfold State.loadLine
  extract_lets -underBinder b s1
  have h1 : ViaCaches s s1 := ViaCaches.checkL1d s n l
  clear_value s1
  split
  · exact h1.trans (ViaCaches.hitL1d _ _ _ _)
  · split
    · exact h1
    · extract_lets -underBinder s2
      have h2 : ViaCaches s s2 := h1.trans (ViaCaches.checkL2 _ _ _)
      clear_value s2
      split
      · exact h2
      · split
        · split
          · exact h2.trans (ViaCaches.loadMiss _ _ _ _ _)
          · exact h2.trans ((ViaCaches.hitL2 _ _ _ _).trans (ViaCaches.l1FromL2 _ _ _ _))
        · split
          · extract_lets -underBinder r
            have hr : ViaCaches s r.2 := h2.trans ((ViaCaches.lookL2 _ _ _).trans (ViaCaches.again _ _ _ _ _))
            clear_value r
            simp only; split
            · exact hr.trans (ViaCaches.fillL1d _ _ _ _)
            · exact hr
          · exact h2.trans (ViaCaches.loadMiss _ _ _ _ _)

/-- A read of the walker. -/
theorem ViaCaches.walkLine (s : State) (n l : Nat) (k : Bool) : ViaCaches s (s.walkLine n l k).2 := by
  unfold State.walkLine
  extract_lets -underBinder b s1 s2
  have h1 : ViaCaches s s1 := ViaCaches.checkL2 s _ _
  have h2 : ViaCaches s s2 := h1.trans (ViaCaches.settleL1 _ _ _ _ _)
  clear_value s2 s1
  split
  · exact ViaCaches.refl s
  · split
    · exact h1
    · split
      · split
        · exact h2.trans (ViaCaches.loadMiss _ _ _ _ _)
        · exact h2.trans (ViaCaches.hitL2 _ _ _ _)
      · split
        · exact h2.trans ((ViaCaches.lookL2 _ _ _).trans (ViaCaches.again _ _ _ _ _))
        · exact h2.trans (ViaCaches.loadMiss _ _ _ _ _)

/-- A fetch through the caches. -/
theorem ViaCaches.fetchLine (s : State) (n v l : Nat) (k : Bool) : ViaCaches s (s.fetchLine n v l k).2 := by
  unfold State.fetchLine
  extract_lets -underBinder b page set s1
  have h1 : ViaCaches s s1 := by
    simp only [s1]; split
    · exact (ViaCaches.found _ _ _ _).trans (ViaCaches.dropL1i _ _ _)
    · exact ViaCaches.refl _
  clear_value s1
  split
  · simp only; split
    · exact h1.trans (ViaCaches.updCore _ _ _ (by intro _; rfl))
    · exact h1
  · split
    · dsimp only
      exact h1.trans (ViaCaches.updCore _ _ _ (by intro _; rfl))
    · split
      · exact h1
      · extract_lets -underBinder s2
        have h2 : ViaCaches s s2 := h1.trans (ViaCaches.checkL2 _ _ _)
        clear_value s2
        split
        · exact h2
        · split
          · split
            · exact h2.trans (ViaCaches.missL2 _ _ _ _ _ _ _ _)
            · exact h2.trans ((ViaCaches.hitL2 _ _ _ _).trans (ViaCaches.fillL1i _ _ _ _ _))
          · split
            · extract_lets -underBinder r
              have hr : ViaCaches s r.2 := h2.trans ((ViaCaches.lookL2 _ _ _).trans (ViaCaches.again _ _ _ _ _))
              clear_value r
              simp only; split
              · exact hr.trans (ViaCaches.fillL1i _ _ _ _ _)
              · exact hr
            · exact h2.trans (ViaCaches.missL2 _ _ _ _ _ _ _ _)

/-! ### Translation and fetch -/

theorem ViaCaches.noteConf (s : State) (a : Nat) (p : PartId) : ViaCaches s (s.noteConf a p) :=
  (ViaCaches.count s _ _).trans ((ViaCaches.setReg _ _ _).trans (ViaCaches.setReg _ _ _))

theorem ViaCaches.refuseConf (s : State) (a : Nat) (p : PartId) : ViaCaches s (s.refuseConf a p) :=
  (ViaCaches.noteConf s a p).trans (ViaCaches.raise _ _ _ _)

theorem ViaCaches.finishXl (s : State) (k : Bool) (acc : Acc) (lv : Nat) (q : PartId) (va : W64) (pa n : Nat) (mt : MemType) (x : Option Nat)
    (l : Nat) : ViaCaches s (s.finishXl k acc lv q va pa n mt x l).2 := by
  unfold State.finishXl
  extract_lets -underBinder s1 y z
  have h1 : ViaCaches s s1 := by
    simp only [s1]; split
    · exact ViaCaches.force s _ _
    · exact ViaCaches.refl s
  clear_value s1
  simp only; split
  · exact h1.trans (ViaCaches.refuseConf _ _ _)
  · exact h1

theorem Core.arch_fillL1Tlb (c : Core) (f : Bool) (e : TlbEntry) : (c.fillL1Tlb f e).arch = c.arch := by
  unfold Core.fillL1Tlb; split <;> rfl

theorem Core.arch_installTlb (c : Core) (f : Bool) (e : TlbEntry) : (c.installTlb f e).arch = c.arch :=
  (Core.arch_fillL1Tlb _ f e).trans rfl

/-- A translation. -/
theorem ViaCaches.translate (s : State) (n : Nat) (va : W64) (acc : Acc) (lv b : Nat) (k : Bool) :
    ViaCaches s (s.translate n va acc lv b k).2 := by
  unfold State.translate
  extract_lets -underBinder c fetch pa a h use l1 l2 miss1 again s1 s2 cand j s3
  split
  · exact ViaCaches.refl s
  · split
    · exact ViaCaches.finishXl s _ _ _ _ _ _ _ _ _ _
    · have h1 : ViaCaches s s1 := by
        simp only [s1]; exact (ViaCaches.refl s).when _ (ViaCaches.count _ _ _)
      have h2 : ViaCaches s s2 := by
        simp only [s2]; exact h1.when _ (ViaCaches.count _ _ _)
      have h3 : ViaCaches s s3 := by
        refine h2.trans ?_
        simp only [s3]; split
        · exact ViaCaches.refl _
        · exact ViaCaches.of_eq rfl
      clear_value s3
      split
      · simp only; exact h3.when _ (ViaCaches.updCore _ _ _ (by intro _; rfl))
      · extract_lets -underBinder s4
        have h4 : ViaCaches s s4 := by
          simp only [s4]; exact h3.when _ (ViaCaches.updCore _ _ _ (fun c => Core.arch_fillL1Tlb c _ _))
        clear_value s4
        split
        · exact h4
        · exact h4.trans (ViaCaches.finishXl _ _ _ _ _ _ _ _ _ _ _)

theorem ViaCaches.startWalk (s : State) (n : Nat) (va : W64) (acc : Acc) (lv k : Nat) : ViaCaches s (s.startWalk n va acc lv k) :=
  ViaCaches.updCore s n _ (by intro _; rfl)

theorem ViaCaches.walkDone (s : State) (n : Nat) (w : Walk) (e : TlbEntry) : ViaCaches s (s.walkDone n w e) := by
  refine ViaCaches.trans ?_ (ViaCaches.count _ _ _)
  apply ViaCaches.updCore
  intro c
  exact Eq.trans rfl (Core.arch_installTlb c _ e)

theorem ViaCaches.walkDrop (s : State) (n : Nat) : ViaCaches s (s.walkDrop n) :=
  (ViaCaches.updCore s n _ (by intro _; rfl)).trans (ViaCaches.count _ _ _)

/-- A speculative walk. -/
theorem ViaCaches.specWalk (n k : Nat) (s : State) (w : Walk) : ViaCaches s (s.specWalk n w k).2 := by
  induction k generalizing s w with
  | zero =>
    dsimp only [State.specWalk]
    exact ViaCaches.updCore s n _ (by intro _; rfl)
  | succ k ih =>
    unfold State.specWalk
    split
    · exact ViaCaches.walkDone s _ _ _
    · rename_i pa _ _ _
      have h := ViaCaches.walkLine s n (pa / 64) false
      split
      · rename_i e; rw [e] at h
        dsimp only
        exact h.trans (ViaCaches.updCore _ _ _ (by intro _; rfl))
      · rename_i e; rw [e] at h; exact h.trans (ih _ _)
    · exact ViaCaches.walkDrop s _

theorem ViaCaches.walkAhead (s : State) (n : Nat) (va : W64) (acc : Acc) (lv : Nat) : ViaCaches s (s.walkAhead n va acc lv).2 := by
  unfold State.walkAhead; split
  · exact ViaCaches.refl s
  · exact ViaCaches.specWalk _ _ _ _

theorem ViaCaches.sendTo (s : State) (n a : Nat) (p : Packet) : ViaCaches s (s.sendTo n a p) := by
  unfold State.sendTo; split
  · exact ViaCaches.request s _ _ _
  · unfold State.holdRequest
    extract_lets -underBinder s1 p1
    exact (ViaCaches.force s _ _).trans (show ViaCaches s1 _ from ViaCaches.of_eq rfl)

theorem ViaCaches.sendRead (s : State) (n a l : Nat) (x y : Bool) : ViaCaches s (s.sendRead n a l x y) := by
  unfold State.sendRead
  exact (ViaCaches.sendTo s _ _ _).trans (ViaCaches.updCore _ _ _ (by intro _; rfl))

theorem ViaCaches.fetchOut (s : State) (n a : Nat) (k : Bool) : ViaCaches s (s.fetchOut n a k).2 := by
  unfold State.fetchOut; split
  · split
    · dsimp only
      exact ViaCaches.updCore _ _ _ (by intro _; rfl)
    · exact ViaCaches.refl s
  · exact ViaCaches.sendRead s _ _ _ _ _

/-- A block on its way into the prefetch queue. -/
theorem ViaCaches.fetchBlock (s : State) (n : Nat) (va : W64) (k : Bool) : ViaCaches s (s.fetchBlock n va k).2 := by
  unfold State.fetchBlock
  extract_lets -underBinder c lv len
  have ht := ViaCaches.translate s n va .fetch lv len k
  split
  · rename_i h; rw [h] at ht; exact ht
  · rename_i h; rw [h] at ht
    simp only; split
    · exact ht.trans (ViaCaches.startWalk _ _ _ _ _ _)
    · exact ht.trans (ViaCaches.walkAhead _ _ _ _ _)
  · rename_i h; rw [h] at ht
    extract_lets -underBinder barred r
    split
    · simp only; exact ht.when _ (ViaCaches.refuseConf _ _ _)
    · have hr : ViaCaches s r.2 := by
        refine ht.trans ?_
        simp only [r]; split
        · exact ViaCaches.fetchLine _ _ _ _ _
        · exact ViaCaches.fetchOut _ _ _ _
      clear_value r
      obtain ⟨x, t⟩ := r
      cases x <;> dsimp only <;> exact hr.trans (ViaCaches.updCore _ _ _ (by intro _; rfl))

theorem ViaCaches.needBlock (s : State) (n : Nat) (va : W64) : ViaCaches s (s.needBlock n va).2 := by
  unfold State.needBlock
  extract_lets -underBinder judge
  split
  · exact ViaCaches.refl s
  · have h := ViaCaches.fetchBlock s n va true
    split
    · rename_i e; rw [e] at h; exact h
    · exact h

/-- Fetching an instruction's bytes. -/
theorem ViaCaches.fetchInsn (s : State) (n k : Nat) : ViaCaches s (s.fetchInsn n k).2 := by
  unfold State.fetchInsn
  extract_lets -underBinder s1 pc next
  have h1 : ViaCaches s s1 := ViaCaches.updCore s n _ (by intro _; rfl)
  have h := h1.trans (ViaCaches.needBlock s1 n pc)
  split
  · rename_i e; rw [e] at h
    split
    · exact h
    · exact h.trans (ViaCaches.needBlock _ _ _)
  · exact h

theorem ViaCaches.fetchAhead (n : Nat) (l : List W64) (s : State) : ViaCaches s (s.fetchAhead n l) := by
  induction l generalizing s with
  | nil => exact ViaCaches.refl s
  | cons x l ih =>
    unfold State.fetchAhead
    have h := ViaCaches.fetchBlock s n x false
    split
    · rename_i e; rw [e] at h; exact h.trans (ih _)
    · rename_i e; rw [e] at h; exact h
    · rename_i e; rw [e] at h; exact h.trans (ViaCaches.updCore _ _ _ (by intro _; rfl))

theorem ViaCaches.fillQueue (s : State) (n : Nat) (va : W64) : ViaCaches s (s.fillQueue n va) := by
  unfold State.fillQueue
  extract_lets -underBinder c
  split
  · exact ViaCaches.refl s
  · exact ViaCaches.fetchAhead _ _ _

theorem ViaCaches.redirect (s : State) (n : Nat) : ViaCaches s (s.updCore n Core.redirect) := ViaCaches.updCore s n _ (by intro _; rfl)

theorem ViaCaches.follow (s : State) (n : Nat) (p : Path) : ViaCaches s (s.follow n p) := by
  cases p
  · exact ViaCaches.fillQueue s _ _
  · exact (ViaCaches.redirect s _).trans (ViaCaches.fillQueue _ _ _)
  · exact ViaCaches.redirect s _

/-- The front end's work for an instruction. -/
theorem ViaCaches.fetchFor (s : State) (n : Nat) (i : Insn) : ViaCaches s (s.fetchFor n i).2 := by
  unfold State.fetchFor
  have h := ViaCaches.fetchInsn s n i.len
  split
  · rename_i e; rw [e] at h; exact h.trans (ViaCaches.follow _ _ _)
  · exact h

end Sys2Proof.Machine
end

