-- ==== Sys2Proof/Laws/Oz.lean ====
section
/-! SUPPORT. What issuing and retiring an Ozhorn-64 instruction does, said once. -/

namespace Sys2Proof.Machine

/-! ### The log of a primary -/

/-- `t` differs from `s` in the bunk record of core `n`, which stays in its pair as what it is, and in the packets in flight at most. -/
structure BunkOnly (n : Nat) (s t : State) : Prop where
  rest : t = { s with cores := t.cores, net := { s.net with flights := t.net.flights } }
  self : t.core n = { s.core n with bunk := (t.core n).bunk }
  pair : (t.core n).bunk.bound = (s.core n).bunk.bound ∧ (t.core n).bunk.shadow = (s.core n).bunk.shadow
  others : ∀ m, m ≠ n → t.core m = s.core m

theorem BunkOnly.refl (n : Nat) (s : State) : BunkOnly n s s := ⟨rfl, rfl, ⟨rfl, rfl⟩, fun _ _ => rfl⟩

theorem BunkOnly.trans {n : Nat} {s t u : State} (h : BunkOnly n s t) (k : BunkOnly n t u) : BunkOnly n s u := by
  refine ⟨?_, ?_, ⟨k.pair.1.trans h.pair.1, k.pair.2.trans h.pair.2⟩, fun m hm => (k.others m hm).trans (h.others m hm)⟩
  · rw [k.rest, h.rest]
  · rw [k.self, h.self]

theorem BunkOnly.updBunk (n : Nat) (s : State) (f : Bunk → Bunk) (h : ∀ b, (f b).bound = b.bound ∧ (f b).shadow = b.shadow) :
    BunkOnly n s (s.updBunk n f) :=
  ⟨rfl, by simp [State.updBunk], by simp [State.updBunk, h], fun m hm => by simp [State.updBunk, State.core_updCore, hm]⟩

theorem BunkOnly.send (n : Nat) (s : State) (r port : Nat) (p : Packet) : BunkOnly n s (s.send r port p) :=
  ⟨rfl, rfl, ⟨rfl, rfl⟩, fun _ _ => rfl⟩

/-- Lines that go out while the shadow's ring has room (09 R251, R254). -/
theorem BunkOnly.drainLog (n : Nat) (l : List LogLine) (s : State) : BunkOnly n s (s.drainLog n l) := by
  induction l generalizing s with
  | nil => exact BunkOnly.updBunk n s _ (by intro _; exact ⟨rfl, rfl⟩)
  | cons x l ih =>
    unfold State.drainLog
    extract_lets c
    split
    · exact BunkOnly.updBunk n s _ (by intro _; exact ⟨rfl, rfl⟩)
    · exact ((BunkOnly.send n s _ _ _).trans (BunkOnly.updBunk n _ _ (by intro _; exact ⟨rfl, rfl⟩))).trans (ih _)

theorem BunkOnly.sendLine (n : Nat) (s : State) (l : LogLine) : BunkOnly n s (s.sendLine n l) :=
  (BunkOnly.updBunk n s _ (by intro _; exact ⟨rfl, rfl⟩)).trans (BunkOnly.drainLog n _ _)

theorem BunkOnly.flushLog (n : Nat) (s : State) : BunkOnly n s (s.flushLog n) := by
  unfold State.flushLog
  simp only
  split
  · exact BunkOnly.refl n s
  · exact (BunkOnly.sendLine n s _).trans (BunkOnly.updBunk n _ _ (by intro _; exact ⟨rfl, rfl⟩))

/-- A primary's log record changes its bunk record and the packets in flight only (09 R252, R253). -/
theorem BunkOnly.logRec (n : Nat) (s : State) (ctl : Bool) (l : List W64) : BunkOnly n s (s.logRec n ctl l) := by
  unfold State.logRec
  extract_lets b s1 s2
  split
  · exact BunkOnly.refl n s
  · have h1 : BunkOnly n s s1 := by
      simp only [s1]; split
      · exact BunkOnly.flushLog n s
      · exact BunkOnly.refl n s
    have h2 : BunkOnly n s s2 := h1.trans (BunkOnly.updBunk n s1 _ (by intro _; exact ⟨rfl, rfl⟩))
    split
    · exact h2.trans (BunkOnly.flushLog n s2)
    · exact h2

theorem BunkOnly.logSigs (n : Nat) (s : State) (a b : Nat) : BunkOnly n s (s.logSigs n a b) := by
  unfold State.logSigs
  simp only
  split
  · exact BunkOnly.refl n s
  · exact (BunkOnly.logRec n s _ _).trans (BunkOnly.updBunk n _ _ (by intro _; exact ⟨rfl, rfl⟩))

/-- Lines sent one after the other. -/
theorem BunkOnly.sendLines (n : Nat) (g : State → List W64 → LogLine) (l : List (List W64)) (s : State) :
    BunkOnly n s (l.foldl (fun s x => s.sendLine n (g s x)) s) := by
  induction l generalizing s with
  | nil => exact BunkOnly.refl n s
  | cons x l ih => exact (BunkOnly.sendLine n s _).trans (ih _)

/-- The snapshot changes the primary's bunk record and the packets in flight only (09 R249). -/
theorem BunkOnly.sendSnapshot (n : Nat) (s : State) : BunkOnly n s (s.sendSnapshot n) := by
  unfold State.sendSnapshot
  extract_lets s1
  have h1 : BunkOnly n s s1 := BunkOnly.updBunk n s _ (by intro _; exact ⟨rfl, rfl⟩)
  split
  · exact h1
  · exact h1.trans (BunkOnly.sendLines n _ _ _)

theorem BunkOnly.bunkRetire (n : Nat) (s : State) : BunkOnly n s (s.bunkRetire n) := by
  unfold State.bunkRetire
  simp only
  split
  · exact BunkOnly.refl n s
  · split
    · exact BunkOnly.sendSnapshot n s
    · have h1 := BunkOnly.updBunk n s (fun b => { b with brpos := b.brpos + 1 }) (by intro _; exact ⟨rfl, rfl⟩)
      split
      · exact h1.trans (BunkOnly.logSigs n _ _ _)
      · exact h1

/-- A core that is in no pair writes no log. -/
theorem State.bunkRetire_unbound (s : State) (n : Nat) (h : (s.core n).bunk.bound = false) : s.bunkRetire n = s := by
  simp [State.bunkRetire, h]

theorem State.logRec_unbound (s : State) (n : Nat) (c : Bool) (l : List W64) (h : (s.core n).bunk.bound = false) :
    s.logRec n c l = s := by
  simp [State.logRec, h]

/-! ### Retirement -/

theorem State.useLast_eq (s : State) (n : Nat) :
    s.useLast n = { s with power := { s.power with selfLeft := (s.useLast n).power.selfLeft } } := by
  unfold State.useLast; split <;> rfl

theorem State.core_useLast (s : State) (n m : Nat) : (s.useLast n).core m = s.core m := by
  rw [State.useLast_eq]; rfl

theorem State.reg_useLast (s : State) (n a : Nat) : (s.useLast n).reg a = s.reg a := by
  rw [State.useLast_eq]; rfl

/-- Everything a retirement does: the core becomes `f` of itself with the windows of its last entry over, RETCNT counts, and the log of a
bound core moves on. -/
theorem State.retireBy_rest (u : State) (n : Fin 192) (f : Core → Core) (hb : (f (u.core n.val)).bunk = (u.core n.val).bunk) :
    (u.retireBy n.val f).core n.val = { (f (u.core n.val)).settled with bunk := ((u.retireBy n.val f).core n.val).bunk }
      ∧ Rest u (u.retireBy n.val f) n := by
  unfold State.retireBy
  generalize hv : (((u.updCore n.val (fun c => (f c).settled)).useLast n.val).retired n.val) = v
  have hc : v.core n.val = (f (u.core n.val)).settled := by
    subst hv
    show State.core (State.useLast _ _) _ = _
    rw [State.core_useLast, State.core_updCore_same]
  have hB := BunkOnly.bunkRetire n.val v
  have hrest : v = { u with cores := v.cores, regs := v.regs, power := { u.power with selfLeft := v.power.selfLeft } } := by
    subst hv
    rw [State.useLast_eq]; rfl
  have hreg : ∀ a, (v.bunkRetire n.val).reg a = v.reg a := fun a => State.reg_congr (by rw [hB.rest]) a
  have hother : ∀ m, m ≠ n.val → v.core m = u.core m := by
    intro m hm
    subst hv
    show State.core (State.useLast _ _) _ = _
    rw [State.core_useLast, State.core_updCore, if_neg hm]
  refine ⟨by rw [hB.self, hc], ?_⟩
  refine { mem := by rw [hB.rest, hrest], coh := by rw [hB.rest, hrest], stools := by rw [hB.rest, hrest], clock := by rw [hB.rest, hrest], frame := by rw [hB.rest, hrest], ev := by rw [hB.rest, hrest], err := by rw [hB.rest, hrest], otp := by rw [hB.rest, hrest], rot := by rw [hB.rest, hrest], te := by rw [hB.rest, hrest], port := by rw [hB.rest, hrest], soft := by rw [hB.rest, hrest], pending := by rw [hB.rest, hrest], fresh := by rw [hB.rest, hrest], power := by rw [hB.rest, hrest], net := by rw [hB.rest, hrest], others := ?_, regs := ?_, count := ?_, alone := ?_ }
  · intro m hm; rw [hB.others m hm, hother m hm]
  · intro a h1 h2
    rw [hreg]; subst hv
    show State.reg (State.retired _ _) a = _
    unfold State.retired
    rw [State.reg_setReg64_other _ _ _ _ h1 (by unfold corePage at *; omega), State.reg_useLast]; rfl
  · have e : (v.bunkRetire n.val).reg64 (corePage n.val 0x110) = v.reg64 (corePage n.val 0x110) := by
      unfold State.reg64; rw [hreg, hreg]
    rw [e]; subst hv
    show State.reg64 (State.retired _ _) _ = _
    unfold State.retired
    rw [State.reg64_setReg64]
    have : ∀ w : State, (State.useLast (u.updCore n.val (fun c => (f c).settled)) n.val).reg64 (corePage n.val 0x110) = u.reg64 (corePage n.val 0x110) := by
      intro _; unfold State.reg64; rw [State.reg_useLast, State.reg_useLast]; rfl
    rw [this u]
  · intro hu
    have : (v.core n.val).bunk.bound = false := by rw [hc, Core.settled_bunk, hb]; exact hu
    rw [State.bunkRetire_unbound _ _ this]
    refine ⟨by rw [hrest], by rw [hc, Core.settled_bunk, hb]⟩

/-- The loop-back leaves the pair's record alone. -/
@[simp] theorem Core.loopBack_bunk (c : Core) (q : W64) : (c.loopBack q).bunk = c.bunk := by
  unfold Core.loopBack; split
  · simp only; split <;> rfl
  · rfl

/-- An instruction of a core that is no shadow retires (R107). -/
theorem State.retireInsn_single (u : State) (n : Nat) (f : Core → Core) (h : ((u.retireBy n f).core n).isShadow = false) :
    u.retireInsn n f = u.retireBy n f := by
  unfold State.retireInsn
  simp [h]

/-! ### Issue -/

/-- A core that is no shadow has no snapshot to load. -/
theorem State.readyShadow_single (s : State) (n : Nat) (h : (s.core n).isShadow = false) : s.readyShadow n = s := by
  simp [State.readyShadow, h]

/-- An instruction that a core carries out is what `issue` makes of its row. -/
theorem State.issue_of_issues {s u : State} {n : Fin 192} {b : List Byte} {i : Insn} (h : Issues s n b i u)
    (is : Insn → Bool) (hi : is i = true) (f : Sem) : s.issue n.val b is f = .next (u.execInsn n.val i f) := by
  unfold State.issue
  rw [State.readyShadow_single s n.val h.single]
  have hg : (s.core n.val).logGate (decide (i.op = .wait)) = .go := by simp [Core.logGate, h.single]
  simp [h.runs, h.may, h.calm, h.room, h.spells, hi, hg, h.fetched]

/-- The fetch of an instruction leaves every register alone. -/
theorem Issues.via {s u : State} {n : Fin 192} {b : List Byte} {i : Insn} (h : Issues s n b i u) : ViaCaches s u := by
  have := ViaCaches.fetchFor s n.val i
  rwa [h.fetched] at this

theorem Core.arch_bunk {c d : Core} (h : c.arch = d.arch) : c.bunk = d.bunk :=
  (congrArg Core.bunk h : c.arch.bunk = d.arch.bunk)
theorem Core.arch_isShadow {c d : Core} (h : c.arch = d.arch) : c.isShadow = d.isShadow := by
  unfold Core.isShadow; rw [Core.arch_bunk h]

/-- The core is no shadow after the fetch either. -/
theorem Issues.single' {s u : State} {n : Fin 192} {b : List Byte} {i : Insn} (h : Issues s n b i u) :
    (u.core n.val).isShadow = false := by
  rw [Core.arch_isShadow (h.via.cores n.val)]; exact h.single

/-- The bunk record of a core says whether it is a shadow, and its log never changes that. -/
theorem BunkOnly.isShadow {n : Nat} {s t : State} (h : BunkOnly n s t) : (t.core n).isShadow = (s.core n).isShadow := by
  simp [Core.isShadow, h.pair]

/-- What follows an instruction's own effect on the core alone: it retires as `f` says. -/
theorem State.retireInsn_rest (u v : State) (n : Fin 192) (c : Core) (f : Core → Core) (hv : v = u.setCore n.val c)
    (hs : (u.core n.val).isShadow = false) (hc : c.bunk = (u.core n.val).bunk) (hb : (f c).bunk = c.bunk) :
    (v.retireInsn n.val f).core n.val = { (f c).settled with bunk := ((v.retireInsn n.val f).core n.val).bunk }
      ∧ Rest u (v.retireInsn n.val f) n := by
  have hvc : v.core n.val = c := by subst hv; simp
  have hsh : ((v.retireBy n.val f).core n.val).isShadow = false := by
    unfold State.retireBy
    rw [(BunkOnly.bunkRetire n.val _).isShadow]
    show (State.core (State.useLast _ _) _).isShadow = _
    rw [State.core_useLast, State.core_updCore_same, hvc]
    unfold Core.isShadow at hs ⊢
    rw [Core.settled_bunk, hb, hc]; exact hs
  rw [State.retireInsn_single v n.val f hsh]
  have h := State.retireBy_rest v n f (by rw [hvc]; exact hb)
  rw [hvc] at h
  refine ⟨h.1, ?_⟩
  have r := h.2
  subst hv
  exact { mem := r.mem, coh := r.coh, stools := r.stools, clock := r.clock, frame := r.frame, ev := r.ev, err := r.err, otp := r.otp,
          rot := r.rot, te := r.te, port := r.port, soft := r.soft, pending := r.pending, fresh := r.fresh, power := r.power,
          net := r.net
          others := fun m hm => by rw [r.others m hm, State.core_setCore, if_neg hm]
          regs := fun a h1 h2 => r.regs a h1 h2
          count := r.count
          alone := fun hu => by
            have := r.alone (by rw [hvc, hc]; exact hu)
            exact ⟨this.1, by rw [this.2, hvc, hc]⟩ }

/-- An instruction that computes on the core's registers alone, carried out. -/
theorem regRow_retires {s u : State} {n : Fin 192} {b : List Byte} {i : Insn} {op : OzOp} {f : Insn → W64 → Core → CEff} {c : Core}
    (h : Issues s n b i u) (ho : i.op = op) (hf : f i (seqOf u n i) (u.core n.val) = .ok c)
    (hc : c.bunk = (u.core n.val).bunk) : ∃ t, regRow n b op f s = .next t ∧ Retires u t n c (seqOf u n i) := by
  refine ⟨_, State.issue_of_issues h _ (by simp [ho]) _, ?_⟩
  unfold State.execInsn regSem State.carry
  extract_lets seq sh
  have : f i seq (u.core n.val) = .ok c := hf
  simp only [this]
  exact State.retireInsn_rest u _ n c _ rfl h.single' hc (Core.loopBack_bunk _ _)

end Sys2Proof.Machine
end

