-- ==== Sys2Proof/Machine/Balls.lean ====
section
/-! DEFINITION. The ball array and what the balls show (19 R513-R516, R526): names and places of the balls, and their states as functions of
the machine's state.  No command names a ball's place; what a ball shows follows from the registers that drive it. -/

namespace Sys2Proof.Machine

/-! ### Where the balls are (19 R513-R515) -/

/-- The 19 letters of ball rows, and the name of row `i`: one letter, then A and a letter, then B and a letter (19 R513). -/
def rowLetters : List Char := "ABCDEFGHJKLMNPTUVWY".toList
def ballRow (i : Nat) : String :=
  if i < 19 then String.ofList ((rowLetters.drop i).take 1)
  else if i < 38 then "A" ++ String.ofList ((rowLetters.drop (i - 19)).take 1)
  else "B" ++ String.ofList ((rowLetters.drop (i - 38)).take 1)

/-- A ball by row index, 0 to 52, and column, 1 to 53. -/
structure Ball where
  row : Nat
  col : Nat
  deriving DecidableEq, Repr

/-- Its name. -/
def Ball.name (b : Ball) : String := ballRow b.row ++ toString b.col

/-- The regions of the array. -/
inductive Region where
  | west | east | north | centre | south
  deriving DecidableEq, Repr

/-- The region of a ball (19 R513). -/
def Ball.region (b : Ball) : Option Region :=
  if 53 ≤ b.row ∨ b.col = 0 ∨ 53 < b.col then none
  else if b.col ≤ 16 then some .west
  else if 38 ≤ b.col then some .east
  else if b.row ≤ 10 then some .north
  else if b.row ≤ 40 then some .centre
  else some .south

/-- The ball at row `i` and place `j`, each counted in its channel's block, of memory controller `m`, channel `ch`: the east band mirrors the
west one (19 R514). -/
def lpddrBall (m ch i j : Nat) : Ball :=
  let k := 8 * ch + j
  { row := 6 * (m % 8) + i, col := if m < 8 then 1 + k else 53 - k }

/-- What stands at a place of a channel's block (19 R514). -/
inductive LpddrBall where
  | dq (n : Nat) | dmi (n : Nat) | rdqsT (n : Nat) | rdqsC (n : Nat) | wckT (n : Nat) | wckC (n : Nat) | ca (n : Nat) | zq | ckT | ckC
  | cs (n : Nat) | resetN | sense | vddq | vss
  deriving DecidableEq, Repr

/-- The block's layout, by row and place. -/
def lpddrAt (i j : Nat) : LpddrBall :=
  let h := i / 2
  match i, j with
  | 0, n | 2, n => .dq (8 * h + n)
  | 1, 0 | 3, 0 => .dmi h
  | 1, 1 | 3, 1 => .rdqsT h
  | 1, 2 | 3, 2 => .rdqsC h
  | 1, 4 | 3, 4 => .wckT h
  | 1, 5 | 3, 5 => .wckC h
  | 1, 6 | 3, 6 | 5, 6 => .vddq
  | 4, 7 => .zq
  | 4, n => .ca n
  | 5, 0 => .ckT
  | 5, 1 => .ckC
  | 5, 2 => .cs 0
  | 5, 3 => .cs 1
  | 5, 4 => .resetN
  | 5, 5 => .sense
  | _, _ => .vss

/-- The four balls of a SerDes lane. -/
inductive SerdesPin where
  | txp | txn | rxp | rxn
  deriving DecidableEq, Repr

/-- Where a pin of slot `s` is (19 R515). -/
def serdesBall (s : Nat) (p : SerdesPin) : Ball :=
  let k := match p with
    | .txp => 0
    | .txn => 1
    | .rxp => 3
    | .rxn => 4
  if s < 20 then { row := 41 + k, col := 17 + s } else { row := 47 + k, col := s - 3 }

/-- The slots of the lanes (19 R515). -/
def pcieSlot (n : Nat) : Nat := n
def ethSlot (p : Nat) : Nat := if p < 4 then 16 + p else 32 + p
def prlSlot (i j : Nat) : Nat := 20 + 4 * i + j

/-- GPIO `n`, on rows D to G (19 R516). -/
def gpioBall (n : Nat) : Ball := { row := 3 + n / 16, col := 17 + n % 16 }

/-! ### What the balls show (19 R526) -/

/-- The groups of balls of R526. -/
inductive BallGroup where
  | lpddrReset (m : Fin 16) | lpddrOut (m : Fin 16) | serdesTx (slot : Fin 40) | serdesRx (slot : Fin 40) | gpio (n : Fin 64)
  | perst (i : Fin 4) | refclk (i : Fin 4) | lowSpeed | errHb | errN | pwrReq | thermtrip | tdo
  deriving DecidableEq, Repr

/-- What a ball does: high-impedance, low or high, electrical idle, with no termination or with termination, an input, held at its last level,
an open drain released or asserted, or driven by its block. -/
inductive BallState where
  | highZ | low | high | idle | unterminated | terminated | input | held | released | asserted | driven
  deriving DecidableEq, Repr

/-- Is the port of a SerDes slot enabled (14 R374, R382, R387; 19 R515)? -/
def State.slotOn (s : State) (k : Nat) : Bool :=
  if k < 16 then
    (List.range 4).any (fun i => s.bit (pciePage i 0x44) 0 &&
      (match s.port.lanes with
       | some b => decide (4 * i ≤ k) && decide (k < 4 * i + peWidth b i)
       | none => false))
  else if k < 20 then s.fld (tsp (k - 16) 0x40) 0 3 != 0
  else if k < 36 then s.bit (prlPage ((k - 20) / 4) 0x40) 0
  else s.fld (tsp (k - 32) 0x40) 0 3 != 0

/-- A ball whose rail is off (19 R526). -/
def ballOff : BallGroup → BallState
  | .serdesRx _ => .unterminated
  | .errN | .pwrReq | .thermtrip => .released
  | _ => .highZ

/-- A ball in reset (19 R526). -/
def ballReset : BallGroup → BallState
  | .serdesTx _ => .idle
  | .serdesRx _ => .unterminated
  | .errN | .pwrReq | .thermtrip => .released
  | _ => .highZ

/-- A ball outside reset and freeze: what it shows until software uses it, and then what its block drives (19 R524, R526; 18 R500, R501). -/
def State.ballRun (s : State) : BallGroup → BallState
  | .lpddrReset m => if s.mem.selfRefresh.contains m.val then .held else if s.mem.inited.contains m.val then .driven else .low
  | .lpddrOut m => if s.mem.selfRefresh.contains m.val then .held else if s.mem.inited.contains m.val then .driven else .highZ
  | .serdesTx k => if s.slotOn k.val then .driven else .idle
  | .serdesRx k => if s.slotOn k.val then .terminated else .unterminated
  | .gpio n => if s.bit (pageBase 6 0x4C 3 + 0x50 + 4 * (n.val / 32)) (n.val % 32) then .driven else .input
  | .perst i => if s.power.perstHigh.contains i.val then .high else .low
  | .refclk i => if s.power.refclk.contains i.val then .driven else .highZ
  | .lowSpeed => .driven
  | .errHb => if s.err.hbLevel then .high else .low
  | .errN => if s.errN then .asserted else .released
  | .pwrReq => if s.power.pwrReqLow then .asserted else .released
  | .thermtrip => if s.power.thermtrip then .asserted else .released
  | .tdo => .driven

/-- What a frozen device shows at a ball (19 R526, 18 R500). -/
def State.ballFrozen (s : State) : BallGroup → BallState
  | .serdesTx _ => .idle
  | .errN => .asserted
  | .serdesRx k => s.ballRun (.serdesRx k)
  | .thermtrip => s.ballRun .thermtrip
  | .tdo => s.ballRun .tdo
  | _ => .held

/-- What a ball shows, `rail` telling whether its rail is on; THERMTRIP_N follows R529 in every state (19 R526). -/
def State.ball (s : State) (rail : Bool) (b : BallGroup) : BallState :=
  if !rail then ballOff b
  else if b = .thermtrip then s.ballRun b
  else if s.power.inReset then ballReset b
  else if s.err.frozen.isSome then s.ballFrozen b
  else s.ballRun b

end Sys2Proof.Machine
end

