-- ==== Sys2Proof/WellFormed.lean ====
section
/-! DEFINITION. Which commands are well formed: the checks that the operand types do not make. -/

namespace Sys2Proof

/-- The decoder of an Ozhorn-64 reads 1 to 15 bytes (04 R80). -/
def ozBytes (b : List Byte) : Bool := decide (1 ≤ b.length) && decide (b.length ≤ 15)

/-- A Lintos instruction has 1 to 6 bytes (16 R434). -/
def stlBytes (b : List Byte) : Bool := decide (1 ≤ b.length) && decide (b.length ≤ 6)

/-- The instructions of a run-ahead: at most 512 (06 R170). -/
def progOk (prog : List (List Byte)) : Bool := decide (prog.length ≤ 512) && prog.all ozBytes

/-- The sizes of a write to control space (02 R26). -/
def sizeOk8 (size : Nat) : Bool := size = 1 || size = 2 || size = 4 || size = 8

/-- A PCIe request carries data exactly when it writes. -/
def tlpOk (x : Tlp) : Bool := if x.write then !x.data.isEmpty else decide (1 ≤ x.len) && x.data.isEmpty

/-- A Parraha packet has at most 64 bytes of payload, and LEN counts those that it has or asks for (14 R389). -/
def prlOk (x : PrlPacket) : Bool :=
  decide (x.len ≤ 64) && decide (x.data.length ≤ 64) && (x.data.isEmpty || x.data.length = x.len)

/-- Is a command well formed? -/
def Instr.wf (i : Instr) : Bool :=
  match i with
  | .registerWrite _ _ size _ =>
    sizeOk8 size
  | .emramAccess w =>
    decide (1 ≤ w.size) && decide (w.size ≤ 8)
  | .temperatureSample t | .thermtripSample t =>
    decide (t.length = 8)
  | .ld _ bs | .ldx _ bs | .st _ bs | .lea _ bs | .fld _ bs | .fst _ bs | .vld _ bs | .vst _ bs | .add _ bs | .sub _ bs
  | .adc _ bs | .sbc _ bs | .and _ bs | .or _ bs | .xor _ bs | .andn _ bs | .shl _ bs | .shr _ bs | .sar _ bs | .ror _ bs
  | .mul _ bs | .mulhu _ bs | .mulhs _ bs | .mov _ bs | .cmp _ bs | .tst _ bs | .csel _ bs | .sxt _ bs | .clz _ bs | .ctz _ bs
  | .popc _ bs | .bswap _ bs | .mfs _ bs | .mts _ bs | .bc _ bs | .b _ bs | .bl _ bs | .jr _ bs | .jlr _ bs | .ret _ bs
  | .cbz _ bs | .cbnz _ bs | .loop _ bs | .svc _ bs | .hvc _ bs | .mvc _ bs | .brk _ bs | .nop _ bs | .amoswp _ bs
  | .amoadd _ bs | .amoand _ bs | .amoor _ bs | .amoxor _ bs | .amomin _ bs | .amomax _ bs | .cas _ bs | .divInit _ bs
  | .divInits _ bs | .dstep _ bs | .divFin _ bs | .fenceFull _ bs | .fenceAcqf _ bs | .fenceRelf _ bs | .fenceIfence _ bs
  | .fenceDev _ bs | .tlbiVaAsid _ bs | .tlbiVaAllAsid _ bs | .tlbiAsid _ bs | .tlbiVmidStage1 _ bs | .tlbiIpa _ bs
  | .tlbiVmid _ bs | .tlbiAll _ bs | .tlbsync _ bs | .wait _ bs | .reti _ bs | .rdfeat _ bs | .rdtime _ bs | .rdfrm _ bs
  | .rdwin _ bs | .pswitch _ bs | .cmoCleanMem _ bs | .cmoInvMem _ bs | .cmoCinvMem _ bs | .cmoCleanL2 _ bs | .cmoInvI _ bs
  | .cmoswClean _ bs | .cmoswInvalidate _ bs | .cmoswCleanInvalidate _ bs | .fadd _ bs | .fsub _ bs | .fmul _ bs
  | .fdiv _ bs | .fsqrt _ bs | .fmin _ bs | .fmax _ bs | .fma _ bs | .fms _ bs | .fnma _ bs | .fabs _ bs | .fneg _ bs
  | .fcmp _ bs | .fcvt _ bs | .scvtf _ bs | .fcvtzs _ bs | .fmv _ bs | .frint _ bs | .vadd _ bs | .vsub _ bs | .vmul _ bs
  | .vand _ bs | .vor _ bs | .vxor _ bs | .vandn _ bs | .vshl _ bs | .vshr _ bs | .vsar _ bs | .vmin _ bs | .vmax _ bs
  | .vminu _ bs | .vmaxu _ bs | .vcmpeq _ bs | .vcmpgt _ bs | .vdup _ bs | .vext _ bs | .vins _ bs | .evclmWrite _ bs
  | .eveoiWrite _ bs | .evsetWrite _ bs | .evrelWrite _ bs | .evholdWrite _ bs =>
    ozBytes bs
  | .runAheadEntry _ bs prog =>
    ozBytes bs && progOk prog
  | .msiMessage m =>
    decide (1 ≤ m.size) && decide (m.off.toNat + m.size ≤ 4096)
  | .pcieInboundRequest _ x =>
    tlpOk x
  | .parrahaWr _ x | .parrahaRd _ x | .parrahaRdr _ x | .parrahaMsg _ x | .parrahaNack _ x | .parrahaTick _ x
  | .dlyReq _ x | .dlyRsp _ x =>
    prlOk x
  | .stlLd _ bs | .stlSt _ bs | .stlAdd _ bs | .stlAdc _ bs | .stlSub _ bs | .stlSbc _ bs | .stlAnd _ bs | .stlOr _ bs
  | .stlXor _ bs | .stlCmp _ bs | .xld _ bs | .xst _ bs | .yld _ bs | .yst _ bs | .xinc _ bs | .xdec _ bs | .yinc _ bs
  | .ydec _ bs | .xcmp _ bs | .ycmp _ bs | .movxa _ bs | .movax _ bs | .movya _ bs | .movay _ bs | .movxs _ bs | .movsx _ bs
  | .movba _ bs | .movab _ bs | .bkld _ bs | .push _ bs | .pop _ bs | .pushx _ bs | .popx _ bs | .pushy _ bs | .popy _ bs
  | .pushf _ bs | .popf _ bs | .stlMul _ bs | .divu _ bs | .aneg _ bs | .br _ bs | .brCond _ bs | .jp _ bs | .jpf _ bs
  | .call _ bs | .callf _ bs | .stlRet _ bs | .iret _ bs | .jpx _ bs | .stlNop _ bs | .idle _ bs | .inton _ bs | .intoff _ bs
  | .swx _ bs | .ainc _ bs | .adec _ bs | .anot _ bs | .stlShl _ bs | .stlShr _ bs | .stlSar _ bs | .stlRdtime _ bs
  | .rdtimh _ bs | .stlRdfeat _ bs =>
    stlBytes bs
  | .lockSet _ _ _ | .softReset _ _ _ | .softResetDone _ | .errmaskWrite _ _ _ | .errinjArm _ _ _
  | .pgOwnerWrite _ _ _ | .aggregatorLatch _ | .agStatClear _ _ _ | .rdCs _ | .wrCs _ | .controlBridgeExpiry _ _
  | .controlNodeAccept _ | .initiatorTimeout _ | .toCfgWrite _ _ _ | .dvfsRequest _ _ _ | .pmicStatusPoll _ _
  | .dvfsStepDone _ | .dvfsTimeout _ | .timeIncrement | .adjWrite _ _ | .timeStep _ _ | .timeLoRead _ _
  | .runStart _ _ | .runStop _ _ | .fnumWrite _ _ | .internalTick | .frameInEdge | .gptpBoundary _ _ | .tickMiss
  | .tickMessage _ _ _ | .windowStart _ _ | .windowEnd _ _ | .windowGracePoint _ _ | .regulatorGrant _ | .cmtArm _ _
  | .commitCheckEnd | .cmtDisarm _ _ | .interruptEntry _ | .fetchFillComplete _ | .storeBufferWrite _
  | .partialOverlapReplay _ | .runAheadExit _ | .plCtlWrite _ _ _ | .pclr _ _ _ | .predictorInitDone _
  | .retcntLoRead _ _ | .tableReadResponse _ | .tlbiPacket _ _ | .tlbiAck _ | .cacheFill _ _ | .meClean _ _ _
  | .meInvalidate _ _ _ | .meCleanInvalidate _ _ _ | .meAbort _ _ _ | .meAbortDone _ | .meSweepDone _
  | .cacheInitDone _ | .logLineTimer _ | .log _ | .crd _ | .brposLoRead _ _ | .rdSh _ | .rdUn _ | .rdNc _ | .wrBk _
  | .wrLn _ | .wrPt _ | .cmoPacket _ | .evCl _ | .snp _ | .rcl _ | .trc _ | .data _ | .dataS _ | .ack _ | .snpAck _
  | .snpData _ | .packetSwitch _ _ | .drainClear _ | .mcInit _ _ _ | .trainingDone _ _ _ | .ipeOn _ _ _
  | .treeInitDone _ | .keyRangeWrite _ _ _ _ _ | .dramRead _ _ _ | .dramWrite _ _ _ _ | .reencryptDone _
  | .mr4Read _ _ | .periodicCalibration _ | .sweepRewrite _ _ _ | .sweepZero _ _ _ | .sweepAbort _ _ _ | .sweepDone _
  | .sourceFire _ | .ertLoWrite _ _ _ | .dbellWrite _ _ _ | .moderationIntervalEnd _ | .swfireWrite _ _ _
  | .pfCreate _ _ | .pfDestroy _ _ | .pfReset _ _ | .pfResize _ _ | .pfCommandDone | .queueEnable _ _ _ _
  | .queueDisable _ _ _ _ | .qDbWrite _ _ _ _ | .descriptorStart _ | .copy _ _ | .fill _ _ | .aes _ _ | .hash _ _
  | .ecdsaSign _ _ | .ecdsaVerify _ _ | .mlkemKeygen _ _ | .mlkemEncaps _ _ | .mlkemDecaps _ _ | .txf _ _ | .rxb _ _
  | .descriptorComplete _ _ | .vfRstWrite _ _ _ | .vfResetDone _ | .ethFrameReceive _ _ | .tsLoRead _ _
  | .gdOffsetWrite _ _ _ | .ethLinkChange _ _ | .qbvChange _ _ _ | .gateListSwitch _ | .gateEntryEnd _ | .tblRead _ _
  | .tblWrite _ _ | .tableOpDone | .pcieLinkEnable _ _ _ | .pcieLinkChange _ _ | .perstRelease _
  | .pcieCompletion _ _ | .pcieCompletionTimeout _ _ | .tickSend | .delayMeasureTimer _ | .parrahaLinkChange _ _
  | .msgRingEnable _ _ | .xspiGo _ _ | .xspiDone _ _ | .lowSpeedCommand _ _ _ | .gpioEdge _ _ | .capsel _ | .caprd _
  | .rng _ _ _ | .bootimg _ _ _ | .diceNext _ _ _ | .mrExtend _ _ _ | .attest _ _ _ | .getpub _ _ _
  | .slotInstall _ _ _ | .slotErase _ _ _ | .confSet _ _ _ | .confClr _ _ _ | .keyGen _ _ _ | .keyErase _ _ _
  | .keyPub _ _ _ | .ctrAdv _ _ _ | .dbgChal _ _ _ | .dbgResp _ _ _ | .lcAdv _ _ _ | .provHash _ _ _
  | .provRevoke _ _ _ | .provCfg _ _ _ | .mailboxCommandDone | .katDone _ | .rvbarWrite _ _ _ | .stlRunStart _ _ _
  | .stlRunStop _ _ _ | .stlWinAccess _ _ _ _ | .stoolFire _ | .stlInterruptEntry _ | .controlWindowTimeout _
  | .dcmdStop _ _ | .dcmdWake _ _ | .dcmdReset _ _ | .cabinetReset _ _ _ | .stopSequenceDone _ | .eventWake
  | .wakeDone _ | .wakeFailure _ _ | .chipStop _ _ _ | .chipSysrst _ _ | .wakeNFall | .aonTimerMatch
  | .pwrGoodTimeout | .timePllLock _ | .chipWakePllFail | .aonLoRead _ _ | .porstNLow | .aonSupplyDip | .sysrstNLow
  | .hbKick _ _ | .hbResume _ _ | .hbKickExpiry | .hbCtlWrite _ _ | .fzCmdFreeze _ _ | .freezeNLow
  | .powerOnResetRelease | .pwrGoodRise | .jtagControlAccess _ | .pcieAerError _ _ | .ufsDoorbell _ _ _
  | .ufsTransferDone _ _ _ | .lowSpeedTransferDone _ _ | .lowSpeedReceive _ _ =>
    true

/-- The same as a proposition. -/
def Instr.WF (i : Instr) : Prop := i.wf = true

end Sys2Proof
end

