-- ==== Sys2Proof/Tests/Slice0.lean ====
section
/-! SUPPORT. The model's own tests: ill-formed commands, words of the spec, steps on small states, and states that meet the hypotheses of the
statements. -/

namespace Sys2Proof.Tests

set_option Elab.async false

open Sys2Proof Sys2Proof.Machine

/-! ### Small states -/

/-- Reset, with some power domains in Run. -/
def upOf (ds : List Nat) : State := ds.foldl (fun s d => s.setNat (dstat d) 3) State.reset

/-- One domain of each kind in Run. -/
def up : State := upOf [0, 1, 192, 216, 248, 264, 268, 270, 271, 279, 280, 284, 288]

/-- A core whose prefetch queue holds the eight blocks from its pc on. -/
def fed (c : Core) : Core := { c with queue := (List.range 8).map (fun k => ⟨blockOf c.pc + BitVec.ofNat 64 (16 * k), false⟩) }

/-- Core 0 released and ready, with its registers and a full prefetch queue. -/
def withCore (c : Core) : State := ((up.setNat (corePage 0 0x10) 3).setNat (rts 0x44) 1).setCore 0 (fed c)

/-- What bytes spell. -/
def insnOf (b : List Byte) : Insn :=
  match ozDecode b with
  | .ok i => i
  | _ => { op := .nop, map := 0, opc := 0 }

/-- The state when core 0 has fetched them. -/
def fetched (s : State) (b : List Byte) : State := (s.fetchFor 0 (insnOf b)).2

/-- Does core 0 carry out the instruction that `b` spells? -/
def goes (s : State) (b : List Byte) : Bool :=
  !s.stalled && s.mayIssue 0 && !(s.core 0).mustEnter && !s.stalledPrimary 0 && !(s.core 0).isShadow && decide (ozDecode b = .ok (insnOf b))
    && decide ((s.fetchFor 0 (insnOf b)).1 = .ok)

/-- Then it issues, in the words of the statements. -/
theorem issues_of {s : State} {b : List Byte} (h : goes s b = true) : Issues s 0 b (insnOf b) (fetched s b) := by
  simp only [goes, Bool.and_eq_true, Bool.not_eq_true', decide_eq_true_eq] at h
  obtain ⟨⟨⟨⟨⟨⟨h1, h2⟩, h3⟩, h4⟩, h5⟩, h6⟩, h7⟩ := h
  exact ⟨h1, h2, h3, h4, h5, h6, Prod.ext h7 rfl⟩

/-- What a command answers; the state before where it refuses. -/
def after (c : Instr) (s : State) : State :=
  match exec c s with
  | .next t => t
  | _ => s

/-- May initiator `i` write the register at `a`, where page `p` stands? -/
def writable (s : State) (i : Initiator) (a : Nat) (p : Page) : Bool :=
  !s.stalled && decide (s.pageAt a = some p) && decide (a % 4 = 0)
    && (decide (s.partOf i = 0) || (decide (s.fld (p.base + 0x24) 0 6 = (s.partOf i).toNat) && !p.sysOnly (a % 4096)))
    && !s.writeVoid p (a % 4096)

theorem mayWrite_of {s : State} {i : Initiator} {a : Nat} {p : Page} (h : writable s i a p = true) : MayWrite s i a p := by
  simp only [writable, Bool.and_eq_true, Bool.or_eq_true, Bool.not_eq_true', decide_eq_true_eq] at h
  obtain ⟨⟨⟨⟨h1, h2⟩, h3⟩, h4⟩, h5⟩ := h
  exact ⟨h1, h2, h3, h4, h5⟩

/-- The page that stands at an offset; a page of an aggregator where none does. -/
def pageIn (s : State) (a : Nat) : Page :=
  match s.pageAt a with
  | some p => p
  | none => ⟨.agg, 0, 0, 0, 0⟩

/-- Core 0 as an initiator, at PARTID 0. -/
def me : Initiator := .core 0

/-- Core 0 at a level, with g1 and g2. -/
def coreAt (lv : Fin 4) (x y : W64) : Core := { (({} : Core).setG 1 x).setG 2 y with level := lv }

/-! ### Ozhorn-64: words of the spec's tables (04 R78-R92), and issue -/

/-- One word of each operation: escape, opcode and operand bytes as the tables of 04 R89-R92 give them, with A 1 and B 2 where they are
registers. -/
def words1 : List (OzOp × List Byte) :=
  [(.ld, [0x00, 0x12]), (.ldx, [0x60, 0x10, 0x12]), (.st, [0x20, 0x12]), (.lea, [0x30, 0x12]), (.add, [0x40, 0x12]), (.sub, [0x41, 0x12]),
   (.adc, [0x42, 0x12]), (.sbc, [0x43, 0x12]), (.and, [0x44, 0x12]), (.or, [0x45, 0x12]), (.xor, [0x46, 0x12]), (.andn, [0x47, 0x12]),
   (.shl, [0x48, 0x12]), (.shr, [0x49, 0x12]), (.sar, [0x4A, 0x12]), (.ror, [0x4B, 0x12]), (.mul, [0x4C, 0x12]), (.mulhu, [0x4D, 0x12]),
   (.mulhs, [0x4E, 0x12]), (.mov, [0x4F, 0x12]), (.cmp, [0x54, 0x12]), (.tst, [0x55, 0x12]), (.csel, [0x56, 0x12, 0x01]), (.sxt, [0x60, 0x57, 0x12]),
   (.clz, [0x58, 0x12]), (.ctz, [0x59, 0x12]), (.popc, [0x5A, 0x12]), (.bswap, [0x5B, 0x12])]
def words2 : List (OzOp × List Byte) :=
  [(.mfs, [0x5D, 0x10, 1, 0]), (.mts, [0x5E, 0x10, 1, 0]), (.bc, [0x70, 0x00, 0x01]), (.b, [0x73, 0x12]), (.bl, [0x76, 0x12, 1, 0, 0]), (.jr, [0x77, 0x02]),
   (.jlr, [0x78, 0x12]), (.ret, [0x79]), (.cbz, [0x7A, 0x10, 1, 0]), (.cbnz, [0x7B, 0x10, 1, 0]), (.loop, [0x7C, 0x10, 1, 0]), (.svc, [0x7D, 0x00, 1, 0]),
   (.hvc, [0x7D, 0x10, 1, 0]), (.mvc, [0x7D, 0x20, 1, 0]), (.brk, [0x7E]), (.nop, [0x7F]), (.fld, [0x6F, 0x00, 0x12]), (.fst, [0x6F, 0x10, 0x12]),
   (.vld, [0x6F, 0x20, 0x12]), (.vst, [0x6F, 0x30, 0x12]), (.amoswp, [0x6F, 0x60, 0x12]), (.amoadd, [0x6F, 0x61, 0x12]), (.amoand, [0x6F, 0x62, 0x12]),
   (.amoor, [0x6F, 0x63, 0x12]), (.amoxor, [0x6F, 0x64, 0x12]), (.amomin, [0x6F, 0x65, 0x12]), (.amomax, [0x6F, 0x66, 0x12]), (.cas, [0x6F, 0x67, 0x12])]
def words3 : List (OzOp × List Byte) :=
  [(.divInit, [0x8C, 0x6F, 0x68, 0xAB]), (.divInits, [0x8C, 0x6F, 0x69, 0xAB]), (.dstep, [0x8C, 0x6F, 0x6A, 0xAB]), (.divFin, [0x8C, 0x6F, 0x6B, 0xAB]), (.fence, [0x6F, 0x70, 0]),
   (.tlbi, [0x6F, 0x71, 0x10, 1]), (.tlbsync, [0x6F, 0x72]), (.wait, [0x6F, 0x73, 0x10]), (.reti, [0x6F, 0x74]), (.rdfeat, [0x6F, 0x75, 0x10, 1]),
   (.rdtime, [0x6F, 0x76, 0x10]), (.rdfrm, [0x6F, 0x77, 0x10]), (.rdwin, [0x6F, 0x78, 0x10]), (.pswitch, [0x6F, 0x79, 0x10]), (.cmo, [0x6F, 0x7A, 0x10, 1]),
   (.cmosw, [0x6F, 0x7B, 0x10, 1]), (.fadd, [0x6E, 0x00, 0x12]), (.fsub, [0x6E, 0x01, 0x12]), (.fmul, [0x6E, 0x02, 0x12]), (.fdiv, [0x6E, 0x03, 0x12]),
   (.fsqrt, [0x6E, 0x04, 0x12]), (.fmin, [0x6E, 0x05, 0x12]), (.fmax, [0x6E, 0x06, 0x12]), (.fma, [0x6E, 0x07, 0x12]), (.fms, [0x6E, 0x08, 0x12])]
def words4 : List (OzOp × List Byte) :=
  [(.fnma, [0x6E, 0x09, 0x12]), (.fabs, [0x6E, 0x0A, 0x12]), (.fneg, [0x6E, 0x0B, 0x12]), (.fcmp, [0x6E, 0x0C, 0x12]), (.fcvt, [0x6E, 0x10, 0x12]),
   (.scvtf, [0x6E, 0x12, 0x12]), (.fcvtzs, [0x6E, 0x13, 0x12]), (.fmv, [0x6E, 0x14, 0x12]), (.frint, [0x6E, 0x16, 0x12]), (.vadd, [0x66, 0x6E, 0x20, 0x12]),
   (.vsub, [0x66, 0x6E, 0x21, 0x12]), (.vmul, [0x66, 0x6E, 0x22, 0x12]), (.vand, [0x66, 0x6E, 0x23, 0x12]), (.vor, [0x66, 0x6E, 0x24, 0x12]),
   (.vxor, [0x66, 0x6E, 0x25, 0x12]), (.vandn, [0x66, 0x6E, 0x26, 0x12]), (.vshl, [0x66, 0x6E, 0x27, 0x12]), (.vshr, [0x66, 0x6E, 0x28, 0x12]),
   (.vsar, [0x66, 0x6E, 0x29, 0x12]), (.vmin, [0x66, 0x6E, 0x2A, 0x12]), (.vmax, [0x66, 0x6E, 0x2B, 0x12]), (.vminu, [0x66, 0x6E, 0x2C, 0x12]),
   (.vmaxu, [0x66, 0x6E, 0x2D, 0x12]), (.vcmpeq, [0x66, 0x6E, 0x2E, 0x12]), (.vcmpgt, [0x66, 0x6E, 0x2F, 0x12]), (.vdup, [0x66, 0x6E, 0x30, 0x12, 1]),
   (.vext, [0x66, 0x6E, 0x31, 0x12, 1]), (.vins, [0x66, 0x6E, 0x32, 0x12, 1])]
def words : List (OzOp × List Byte) := words1 ++ words2 ++ words3 ++ words4

/-- Every word decodes to its operation, over its whole length. -/
theorem test_words_decode : ∀ x ∈ words, (insnOf x.2).op = x.1 ∧ (insnOf x.2).len = x.2.length := by decide +kernel

/-- Every word issues at core 0 after reset: the hypothesis that the statements about Ozhorn-64 rows share. -/
theorem test_words_issue : ∀ x ∈ words, goes (withCore {}) x.2 = true := by decide +kernel

theorem test_witness_issues : ∀ x ∈ words, ∃ u, Issues (withCore {}) 0 x.2 (insnOf x.2) u ∧ (insnOf x.2).op = x.1 :=
  fun x h => ⟨_, issues_of (test_words_issue x h), (test_words_decode x h).1⟩

/-- The example of 04: a 32-bit acquire load of g21 from g3 + 4 g17 + 0x1234. -/
theorem test_decode_example : let i := insnOf [0x60, 0x68, 0xD1, 0x0A, 0x53, 0x34, 0x12]
    i.op = .ld ∧ i.w = 32 ∧ i.a = 21 ∧ i.b = 3 ∧ i.c = 17 ∧ i.scale = 2 ∧ i.imm = 0x1234 ∧ i.len = 7 := by decide

/-- Undefined opcodes, a missing prefix and condition 15 are refused with their reasons (04 R82, R89, R94). -/
theorem test_decode_illegal : ozDecode [0x5C, 0x12] = .ill 1 ∧ ozDecode [0x10, 0x12] = .ill 2 ∧ ozDecode [0x6E, 0x20, 0x12] = .ill 2
    ∧ ozDecode [0x70, 0x0F, 0x01] = .ill 5 := by decide

/-- ADD, SUBS and SBC of edge operands (05 R117, R118): 64-bit wrap, MIN - 1 overflows, a borrow. -/
theorem test_add_wraps : ((after (.add 0 [0x40, 0x12]) (withCore (coreAt 3 0xFFFFFFFFFFFFFFFF 1))).core 0).gr 1 = 0 := by decide
theorem test_subs_flags : let c := (after (.sub 0 [0x6F, 0x41, 0x12]) (withCore (coreAt 3 0x8000000000000000 1))).core 0
    c.gr 1 = 0x7FFFFFFFFFFFFFFF ∧ fieldOf c.status 0 4 = 3 := by decide
theorem test_sbc_borrows : ((after (.sbc 0 [0x43, 0x12]) (withCore (coreAt 3 5 2))).core 0).gr 1 = 2 := by decide
/-- SAR by more than the width (05 R120), MULHS of -1 and -1, CLZ of 0. -/
theorem test_sar_wide : ((after (.sar 0 [0x4A, 0x12]) (withCore (coreAt 3 0x8000000000000000 200))).core 0).gr 1 = 0xFFFFFFFFFFFFFFFF := by decide
theorem test_mulhs : ((after (.mulhs 0 [0x4E, 0x12]) (withCore (coreAt 3 0xFFFFFFFFFFFFFFFF 0xFFFFFFFFFFFFFFFF))).core 0).gr 1 = 0 := by decide
theorem test_clz_zero : ((after (.clz 0 [0x58, 0x12]) (withCore (coreAt 3 7 0))).core 0).gr 1 = 64 := by decide

/-- Two rows of the table of 05 R129: -7 by 2, and MIN by -1. -/
theorem test_divide_rows : (divideSeq 64 true 0xFFFFFFFFFFFFFFF9 2 ⟨false, false, false, false⟩).a = 0xFFFFFFFFFFFFFFFD
    ∧ (divideSeq 64 true 0xFFFFFFFFFFFFFFF9 2 ⟨false, false, false, false⟩).c = 0xFFFFFFFFFFFFFFFF
    ∧ (divideSeq 64 true 0x8000000000000000 0xFFFFFFFFFFFFFFFF ⟨false, false, false, false⟩).a = 0x8000000000000000
    ∧ (divideSeq 64 true 0xFFFFFFFFFFFFFFF9 0 ⟨false, false, false, false⟩).a = 1 := by decide +kernel

/-- A BC that is taken, and one that is not. -/
theorem test_bc : ((after (.bc 0 [0x70, 0x07, 0x10]) (withCore {})).core 0).pc = (({} : Core).pc + 3) + 16
    ∧ ((after (.bc 0 [0x70, 0x00, 0x10]) (withCore {})).core 0).pc = ({} : Core).pc + 3 := by decide

/-- A core inside a loop whose body ends at the next address: in the last pass, and before it (04 R107). -/
def looping (count : W64) : Core := ((({} : Core).setSys 0 0x100).setSys 4 (({} : Core).pc + 1)).setSys 2 count
theorem test_witness_LoopBackRule : bitOf ((looping 1).sysReg 0) 8 = true ∧ (looping 1).sysReg 4 = ({} : Core).pc + 1 ∧ (looping 1).sysReg 2 = 1
    ∧ bitOf ((looping 2).sysReg 0) 8 = true ∧ (looping 2).sysReg 2 ≠ 1 ∧ bitOf (({} : Core).sysReg 0) 8 = false := by decide
theorem test_loop_ends : let c := (after (.nop 0 [0x7F]) (withCore (looping 1))).core 0
    bitOf c.status 8 = false ∧ c.sysReg 2 = 0 ∧ c.pc = ({} : Core).pc + 1 := by decide

/-- SVC from each level; HVC and MVC from S and at U; BRK, in a handler's first instruction and not. -/
theorem test_witness_SystemCallsEnter : ∀ lv : Fin 4, goes (withCore { level := lv }) [0x7D, 0x00, 1, 0] = true ∧ goes (withCore { level := lv }) [0x7E] = true
    ∧ ((fetched (withCore { level := lv }) [0x7E]).core 0).vec = false ∧ ((fetched (withCore { level := lv }) [0x7E]).core 0).level = lv := by decide
theorem test_witness_SystemCallsAtUser : goes (withCore { level := 0 }) [0x7D, 0x10, 1, 0] = true ∧ goes (withCore { level := 0 }) [0x7D, 0x20, 1, 0] = true
    ∧ ((fetched (withCore { level := 0 }) [0x7D, 0x10, 1, 0]).core 0).level = 0 := by decide
theorem test_witness_DoubleFaults : ∀ lv : Fin 4, goes (withCore { level := lv, vec := true }) [0x7E] = true
    ∧ ((fetched (withCore { level := lv, vec := true }) [0x7E]).core 0).vec = true := by decide
theorem test_svc_enters : let c := (after (.svc 0 [0x7D, 0x00, 0x34, 0x12]) (withCore { level := 0 })).core 0
    c.level = 1 ∧ c.sysReg 0x4002 = 0x123400000005 ∧ c.sysReg 0x4000 = ({} : Core).pc + 4 := by decide
theorem test_witness_IllegalBytes : ozDecode [0x5C, 0x12] = .ill 1 ∧ (withCore {}).stalled = false ∧ (withCore {}).mayIssue 0 = true
    ∧ ((withCore {}).core 0).mustEnter = false ∧ (withCore {}).stalledPrimary 0 = false ∧ ((withCore {}).core 0).isShadow = false
    ∧ ((withCore {}).fetchInsn 0 (examined [0x5C, 0x12])).1 = .ok := by decide

/-! ### Floating point and vectors -/

/-- 1.5 + 1 ulp between two binary32 numbers: an inexact result, and an exact one (05 R135). -/
theorem test_witness_RoundingIsRight : (f32.round { rm := 0, trap := false } false 0x1000001 0 false).flags = flagNX
    ∧ (f64.round { rm := 4, trap := false } true 3 (-1) false).flags = 0 := by decide
/-- Scalar FADD of 1 and 1 is 2 without an assist; in every lane with prefix 0x66; of a signaling NaN too. -/
theorem test_fadd_one : ((after (.fadd 0 [0x6E, 0x00, 0x12]) (withCore ((({} : Core).setF 1 0x3FF0000000000000).setF 2 0x3FF0000000000000))).core 0).fr 1
    = 0x4000000000000000 := by decide
theorem test_witness_FpResults : (insnOf [0x6E, 0x00, 0x12]).laneFmt = none ∧ (insnOf [0x66, 0x6E, 0x00, 0x12]).laneFmt = some f32
    ∧ goes (withCore {}) [0x66, 0x6E, 0x00, 0x12] = true ∧ (f32.run { rm := 0, trap := false } .add 0 0 0).fpa = false := by decide
/-- FCMP of equal numbers asks for no assist; FCVT, FCVTZS and FMV neither. -/
theorem test_witness_FpCompare : (insnOf [0x6E, 0x0C, 0x12]).laneFmt = none ∧ (f64.cmp { rm := 0, trap := false } 0 0).2.2 = false
    ∧ (f64.cmp { rm := 0, trap := false } 0 0).1 = .equal := by decide
theorem test_witness_FpConversions : (cvtFmt f32 f64 { rm := 0, trap := false } 0x3F800000).fpa = false
    ∧ (cvtFmt f64 f32 { rm := 0, trap := false } 0).fpa = false ∧ (cvtToInt f64 { rm := 0, trap := false } 0).fpa = false
    ∧ (insnOf [0x6E, 0x14, 0x12]).opc = 0x14 ∧ (insnOf [0x6E, 0x15, 0x12]).opc = 0x15 := by decide +kernel
/-- VADD of bytes wraps in every lane by itself. -/
theorem test_vadd_lanes : ((after (.vadd 0 [0x64, 0x6E, 0x20, 0x12]) (withCore ((({} : Core).setF 1 0x01FF).setF 2 0x0101))).core 0).fr 1 = 0x0200 := by
  decide

/-! ### System registers, fences, waiting and return -/

/-- MFS and MTS of EPC_S (0x4000) at S; MTS of STATUS; MFS below the level, of no register; MTS to a read-only one and of a reserved bit. -/
theorem test_witness_SystemRegisters : (insnOf [0x5D, 0x10, 0x00, 0x40]).sysNo = 0x4000 ∧ (sysAcc 0x4000).isSome = true
    ∧ goes (withCore (coreAt 1 4 0)) [0x5D, 0x10, 0x00, 0x40] = true ∧ (coreAt 1 4 0).routedAway 0x4000 = false
    ∧ goes (withCore (coreAt 1 4 0)) [0x5E, 0x10, 0x00, 0x40] = true ∧ sysForbidden 0x4000 4 = false ∧ (coreAt 1 4 0).mtsPriv 0x4000 4 = false
    ∧ sysAcc 0x4000 ≠ some .ro ∧ goes (withCore (coreAt 1 4 0)) [0x5E, 0x10, 0, 0] = true ∧ sysForbidden 0 4 = false := by decide
theorem test_witness_SystemRegisterExceptions : goes (withCore (coreAt 0 0 0)) [0x5D, 0x10, 0x00, 0x40] = true ∧ sysAcc 0x3FFF = none
    ∧ goes (withCore (coreAt 1 0 0)) [0x5D, 0x10, 0xFF, 0x3F] = true ∧ sysForbidden 0 0x200 = true
    ∧ goes (withCore (coreAt 3 0x200 0)) [0x5E, 0x10, 0, 0] = true ∧ (withCore (coreAt 3 0x200 0)).core 0 = fed (coreAt 3 0x200 0) := by decide
theorem test_mfs_priv : let c := (after (.mfs 0 [0x5D, 0x10, 0x00, 0x40]) (withCore { level := 0 })).core 0
    c.level = 1 ∧ c.sysReg 0x4002 = 0x400000000002 := by decide
/-- The event registers of levels 0 and 3, at the ends of the range of `j`. -/
theorem test_witness_EventRegisterWrites : sysForbidden 0x4131 0 = false ∧ (coreAt 3 0 0).mtsPriv 0x4131 0 = false
    ∧ sysForbidden 0x41F3 1023 = false ∧ (coreAt 3 1023 0).mtsPriv 0x41F3 1023 = false := by decide
theorem test_witness_EvrelEvhold : goes (withCore (coreAt 3 0 0)) [0x5E, 0x10, 0x01, 0x42] = true ∧ goes (withCore (coreAt 3 0 0)) [0x5E, 0x10, 0x01, 0x81] = true
    ∧ sysForbidden 0x4201 0 = false ∧ sysForbidden 0x8101 0 = false := by decide

/-- RDFEAT at H, at S without FTRAP; RDTIME without a trap; RDWIN at S; RDTIME at U with UTD, at S with TTD. -/
theorem test_witness_Reads : (coreAt 2 0 0).timeTrap = none ∧ goes (withCore (coreAt 2 0 0)) [0x6F, 0x75, 0x10, 1] = true
    ∧ goes (withCore (coreAt 1 0 0)) [0x6F, 0x78, 0x10] = true ∧ bitOf ((coreAt 1 0 0).sysReg 0x8006) 1 = false
    ∧ goes (withCore ((coreAt 0 0 0).setSys 0x4006 1)) [0x6F, 0x76, 0x10] = true ∧ bitOf (((coreAt 0 0 0).setSys 0x4006 1).sysReg 0x4006) 0 = true
    ∧ goes (withCore ((coreAt 1 0 0).setSys 0x8006 8)) [0x6F, 0x77, 0x10] = true ∧ bitOf (((coreAt 1 0 0).setSys 0x8006 8).sysReg 0x8006) 3 = true := by
  decide

/-- A store buffer with one store, and a TLBI in progress. -/
def oneStore : Core := { (coreAt 3 0 0) with sb := [{ addr := 0x4000000000, data := [1], mt := .wb, part := 0, hint := 0 }], tlbis := [[7]] }
theorem test_witness_Fences : ∀ k : Fin 5, goes (withCore {}) [0x6F, 0x70, BitVec.ofNat 8 k.val] = true ∧ (insnOf [0x6F, 0x70, BitVec.ofNat 8 k.val]).byte = k.val
    ∧ ({} : Core).sb = [] ∧ ({} : Core).ext = [] ∧ goes (withCore oneStore) [0x6F, 0x70, BitVec.ofNat 8 k.val] = true ∧ oneStore.sb ≠ []
    ∧ goes (withCore oneStore) [0x6F, 0x72] = true ∧ oneStore.tlbis ≠ [] := by decide
theorem test_fence_waits : after (.fenceFull 0 [0x6F, 0x70, 0]) (withCore oneStore) = fetched (withCore oneStore) [0x6F, 0x70, 0] := by decide +kernel
/-- WAIT until TIME 0, which has come, and for an event that has not. -/
theorem test_witness_WaitRule : goes (withCore (coreAt 3 0 0)) [0x6F, 0x73, 0x10] = true ∧ ((coreAt 3 0 0).gr 1).toNat ≤ (withCore (coreAt 3 0 0)).time
    ∧ goes (withCore (coreAt 1 0 0)) [0x6F, 0x73, 0x00] = true ∧ (coreAt 1 0 0).wakeReady = false ∧ bitOf ((coreAt 1 0 0).sysReg 0x8006) 2 = false := by decide
/-- RETI from H to U and to M; with a level deliverable at U. -/
def fromH (e : W64) : Core := ((coreAt 2 0 0).setSys 0x8001 e).setSys 0x8000 0x3F0
theorem test_witness_ReturnRule : goes (withCore (fromH 0)) [0x6F, 0x74] = true ∧ fieldOf ((fromH 0).sysReg 0x8001) 0 2 = 0
    ∧ ((fromH 0).setSys 0x8101 (putBit ((fromH 0).sysReg 0x8101) 2 false)).highest 0 none = none
    ∧ goes (withCore (fromH 3)) [0x6F, 0x74] = true ∧ fieldOf ((fromH 3).sysReg 0x8001) 0 2 = 3 ∧ (fromH 3).vec = false := by decide
theorem test_reti : let c := (after (.reti 0 [0x6F, 0x74]) (withCore (fromH 0x10001))).core 0
    c.level = 1 ∧ c.pc = 0x3F0 ∧ bitOf c.status 0 = true := by decide
/-- PSWITCH to PARTID 63 and 64, and at S. -/
theorem test_witness_PartitionSwitch : goes (withCore (coreAt 2 63 0)) [0x6F, 0x79, 0x10] = true ∧ goes (withCore (coreAt 2 64 0)) [0x6F, 0x79, 0x10] = true
    ∧ goes (withCore (coreAt 1 63 0)) [0x6F, 0x79, 0x10] = true ∧ (coreAt 1 63 0).sb = [] ∧ (coreAt 1 63 0).vec = false := by decide
/-- TLBI of the lowest and the highest scope. -/
theorem test_witness_TlbiSends : goes (withCore (coreAt 1 0 0)) [0x6F, 0x71, 0x10, 0] = true ∧ goes (withCore (coreAt 2 0 0)) [0x6F, 0x71, 0x10, 6] = true
    ∧ (insnOf [0x6F, 0x71, 0x10, 6]).byte = 6 ∧ bitOf ((coreAt 1 0 0).sysReg 0x8006) 4 = false ∧ (coreAt 1 0 0).tlbis.length < 16 := by decide
/-- RETI with level 0 of the events pending and enabled: a chained entry. -/
def chained : Core := ((fromH 0).setSys 0x4100 1).setSys 0x4110 1
theorem test_witness_ChainedReturn : goes (withCore chained) [0x6F, 0x74] = true
    ∧ (chained.setSys 0x8101 (putBit (chained.sysReg 0x8101) 2 false)).highest 0 none = some 0 := by decide

/-! ### Memory: translation, loads, stores, atomics -/

/-- Core 0 with 64 KiB of DRAM below, its L2 initialised. -/
def ram (c : Core) : State := { (withCore c).setBit (benchPage 0 0 0x10) 1 true with mem := { (withCore c).mem with vtop := 0x10000 } }
/-- The core's L1D holds line 4 (addresses 0x100 to 0x13F), modified. -/
def hot (c : Core) : Core := { c with l1d := { lines := [(32, some { line := 4, st := .m, data := 0x1122334455667788, poison := false })] } }
/-- The state in which an instruction of core 0 starts to act, with B (g2) at `y`. -/
def acting (y : W64) (b : List Byte) : State := fetched (ram (hot (coreAt 3 0x55 y))) b
/-- The first part of an access, where its pages translate. -/
def partAt (s : State) (m : MemAcc) : Option Part :=
  match (s.placeParts 0 m true m.pages).1 with
  | .ok [p] => some p
  | _ => none

/-- The physical address that a translation answers, and the SUB of its fault. -/
def paOf : Xl → Option Nat
  | .ok pa _ => some pa
  | _ => none
def subOf : Xl → Option Nat
  | .fault f => some f.sub
  | _ => none
def partsOf : Placed → Nat
  | .ok ps => ps.length
  | _ => 0

/-- CMO of each row, and CMOSW of the first and the last set of the L1D, then of a reserved field. -/
theorem test_witness_CacheMaintenance : (∀ k ∈ [(0 : Byte), 4], goes (ram (hot (coreAt 3 0x100 0))) [0x6F, 0x7A, 0x10, k] = true)
    ∧ paOf ((acting 0 [0x6F, 0x7A, 0x10, 0]).translate 0 0x100 .read 3 1).1 = some 0x100
    ∧ (acting 0 [0x6F, 0x7A, 0x10, 0]).confOwner 0x100 1 = none
    ∧ goes (ram (hot (coreAt 2 0x700007F00 0))) [0x6F, 0x7B, 0x10, 1] = true ∧ fieldOf (0x700007F00 : W64) 8 12 = 127
    ∧ fieldOf (0x700007F00 : W64) 32 4 = 7
    ∧ goes (ram (hot (coreAt 2 4 0))) [0x6F, 0x7B, 0x10, 1] = true ∧ fieldOf (4 : W64) 2 6 ≠ 0 := by decide +kernel

/-- Addresses of the wrong form with a stage on and off; the H-regime off; an entry of the DTLB that suffices, and one that does not. -/
def entryFor (r : BitVec 6) : TlbEntry :=
  { hreg := true, vmid := 0, asid := 0, glob := true, va := 0x5000, sz := 0, pa := 0x3000, mt := .wb, mt1 := .wb, hint := false, r1 := r, l1 := 3, r2 := 0,
    l2 := 0, ipa := 0, ipaSz := 0, dirty := true }
def mapped (r : BitVec 6) : Core := { (coreAt 3 0 0).setSys 0x8013 1 with dtlb := [entryFor r] }
theorem test_witness_TranslationRules : bitOf (({} : Core).sysReg 0x8013) 0 = false ∧ bitOf ((coreAt 3 0 0).sysReg 0x8013) 0 = false
    ∧ bitOf (0x40000000000 : W64) 42 = true ∧ bitOf (((coreAt 3 0 0).setSys 0x8013 1).sysReg 0x8013) 0 = true
    ∧ bitOf (0x800000000000 : W64) 47 = true ∧ bitOf (0x800000000000 : W64) 48 = false
    ∧ (∀ r ∈ [(0 : BitVec 6), 63], (mapped r).dtlb.filter (fun x => x.matches (mapped r) true 0x5678 && (x.dirty || !Acc.read.writes
        || (x.permFault .read 3 0x5678).isSome)) = [entryFor r]) ∧ rightsMissing 63 .read 3 = false ∧ rightsMissing 0 .read 3 = true := by decide
theorem test_off_is_physical : paOf ((ram {}).translate 0 0x1234 .read 3 8).1 = some 0x1234 := by decide

/-- Loads of the line that the L1D holds, with an empty store buffer, at its first and its last eight bytes. -/
theorem test_witness_LoadsRead : goes (ram (hot (coreAt 3 0x55 0x100))) [0x00, 0x12] = true
    ∧ partAt (acting 0x138 [0x00, 0x12]) { va := 0x138, len := 8, acc := .read, strict := false }
        = some { pa := 0x138, va := 0x138, len := 8, mt := .wb, refused := false }
    ∧ ((acting 0x100 [0x00, 0x12]).core 0).sb = [] := by decide +kernel
theorem test_load : ((after (.ld 0 [0x00, 0x12]) (ram (hot (coreAt 3 0 0x100)))).core 0).gr 1 = 0x1122334455667788 := by decide +kernel
theorem test_load_misses : ((after (.ld 0 [0x00, 0x12]) (ram (hot (coreAt 3 0 0x200)))).core 0).pc = ({} : Core).pc := by decide +kernel
/-- A load of bytes that one older store holds takes them from it; of some of them only, it does not retire (06 R167). -/
def storing (a : Nat) : Core := { hot (coreAt 3 0 0x100) with sb := [{ addr := a, data := leBytes 8 0x77, mt := .wb, part := 0, hint := 0 }] }
theorem test_witness_LoadsForward : forwardFrom (storing 0x100).sb 0x100 8 = .data (leBytes 8 0x77)
    ∧ forwardFrom (storing 0x104).sb 0x100 8 = .partly := by decide
theorem test_load_forwards : ((after (.ld 0 [0x00, 0x12]) (ram (storing 0x100))).core 0).gr 1 = 0x77
    ∧ ((after (.ld 0 [0x00, 0x12]) (ram (storing 0x104))).core 0).gr 1 = 0 := by decide +kernel

/-- A store at an aligned address, and one across two pages; and a full store buffer. -/
theorem test_witness_StoresEnterTheBuffer : goes (ram (hot (coreAt 3 0x55 0x100))) [0x20, 0x12] = true
    ∧ (partAt (acting 0x100 [0x20, 0x12]) { va := 0x100, len := 8, acc := .write, strict := false }).isSome = true
    ∧ partsOf ((acting 0xFFC [0x20, 0x12]).placeParts 0 { va := 0xFFC, len := 8, acc := .write, strict := false } true
          { va := (0xFFC : W64), len := 8, acc := .write, strict := false : MemAcc }.pages).1 = 2 := by decide +kernel
theorem test_store : ((after (.st 0 [0x20, 0x12]) (ram (hot (coreAt 3 0x55 0x100)))).core 0).sb
    = [{ addr := 0x100, data := leBytes 8 0x55, mt := .wb, part := 0, hint := 0 }] := by decide +kernel

/-- Atomics on the modified line, and on a line of the model's indivisible step at home. -/
theorem test_witness_AtomicsPerform : goes (ram (hot (coreAt 3 0x55 0x100))) [0x6F, 0x61, 0x12] = true
    ∧ (partAt (acting 0x100 [0x6F, 0x61, 0x12]) { va := 0x100, len := 8, acc := .rmw, strict := true }).isSome = true
    ∧ (acting 0x100 [0x6F, 0x61, 0x12]).cached .wb 0x100 = true ∧ (acting 0x100 [0x6F, 0x61, 0x12]).evicting 0 4 = false
    ∧ (acting 0x100 [0x6F, 0x61, 0x12]).err.flaws = [] ∧ (((acting 0x100 [0x6F, 0x61, 0x12]).l1dLine 0 4).map (·.st)) = some .m
    ∧ (acting 0x100 [0x6F, 0x61, 0x12]).cached .nc 0x200 = false ∧ (acting 0x100 [0x6F, 0x61, 0x12]).isDram 0x200 = true := by decide +kernel
theorem test_amo_takes_old : let c := (after (.amoadd 0 [0x6F, 0x61, 0x12]) (ram (hot (coreAt 3 0x55 0x100)))).core 0
    c.gr 1 = 0x1122334455667788 := by decide +kernel

/-- An atomic at an odd address; a fault; a walk: stage H on with nothing in the TLBs. -/
theorem test_witness_AccessesTrap : goes (ram (hot (coreAt 3 0x55 0x101))) [0x6F, 0x61, 0x12] = true
    ∧ paOf ((acting 0x101 [0x6F, 0x61, 0x12]).translate 0 0x101 .rmw 3 8).1 = some 0x101
    ∧ subOf ((acting 0x40000000000 [0x00, 0x12]).translate 0 0x40000000000 .read 3 8).1 = some 16
    ∧ ((ram ((coreAt 3 0 0).setSys 0x8013 1)).translate 0 0x5000 .read 3 8).1 = .walk
    ∧ ((acting 0x101 [0x00, 0x12]).core 0).vec = false := by decide +kernel
theorem test_align : let c := (after (.amoadd 0 [0x6F, 0x61, 0x12]) (ram (hot (coreAt 1 0x55 0x101)))).core 0
    c.level = 1 ∧ c.sysReg 0x4003 = 0x101 ∧ c.sysReg 0x4002 = 3 + 65536 + 131072 * 3 := by decide +kernel

/-- The last bytes of the line, and the oldest entry of a store buffer in each of its cases. -/
theorem test_witness_StoredBytesAreRead : ((ram (hot (coreAt 3 0 0))).l1dLine 0 4).map (·.st) = some .m ∧ 56 + (leBytes 8 7).length ≤ 64 := by decide +kernel
theorem test_witness_StoreBufferDrains : (ram {}).stalled = false ∧ (ram {}).domUp 0 = true ∧ ({} : Core).sb = []
    ∧ (ram (storing 0x100)).cached .wb 0x100 = true ∧ (ram (storing 0x100)).evicting 0 4 = false ∧ ((ram (storing 0x100)).l1dLine 0 4).isSome = true
    ∧ (ram {}).cached .nc 0x200 = false ∧ ((ram {}).destOf 0x200).isSome = true ∧ ({} : Core).fetchWait = none ∧ (ram {}).coh.misses = [] := by decide +kernel
theorem test_drain : ((after (.storeBufferWrite 0) (ram (storing 0x100))).core 0).sb = []
    ∧ (((after (.storeBufferWrite 0) (ram (storing 0x100))).l1dLine 0 4).map (·.data)) = some 0x77 := by decide +kernel

/-- An episode begins at a load whose line was asked for and has not come. -/
def missed : State := after (.ld 0 [0x00, 0x12]) { ram (hot (coreAt 3 0 0x200)) with clock := { ({} : ClockSt) with time := 9 } }
theorem test_witness_RunAhead : missed.mayIssue 0 = true ∧ (missed.core 0).raDone = false ∧ bitOf (missed.core 0).pl 2 = true
    ∧ headSerialises [] = false ∧ missed.time ≠ missed.tickInstant 0 ∧ missed.missing 0 (insnOf [0x00, 0x12]) ≠ []
    ∧ bitOf ({ (coreAt 3 0 0) with pl := 3 } : Core).pl 2 = false := by decide +kernel

/-- A TLBI that has reached the bench of core 0, and one that is not at its gate. -/
def tlbiPkt : Packet := { op := 0x13, dst := 0 }
def arrived (p : Packet) : State := { ram {} with net := { flights := [{ pkt := p, rtr := 0, port := 0, wait := none, held := false, out := true }] } }
theorem test_witness_TlbiPerformed : (arrived tlbiPkt).atGate tlbiPkt = false ∧ tlbiPkt.dst.toNat = benchRouter 0 ∧ (arrived tlbiPkt).domUp 0 = true
    ∧ benchOf { op := 0x13, src := 0, srcp := 0 } = some (0 / 8) := by decide +kernel

/-- An environment of a walk in the H-regime, and four entries of a page whose rights suffice, then of one that is not valid. -/
def walking : WalkEnv :=
  { s1root := 0, s1ctl := 0, s2root := 0, s2ctl := 0, hxroot := 0x1000, hxctl := 1, vtop := 0x10000, barred := fun _ => false, va := 0x5000, fetch := false }
theorem test_witness_TableWalks : bitOf (0x2003 : W64) 0 = true ∧ bitOf (0x2003 : W64) 1 = true ∧ fieldOf (0x2003 : W64) 52 6 = 0
    ∧ fieldOf (0x2003 : W64) 2 10 = 0 ∧ bitOf (0x03F00000000090C3 : W64) 1 = true ∧ fieldOf (0x03F00000000090C3 : W64) 9 3 = 0
    ∧ fieldOf (0x03F00000000090C3 : W64) 2 3 = 0 ∧ rightsMissing (teRights 0x03F00000000090C3) .write 3 = false
    ∧ bitOf (0x03F00000000090C2 : W64) 0 = false := by decide +kernel
theorem test_walk : (match walking.run .write 3 [.word 0x2003, .word 0x3003, .word 0x4003, .word 0x03F00000000090C3] with | .ok e => e.pa | _ => 0) = 0x9000
    ∧ (match walking.run .write 3 [.word 0x2003, .word 0x3003, .word 0x4003, .word 0x03F00000000090C2] with | .error (.fault f) => f.sub | _ => 0) = 35 := by
  decide +kernel
def walksAt (w : Walk) : State := ram { (coreAt 3 0 0x5000).setSys 0x8013 1 with walk := some w }
theorem test_witness_WalkAnswer : (walksAt ⟨0x5000, .read, 3, 3, [], false⟩).coreRuns 0 = true
    ∧ (match ((walksAt ⟨0x5000, .read, 3, 3, [], false⟩).walkEnv 0 0x5000 .read 3).run .read 3 [] with | .error (.read pa _ _) => pa | _ => 1) = 0 := by decide +kernel

/-- A fill of a line that has come, and of one that has not. -/
def come : Miss := { core := 0, line := 8, un := false, hint := 0, fetch := false, spec := false, part := 0, tag := 0, va := 8, got := some (7, false, .e) }
theorem test_witness_FillsComplete : (ram {}).cacheReady (benchPage 0 0 0) = true ∧ ((ram {}).evb 0).length < 16
    ∧ ([come].find? (fun m => m.core == 0 && m.line == 8 && m.got.isSome)) = some come := by decide +kernel
theorem test_fill : (((after (.cacheFill 0 0x200) { ram {} with coh := { misses := [come] } }).l2Line 0 8).map (·.data)) = some 7 := by decide +kernel

/-! ### Lintos engines -/

/-- Engine 0 running, its page without errors, with these registers. -/
def withStool (t : Stool) : State := (up.setNat (stoolPage 0 0x40) 1).setStool 0 t
/-- What bytes spell, and does engine 0 carry it out? -/
def stlOf (b : List Byte) : StlInsn :=
  match stlDecode b with
  | .ok i => i
  | _ => ⟨0, 0, none, false, 0, 0⟩
def stlGoes (s : State) (b : List Byte) : Bool :=
  !s.stalled && s.stlReady 0 && decide ((s.stool 0).deliverable = none) && decide (stlDecode b = .ok (stlOf b))
    && decide ((s.stlFetch 0 (s.stool 0).pc.toNat 0 (stlOf b).len).1 = none)
theorem stlIssues_of {s : State} {b : List Byte} (h : stlGoes s b = true) :
    StlIssues s 0 b (stlOf b) (s.stlFetch 0 (s.stool 0).pc.toNat 0 (stlOf b).len).2 := by
  simp only [stlGoes, Bool.and_eq_true, Bool.not_eq_true', decide_eq_true_eq] at h
  obtain ⟨⟨⟨⟨h1, h2⟩, h3⟩, h4⟩, h5⟩ := h
  exact ⟨h1, by decide, h2, h3, h4, Prod.ext h5 rfl⟩

/-- Words of 16 R434-R437: an immediate LD, an 8-bit ADD of a bank's byte, SWX, and the operation they stand for. -/
theorem test_stl_words : (stlOf [0x00, 0x34, 0x12]).op = 0 ∧ (stlOf [0x00, 0x34, 0x12]).imm = 0x1234
    ∧ (stlOf [0xF0, 0xF2, 0x05, 0x11, 0x34, 0x12]).w = 8 ∧ (stlOf [0xF0, 0xF2, 0x05, 0x11, 0x34, 0x12]).bank = some 5
    ∧ (stlOf [0x84]).op = 0x84 ∧ stlDecode [0xF0, 0xF1, 0x00] = .ill 2 ∧ stlDecode [0x08, 0, 0] = .ill 1 := by decide

/-- Matrix rows with an immediate and with a word of the SRAM, of a register, of the control window. -/
theorem test_witness_StlArithmetic : stlGoes (withStool {}) [0x10, 0x34, 0x12] = true ∧ stlGoes (withStool {}) [0x11, 0x34, 0x12] = true
    ∧ (0x1234 % 4 = 0) ∧ ((withStool {}).sramRead 0 0x1234 4).1 = false
    ∧ ((withStool {}).force (stoolPage 0 0) 1).ctlRead1 192 (stoolPage 0 0x40 / 4 * 4) 4 ≠ none := by decide +kernel
theorem test_stl_add : let t := (after (.stlAdd 0 [0x10, 0x01, 0x00]) (withStool { a := 0xFFFFFFFF })).stool 0
    t.a = 0 ∧ fieldOf t.f 0 4 = 3 ∧ t.pc = 3 := by decide +kernel
theorem test_stl_ld8 : ((after (.stlLd 0 [0xF0, 0x00, 0xFF, 0x12]) (withStool {})).stool 0).a = 0xFF := by decide +kernel

theorem test_witness_StlLoads : (∀ b ∈ [[(0x50 : Byte), 1, 0], [0x53, 1, 0], [0x51, 0, 1], [0x54, 0, 1], [0x66], [0x68], [0x6A], [0x6C], [0x7D], [0x7E]],
    stlGoes (withStool { sp := 0x100 }) b = true) ∧ ((withStool {}).sramRead 0 0x100 4).1 = false := by decide +kernel
theorem test_witness_StlStores : ∀ b ∈ [[(0x09 : Byte), 0, 1], [0x52, 0, 1], [0x55, 0, 1], [0x65], [0x67], [0x69], [0x6B], [0x7B, 0, 1], [0x7C, 0, 0, 1]],
    stlGoes (withStool { sp := 0x100 }) b = true := by decide +kernel
theorem test_push : let t := (after (.push 0 [0x65]) (withStool { a := 0x11223344, sp := 0x100 })).stool 0
    t.sp = 0xFC ∧ Memory.read t.sram 0xFC = 0x44 ∧ Memory.wf t.sram = true := by decide +kernel
theorem test_witness_StlRegisterRows : ∀ b ∈ [[(0x56 : Byte)], [0x6E], [0x70, 0x80], [0x71, 0x7F], [0x88, 31], [0x80], [0x8A, 0]],
    stlGoes (withStool {}) b = true := by decide +kernel
theorem test_divu_zero : let t := (after (.divu 0 [0x6E]) (withStool { a := 0x12345678 })).stool 0
    t.a = 0xFFFFFFFF ∧ t.y = 0x5678 ∧ bitOf t.f 0 = true := by decide +kernel
/-- IDLE without a pending level, and with one above PL; RDFEAT of 3. -/
def pendingLevel : Stool := ({ f := 0 } : Stool).setLr 0x20 1 |>.setLr 0x40 1
theorem test_witness_StlReadsAndWaits : (∀ b ∈ [[(0x8B : Byte)], [0x8C], [0x8D, 3], [0x81], [0x5D], [0x5F]], stlGoes (withStool {}) b = true)
    ∧ stlGoes (withStool pendingLevel) [0x81] = true ∧ pendingLevel.levelOn 0 = true := by decide +kernel

/-- SWX, an RDFEAT of 4, an illegal opcode and a misaligned LD at PL 0; SWX at PL 5. -/
theorem test_witness_StlExceptions : (∀ b ∈ [[(0x84 : Byte)], [0x8D, 4], [0x01, 1, 0]], stlGoes (withStool { sp := 0x100 }) b = true)
    ∧ stlDecode [0x90] = .ill 1 ∧ stlGoes (withStool { sp := 0x100, f := 0xA0 }) [0x84] = true ∧ fieldOf (0xA0 : Byte) 5 3 = 5
    ∧ (withStool {}).err.flaws = [] ∧ (withStool {}).reg (stoolPage 0 0x1C) = 0 := by decide +kernel
theorem test_swx : let t := (after (.swx 0 [0x84]) (withStool { sp := 0x100, pc := 0x200 })).stool 0
    fieldOf t.f 5 3 = 5 ∧ t.sp = 0xF8 ∧ t.lr 0x10 = 0x200 ∧ Memory.read t.sram 0xFC = 1 := by decide +kernel
/-- The lowest and the highest level deliverable, and none. -/
def level (l : Nat) : Stool := ({ f := 0x10, sp := 0x100 } : Stool).setLr (0x20 + 8 * l) 1 |>.setLr (0x40 + 8 * l) 1
theorem test_witness_StlInterruptEntry : (level 0).deliverable = some 0 ∧ (level 3).deliverable = some 3 ∧ ({} : Stool).deliverable = none
    ∧ (withStool (level 3)).stlReady 0 = true := by decide +kernel
theorem test_stl_entry : let t := (after (.stlInterruptEntry 0) (withStool (level 3))).stool 0
    fieldOf t.f 5 3 = 4 ∧ t.sp = 0xF8 := by decide +kernel
/-- A fire to engine 0, and a load from the control window that waits. -/
def waitingLoad : Stool := { ({} : Stool) with cw := some [0x07, 0x00, 0x00, 0x90], pc := 0x10 }
theorem test_witness_StlFiresAndTimeouts : waitingLoad.cw = some [0x07, 0x00, 0x00, 0x90] ∧ (stlOf [0x07, 0x00, 0x00, 0x90]).op = 7
    ∧ (stlOf [0x07, 0x00, 0x00, 0x90]).imm = 0x900000 ∧ bitOf (waitingLoad.lr 0) 0 = false
    ∧ (withStool waitingLoad).bit (stoolPage 0 0x40) 0 = true ∧ ({} : Stool).cw = none
    ∧ ({ withStool {} with ev := { fires := [.stool 0 3 63] } } : State).ev.fires[0]? = some (.stool 0 3 63) := by decide +kernel
/-- Both chip engines in one state. -/
theorem test_witness_ChipStoolsRunTogether : let s := ((up.setNat (stoolPage 32 0x40) 1).setNat (stoolPage 33 0x40) 1)
    stlDecode [0x80] = .ok (stlOf [0x80]) ∧ s.stlReady 32 = true ∧ (s.stool 32).deliverable = none ∧ s.stool 33 = s.stool 32
      ∧ s.bit (stoolPage 33 0x40) 0 = true ∧ s.soft = [] := by decide +kernel

/-! ### Errors, control space, frames, the fabric -/

/-- Core 0 may write the register at `a` now: the hypothesis that the statements about register writes share. -/
def open_ (s : State) (a : Nat) : Bool := writable s me a (pageIn s a)
theorem test_witness_MayWrite {s : State} {a : Nat} (h : open_ s a = true) : MayWrite s me a (pageIn s a) := mayWrite_of h

/-- A page with a mask bit at 0 and one at 1; a report of bench page 0 for its aggregator. -/
theorem test_witness_ErrorsAreReported : (pageOf (benchPage 0 0 0)).isSome = true ∧ up.stalled = false ∧ up.err.reports = []
    ∧ (up.setReg (benchPage 0 0 0x18) 1).bit (benchPage 0 0 0x18) 31 = false ∧ (up.setReg (benchPage 0 0 0x18) 1).bit (benchPage 0 0 0x18) 0 = true := by
  decide +kernel
def masked : State := (up.setNat (benchPage 0 0 0x18) 0xFFFFFFFF).raise (benchPage 0 0 0) 31 (some 0)
theorem test_witness_AggregatorLatch : ∃ r rs, takeReport (firstAgg (pageIn up (benchPage 0 0 0))) masked.err.reports = some (r, rs) ∧ rivals r rs = [] ∧ r.bit < 32 := by
  refine ⟨_, _, rfl, ?_⟩; decide +kernel
theorem test_witness_RivalReports : ∃ r rs, takeReport (firstAgg (pageIn up (benchPage 0 0 0))) (masked.raise (benchPage 0 0 0) 30).err.reports = some (r, rs)
    ∧ rivals r rs ≠ [] := by
  refine ⟨_, _, rfl, ?_⟩; decide +kernel

/-- A page that answers, one in a reset, one of another partition; a plain page; no page. -/
theorem test_witness_WritesAndRefusals : (up.pageAt (tim 0x48)).isSome = true ∧ up.writeVoid (pageIn up (tim 0x48)) 0x48 = false ∧ up.partOf me = 0
    ∧ ({ up with soft := [pageNo 7 0x4 0] } : State).stalled = false ∧ up.pageAt 0xFFFFFFC = none
    ∧ open_ up (probePage 0 0x60) = true ∧ (pageIn up (probePage 0 0x60)).kind = .probe := by decide +kernel
/-- A write by a partition that does not own the page is refused, and sets OWN_REF (02 R33). -/
def stranger : State := withCore (({} : Core).setSys 0x8008 5)
theorem test_own_ref : stranger.mayWrite (pageIn up (benchPage 0 0 0x40)) (stranger.partOf me) = false := by decide +kernel

/-- The header of the bench page: with LOCK 0 and 1, in a reset that may end; the aggregator's classes. -/
def locked : State := up.setNat (benchPage 0 0 0xC) 4
theorem test_witness_PageHeaderRows : open_ up (benchPage 0 0 0xC) = true ∧ open_ locked (benchPage 0 0 0xC) = true
    ∧ up.bit (benchPage 0 0 0xC) 2 = false ∧ locked.bit (benchPage 0 0 0xC) 2 = true ∧ open_ up (benchPage 0 0 0x18) = true
    ∧ open_ up (benchPage 0 0 0x1C) = true ∧ open_ up (benchPage 0 0 0x24) = true ∧ open_ up (pageBase 0 2 0 + 0x40) = true := by decide +kernel
/-- An injection at a masked bit is forwarded, as injected, when the mask bit is set (02 R30, 18 R505). -/
def hushed : State := after (.errinjArm me (BitVec.ofNat 16 (benchPage 0 0 0 / 4096)) 0x80000000) (up.setNat (benchPage 0 0 0x18) 0)
theorem test_masked_report : hushed.err.reports = [] ∧ hushed.bit (benchPage 0 0 0x14) 31 = true
    ∧ (after (.errmaskWrite me (BitVec.ofNat 16 (benchPage 0 0 0 / 4096)) 0x80000000) hushed).err.reports.map (fun r => (r.bit, r.inj)) = [(31, true)] := by
  decide +kernel
theorem test_witness_LateReport : open_ hushed (benchPage 0 0 0x18) = true ∧ hushed.reg (benchPage 0 0 0x18) = 0 ∧ hushed.reg (benchPage 0 0 0x14) = BitVec.ofNat 32 (2 ^ 31)
    ∧ (hushed.err.seen.find? (fun q => q.page = benchPage 0 0 0 / 4096 && q.bit = 31)).isSome = true := by decide +kernel
def resetting : State := after (.softReset me (BitVec.ofNat 16 (benchPage 0 0 0 / 4096)) 2) up
theorem test_witness_SoftResetDone : resetting.soft = [benchPage 0 0 0 / 4096] ∧ resetting.stalled = false
    ∧ resetting.softReady (pageIn up (benchPage 0 0 0)) = true ∧ (pageIn up (benchPage 0 0 0)).kind ≠ .cmr := by decide +kernel
theorem test_soft_reset_ends : let t := after (.softResetDone (BitVec.ofNat 16 (benchPage 0 0 0 / 4096))) resetting
    t.soft = [] ∧ t.bit (benchPage 0 0 0x10) 1 = true := by decide +kernel

/-- A read and a write of a register at the IOC's gateway, an access of a node with wrong parity, an expired bridge access. -/
def csPkt : Packet := { op := 0x04, dst := 72, dstp := 0, size := 3, addr := BitVec.ofNat 42 (0x3F000000000 + tim 0x40) }
theorem test_witness_ControlNetwork : inControl csPkt.addr.toNat = true ∧ up.atGate csPkt = false ∧ (pageOf (tim 0x40)).isSome = true
    ∧ up.net.bridges = [] := by decide +kernel
/-- A request that nothing answers; TO_CFG at the ends of its range. -/
def asking : State := { up with net := { outs := [{ op := 0x03, src := 0, srcp := 0, tag := 9 }] } }
theorem test_witness_InitiatorTimeouts : benchOf { op := 0x03, src := 0, srcp := 0, tag := 9 } = some (0 / 8) ∧ asking.net.flights = []
    ∧ open_ up (routerPage 0 0x48) = true ∧ fieldOf (10000000 : W32) 0 24 = 10000000 := by decide +kernel
theorem test_timeout : let t := after (.initiatorTimeout 0) asking
    t.net.outs = [] ∧ t.reg (routerPage 0 0x4C) = 1 := by decide +kernel

/-- TIME: locked and not; ADJ at 500 ppm and above; a step. -/
theorem test_witness_TimeRules : up.clock.locked = true ∧ open_ up (tim 0x48) = true ∧ (sextNat (0x20C49B : W32).toNat 32).natAbs ≤ 0x20C49B
    ∧ 0x20C49B < (sextNat (0x20C49C : W32).toNat 32).natAbs ∧ open_ up (tim 0x54) = true ∧ up.running = false ∧ up.clock.step = none
    ∧ up.pageAt (pageBase 0 2 1 + 0x40) ≠ none := by decide +kernel
theorem test_time_wraps : (after .timeIncrement { up with clock := { time := 0xFFFFFFFFFFFFFFFF } }).clock.time = 0 := by decide +kernel

/-- A frame source in range, running from 100 on and at 200, the next instant 200, of each kind. -/
def framed (kind : Nat) (time : W64) : State :=
  { ((((up.setNat (frm 0x64) 1000000).setNat (frm 0x6C) 100).setNat (frm 0x60) kind).setNat (frm 0x40) 1).setNat (frm 0x44) 1 with
    clock := { time := time }, frame := { expected := some 200 } }
theorem test_witness_FrameStartAndStop : open_ up (frm 0x40) = true ∧ open_ up (frm 0x48) = true ∧ up.running = false
    ∧ up.sourceOk 0 1000000 0 100 = true ∧ up.sourceOk 0 49999 0 0 = false ∧ (framed 0 200).running = true
    ∧ open_ (framed 0 200) (frm 0x48) = true := by decide +kernel
theorem test_run_start : (after (.runStart me 1) { up.setNat (frm 0x64) 1000000 with clock := { time := 5 } }).frame.expected = some 1000000 := by decide +kernel

theorem test_witness_MasterTicks : (framed 0 200).running = true ∧ (framed 0 200).kind = 0 ∧ (framed 0 200).armed = false ∧ (framed 0 200).reg (frm 0x1C) = 0
    ∧ (framed 0 199).time < 200 ∧ (framed 1 120).kind = 1 ∧ (framed 1 120).tol = 100 ∧ (framed 1 20).time + 80 + 100 = 200 ∧ (framed 2 0).kind = 2
    ∧ (framed 2 0).srcPort = 0 ∧ (framed 1 300).frame.due = none ∧ (framed 1 300).bit (frm 0x40) 1 = false := by decide +kernel
theorem test_internal_tick : (after .internalTick (framed 0 200)).fnum = 1 ∧ (after .internalTick (framed 0 200)).frame.msgs.length = 7 := by decide +kernel
theorem test_tick_miss : (after .tickMiss (framed 1 300)).frame.late = true ∧ (after .tickMiss (framed 1 299)).frame.late = false := by decide +kernel

/-- Messages for compute cabinet 0, whose domain runs: intact, broken, early. -/
def messaged (time : W64) : State := { up with clock := { time := time }, frame := { msgs := [⟨0, 7, 200⟩] } }
theorem test_witness_ReceiverTicks : (messaged 200).frame.msgs.find? (fun m => m.cab = 0) = some ⟨0, 7, 200⟩ ∧ (messaged 200).domUp 264 = true
    ∧ (messaged 200).reg (frr 0 0x1C) = 0 ∧ (messaged 199).time < 200 ∧ (messaged 0).frame.owed = [] ∧ (messaged 0).net.flights = [] := by decide +kernel
theorem test_tick_message : (after (.tickMessage 0 true false) (messaged 200)).reg (frr 0 0x40) = 7
    ∧ (after (.tickMessage 0 false false) (messaged 200)).bit (frr 0 0x14) 0 = true := by decide +kernel

/-- A window of core 0 that may start, one that may end, one past its grace point, for core 0 and for a core that is off. -/
def windowed (time : W64) (n : Nat) (l : List WinRun) : State :=
  { ((framed 0 time).setNat (winEntry n 15 false) 50).setReg (winEntry n 15 false + 8) 0x80000000 with frame := { wins := if l = [] then [] else [(n, l)] } }
def aWin (ended : Bool) : WinRun := { idx := 15, stop := 100, part := 0, ended := ended, grace := 150, contd := false, closed := false, old := false }
theorem test_witness_WindowEvents : (windowed 50 0 []).winValid (winEntry 0 15 false) = true ∧ (windowed 50 0 []).winStart (winEntry 0 15 false) = 50
    ∧ (windowed 50 0 []).bit (frm 0x44) 0 = true ∧ (windowed 50 0 []).domUp 264 = true ∧ (windowed 50 0 []).domUp 0 = true
    ∧ ((windowed 50 0 []).core 0).run = .ready ∧ (windowed 50 0 []).isShadow 0 = false ∧ (windowed 50 9 []).domUp 9 = false
    ∧ (windowed 100 0 [aWin false]).winsOf 0 = [aWin false] ∧ (pageOf (wcur 0)).isSome = true
    ∧ (windowed 150 0 [aWin true]).winsOf 0 = [aWin true] ∧ ((windowed 150 0 [aWin true]).core 0).part = 0
    ∧ (windowed 150 0 [aWin true]).domState 0 = 3 := by decide +kernel
theorem test_window_start : (after (.windowStart 0 15) (windowed 50 0 [])).winCur 0 % 16 = 15
    ∧ (after (.windowStart 0 15) (windowed 49 0 [])).winsOf 0 = [] := by decide +kernel
theorem test_window_overrun : (after (.windowGracePoint 0 15) (windowed 150 0 [aWin true])).fld (wcur 0 + 4) 0 16 = 1 := by decide +kernel

/-- A commit unit that is idle, armed, checking; a target that is next, and one beyond; a shadow register of a regulator. -/
def committing (stat target : Nat) : State := (((framed 0 0).setNat (cmt 0x48) stat).setNat (cmt 0x40) target).setNat (frm 0x74) 1000000
theorem test_witness_CommitRules : open_ (committing 0 9) (cmt 0x44) = true ∧ (committing 1 9).armed = true ∧ (committing 2 9).checking = true
    ∧ frameAfter ((committing 2 1).reg (cmt 0x40)) ((committing 2 1).fnum + 1) = false ∧ frameAfter ((committing 2 2).reg (cmt 0x40)) ((committing 2 2).fnum + 1) = true
    ∧ (committing 2 2).sourceOk 0 1000000 0 0 = true ∧ (committing 0 9).running = true ∧ up.running = false := by
  decide +kernel
theorem test_commit_arms : (after (.cmtArm me 1) (committing 0 9)).checking = true ∧ (after (.cmtDisarm me 2) (committing 1 9)).bit (cmt 0x48) 3 = true := by
  decide +kernel

/-- A packet at a regulator, in budget and over it; at its destination, after 15 hops, and with a way to go. -/
def flying (p : Packet) (w : Option Nat) : State := { up with net := { flights := [{ pkt := p, rtr := 0, port := 0, wait := w, held := false, out := false }] } }
theorem test_witness_FabricRules : (flying { op := 0x20, dst := 0 } none).enabled (routerPage 0 0) = true ∧ up.reg (routerPage 0 0x1C) = 0
    ∧ opListed 0x20 = true ∧ (∀ j, j < 4 → up.bit (probePage 0 (0x60 + 0x20 * j)) 0 = false) ∧ up.fenced (up.intoDomains 0 { op := 0x20, dst := 1 }) = false
    ∧ (neighbour 0 (up.outPort 0 { op := 0x20, dst := 1 })).isSome = true ∧ (up.arbiter 0 0).bodies.length < 4
    ∧ up.closing (up.intoDomains 0 { op := 0x20, dst := 1 }) = false
    ∧ (flying { op := 0x20, dst := 1 } none).strayed 0 { op := 0x20, dst := 1 } = false
    ∧ (flying { op := 0x03, dst := 40 } (some 7)).overtakes 0 { pkt := { op := 0x03, dst := 40 }, rtr := 0, port := 0, wait := some 7, held := false, out := false } = false
    ∧ (∀ f ∈ up.net.flights, f.rtr = 0 → f.out = false → f.pkt.epoch = up.epoch 0) := by decide +kernel
theorem test_witness_no_crossing_held : ∀ q, up.crossingHeld 0 q = false ∧ up.crossingHeld q 0 = false := by
  have h : up.power.dvfs = [] := by decide +kernel
  intro q
  simp [State.crossingHeld, h]
/-- Two packets of one buffer, and an urgent one beside a bulk one for one port (10 R274, R276). -/
def pair : State := { up with net := { flights := [((0x30 : Byte), (3 : Fin 4)), (0x24, 0)].map (fun o =>
  { pkt := { op := o.1, vc := o.2, dst := 1 }, rtr := 0, port := 0, wait := none, held := false, out := false }) } }
theorem test_witness_Precedence : ((pair.rivals 0 (pair.outPort 0 { op := 0x24, dst := 1 })).any (fun x => x.2.pkt.vc = 3)) = true
    ∧ ({ op := 0x24, dst := 1 } : Packet).vc ≠ 3 := by decide +kernel
theorem test_packet_hops : ((after (.packetSwitch 0 ⟨{ op := 0x20, dst := 1 }, .none⟩) (flying { op := 0x20, dst := 1 } none)).net.flights.map (fun f => (f.rtr, f.pkt.hops)))
    = [(1, 1)] := by decide +kernel

/-! ### The root of trust, power -/

/-- Every domain in Run, every slice ready: whole accesses to DRAM get through. -/
def wide : State :=
  { up with regs := (List.range 80).map (fun k => (dstat (216 + k), 3)) ++ (List.range 32).map (fun k => (slicePage k 0 0x10, 3)) ++ up.regs }
/-- The root of trust runs, with a mailbox command in front, and its buffer in a line that an L1D holds. -/
def mailbox (c : MbCmd) : State :=
  { (up.setNat (rts 0x44) 1) with
    rot := { queue := [c] }, mem := { up.mem with vtop := 0x10000 }
    cores := [(0, { l1d := { lines := [(512, some { line := 64, st := .m, data := 0, poison := false })] } })] }
def cmd (op : Nat) (args : List W32) : MbCmd := { page := 1, op := op, part := 0, args := args, buf := 0x1000, len := 48 }
/-- Its buffer in a stored line of DRAM that is reached. -/
def buffered (c : MbCmd) : State :=
  { (wide.setNat (rts 0x44) 1) with
    rot := { queue := [c] }, mem := { up.mem with vtop := 0x10000, keys := [(0, 5)], tags := [(64, some (⟨0, 5, false, false, 0, none⟩ : LineTag))] } }
/-- The bytes that a mailbox read answers, and whether it must wait. -/
def waits : MbGot → Bool
  | .held _ => true
  | _ => false
def gotOf : MbGot → Option (List Byte)
  | .ok l _ => some l
  | _ => none
theorem test_witness_MbFront : MbFront (mailbox (cmd 0x30 [0])) (cmd 0x30 [0]) [] ∧ MbFront (mailbox (cmd 0x73 [0])) (cmd 0x73 [0]) [] := by
  constructor <;> constructor <;> decide +kernel
theorem test_witness_MailboxCommands : open_ up (rtm 1 0x40) = true ∧ open_ up (rtm 3 0x40) = true ∧ up.bit (rts 0x44) 1 = false
    ∧ up.bit (rtm 1 0x44) 0 = false ∧ (up.setNat (rtm 1 0x44) 1).bit (rtm 1 0x44) 0 = true ∧ (up.setNat (rts 0x44) 3).bit (rts 0x44) 1 = true := by decide +kernel

/-- Empty slots and one that holds a key, named and not by a confidential entry; free handles and one in use. -/
def keyed : State := { mailbox (cmd 0x31 [1023]) with mem := { keys := [(1023, 5)] }, rot := { queue := [cmd 0x31 [1023]], handles := [(255, some ⟨1, 7, false, false, []⟩)] } }
theorem test_witness_KeyCommands : SMap.get 0 (mailbox (cmd 0x30 [0])).mem.keys 0 = 0 ∧ SMap.get 0 keyed.mem.keys 1023 ≠ 0
    ∧ (∀ e, e < 16 → keyed.bit (rts (0x500 + 16 * e)) 31 = false)
    ∧ ((keyed.setReg (rts 0x500) 0x800003FF).bit (rts 0x500) 31 = true ∧ (keyed.setReg (rts 0x500) 0x800003FF).fld (rts 0x500) 0 10 = 1023)
    ∧ SMap.get none keyed.rot.handles 0 = none ∧ (SMap.get none keyed.rot.handles 255).isSome = true := by decide +kernel
theorem test_slot_install : SMap.get 0 (after .mailboxCommandDone (mailbox (cmd 0x31 [1023, 0]))).mem.keys 1023 = 0
    ∧ (after .mailboxCommandDone (mailbox (cmd 0x99 []))).fld (rtm 1 0x44) 8 4 ≠ 0 := by decide +kernel

/-- Each lifecycle state; key hashes that hold and do not; boot configurations that are in order and are not. -/
def staged (lc : Fin 4) (k : W32) : State := { mailbox (cmd 0x70 [k]) with otp := { lc := lc } }
def hashed (lc : Fin 4) (k : W32) : State := { mailbox (cmd 0x70 [k]) with otp := { lc := lc, bootcfg := 1, hashes := [(0, ⟨[], true, false⟩), (4, ⟨[], true, false⟩)] } }
theorem test_witness_ProvisioningCommands : ((staged 0 1).keyHash 0).valid = false ∧ ((staged 0 1).keyHash 4).valid = false ∧ ((hashed 0 1).keyHash 0).valid = true
    ∧ 1 ≤ fieldOf (hashed 1 2).otp.bootcfg 0 4 ∧ fieldOf (hashed 1 2).otp.bootcfg 0 4 ≤ 6 ∧ (hashed 1 2).bootKeysOk = true ∧ (staged 1 2).bootKeysOk = false
    ∧ gotOf ((buffered (cmd 0x71 [11])).mbRead (cmd 0x71 [11]) 0 48) = some (List.replicate 48 0)
    ∧ waits ((mailbox (cmd 0x71 [11])).mbRead (cmd 0x71 [11]) 0 48) = true
    ∧ gotOf ((staged 0 1).mbRead { cmd 0x71 [11] with buf := 0x20000 } 0 48) = none
    ∧ ((mailbox (cmd 0x71 [11])).keyHash 11).revoked = false := by decide +kernel
theorem test_lc_adv : (after .mailboxCommandDone (hashed 1 2)).otp.lc = 2 ∧ (after .mailboxCommandDone (staged 1 2)).otp.lc = 1 := by decide +kernel

/-- Before and after a boot; layers 1 and 6; measurement registers 8 and 15; a confidential entry of PARTID 5. -/
def measured (layer : Nat) : State := (mailbox (cmd 0x20 [])).setNat (rts 0x44) (5 + 16 * layer)
def confEntry : State := (mailbox (cmd 0x33 [15])).setReg (rts (0x500 + 16 * 15)) 0x85000003
theorem test_witness_BootAndMeasurement : (mailbox (cmd 0x10 [])).bit (rts 0x44) 2 = false ∧ (measured 1).bit (rts 0x44) 2 = true
    ∧ (measured 1).fld (rts 0x44) 4 3 = 1 ∧ (measured 6).fld (rts 0x44) 4 3 = 6 ∧ (gotOf ((buffered (cmd 0x20 [])).mbAccess (cmd 0x20 []) 0x1000 48 (some (List.replicate 48 1)))).isSome = true
    ∧ gotOf ((buffered (cmd 0x21 [8])).mbRead (cmd 0x21 [8]) 0 48) = some (List.replicate 48 0) ∧ (mailbox (cmd 0x61 [])).rot.challenge = none
    ∧ confEntry.bit (rts (0x500 + 16 * 15)) 31 = true ∧ confEntry.fld (rts (0x500 + 16 * 15)) 24 6 = 5 := by decide +kernel
theorem test_boot_twice : (after .mailboxCommandDone ({ measured 1 with rot := { queue := [cmd 0x10 []] } })).fld (rtm 1 0x44) 8 4 = 6 := by decide +kernel

theorem test_witness_RootOfTrustRows : up.bit (rts 0x44) 0 = false ∧ (mailbox (cmd 0 [])).bit (rts 0x44) 0 = true ∧ open_ up (rts 0x4C) = true
    ∧ open_ up (rts 0x50) = true ∧ up.bit (rts 0xC) 2 = false ∧ (up.setNat (rts 0xC) 4).bit (rts 0xC) 2 = true ∧ up.rot.queue = []
    ∧ inRom 0x3FFF0000000 = true ∧ up.emRight (up.partOf me) 0x100000 true = true ∧ up.emRight (up.partOf me) 0x100000 false = true
    ∧ up.reg (rts 0x1C) = 0 ∧ State.reset.domState 0 = 0 ∧ State.reset.bit (rts 0x44) 0 = false ∧ up.domState 0 ≠ 0 := by decide +kernel
theorem test_kat_releases_core0 : let t := after (.katDone true) State.reset
    t.domState 0 = 3 ∧ (t.core 0).pc = 0x3FFF0000000 ∧ t.bit (rts 0x44) 0 = true ∧ t.domState 1 = 0 := by decide +kernel
theorem test_emram_write : Memory.read (after (.emramAccess ⟨some me, 0x100000, 8, some 0x55⟩) up).mem.emram 0x100000 = 0x55
    ∧ (after (.emramAccess ⟨some me, 0x100000, 4, some 0x55⟩) up).reg (rts 0x64) = 1 := by decide +kernel

/-- A free sequencer and one at work; a running, a stopped and a parentless domain. -/
def sequencing (x : PwrSeq) (l : List (Nat × Nat)) : State := { (l.foldl (fun s e => s.setNat (dstat e.1) e.2) up) with power := { seq := some x } }
theorem test_witness_PowerCommands : open_ up (pwq 0x40) = true ∧ up.power.seq = none ∧ up.power.wakeq = [] ∧ up.domState 0 = 3 ∧ up.notEmpty 0 = false
    ∧ (up.core 0).bunk.bound = false ∧ up.domState 1 = 3 ∧ up.domState 2 = 0 ∧ up.domState 192 = 3 ∧ open_ up (cabCtl 0 0x4C) = true ∧ open_ up (cabCtl 7 0x4C) = true := by
  decide +kernel
theorem test_witness_NoChildren : ∀ k, k < 296 → domParent k = some 0 → up.domState k = 0 := by decide +kernel
theorem test_stop_refused : (after (.dcmdStop me 2) up).bit (pwq 0x14) 0 = true ∧ (after (.dcmdStop me 0) up).domState 0 = 2
    ∧ (after (.dcmdWake me 2) up).domState 2 = 1 := by decide +kernel
theorem test_witness_PowerSequences : ((sequencing (.stop 0) [(0, 2)]).core 0).sb = [] ∧ ((sequencing (.stop 0) [(0, 2)]).core 0).issued = false
    ∧ ((sequencing (.stop 0) [(0, 2)]).core 0).tlbis = [] ∧ (sequencing (.stop 0) [(0, 2)]).coh.misses = [] ∧ SMap.get none up.power.dvfs 0 = none ∧ up.err.flaws = []
    ∧ ({ up with power := { wakeq := [2] } } : State).domState 2 = 0 ∧ up.power.crst = [] := by decide +kernel
/-- A cell whose load has issued is not stopped (17 R468). -/
theorem test_stop_waits : (after (.stopSequenceDone 0) ((sequencing (.stop 0) [(0, 2)]).updCore 0 (fun c => { c with issued := true }))).domState 0 = 2 := by
  decide +kernel
theorem test_stop_done : (after (.stopSequenceDone 0) (sequencing (.stop 0) [(0, 2)])).domState 0 = 0
    ∧ (after (.wakeDone 2) (sequencing (.wake [2] 2 1 true) [(2, 1)])).domState 2 = 3
    ∧ (after (.wakeFailure 2 3) (sequencing (.wake [2] 2 1 true) [(2, 1)])).fld (dstat 2) 8 4 = 3 := by decide +kernel
theorem test_power_on_reset : (after .porstNLow up).power.inReset = true ∧ (after .porstNLow up).regs = [] := by decide +kernel

/-- The chip in each mode; a timer that is on and one that is off; no domain in Run. -/
def chipIn (m : ChipMode) : State := { up.setNat (pwc 0x5C) 0x80000000 with power := { chip := m } }
theorem test_witness_ChipStopAndWake : open_ up (pwc 0x40) = true ∧ up.err.frozen = none ∧ (chipIn .stop).bit (pwc 0x5C) 31 = true ∧ up.bit (pwc 0x5C) 31 = false
    ∧ up.domState 0 ≠ 0 ∧ up.pageAt (pwc 0x50) ≠ none ∧ (chipIn .waitPll).power.chip = .waitPll := by decide +kernel
theorem test_wake : (after .wakeNFall (chipIn .stop)).power.chip = .waitGood ∧ (after (.timePllLock 32768) (chipIn .waitPll)).clock.time = 1000000000 := by
  decide +kernel

/-- A pair in range and one out of it; each step of a DVFS sequence, the PMIC on and off; temperatures. -/
def stepping (x : DvfsStep) (pmic : W32) : State := { up.setReg (pwc 0x80) pmic with power := { dvfs := [(0, some x)] } }
theorem test_witness_OperatingPoints : open_ up (cabCtl 0 0x40) = true ∧ open_ up (cabCtl 7 0x40) = true ∧ dvfsRange 900 2600 = true ∧ dvfsRange 905 2600 = false
    ∧ up.mvTooFar 0 900 = false ∧ up.dvfsStep 0 = none ∧ (stepping (.clock 2600) 0).dvfsStep 0 = some (.clock 2600)
    ∧ (stepping (.voltage 900) 0x80000000).bit (pwc 0x80) 31 = true ∧ (stepping (.voltage 900) 0).bit (pwc 0x80) 31 = false ∧ up.reg (pwt 0x1C) = 0 := by decide +kernel
theorem test_dvfs_done : (after (.dvfsStepDone 0) (stepping (.voltage 900) 0x80000000)).curMv 0 = 900 ∧ (after (.dvfsTimeout 0) (stepping (.clock 1000) 0)).dvfsStep 0 = none := by
  decide +kernel
theorem test_thermtrip : (after (.thermtripSample [0x870]) up).power.thermtrip = true ∧ (after (.thermtripSample [0x86F]) up).power.thermtrip = false := by decide +kernel

/-! ### Caches, homes, memory controllers -/

theorem test_witness_CorePageRows : open_ up (corePage 0 0x100) = true ∧ open_ up (corePage 0 0x104) = true ∧ up.pageAt (corePage 0 0x110) ≠ none
    ∧ up.pageAt (corePage 0 0x170) ≠ none ∧ up.stalled = false := by decide +kernel
theorem test_retcnt : (after (.retcntLoRead me 0) (up.setNat (corePage 0 0x114) 7)).clock.caps ≠ [] := by decide +kernel

/-- An engine that may run over 1 line, over the whole L2 and more, one that runs, one at an abort. -/
def engine (len : Nat) (w : Option Sweep) : State :=
  { ((((up.setBit (benchPage 0 0 0x10) 1 true).setNat (benchPage 0 0 0x48) len).setNat (benchPage 0 0 0x50) 1).setNat (benchPage 0 0 0xC) 1) with
    coh := { me := match w with | some x => [(0, some x)] | none => [] } }
def sweeping (ab : Bool) : Sweep := { lo := 0, len := 64, op := 1, scope := false, part := 0, abort := ab }
theorem test_witness_MaintenanceEngines : enginePage 0 = benchPage 0 0 0 ∧ open_ (engine 64 none) (benchPage 0 0 0x54) = true ∧ (engine 64 none).engine 0 = none
    ∧ (engine 64 none).bit (benchPage 0 0 0xC) 0 = true ∧ (engine 0 none).fld (benchPage 0 0 0x50) 0 2 = 1
    ∧ (engine 64 (some (sweeping true))).engine 0 = some (sweeping true) ∧ (engine 64 (some (sweeping false))).meNext 0 (sweeping false) = none
    ∧ (engine 64 (some (sweeping false))).meOutstanding 0 (sweeping false) = false := by decide +kernel
theorem test_me_clean : (after (.meClean me 0 1) (engine 64 none)).fld (benchPage 0 0 0x58) 0 4 = 1
    ∧ (after (.meSweepDone 0) (engine 64 (some (sweeping false)))).fld (benchPage 0 0 0x58) 0 4 = 2 := by decide +kernel

/-- Slice 0 ready, with line 0 in its SLC; a request from bench 0 to it. -/
def lineZero : CLine := { line := 0, st := .m, data := 0x1234, poison := false }
def homing (coh : CohSt) : State := { (ram {}).setBit (slicePage 0 0 0x10) 1 true with coh := coh }
def held : State := homing { slc := [(0, { lines := [(0, some lineZero)] })] }
def toHome (op : BitVec 8) : Packet := { op := op, dst := 32, src := 0, addr := 0, be := BitVec.allOnes 64, size := 31 }
theorem test_witness_AtHome : ∀ op ∈ [(0x01 : BitVec 8), 0x02, 0x03, 0x08, 0x09, 0x0A, 0x0C, 0x10], AtHome held (toHome op) 0 := by
  intro op h
  simp only [List.mem_cons, List.not_mem_nil, or_false] at h
  rcases h with rfl | rfl | rfl | rfl | rfl | rfl | rfl | rfl
  all_goals constructor
  all_goals decide +kernel
theorem test_witness_HomeRequests : held.dir 0 = {} ∧ (held.slc 0).find 16 (slcSet 0) 0 = some lineZero ∧ benchOf (toHome 0x01) = some 0
    ∧ held.mayUse (slicePage 0 0 0) 0 0 = true ∧ held.l2Line 0 0 = none ∧ ({ toHome 0x0C with inl := 4 } : Packet).inl.toNat % 8 = 4
    ∧ ((homing { txs := [{ slice := 0, req := toHome 1, left := [1], data := none, recalling := none, snooped := true, dram := false }] }).tx 0 0).isSome = true := by
  decide +kernel
theorem test_rd_un : (after (.rdUn (toHome 0x02)) held).net.flights.map (fun f => (f.pkt.op, f.pkt.line)) = [(0x20, 0x1234)] := by decide +kernel
theorem test_wr_ln : (((after (.wrLn { toHome 0x09 with line := 7 }) held).slc 0).find 16 0 0).map (·.data) = some 7 := by decide +kernel

/-- A bench with line 0 in its L2; what answers find: a request of bench 0, a transaction that waits for two benches; a shadow that loads. -/
def l2Held : State := homing { l2 := [(0, { lines := [(0, some lineZero)] })] }
def asked (q : Packet) (coh : CohSt) : State := { homing coh with net := { outs := [q] } }
def aLog : Packet := { op := 0x18, dst := 1, tag := 0, addr := 48, line := BitVec.ofNat 512 (2048 + 256 + 18446744073709551616 * 5) }
def loading : State := { State.reset with cores := [(48, { bunk := { bound := true, shadow := true, partner := 0 } })] }
/-- A frame-end comparison of the frame that ends now is not late; one of the frame before is (09 R261). -/
theorem test_felate : ((loading.updBunk 48 (fun b => { b with fends := [7] })).frameEnd 48 7).bit (corePage 48 0x14) 11 = false
    ∧ ((loading.updBunk 48 (fun b => { b with fends := [6] })).frameEnd 48 7).bit (corePage 48 0x14) 11 = true := by decide +kernel
/-- The primary is reset with nothing left of the log: BROKEN and HALTED at once (09 R264). -/
theorem test_log_out : ((({ loading with cores := (0, { bunk := { bound := true, partner := 48 } }) :: loading.cores } : State).breakPair 0).core 48).bunk.halted = true := by
  decide +kernel
theorem test_witness_SnoopsAndAnswers : routerKind 0 = .bench ∧ l2Held.cacheReady (benchPage 0 0 0) = true ∧ l2Held.l2Line 0 0 = some lineZero
    ∧ l2Held.l1dLine 0 0 = none ∧ answers { op := 0x20, dst := 0, tag := 9 } { op := 0x01, src := 0, tag := 9 } = true ∧ sliceOf 0 = none ∧ sliceOf 32 = some 0
    ∧ [(0 : Nat), 1].contains 0 = true ∧ [(0 : Nat), 1].filter (· ≠ 0) ≠ [] ∧ (logLineOf aLog).snap = true ∧ (logLineOf aLog).seq = 0 ∧ (logLineOf aLog).slots.length = 1
    ∧ (loading.core 48).bunk.expect = 0 ∧ (loading.core 48).bunk.loaded = false ∧ (loading.core 48).bunk.broken = false ∧ loading.reg (corePage 48 0x1C) = 0 := by decide +kernel
theorem test_snoop : (after (.rcl { op := 0x12, dst := 0, src := 32, addr := 0 }) l2Held).net.flights.map (fun f => (f.pkt.op, f.pkt.line)) = [(0x24, 0x1234)]
    ∧ (after (.rcl { op := 0x12, dst := 0, src := 32, addr := 0 }) l2Held).l2Line 0 0 = none := by decide +kernel

/-- A controller that is not trained and one that is; an engine off, in tree initialisation, and on. -/
def controller (stat ipeStat : Nat) (keys : SMap Nat) : State :=
  { (up.setNat (mc 0 0x48) stat).setNat (ipe 0 0x44) ipeStat with mem := { keys := keys, training := [0], vtop := 0x10000 } }
theorem test_witness_MemoryBringUp : open_ up (mc 0 0x44) = true ∧ open_ up (ipe 0 0x40) = true ∧ up.slotKey 0 = 0 ∧ (controller 1 0 [(0, 5)]).slotKey 0 = 5
    ∧ (controller 1 0 [(0, 5)]).trained 0 = true ∧ ((controller 1 0 [(0, 5)]).sealRegions 0).all (regionOk ((controller 1 0 [(0, 5)]).capacity 0)) = true
    ∧ regionsOverlap ((controller 1 0 [(0, 5)]).sealRegions 0) = false ∧ up.bit (ipe 0 0x40) 0 = false ∧ (up.setNat (ipe 0 0x40) 1).bit (ipe 0 0x40) 0 = true
    ∧ open_ up (ipe 0 0x200) = true ∧ open_ up (ipe 0 (0x204 + 8 * 63)) = true ∧ (controller 0 2 []).bit (ipe 0 0x44) 1 = true ∧ up.reg (mc 0 0x1C) = 0 := by
  decide +kernel
theorem test_training : (after (.trainingDone 0 true true) (controller 0 0 [])).trained 0 = true
    ∧ (after (.trainingDone 0 true false) (controller 0 0 [])).bit (mc 0 0x48) 2 = true ∧ (after (.treeInitDone 0) (controller 0 2 [])).ipeActive 0 = true := by
  decide +kernel

/-- A line of controller 0 under a key; one without; its read that waits; a line that another controller serves. -/
def stored : State := { controller 1 1 [(0, 5)] with mem := { keys := [(0, 5)], vtop := 0x10000, tags := [(0, some ⟨0, 5, false, false, 0, none⟩)], queue := [⟨0, { op := 0x01, src := 32, tag := 3 }, 0⟩] } }
theorem test_witness_DramLines : stored.serves 0 0 = true ∧ stored.serves 0 1000 = false ∧ stored.slotOf 0 0 = 0 ∧ stored.slotKey 0 = 5 ∧ stored.err.flaws = []
    ∧ stored.reg (ipe 0 0x1C) = 0 ∧ stored.reg (mc 0 0x1C) = 0 ∧ stored.mcUp 0 = true ∧ stored.lineFree 0 0 = true ∧ stored.treeIndex 0 0 = none ∧ SMap.get none stored.mem.tags 0 = some ⟨0, 5, false, false, 0, none⟩ := by decide +kernel
theorem test_dram_read : (after (.dramRead 0 0 {}) stored).net.flights.map (fun f => (f.pkt.op, f.pkt.poison)) = [(0x20, false)]
    ∧ (after (.dramRead 0 0 { board := .altered false 0 false }) stored).bit (ipe 0 0x14) 2 = true := by decide +kernel

/-- A sweep that may start, one that runs, one that its budget holds. -/
def rewriting (w : Option Sweep) : State :=
  { (((up.setNat (ipe 0 0x44) 1).setNat (ipe 0 0x68) 64).setNat (ipe 0 0x70) 2) with mem := { vtop := 0x10000, sw := match w with | some x => [(0, some x)] | none => [] } }
theorem test_witness_ProtectionSweeps : open_ (rewriting none) (ipe 0 0x74) = true ∧ (rewriting none).sweep 0 = none ∧ (rewriting none).ipeActive 0 = true
    ∧ (rewriting none).fld (ipe 0 0x70) 0 2 = 2 ∧ (rewriting (some { sweeping false with op := 2 })).sweep 0 = some { sweeping false with op := 2 }
    ∧ (rewriting (some { sweeping false with op := 2 })).exhausted (mcPage 0 2 0) .bytes 0 = false := by decide +kernel
theorem test_sweep_done : (after (.sweepDone ⟨0, []⟩) (rewriting (some { sweeping false with op := 2 }))).fld (ipe 0 0x78) 0 4 = 2 := by decide +kernel

/-! ### Events, interrupts, freeze, engines' pages -/

/-- Source 5 routed to bit 63 of level 2 of core 0 in group `g`, and fired; a group whose interval runs. -/
def fired (en g : Nat) (gs : SMap (Option ModGroup)) : State :=
  { withCore {} with regs := (((withCore {}).setNat (ertLo 5) (2147483648 * en + 2097152 * g + 2048 * 63 + 1024))).regs, ev := { fires := [.source 5], groups := gs } }
def asleep : State := { up.setNat (dstat 0) 0 with power := { images := [(0, some { regs := [], core := some {}, lregs := [], commit := 0, tick := 0 })] } }
theorem test_witness_FiresAndMessages : (fired 1 0 []).domUp 270 = true ∧ (fired 1 0 []).domUp 0 = true ∧ ((fired 1 0 []).core 0).run = .ready
    ∧ ((fired 1 0 []).route 5).en = true ∧ ((fired 0 0 []).route 5).en = false ∧ ((fired 1 0 []).route 5).bit = 63 ∧ ((fired 1 255 []).route 5).grp = 255
    ∧ (SMap.get none (fired 1 255 [(255, some ⟨9, true⟩)]).ev.groups 255).isSome = true ∧ ((fired 1 0 []).core 0).evBit evPend 2 63 = false
    ∧ asleep.domUp 0 = false ∧ ((SMap.get none asleep.power.images 0).bind (·.core)).isSome = true
    ∧ open_ up (pageBase 6 0x10 2 + 0x40) = true ∧ open_ up (pageBase 6 0x10 5 + 0x40) = true ∧ up.reg (evc 0x1C) = 0 := by decide +kernel
theorem test_fire : ((after (.sourceFire 0) (fired 1 0 [])).core 0).evBit evPend 2 63 = true
    ∧ (after (.sourceFire 0) (fired 0 0 [])).reg (evc 0x5C) = 1 := by decide +kernel
/-- An MSI for a source that has a route, one without, one of another requester, one of 8 bytes. -/
def routed (hi : W32) : State := (up.setReg (ertLo 0x2FFF) 0x80000000).setReg (ertHi 0x2FFF) hi
def msi (n : Nat) : MsiWrite := { port := 3, req := 7, off := 0, size := n, data := 0xFFF }
theorem test_msi : (after (.msiMessage (msi 4)) (routed 0)).ev.fires = [.source 0x2FFF] ∧ (after (.msiMessage (msi 8)) (routed 0)).fld (evc 0x54) 20 4 = 3
    ∧ (after (.msiMessage (msi 4)) up).fld (evc 0x54) 20 4 = 1 ∧ (after (.msiMessage (msi 4)) (routed 0x800C0008)).fld (evc 0x54) 20 4 = 2
    ∧ (after (.msiMessage (msi 4)) (routed 0x800C0007)).ev.fires = [.source 0x2FFF] := by decide +kernel
theorem test_witness_EventTableWrites : open_ up (ertLo 0) = true ∧ open_ up (ertLo 0x2FFF) = true ∧ open_ up (evc 0x40) = true ∧ open_ up (evc 0x44) = true
    ∧ up.bit (evc 0xC) 2 = false ∧ (up.setNat (evc 0xC) 4).bit (evc 0xC) 2 = true ∧ doorbellOk 0x3D000000000 = true ∧ doorbellOk 0 = false := by decide +kernel

/-- Levels 0 and 3 pending and enabled at a core at M and at U; none. -/
def pend (k : Nat) : Core := (({ level := 0 } : Core).setSys (evPend k 15) 0x8000000000000000).setSys (evEn k 15) 0x8000000000000000
theorem test_witness_InterruptEntry : (withCore (pend 0)).atBoundary 0 = true ∧ (pend 0).issued = false ∧ (pend 0).entered = none ∧ (pend 0).target 0 ≠ 0 ∧ (pend 3).target 3 ≠ 0
    ∧ (withCore (pend 0)).reg (corePage 0 0x1C) = 0 ∧ (∀ k, k < 4 → ({} : Core).deliverable 3 none k = false) := by decide +kernel
theorem test_interrupt : let c := (after (.interruptEntry 0) (withCore (((pend 0).setSys 0 1)))).core 0
    c.level.val = (pend 0).target 0 ∧ c.pc = ({} : Core).sysReg (0x4000 * (pend 0).target 0 + 4) + 0x100 := by decide +kernel

theorem test_witness_HeartbeatAndFreeze : open_ up (chipAgg 0x108) = true ∧ open_ up (chipAgg 0x100) = true ∧ open_ up (frz 0x40) = true ∧ up.dbg.testBit 2 = true
    ∧ up.confValid = false ∧ (up.setReg (rts 0x500) 0x80000000).confValid = true ∧ up.bit (frz 0x44) 0 = true ∧ (up.setNat (frz 0x44) 0).bit (frz 0x44) 0 = false ∧ up.bit (chipAgg 0xC) 2 = false
    ∧ (up.setNat (chipAgg 0x100) 0x102).fld (chipAgg 0x100) 8 8 = 1 ∧ up.err.kickLate = false := by decide +kernel
theorem test_kick_expires : (after .hbKickExpiry { up.setNat (chipAgg 0x100) 0x102 with clock := { time := 1000000 } }).reg (chipAgg 0x104) = 5
    ∧ (after .hbKickExpiry { up.setNat (chipAgg 0x100) 0x102 with clock := { time := 999999 } }).reg (chipAgg 0x104) = up.reg (chipAgg 0x104)
    ∧ (after (.fzCmdFreeze me 1) up).err.frozen.isSome = true := by decide +kernel

theorem test_witness_StlPageRows : open_ up (stoolPage 0 0x40) = true ∧ open_ up (stoolPage 0 (0x800 + 4 * 511)) = true ∧ up.bit (stoolPage 0 0x40) 0 = false
    ∧ up.pageAt (stoolPage 0 0x800) ≠ none := by decide +kernel
theorem test_win : Memory.read ((after (.stlWinAccess me 0 511 (some 0xAABBCCDD)) (up.setNat (stoolPage 0 0x50) 127)).stool 0).sram 0x3FFFF = 0xAA := by
  decide +kernel

/-! ### Virtual functions, transfer engines -/

/-- Function 0 with 2 queue pairs, 2 vectors and one aperture over the whole of DRAM, PARTID 0; lines 64 to 103 are stored under a key. -/
def vfOn (s : State) (te : TeSt) : State :=
  { (((((s.setReg (vfA 0) 0x80000002).setReg (vfB 0) 2).setNat (vfPage 0 0x80) 3).setNat (vfPage 0 0x90) 16).setNat (tePage 0 0xC) 1).setNat (mc 0 0x48) 1 with
    te := te
    mem := { keys := [(0, 5)], vtop := 0x10000, tags := (List.range 40).map (fun k => (64 + k, some (⟨0, 5, false, false, 0, none⟩ : LineTag))) } }
def vf : TeSt → State := vfOn up
def vfWide : TeSt → State := vfOn wide
/-- A descriptor: operation, flags, length, source, destination, AUX. -/
def descr (op flags len src dst aux : Nat) : Desc :=
  { vf := 0, q := 0, idx := 0, bytes := [BitVec.ofNat 8 op, BitVec.ofNat 8 flags, 0, 0] ++ leBytes 4 len ++ leBytes 8 src ++ leBytes 8 dst ++ leBytes 8 aux }
def slot (d : Desc) : State := vf { slots := [(0, [d])] }
def slotWide (d : Desc) : State := vfWide { slots := [(0, [d])] }
def slot8 (d : Desc) : State := vf { slots := [(8, [d])] }
/-- Is a read of `n` bytes at a device address answered whole; is a write? -/
def reads (s : State) (a n : Nat) : Bool :=
  match (s.teRead 0 0 a n).1 with
  | .ok _ bad => !bad
  | _ => false
def writes (s : State) (a n : Nat) : Bool :=
  match (s.teWrite 0 0 a (List.replicate n 0)).1 with
  | .ok _ _ => true
  | _ => false

theorem test_witness_PhysicalFunction : open_ up (tePage 0 0x100) = true ∧ up.te.pf = none ∧ (vf {}).vfExists 0 = true ∧ (vf {}).vfExists 255 = false
    ∧ (vf {}).vfActive 0 = false ∧ (vf {}).vfResetting 0 = false ∧ runFree 1024 (vf {}).qRuns 2 64 = true ∧ runFree 1024 (vf {}).qRuns 1 64 = false := by
  decide +kernel
theorem test_pf_create : (after .pfCommandDone { up with te := { pf := some (0x501, 0x203) } }).vfExists 5 = true
    ∧ (after .pfCommandDone { up with te := { pf := some (0x501, 0x200) } }).fld (tePage 0 0x108) 1 3 = 5 := by decide +kernel
theorem test_witness_QueueRegisters : open_ (vf {}) (qreg 0 0 0x10) = true ∧ open_ (vf {}) (qreg 0 63 0x10) = true ∧ (vf {}).queueOk 0 1 = true
    ∧ (vf {}).queueOk 0 63 = false ∧ (vf {}).qEn 0 0 = false ∧ (vf {}).qSize 0 0 = 16 ∧ open_ (vf {}) (qreg 0 0 0x14) = true ∧ open_ (vf {}) (vfPage 0 0x44) = true
    ∧ ((vf {}).setReg (vfA 0) 0xA0000002).vfResetting 0 = true := by decide +kernel
theorem test_doorbell : (after (.qDbWrite me 0 0 0xF000F) (vf {})).qTail 0 0 = 15 ∧ (after (.qDbWrite me 0 0 16) (vf {})).bit (vfPage 0 0x14) 1 = true := by
  decide +kernel

/-- COPY, FILL and the other operations in a slot of an engine that runs; in slot 0 of the switch's queues. -/
theorem test_witness_MayPiece : ∀ op ∈ [0x01, 0x02, 0x10, 0x18, 0x20, 0x21, 0x28, 0x29, 0x2A, 0x40, 0x41],
    MayPiece (slot (descr op 0 64 0x1000 0x2000 0)) 0 0 (descr op 0 64 0x1000 0x2000 0) op := by
  intro op h
  simp only [List.mem_cons, List.not_mem_nil, or_false] at h
  rcases h with rfl | rfl | rfl | rfl | rfl | rfl | rfl | rfl | rfl | rfl | rfl
  all_goals constructor
  all_goals decide +kernel
theorem test_witness_EngineOperations : (descr 1 0 64 0x1000 0x2000 0).src + (descr 1 0 64 0x1000 0x2000 0).len ≤ (descr 1 0 64 0x1000 0x2000 0).dst
    ∧ reads (vfWide {}) 0x1000 64 = true ∧ writes (vfWide {}) 0x2000 64 = true ∧ reads (vfWide {}) 0x10000 1 = false
    ∧ (descr 2 0 64 0 0x2000 7).op = 2 ∧ (descr 0x18 0 64 0x1000 0x2000 0).op = 0x18 ∧ refIsHandle (descr 0x20 0 48 0x1000 0x2000 0x1040).aux = false := by decide +kernel
theorem test_witness_LongReads : reads (vfWide {}) 0x1000 130 = true := by decide +kernel
theorem test_te_fill : ((after (.fill 0 0) (slotWide (descr 2 0 8 0 0x1001 0x11))).teSlots 0).map (·.fin) = [some (0, 0)] := by decide +kernel
/-- A COPY whose source line is poisoned. -/
def poisoned : State :=
  let s := slotWide (descr 1 0 64 0x1000 0x2000 0)
  { s with mem := { s.mem with tags := s.mem.tags.map (fun t => if t.1 = 64 then (64, some ⟨0, 5, true, false, 0, none⟩) else t) } }
theorem test_te_copy_poison : ((after (.copy 0 0) poisoned).teSlots 0).map (·.fin) = [some (6, 0)] ∧ reads poisoned 0x1000 64 = false
    ∧ ((SMap.get none (after (.copy 0 0) poisoned).mem.tags 128).map LineTag.poison) = some true := by decide +kernel
/-- Parameters of AES in CTR mode with its key in memory, without additional data. -/
def ctr : List Byte := [1, 0, 0, 0, 0, 0, 0, 0] ++ leBytes 8 0x1080 ++ List.replicate 16 0
theorem test_witness_Aes : aesMode ctr = 1 ∧ refIsHandle (aesRef ctr) = false ∧ aesAad ctr = 0 ∧ aesK256 ctr = false ∧ reads (vfWide {}) (aesRef ctr) 16 = true := by
  decide +kernel

/-- Queue 0 of function 0 on, with its first descriptor at 0x1000; a completed descriptor, with a free entry of the CQ and with none. -/
def ready : State := (((vfWide {}).setReg (qreg 0 0 0x10) 0x1).setNat (qreg 0 0 0) 0x1000).setNat (qreg 0 0 0x14) 1
def ended (tail : Nat) : State := ((slotWide { descr 1 0 64 0x1000 0x2000 0 with fin := some (0, 0) }).setNat (qreg 0 0 8) 0x1400).setNat (qreg 0 0 0x14) tail
theorem test_witness_DescriptorLife : ready.teUp 0 = true ∧ ready.teOn 0 = true ∧ ready.teSlots 0 = [] ∧ ready.teParked 0 = []
    ∧ ready.queues = [(0, 0, 0), (1, 0, 1)] ∧ ready.queueReady 0 0 0 = true ∧ ready.queueReady 0 0 1 = false ∧ reads ready 0x1000 32 = true
    ∧ opAccepted 0 1 = true ∧ opAccepted 0 0x7F = false ∧ ((ended 0).cqProd 0 0 + 1) % (ended 0).qSize 0 0 = 1 ∧ (ended 0).cqHead 0 0 = 0
    ∧ (ended 0x10000).cqHead 0 0 = 1 ∧ writes (ended 0) 0x1400 16 = true := by decide +kernel
theorem test_complete : (after (.descriptorComplete 0 0) (ended 0)).cqProd 0 0 = 1 ∧ (after (.descriptorComplete 0 0) (ended 0x10000)).cqProd 0 0 = 0 := by
  decide +kernel

/-- Known answers of the named standards: SHA-384 of abc, SHA3-256 of nothing, AES-128 of the example block of FIPS 197, the base point of P-384. -/
theorem test_sha384_abc : (sha384 [0x61, 0x62, 0x63]).take 4 = [0xCB, 0x00, 0x75, 0x3F] := by decide +kernel
theorem test_sha3_empty : (sha3_256 []).take 4 = [0xA7, 0xFF, 0xC6, 0xF8] := by decide +kernel
theorem test_aes128 : (aesEncrypt (aesKeys ((List.range 16).map (BitVec.ofNat 8))) ((List.range 16).map (fun k => BitVec.ofNat 8 (17 * k)))).take 4
    = [0x69, 0xC4, 0xE0, 0xD8] := by decide +kernel
theorem test_base_point : onCurve p384X p384Y = true ∧ (0 < p384N) := by decide +kernel
/-- Keys that ML-KEM takes: an encapsulation key of zeros, and whatever decapsulation key holds the hash of its encapsulation key. -/
theorem test_witness_kem_key : kemKeyOk (kemSet 0) (List.replicate 96 0) = true := by decide +kernel
theorem test_witness_kem_dk (p : KemSet) (a ek : List Byte) (ha : a.length = 384 * p.k) (he : ek.length = 384 * p.k + 32) :
    kemDkOk p (a ++ (ek ++ sha3_256 ek)) = true := by
  have h1 : kemEk p (a ++ (ek ++ sha3_256 ek)) = ek := by
    simp [kemEk, ← ha]
    simp [← he, ha]
  have h2 : ((a ++ (ek ++ sha3_256 ek)).drop (768 * p.k + 32)).take 32 = sha3_256 ek := by
    have h : 768 * p.k + 32 = a.length + ek.length := by omega
    rw [h, ← List.drop_drop]
    simp [sha3_256, sponge]
  simp [kemDkOk, h1, h2]

/-! ### Switch, PCIe, Parraha, boot and I/O -/

/-- Port 0 with a timestamp, a gate list in force and one pending for frame 0. -/
def switching (p : PortSt) : State := { (framed 0 0) with port := p }
theorem test_witness_TimestampsAndGates : open_ up (tsw 0x48) = true ∧ open_ up (tsw 0x50) = true ∧ up.pageAt (tsp 0 0x70) ≠ none ∧ open_ up (tsp 7 0x68) = true
    ∧ SMap.get [] up.port.stamps 0 = [] ∧ (switching { stamps := [(0, [⟨5, true, 9⟩])] }).swUp = true ∧ (framed 0 0).running = true ∧ (framed 0 0).fnum = 0 := by decide +kernel
theorem test_stamp : (after (.tsLoRead me 0) (switching { stamps := [(0, [⟨0x500000007, true, 9⟩])] })).tsHi 0 = 5 := by decide +kernel
theorem test_gates : ((after (.gateListSwitch 0) (switching { gatePend := [(0, some ⟨100, [(1, 60), (2, 40)], some 0, 0, true⟩)] })).gateList 0) = some ⟨100, [(1, 60), (2, 40)], 0, 0⟩
    ∧ ((after (.gateEntryEnd 0) (switching { gates := [(0, some ⟨100, [(1, 60), (2, 40)], 1, 60⟩)] })).gateList 0) = some ⟨100, [(1, 60), (2, 40)], 0, 0⟩ := by
  decide +kernel
theorem test_witness_TableWindow : open_ up (tsw 0x68) = true ∧ up.port.tblOp = none ∧ 0 < tableSize 17 ∧ (tableSize 17 ≤ tableSize 17) := by decide +kernel
theorem test_table : (after .tableOpDone { up with port := { tblOp := some ⟨1, 0, some [7]⟩ } }).port.tables = [(16777216, [7])]
    ∧ (after .tableOpDone { up with port := { tblOp := some ⟨1, tableSize 1, none⟩ } }).reg (tsw 0x6C) = 2 := by decide +kernel
/-- A port whose link is up, frames of the longest length and one byte more, with and without a timestamp. -/
def linked : State := ((up.setBit (tsp 0 0x44) 0 true).setNat (tsw 0xC) 1).setNat (tsp 0 0xC) 1
theorem test_witness_LinksAndFrames : linked.swUp = true ∧ linked.bit (tsp 0 0x44) 0 = true ∧ linked.enabled (tsw 0) = true ∧ linked.enabled (tsp 0 0) = true
    ∧ linked.reg (tsp 0 0x1C) = 0 ∧ linked.hasSa 0 = false ∧ up.bit (tsp 0 0x44) 0 = false ∧ (up.setNat (tsp 0 0x40) 1).fld (tsp 0 0x40) 0 3 ≠ 0
    ∧ (up.setNat (tsp 0 0x40) 0x10001).bit (tsp 0 0x40) 16 = true ∧ (up.setNat (tsp 0 0x40) 0x10001).fld (tsp 0 0x40) 0 3 ≠ 0
    ∧ be16 (List.replicate 12 0 ++ [0x88, 0xF7]) 12 = 0x88F7 := by decide +kernel
theorem test_link_down : (after (.ethLinkChange 0 false) linked).bit (tsp 0 0x14) 0 = true ∧ (after (.ethLinkChange 0 false) linked).bit (tsp 0 0x44) 0 = false := by
  decide +kernel

/-- Root port 0 with its link up, out of PERST, with one inbound window and one outstanding read. -/
def pcie : State :=
  { ((((wide.setNat (pciePage 0 0x44) 1).setBit (pciePage 0 0x48) 0 true).setNat (pciePage 0 0xC) 1).setNat (pciePage 0 0x80) 3).setNat (pciePage 0 0x8C) 1 with
    mem := { vtop := 0x10000 }, power := { refclk := [0], perstHigh := [0] }
    port := { lanes := some 0, pcie := [⟨0, { op := 0x03, src := 68, tag := 9, addr := 0x10000000000, size := 7 }⟩] } }
theorem test_witness_PciePorts : open_ up (pciePage 0 0x44) = true ∧ up.port.lanes = none ∧ pcie.peUp 0 = true ∧ pcie.bit (pciePage 0 0x48) 0 = true
    ∧ pcie.enabled (pciePage 0 0) = true ∧ pcie.reg (pciePage 0 0x1C) = 0 ∧ pcie.ibTranslate 0 0 4096 true = some (0, 0) ∧ pcie.ibTranslate 0 1 4096 true = none
    ∧ pcie.wouldWait 69 0 0 0 64 true = none ∧ pcie.doorbell ≠ 0x1000 ∧ (pcie.setNat (pciePage 0 0x48) 0).bit (pciePage 0 0x48) 9 = false := by decide +kernel
theorem test_pcie_timeout : (after (.pcieCompletionTimeout 0 0) pcie).net.flights.map (fun f => (f.pkt.op, f.pkt.inl)) = [(0x21, 0xFFFFFFFFFFFFFFFF)] := by decide +kernel

/-- Rows of the routing rule: a tie over a wrap of 8 goes the positive way; without wrap towards the number; no such device. -/
theorem test_prl_route : prlRoute 0 4 0 8 8 true true = .link 0 ∧ prlRoute 0 5 0 8 8 true true = .link 1 ∧ prlRoute 0 5 0 8 8 false true = .link 0
    ∧ prlRoute 0 0x800 0 8 8 true true = .link 2 ∧ prlRoute 0 8 0 8 8 true true = .nowhere ∧ prlRoute 5 5 0 8 8 true true = .here
    ∧ prlRoute 0 5 1023 8 8 true true = .nowhere := by decide +kernel

/-- Parraha ports 0 with a link, as device 0 of 2 by 1, with an inbound window and the message ring; an outstanding read; a delay measurement. -/
def parraha : State :=
  { (((((((((wide.setNat (prlPage 0 0x40) 1).setBit (prlPage 0 0x44) 0 true).setNat (prlPage 0 0xC) 1).setNat (prlPage 0 0x4C) 1).setReg (prlPage 0 0x300) 0xC0000000).setNat
      (prlPage 0 0x304) 1).setReg (prlPage 0 0x10C) 0x80000000).setNat (prlPage 0 0x104) 1)) with
    mem := { vtop := 0x10000 }, port := { reads := [⟨5, { op := 0x03, src := 68, tag := 9, size := 1 }⟩], t1 := [(0, some 0)] } }
theorem test_witness_ParrahaPackets : parraha.plLink 0 = true ∧ parraha.enabled (prlPage 0 0) = true ∧ parraha.reg (prlPage 0 0x1C) = 0 ∧ parraha.prlWay {} = .here
    ∧ parraha.prlWay { dst := 1 } = .link 0 ∧ parraha.prlWay { dst := 2 } = .nowhere ∧ up.plLink 0 = false ∧ parraha.iwTranslate 0 64 0 true = some (0, 0)
    ∧ parraha.iwTranslate 0x200000 64 0 true = none ∧ parraha.wouldWait 70 0 0 0 64 true = none ∧ parraha.inDram (parraha.ringBase + 128 * parraha.ringTail) 128 = true
    ∧ (parraha.ringTail + 1) % parraha.ringSize ≠ parraha.fld (prlPage 0 0x118) 0 16 := by decide +kernel
/-- An outbound window to this device itself; line 0 is stored under a key. -/
def looped : State :=
  { ((parraha.setReg (prlPage 0 0x200) 0x80000000).setNat (prlPage 0 0x204) 1).setNat (mc 0 0x48) 1 with
    mem := { keys := [(0, 5)], vtop := 0x10000, tags := [(0, some (⟨0, 5, false, false, 0, none⟩ : LineTag))] } }
theorem test_prl_loop : looped.prlWindow 0x20000000004 = some 0
    ∧ [true, false].map (fun b => (((looped.prlSend 0 tWr (looped.prlWrite 0 0x20000000004 [7] b).2 4).slc 0).find 16 0 0).map (fun l => (l.data, l.poison)))
      = [some (0x700000000, true), some (0x700000000, false)] := by decide +kernel
theorem test_prl_rdr : (after (.parrahaRdr 0 { tag := 5, data := [1, 2] }) parraha).net.flights.map (fun f => (f.pkt.op, f.pkt.inl)) = [(0x21, 0x201)]
    ∧ (after (.parrahaRdr 0 { tag := 5, stat := 1 }) parraha).reg (prlPage 0 0x6C) = 1 := by decide +kernel
theorem test_witness_ParrahaTime : parraha.plUp 0 = true ∧ parraha.bit (prlPage 0 0x40) 0 = true ∧ parraha.fld (prlPage 0 0x4C) 0 16 ≠ 0
    ∧ SMap.get none parraha.port.t1 0 = some 0 ∧ SMap.get none up.port.t1 0 = none ∧ parraha.kind ≠ 3 ∧ (parraha.setNat (frm 0x60) 3).kind = 3
    ∧ (parraha.setNat (frm 0x60) 3).srcPort = 0 ∧ open_ parraha (prlPage 0 0x10C) = true ∧ up.tickAhead = none ∧ parraha.running = false := by decide +kernel
theorem test_delay : (after (.dlyRsp 0 { data := leBytes 8 30 ++ leBytes 8 40 }) { parraha with clock := { time := 110 } }).reg (prlPage 0 0x48) = 50 := by decide +kernel

theorem test_witness_BootAndIo : open_ up (bioPage 0 0x54) = true ∧ open_ up (bioPage 0 0x458) = true ∧ open_ up (bioPage 0 0x470) = true ∧ open_ up (lowSpeed 0 0x14) = true
    ∧ open_ up (lowSpeed 11 0x14) = true ∧ up.port.xspi = false ∧ up.port.ufs = false ∧ up.port.busy = [] ∧ up.traceOn = false ∧ up.net.flights = []
    ∧ (ram {}).isDram 0xFFC0 = true ∧ (ram {}).confOwner 0 64 = none := by decide +kernel
theorem test_gpio : (after (.gpioEdge 63 true) (up.setReg (bioPage 3 0x5C) 0x80000000)).ev.fires = [.source 0x6BF]
    ∧ (after (.gpioEdge 63 true) up).bit (bioPage 3 0x44) 31 = true := by decide +kernel
theorem test_low_speed : (after (.lowSpeedTransferDone 11 [1]) { up with port := { busy := [11] } }).ev.fires = [.source 0x6CB] := by decide +kernel

/-! ### States that meet the hypotheses of the remaining clauses -/

/-- A page in a domain that is down, whose fence's router runs; one that a router's own domain holds. -/
theorem test_witness_ClosedFences : ((pageOf (corePage 2 0)).bind Page.domain) = some 2 ∧ up.domUp 2 = false
    ∧ (routerDomain (fenceRouter 2)).toList.all (fun y => up.domUp y) = true ∧ up.pageAt (corePage 2 0) = none ∧ corePage 2 0 % 4 = 0 := by decide +kernel

/-- A request at the IOC's bridge, the pieces of its accesses, a stool's access with and without a node that finds bad parity, and a held access. -/
def stoolRead : CtlAccess := { node := 8, src := 0, tag := 0, part := 0, be := 15, addr := BitVec.ofNat 28 (tim 0x40), data := none, badRequest := some 0, badResponse := none }
def bridged : State := { up with net := { bridges := [⟨72, csPkt, [3, 4], []⟩] } }
def answering (tag : BitVec 6) : CtlPkt := { node := 8, src := 1, tag := tag, part := 0, be := 15, addr := 0, data := none }
theorem test_witness_ControlPaths : routerKind 72 = .iocGateway ∧ 2 ≤ (up.freeTags (1 + routerCabinet 72) 1).length ∧ csPkt.addr.toNat - 0x3F000000000 = tim 0x40
    ∧ (pageOf stoolRead.addr.toNat).isSome = true ∧ up.ctlBehind (ctlPktOf stoolRead) = false
    ∧ (nodePath 8 (pageIn up (tim 0x40)).node).all (fun m => !up.bit (stoolPage (nodeStool m) 0x1C) 29) = true
    ∧ (0 : Nat) ∈ nodePath 8 0 ∧ up.pageUp (pageIn up (tim 0x40)) = true
    ∧ (∃ j, j < 33 ∧ (bridged.bridgeAcc { answering 3 with node := j }).isSome = true) := by decide +kernel

/-- A request that its regulator holds. -/
def heldAsk : State := { asking with net := { asking.net with flights := [{ pkt := { op := 0x03, src := 0, srcp := 0, tag := 9 }, rtr := 0, port := 0, wait := some 1, held := true, out := false }] } }
theorem test_witness_HeldRequests : (heldAsk.net.flights.any (fun f => f.held && f.pkt.tag = 9 && f.pkt.op = 0x03)) = true
    ∧ after (.initiatorTimeout 0) heldAsk = heldAsk := by decide +kernel

/-- A gPTP source whose port is synchronised and one whose is not; ticks ahead, announced and not. -/
def synced : State := { (framed 2 0).setNat (tsp 0 0x48) 2 with frame := {} }
theorem test_witness_GptpTicks : synced.bit (tsp 0 0x48) 1 = true ∧ synced.frame.expected = none ∧ synced.srcPort = 0 ∧ synced.kind = 2 ∧ synced.running = true
    ∧ (framed 2 0).bit (tsp 0 0x48) 1 = false ∧ (framed 0 190).tickAhead = some (200, 1) ∧ (framed 0 190).port.ticked = none
    ∧ up.gptpMove 5 5 = .ran ∧ (framed 1 300).bit (frm 0x40) 1 = false ∧ ((framed 1 300).setNat (frm 0x40) 3).bit (frm 0x40) 1 = true := by decide +kernel
theorem test_gptp_first : (after (.gptpBoundary 0 .ran) synced).frame.due.isSome = true ∧ after (.gptpBoundary 0 .ran) (framed 2 0) = framed 2 0 := by decide +kernel

/-- An engine with a line of its cache to act on, and before one whose fill is outstanding. -/
def sweepL2 (ms : List Miss) : State :=
  { engine 64 none with coh := { me := [(0, some { lo := 0, len := 64, op := 3, scope := false, part := 0, abort := false })], l2 := [(0, { lines := [(0, some lineZero)] })], misses := ms } }
theorem test_witness_EngineLines : (sweepL2 []).meNext 0 { lo := 0, len := 64, op := 3, scope := false, part := 0, abort := false } = some 0
    ∧ (sweepL2 []).meStalls 0 0 = false ∧ (sweepL2 []).l2Line 0 0 = some lineZero ∧ (sweepL2 [{ come with line := 0, core := 0 }]).meStalls 0 0 = true := by decide +kernel
theorem test_me_cleans : ((after (.meSweepDone 0) (sweepL2 [])).l2Line 0 0) = none ∧ ((after (.meSweepDone 0) (sweepL2 [])).evb 0).map (·.data) = [0x1234] := by
  decide +kernel

/-- A primary with an open line and a line that waits for a place; a bench whose trace way is reserved. -/
def logging (cur : List W64) (unread : Nat) (out : List LogLine) : State :=
  { up with cores := [(0, { bunk := { bound := true, partner := 48, cur := cur, unread := unread, out := out } })] }
theorem test_witness_LogLines : ((logging [7] 512 []).core 0).bunk.cur ≠ [] ∧ ((logging [] 512 [⟨0, false, 0, [7]⟩]).core 0).bunk.out = [⟨0, false, 0, [7]⟩]
    ∧ (State.reset.setNat (benchPage 6 0 0x74) 1).logWay 6 = some 0 ∧ up.atGate { op := 0x19, dst := 0 } = false := by decide +kernel
theorem test_log_waits : (after (.logLineTimer 0) (logging [7] 512 [])).net.flights = []
    ∧ ((after (.crd { op := 0x19, dst := 0, addr := 0 }) (logging [] 512 [⟨0, false, 0, [7]⟩])).net.flights.map (fun f => f.pkt.op)) = [0x18] := by decide +kernel

/-- A line of a sealed region; an accepted write of it. -/
def sealedLine : State := stored.setReg (ipe 0 0x100) 0x80000000
theorem test_witness_SealedLines : sealedLine.treeIndex 0 0 = some 0 ∧ sealedLine.ctrCached 0 0 0 = false := by decide +kernel
def writing : State := { stored with mem := { stored.mem with queue := [⟨0, { op := 0x09, line := 0x55 }, 0⟩] } }
theorem test_accepted_write : lineData (after (.dramWrite 0 0 0x77 true) writing).mem.dram 0 = 0x55 ∧ lineData (after (.dramWrite 0 0 0x77 false) stored).mem.dram 0 = 0x77 := by
  decide +kernel

/-- A sweep with a line left and with none, whose controller is metered and not. -/
theorem test_witness_SweepLines : (rewriting (some { sweeping false with op := 2 })).swNext 0 { sweeping false with op := 2 } 0 = some 0
    ∧ (rewriting none).swNext 0 { sweeping false with op := 2 } 1 = none ∧ (rewriting none).isMetered (mcPage 0 2 0) = false
    ∧ (rewriting none).sealRegions 0 = [] ∧ (∀ x, (sweeping false).stop = some x → x ≤ (sweeping false).endLine) := by
  refine ⟨by decide +kernel, by decide +kernel, by decide +kernel, by decide +kernel, ?_⟩
  intro x h; cases h

/-- An access that must wait: the slices are not ready. -/
def narrow : State := { up with mem := { vtop := 0x10000 } }
theorem test_witness_AccessesWait : (narrow.wouldWait 68 2 0 0 64 true).isSome = true ∧ (narrow.wouldWait 70 0 0 0 64 true).isSome = true := by decide +kernel

/-! ### The block as a whole, and ill-formed commands -/

/-- A frozen block, one in chip Stop, one in reset; a command that acts then and one that does not. -/
theorem test_witness_StalledBlockHoldsStill : ({ up with err := { frozen := some ⟨2, 0, 15, 0⟩ } } : State).stalled = true ∧ (chipIn .stop).stalled = true
    ∧ ({ up with power := { inReset := true } } : State).stalled = true ∧ ActsWhileStalled .wakeNFall := ⟨by decide, by decide +kernel, by decide, trivial⟩
theorem test_frozen_time : after .timeIncrement { up with err := { frozen := some ⟨2, 0, 15, 0⟩ } } = { up with err := { frozen := some ⟨2, 0, 15, 0⟩ } } := by
  decide +kernel
theorem test_step : (match step { up with pending := [.timeIncrement] } with | .next t => (t.pending, t.time) | _ => ([], 7)) = ([], 1) := by decide +kernel
theorem test_reset_wf : Memory.wf State.reset.mem.dram = true ∧ State.reset.pending = [] ∧ State.reset.time = 0 := by decide

theorem test_illformed_size : (Instr.registerWrite me 0 3 0).wf = false := by decide
theorem test_illformed_emram : (Instr.emramAccess ⟨none, 0, 9, none⟩).wf = false ∧ (Instr.emramAccess ⟨none, 0, 0, none⟩).wf = false := by decide
theorem test_illformed_samples : (Instr.temperatureSample [0]).wf = false ∧ (Instr.thermtripSample []).wf = false := by decide
theorem test_illformed_oz : (Instr.nop 0 []).wf = false ∧ (Instr.nop 0 (List.replicate 16 0)).wf = false := by decide
theorem test_illformed_run_ahead : (Instr.runAheadEntry 0 [0x7F] [[]]).wf = false := by decide
theorem test_illformed_msi : (Instr.msiMessage { port := 0, req := 0, off := 0xFFF, size := 4, data := 0 }).wf = false := by decide
theorem test_illformed_tlp : (Instr.pcieInboundRequest 0 { write := true, addr := 0, data := [], len := 4, req := 0 }).wf = false := by decide
theorem test_illformed_parraha : (Instr.parrahaWr 0 { len := 65 }).wf = false ∧ (Instr.parrahaWr 0 { len := 1, data := [1, 2] }).wf = false := by decide
theorem test_illformed_stl : (Instr.stlNop 0 []).wf = false ∧ (Instr.stlNop 0 (List.replicate 7 0)).wf = false := by decide
theorem test_wellformed : (Instr.add 0 [0x40, 0x12]).wf = true ∧ (Instr.registerWrite me 0 8 0).wf = true ∧ (Instr.stlNop 0 [0x80]).wf = true := by decide

/-- No word spells a command: the table gives no row bits (assumption log 38). -/
theorem test_no_words : decodeTableWord 16 0 = none ∧ State.reset.withFetchWord 16 0 = State.reset := by decide

end Sys2Proof.Tests
end

section
/-! ## Bits, fields, registers and pages

The bits of a word after a write of a field, the registers of a state after each named write, and where the registers of a page stand. -/

namespace Sys2Proof.Machine

/-! ### Bits and fields (00 R3) -/

/-- Two words with the same bits are equal. -/
theorem eq_of_bitOf {n : Nat} {x y : BitVec n} (h : ∀ k, k < n → bitOf x k = bitOf y k) : x = y :=
  BitVec.eq_of_getLsbD_eq h

@[simp] theorem bitOf_and {n : Nat} (x y : BitVec n) (k : Nat) : bitOf (x &&& y) k = (bitOf x k && bitOf y k) :=
  BitVec.getLsbD_and

@[simp] theorem bitOf_or {n : Nat} (x y : BitVec n) (k : Nat) : bitOf (x ||| y) k = (bitOf x k || bitOf y k) :=
  BitVec.getLsbD_or

@[simp] theorem bitOf_not {n : Nat} (x : BitVec n) (k : Nat) : bitOf (~~~x) k = (decide (k < n) && !bitOf x k) :=
  BitVec.getLsbD_not

theorem bitOf_ofNat (n v k : Nat) : bitOf (BitVec.ofNat n v) k = (decide (k < n) && v.testBit k) :=
  BitVec.getLsbD_ofNat n v k

@[simp] theorem bitOf_zero (n k : Nat) : bitOf (0#n) k = false := BitVec.getLsbD_zero

theorem testBit_fieldOf {n : Nat} (x : BitVec n) (lo w j : Nat) :
    (fieldOf x lo w).testBit j = (decide (j < w) && bitOf x (lo + j)) := by
  simp [fieldOf, bitOf, Nat.testBit_mod_two_pow, Nat.testBit_shiftRight]

theorem fieldOf_lt {n : Nat} (x : BitVec n) (lo w : Nat) : fieldOf x lo w < 2 ^ w := Nat.mod_lt _ (Nat.two_pow_pos w)

/-- Fields with the same bits are equal. -/
theorem fieldOf_congr {n m : Nat} {x : BitVec n} {y : BitVec m} {lo lo' w : Nat} (h : ∀ j, j < w → bitOf x (lo + j) = bitOf y (lo' + j)) :
    fieldOf x lo w = fieldOf y lo' w := by
  apply Nat.eq_of_testBit_eq
  intro j
  by_cases hj : j < w <;> simp [testBit_fieldOf, hj, h]

@[simp] theorem bitOf_shiftLeft {n : Nat} (x : BitVec n) (m k : Nat) :
    bitOf (x <<< m) k = (decide (k < n) && !decide (k < m) && bitOf x (k - m)) := BitVec.getLsbD_shiftLeft x m

theorem bitOf_of_ge {n : Nat} (x : BitVec n) {k : Nat} (h : n ≤ k) : bitOf x k = false := BitVec.getLsbD_of_ge x k h

/-- A bit after a field is put: that of the value inside the field, and the old one elsewhere. -/
theorem bitOf_putField {n : Nat} (x : BitVec n) (lo w v k : Nat) (h : lo + w ≤ n) :
    bitOf (putField x lo w v) k = if lo ≤ k ∧ k < lo + w then v.testBit (k - lo) else bitOf x k := by
  simp only [putField, bitOf_or, bitOf_and, bitOf_not, bitOf_shiftLeft, bitOf_ofNat, Nat.testBit_two_pow_sub_one, Nat.testBit_mod_two_pow]
  by_cases inside : lo ≤ k ∧ k < lo + w
  · have e1 : k < n := by omega
    have e2 : ¬ k < lo := by omega
    have e3 : k - lo < n := by omega
    have e4 : k - lo < w := by omega
    simp [inside, e1, e2, e3, e4]
  · rw [if_neg inside]
    by_cases hk : k < n
    · by_cases lower : k < lo
      · simp [hk, lower]
      · have e : ¬ k - lo < w := by omega
        simp [hk, e]
    · simp [hk, bitOf_of_ge x (Nat.le_of_not_lt hk)]

theorem fieldOf_putField_same {n : Nat} (x : BitVec n) (lo w v : Nat) (h : lo + w ≤ n) : fieldOf (putField x lo w v) lo w = v % 2 ^ w := by
  apply Nat.eq_of_testBit_eq
  intro j
  rw [testBit_fieldOf, bitOf_putField _ _ _ _ _ h, Nat.testBit_mod_two_pow]
  by_cases hj : j < w <;> simp [hj]

theorem fieldOf_putField_other {n : Nat} (x : BitVec n) (lo w v lo' w' : Nat) (h : lo + w ≤ n) (d : lo' + w' ≤ lo ∨ lo + w ≤ lo') :
    fieldOf (putField x lo w v) lo' w' = fieldOf x lo' w' :=
  fieldOf_congr (fun j hj => by rw [bitOf_putField _ _ _ _ _ h, if_neg (by omega)])

theorem bitOf_putField_other {n : Nat} (x : BitVec n) (lo w v k : Nat) (h : lo + w ≤ n) (d : k < lo ∨ lo + w ≤ k) :
    bitOf (putField x lo w v) k = bitOf x k := by rw [bitOf_putField _ _ _ _ _ h, if_neg (by omega)]

theorem bitOf_putBit {n : Nat} (x : BitVec n) (i k : Nat) (b : Bool) (h : i < n) : bitOf (putBit x i b) k = if k = i then b else bitOf x k := by
  rw [putBit, bitOf_putField _ _ _ _ _ (by omega)]
  by_cases hk : k = i
  · subst hk; cases b <;> simp
  · rw [if_neg (by omega), if_neg hk]

@[simp] theorem bitOf_putBit_same {n : Nat} (x : BitVec n) (i : Nat) (b : Bool) (h : i < n) : bitOf (putBit x i b) i = b := by
  rw [bitOf_putBit _ _ _ _ h, if_pos rfl]

theorem fieldOf_putBit_other {n : Nat} (x : BitVec n) (i lo w : Nat) (b : Bool) (h : i < n) (d : i < lo ∨ lo + w ≤ i) :
    fieldOf (putBit x i b) lo w = fieldOf x lo w := fieldOf_putField_other _ _ _ _ _ _ (by omega) (by omega)

/-- Clearing a bit of a word without bits leaves it so. -/
theorem putBit_zero_false {n : Nat} (i : Nat) : putBit (0 : BitVec n) i false = 0 := by simp [putBit, putField]

/-! ### Registers after a write -/

theorem State.reg_setFld (s : State) (a lo w v b : Nat) :
    (s.setFld a lo w v).reg b = if b = a then putField (s.reg a) lo w v else s.reg b := State.reg_setReg s a b _

theorem State.reg_setBit (s : State) (a i b : Nat) (x : Bool) :
    (s.setBit a i x).reg b = if b = a then putBit (s.reg a) i x else s.reg b := State.reg_setReg s a b _

theorem State.reg_setNat (s : State) (a v b : Nat) : (s.setNat a v).reg b = if b = a then BitVec.ofNat 32 v else s.reg b :=
  State.reg_setReg s a b _

theorem State.reg_count16_other (s : State) (a b : Nat) (h : b ≠ a) : (s.count16 a).reg b = s.reg b := by
  rw [State.count16, State.reg_setFld, if_neg h]

theorem State.bit_congr {s t : State} {a : Nat} (h : t.reg a = s.reg a) (i : Nat) : t.bit a i = s.bit a i := by
  unfold State.bit; rw [h]

theorem State.fld_congr {s t : State} {a : Nat} (h : t.reg a = s.reg a) (lo w : Nat) : t.fld a lo w = s.fld a lo w := by
  unfold State.fld; rw [h]

theorem State.bit_setBit (s : State) (a i k : Nat) (x : Bool) (h : i < 32) :
    (s.setBit a i x).bit a k = if k = i then x else s.bit a k := by
  rw [State.bit, State.reg_setBit, if_pos rfl, bitOf_putBit _ _ _ _ h]; rfl

@[simp] theorem State.bit_setBit_same (s : State) (a i : Nat) (x : Bool) (h : i < 32) : (s.setBit a i x).bit a i = x := by
  rw [State.bit_setBit _ _ _ _ _ h, if_pos rfl]

theorem State.fld_setFld_same (s : State) (a lo w v : Nat) (h : lo + w ≤ 32) : (s.setFld a lo w v).fld a lo w = v % 2 ^ w := by
  rw [State.fld, State.reg_setFld, if_pos rfl, fieldOf_putField_same _ _ _ _ h]

/-- Registers back at their reset values, the others as they were. -/
theorem State.reg_clearRegs (s : State) (lo hi a : Nat) :
    (s.clearRegs lo hi).reg a = if a < lo ∨ hi ≤ a then s.reg a else resetValue a := by
  have h := SMap.get_filter (resetValue a) s.regs (fun k => decide (k < lo) || decide (hi ≤ k)) a
  simp only [Bool.or_eq_true, decide_eq_true_eq] at h
  exact h

/-! ### Folds -/

/-- What every step of a fold leaves as it is, the fold leaves as it is. -/
theorem foldl_keeps {α β : Type} (g : State → β) (f : State → α → State) (h : ∀ s x, g (f s x) = g s) (l : List α) (s : State) :
    g (l.foldl f s) = g s := by
  induction l generalizing s with
  | nil => rfl
  | cons x l ih => exact (ih _).trans (h s x)

/-! ### Pages (02 R25) -/

theorem Page.base_mod (p : Page) : p.base % 4096 = 0 := by simp [Page.base, pageBase]

/-- All offsets of one page name it. -/
theorem pageOf_eq_of_div {a b : Nat} (h : a / 4096 = b / 4096) : pageOf a = pageOf b := by
  have f : ∀ k, 12 ≤ k → ∀ w, natField a k w = natField b k w := by
    intro k hk w
    obtain ⟨j, rfl⟩ := Nat.exists_eq_add_of_le hk
    simp only [natField, Nat.shiftRight_eq_div_pow, Nat.pow_add, ← Nat.div_div_eq_div_mul]
    rw [show (2 ^ 12 : Nat) = 4096 from rfl, h]
  simp only [pageOf, f 24 (by omega), f 16 (by omega), f 12 (by omega)]

end Sys2Proof.Machine
end

section
/-! ## What changes registers and error reports only

`OnlyRegs` and `OnlyRegsErr` of the statements as relations, and what a detection of an error leaves alone (02 R30; 18 R495). -/

namespace Sys2Proof.Machine

/-! ### The two frames -/

theorem OnlyRegs.refl (s : State) (l : List Nat) : OnlyRegs s s l := ⟨rfl, fun _ _ => rfl⟩

theorem OnlyRegs.trans {s t u : State} {l : List Nat} (h : OnlyRegs s t l) (k : OnlyRegs t u l) : OnlyRegs s u l :=
  ⟨by rw [k.rest, h.rest], fun a ha => (k.others a ha).trans (h.others a ha)⟩

theorem OnlyRegs.setReg (s : State) {a : Nat} {l : List Nat} (v : W32) (h : a ∈ l) : OnlyRegs s (s.setReg a v) l :=
  ⟨rfl, fun _ hb => State.reg_setReg_other _ _ _ _ (fun e => hb (e ▸ h))⟩

theorem OnlyRegs.foldl {α : Type} {f : State → α → State} {l : List Nat} {xs : List α} (h : ∀ s, ∀ x ∈ xs, OnlyRegs s (f s x) l) (s : State) :
    OnlyRegs s (xs.foldl f s) l := by
  induction xs generalizing s with
  | nil => exact OnlyRegs.refl s l
  | cons x xs ih => exact (h s x (by simp)).trans (ih (fun s y hy => h s y (by simp [hy])) _)

theorem OnlyRegs.ite {s a b : State} {l : List Nat} (c : Prop) [Decidable c] (ha : OnlyRegs s a l) (hb : OnlyRegs s b l) :
    OnlyRegs s (if c then a else b) l := by split <;> assumption

theorem OnlyRegsErr.refl (s : State) (l : List Nat) : OnlyRegsErr s s l := ⟨rfl, fun _ _ => rfl⟩

theorem OnlyRegsErr.trans {s t u : State} {l : List Nat} (h : OnlyRegsErr s t l) (k : OnlyRegsErr t u l) : OnlyRegsErr s u l :=
  ⟨by rw [k.rest, h.rest], fun a ha => (k.others a ha).trans (h.others a ha)⟩

theorem OnlyRegsErr.setReg (s : State) {a : Nat} {l : List Nat} (v : W32) (h : a ∈ l) : OnlyRegsErr s (s.setReg a v) l :=
  ⟨rfl, fun _ hb => State.reg_setReg_other _ _ _ _ (fun e => hb (e ▸ h))⟩

theorem OnlyRegsErr.report (s : State) (r : Report) (l : List Nat) : OnlyRegsErr s (s.report r) l := ⟨rfl, fun _ _ => rfl⟩

theorem OnlyRegsErr.see (s : State) (r : Report) (l : List Nat) : OnlyRegsErr s (s.see r) l := ⟨rfl, fun _ _ => rfl⟩

theorem OnlyRegsErr.foldl {α : Type} {f : State → α → State} {l : List Nat} {xs : List α} (h : ∀ s, ∀ x ∈ xs, OnlyRegsErr s (f s x) l)
    (s : State) : OnlyRegsErr s (xs.foldl f s) l := by
  induction xs generalizing s with
  | nil => exact OnlyRegsErr.refl s l
  | cons x xs ih => exact (h s x (by simp)).trans (ih (fun s y hy => h s y (by simp [hy])) _)

theorem OnlyRegsErr.ite {s a b : State} {l : List Nat} (c : Prop) [Decidable c] (ha : OnlyRegsErr s a l) (hb : OnlyRegsErr s b l) :
    OnlyRegsErr s (if c then a else b) l := by split <;> assumption

/-! ### Detections -/

/-- A detection changes PG_ERR and PG_ERRCNT of its page, and the error reports. -/
theorem OnlyRegsErr.detect (s : State) (p : Page) (bit addr : Nat) (part : Option PartId) (inj : Bool) :
    OnlyRegsErr s (s.detect p bit addr part inj) [p.base + 0x14, p.base + 0x20] := by
  unfold State.detect
  extract_lets s1 s2 s3
  have h1 : OnlyRegsErr s s1 [p.base + 0x14, p.base + 0x20] := OnlyRegsErr.setReg s _ (by simp)
  have h2 : OnlyRegsErr s s2 [p.base + 0x14, p.base + 0x20] :=
    h1.trans (OnlyRegsErr.ite _ (OnlyRegsErr.setReg s1 _ (by simp)) (OnlyRegsErr.refl _ _))
  have h3 : OnlyRegsErr s s3 [p.base + 0x14, p.base + 0x20] := h2.trans (OnlyRegsErr.see s2 _ _)
  exact OnlyRegsErr.ite _ (h3.trans (OnlyRegsErr.report s3 _ _)) h3

/-- The PG_ERR bit of a detection sets. -/
theorem State.bit_detect (s : State) (p : Page) (bit addr : Nat) (part : Option PartId) (inj : Bool) (h : bit < 32) :
    (s.detect p bit addr part inj).bit (p.base + 0x14) bit = true := by
  unfold State.detect
  extract_lets s1 s2 s3
  have h1 : s1.bit (p.base + 0x14) bit = true := State.bit_setBit_same _ _ _ _ h
  have h2 : s2.bit (p.base + 0x14) bit = true := by
    simp only [s2]; split
    · exact (State.bit_congr (State.reg_count16_other _ _ _ (by omega)) _).trans h1
    · exact h1
  split <;> exact h2

/-- A page's PG_ERR bit raised is a detection at that page. -/
theorem State.raise_eq_detect {base : Nat} {p : Page} (h : pageOf base = some p) (s : State) (bit : Nat) (part : Option PartId) :
    s.raise base bit part = s.detect p bit (ctlAddr p.base) part false := by simp [State.raise, h]

/-- An error raised changes registers at offsets 0x14 and 0x20 of a page, and error reports. -/
theorem State.raise_rest (s : State) (base bit : Nat) (part : Option PartId) :
    s.raise base bit part = { s with
      regs := (s.raise base bit part).regs
      err := { s.err with reports := (s.raise base bit part).err.reports, seen := (s.raise base bit part).err.seen } } := by
  unfold State.raise; split
  · rfl
  · exact (OnlyRegsErr.detect s _ _ _ _ _).rest

theorem State.reg_raise (s : State) (base bit a : Nat) (part : Option PartId) (h : a % 4096 ≠ 0x14) (k : a % 4096 ≠ 0x20) :
    (s.raise base bit part).reg a = s.reg a := by
  unfold State.raise; split
  · rfl
  · rename_i p _
    have := p.base_mod
    refine (OnlyRegsErr.detect s p _ _ _ _).others a ?_
    simp only [List.mem_cons, List.not_mem_nil, or_false, not_or]
    omega

@[simp] theorem State.raise_soft (s : State) (b k : Nat) (q : Option PartId) : (s.raise b k q).soft = s.soft := by rw [State.raise_rest]
@[simp] theorem State.raise_ev (s : State) (b k : Nat) (q : Option PartId) : (s.raise b k q).ev = s.ev := by rw [State.raise_rest]
@[simp] theorem State.raise_power (s : State) (b k : Nat) (q : Option PartId) : (s.raise b k q).power = s.power := by rw [State.raise_rest]

/-- The PG_ERR bit raised is set, at a page that starts at the offset. -/
theorem State.bit_raise {base : Nat} {p : Page} (h : pageOf base = some p) (e : p.base = base) (s : State) (bit : Nat) (part : Option PartId)
    (hb : bit < 32) : (s.raise base bit part).bit (base + 0x14) bit = true := by
  rw [State.raise_eq_detect h, ← e]; exact State.bit_detect s p bit _ part false hb

end Sys2Proof.Machine
end

section
/-! ## Writes of registers: what a permitted REGISTER_WRITE does, and O33 -/

namespace Sys2Proof.Machine

/-- REGISTER_WRITE of 4 bytes that is permitted writes the register (00 R4; 02 R26). -/
theorem exec_registerWrite_mayWrite {s : State} {i : Initiator} {a : BitVec 28} {p : Page} (h : MayWrite s i a.toNat p) (v : W64) :
    exec (.registerWrite i a 4 v) s
      = .next (s.writeReg (iniCode i) (s.partOf i) s.power.aon p (a.toNat % 4096) (BitVec.setWidth 32 v)) := by
  have hw : registerWrite i a 4 v s = s.write4 i a.toNat (BitVec.setWidth 32 v) := by
    simp [registerWrite, State.write4, h.word]
  show act s (registerWrite i a 4 v) = _
  rw [act_runs _ _ h.runs, hw, State.write4_mayWrite h]

/-! ### A register write with an effect beside its register -/

/-- The block after reset, but for the trace sink of slice 0, which is full. -/
def fullSink : State := { State.reset with coh := { sinkFull := [0] } }

/-- The probe page of slice 0; the read pointer of the slice's trace sink is its register 0x108 (10 R293, R294). -/
def sinkProbe : Page := ⟨.probe, 32, 4, 0x10, 2⟩

/-- The control-space offset of that read pointer. -/
def sinkPointer : BitVec 28 := 0x4102108

theorem mayWrite_sinkPointer : MayWrite fullSink .jtag sinkPointer.toNat sinkProbe where
  runs := by decide
  there := by decide +kernel
  word := by decide
  owns := .inl rfl
  takes := by decide +kernel

/-- A write of the read pointer makes room in the sink: what is full is no register, and it changes. -/
theorem writeReg_sinkPointer (i : Nat) (q : PartId) (c : BitVec 48) (v : W32) :
    (fullSink.writeReg i q c sinkProbe 0x108 v).coh.sinkFull = [] := by
  rfl

/-- Refutes O33: TSK_RP of a slice's probe page, a register of the kinds for which the statement says that nothing but the register changes,
is written while the sink is full; the sink is then no longer full. -/
theorem not_writesAndRefusals : ¬ Obligations.WritesAndRefusals := by
  unfold Obligations.WritesAndRefusals
  intro h
  obtain ⟨-, -, -, -, -, plain, -⟩ := h fullSink .jtag sinkPointer 0 mayWrite_sinkPointer.runs
  obtain ⟨t, ht, only, -⟩ := plain sinkProbe (rw 0x108 0x1FFF) mayWrite_sinkPointer (.inl rfl) (by decide) (by decide)
  rw [exec_registerWrite_mayWrite mayWrite_sinkPointer] at ht
  obtain rfl : _ = t := Host.Outcome.next.inj ht
  have kept : ([] : List Nat) = [0] :=
    (writeReg_sinkPointer _ _ _ _).symm.trans (congrArg (fun u : State => u.coh.sinkFull) only.rest)
  exact absurd kept (by decide)

end Sys2Proof.Machine
end

section
/-! ## The page header (02 R29-R33; 18 R497, R503) and O34 -/

namespace Sys2Proof.Machine

/-! ### A permitted write on a page by its number -/

theorem MayWrite.pageOf_eq {s : State} {i : Initiator} {n : BitVec 16} {o : Nat} {p : Page} (h : MayWrite s i (4096 * n.toNat + o) p)
    (ho : o < 4096) : pageOf (4096 * n.toNat) = some p := by
  rw [← State.pageOf_of_pageAt h.there]; exact pageOf_eq_of_div (by omega)

/-- A command that is a permitted write at offset `o` of page `n` writes that page's register at `o`. -/
theorem act_write4_page {s : State} {i : Initiator} {n : BitVec 16} {o : Nat} {p : Page} (h : MayWrite s i (4096 * n.toNat + o) p)
    (ho : o < 4096) (v : W32) :
    act s (fun s => s.write4 i (pageOff n o) v) = .next (s.writeReg (iniCode i) (s.partOf i) s.power.aon p o v) := by
  have e : (4096 * n.toNat + o) % 4096 = o := by omega
  rw [pageOff, act_write4 h, e]

/-! ### PG_CTL (02 R29, R31) -/

/-- Of a page whose LOCK is 1 or that is being locked, PG_CTL takes EN and keeps LOCK; no soft reset starts. -/
theorem State.writePgCtl_locked (s : State) (p : Page) (w : W32) (h : (s.bit (p.base + 0xC) 2 || bitOf w 2) = true) :
    s.writePgCtl p w = s.setReg (p.base + 0xC) (4 ||| (w &&& 1)) := by
  have word : (s.reg (p.base + 0xC) &&& 4) ||| (w &&& 5) = 4 ||| (w &&& 1) := by
    apply eq_of_bitOf
    intro k _
    have five : bitOf (5 : W32) k = (bitOf (4 : W32) k || bitOf (1 : W32) k) := bitOf_or 4 1 k
    have four : bitOf (4 : W32) k = decide (k = 2) := by rw [bitOf, show (4 : W32).toNat = 2 ^ 2 from rfl, Nat.testBit_two_pow]; simp [eq_comm]
    simp only [bitOf_or, bitOf_and, five, four]
    by_cases k2 : k = 2
    · subst k2
      rw [State.bit] at h
      simpa [Bool.or_and_distrib_right] using h
    · simp [k2]
  have lock : ((s.setReg (p.base + 0xC) (4 ||| (w &&& 1))).bit (p.base + 0xC) 2) = true := by
    rw [State.bit, State.reg_setReg_same, bitOf_or, show bitOf (4 : W32) 2 = true from by decide, Bool.true_or]
  simp only [State.writePgCtl, word, lock]
  simp

/-- Of a page whose LOCK is 0 and stays 0, a write with SRST starts a soft reset. -/
theorem State.writePgCtl_srst (s : State) (p : Page) (w : W32) (h : s.bit (p.base + 0xC) 2 = false) (h2 : bitOf w 2 = false)
    (h1 : bitOf w 1 = true) : ∃ x, s.writePgCtl p w = (s.setReg (p.base + 0xC) x).softReset p := by
  refine ⟨(s.reg (p.base + 0xC) &&& 4) ||| (w &&& 5), ?_⟩
  have lock : (s.setReg (p.base + 0xC) ((s.reg (p.base + 0xC) &&& 4) ||| (w &&& 5))).bit (p.base + 0xC) 2 = false := by
    rw [State.bit] at h
    rw [State.bit, State.reg_setReg_same, bitOf_or, bitOf_and, bitOf_and, h, h2]; rfl
  simp only [State.writePgCtl, lock, h1]
  simp

/-! ### Soft resets begin (02 R31) -/

/-- From `s` to `t` no soft reset begins or ends, and no detector that has no injection armed gets one. -/
structure Unarming (s t : State) : Prop where
  soft : t.soft = s.soft
  arms : ∀ a, a % 4096 = 0x1C → s.reg a = 0 → t.reg a = 0

theorem Unarming.refl (s : State) : Unarming s s := ⟨rfl, fun _ _ h => h⟩

theorem Unarming.trans {s t u : State} (h : Unarming s t) (k : Unarming t u) : Unarming s u :=
  ⟨k.soft.trans h.soft, fun a ha h0 => k.arms a ha (h.arms a ha h0)⟩

theorem Unarming.ite {s a b : State} (c : Prop) [Decidable c] (ha : Unarming s a) (hb : Unarming s b) : Unarming s (if c then a else b) := by
  split <;> assumption

theorem Unarming.foldl {α : Type} {f : State → α → State} {l : List α} (h : ∀ s, ∀ x ∈ l, Unarming s (f s x)) (s : State) :
    Unarming s (l.foldl f s) := by
  induction l generalizing s with
  | nil => exact Unarming.refl s
  | cons x l ih =>
    exact (h s x (by simp)).trans (ih (fun s y hy => h s y (by simp [hy])) _)

/-- What leaves registers and soft resets alone arms nothing. -/
theorem Unarming.of_eq {s t : State} (hr : t.regs = s.regs) (hs : t.soft = s.soft) : Unarming s t :=
  ⟨hs, fun a _ h => (State.reg_congr hr a).trans h⟩

/-- The same where an update of neither comes first. -/
theorem Unarming.after {s t u : State} (k : Unarming t u) (hr : t.regs = s.regs) (hs : t.soft = s.soft) : Unarming s u :=
  (Unarming.of_eq hr hs).trans k

/-- A write of a register other than a PG_ERRINJ arms nothing. -/
theorem Unarming.setReg (s : State) (a : Nat) (v : W32) (h : a % 4096 ≠ 0x1C) : Unarming s (s.setReg a v) :=
  ⟨rfl, fun b hb h0 => by rw [State.reg_setReg_other _ _ _ _ (by rintro rfl; exact h hb), h0]⟩

/-- PG_ERRINJ is 0 after reset. -/
theorem resetValue_errinj (a : Nat) (h : a % 4096 = 0x1C) : resetValue a = 0 := by
  unfold resetValue
  split
  · rfl
  · rename_i p _
    have plain : p.resetOver 0x1C = none := by
      rw [Page.resetOver, if_neg (by decide), if_neg (by decide)]
      split <;> simp
    simp [h, plain, Page.row, headerRows, RegRow.holds, ro]

theorem Unarming.clearRegs (s : State) (lo hi : Nat) : Unarming s (s.clearRegs lo hi) :=
  ⟨rfl, fun a ha h0 => by rw [State.reg_clearRegs]; split <;> [exact h0; exact resetValue_errinj a ha]⟩

theorem Unarming.raise (s : State) (b k : Nat) (q : Option PartId) : Unarming s (s.raise b k q) :=
  ⟨State.raise_soft s b k q, fun a ha h0 => by rw [State.reg_raise _ _ _ _ _ (by omega) (by omega), h0]⟩

theorem Unarming.detect (s : State) (p : Page) (b a : Nat) (q : Option PartId) (j : Bool) : Unarming s (s.detect p b a q j) := by
  have h := OnlyRegsErr.detect s p b a q j
  refine ⟨by rw [h.rest], fun x hx h0 => ?_⟩
  have := p.base_mod
  rw [h.others x (by simp only [List.mem_cons, List.not_mem_nil, or_false, not_or]; omega), h0]

/-- An armed detector that is forced loses its arm (18 R503). -/
theorem Unarming.force (s : State) (b k : Nat) : Unarming s (s.force b k) := by
  unfold State.force
  split
  · exact Unarming.refl s
  · refine Unarming.ite _ ((Unarming.detect s _ _ _ _ _).trans ⟨rfl, fun a _ h0 => ?_⟩) (Unarming.refl s)
    rw [State.reg_setBit]
    split
    · rename_i e; rw [← e, h0]; exact putBit_zero_false _
    · exact h0

theorem Unarming.exhaust (s : State) {rg : Nat} (h : rg % 4096 = 0) (m : Meter) (p : Nat) (hp : p < 64) : Unarming s (s.exhaust rg m p) := by
  unfold State.exhaust
  extract_lets e x s1 s2 s3
  have h1 : Unarming s s1 := Unarming.ite _ (Unarming.refl s) (Unarming.setReg s _ _ (by omega))
  have h2 : Unarming s s2 := h1.trans (Unarming.setReg s1 _ _ (by omega))
  have h3 : Unarming s s3 := h2.trans (Unarming.setReg s2 _ _ (by omega))
  exact (h3.trans (Unarming.raise s3 _ _ _)).trans (Unarming.of_eq rfl rfl)

theorem Unarming.charge (s : State) {rg : Nat} (h : rg % 4096 = 0) (m : Meter) (p n : Nat) (hp : p < 64) : Unarming s (s.charge rg m p n) := by
  have hm : m.usedOff = 0x700 ∨ m.usedOff = 0x800 ∨ m.usedOff = 0x900 := by cases m <;> simp [Meter.usedOff]
  unfold State.charge
  extract_lets was a t
  have ht : Unarming s t := Unarming.setReg s _ _ (by omega)
  exact Unarming.ite _ (ht.trans (Unarming.exhaust t h m p hp)) ht

theorem Unarming.holdAt (s : State) {rg : Nat} (h : rg % 4096 = 0) (m : Meter) (p : Nat) (hp : p < 64) : Unarming s (s.holdAt rg m p) := by
  unfold State.holdAt
  exact Unarming.ite _ ((Unarming.exhaust _ h m p hp).after rfl rfl) (Unarming.refl s)

/-- A regulator's decision on a packet arms nothing, where the regulator has a page. -/
theorem Unarming.grant (s : State) (j : Nat) (h : ∀ f rg, s.net.flights[j]? = some f → f.wait = some rg → rg % 4096 = 0) :
    Unarming s (s.grant j) := by
  unfold State.grant
  split
  · rename_i f hf
    split
    · rename_i rg hw
      have hrg := h f rg hf hw
      have hp := f.pkt.part.isLt
      extract_lets p m s1 k
      refine Unarming.ite _ (Unarming.refl s) (Unarming.ite _ ?_ ?_)
      · exact (Unarming.holdAt _ hrg m p hp).after rfl rfl
      · exact (Unarming.force s rg 0).trans ((Unarming.charge _ hrg m p _ hp).after rfl rfl)
    · exact Unarming.refl s
  · exact Unarming.refl s

theorem Unarming.release (s : State) {rg : Nat} (h : rg % 4096 = 0) : Unarming s (s.release rg) := by
  refine Unarming.foldl (fun s j _ => ?_) s
  split
  · rename_i f hf
    split
    · rename_i c
      refine Unarming.grant s j (fun f' rg' hf' hw' => ?_)
      simp only [Bool.and_eq_true, decide_eq_true_eq] at c
      obtain rfl : f = f' := Option.some.inj (hf.symm.trans hf')
      obtain rfl : rg = rg' := Option.some.inj (c.2.symm.trans hw')
      exact h
    · exact Unarming.refl s
  · exact Unarming.refl s

theorem Unarming.cancelCommit (s : State) : Unarming s s.cancelCommit := by
  unfold State.cancelCommit
  refine Unarming.ite _ ((Unarming.setReg s _ _ (by decide)).trans (Unarming.foldl (fun s c _ => ?_) _)) (Unarming.refl s)
  exact Unarming.setReg s _ _ (by simp only [cmr, pageBase]; omega)

theorem cabRegulators_mod {c rg : Nat} (h : rg ∈ cabRegulators c) : rg % 4096 = 0 := by
  have page : ∀ b p, pageBase c b p % 4096 = 0 := fun b p => by simp [pageBase]
  simp only [cabRegulators, List.mem_append, List.mem_cons, List.not_mem_nil, or_false] at h
  rcases h with h | rfl | rfl
  · split at h
    · obtain ⟨b, -, rfl⟩ := List.mem_map.mp h; exact page _ _
    · split at h
      · obtain ⟨b, -, rfl⟩ := List.mem_map.mp h; exact page _ _
      · simp at h
  · exact page _ _
  · exact page _ _

theorem Unarming.stopFrames (s : State) : Unarming s s.stopFrames := by
  unfold State.stopFrames
  extract_lets s1 f s2 s3 s4
  have h1 : Unarming s s1 := Unarming.setReg s _ _ (by decide)
  have h2 : Unarming s s2 := h1.trans (Unarming.of_eq rfl rfl)
  have h3 : Unarming s s3 := by
    refine h2.trans (Unarming.foldl (fun s n _ => ?_) s2)
    exact Unarming.of_eq rfl rfl
  have h4 : Unarming s s4 := h3.trans (Unarming.foldl (fun s c _ => Unarming.foldl (fun s rg hrg =>
    (Unarming.clearRegs s _ _).trans (Unarming.release _ (cabRegulators_mod hrg))) s) s3)
  exact h4.trans (Unarming.cancelCommit s4)

theorem Unarming.meAbort (s : State) (e : Nat) : Unarming s (s.meAbort e) := by
  unfold State.meAbort
  split
  · exact Unarming.ite _ (Unarming.refl s) (Unarming.of_eq rfl rfl)
  · exact Unarming.refl s

/-- The stop of a block at a soft reset arms nothing (02 R31). -/
theorem Unarming.softStop (s : State) (p : Page) : Unarming s (s.softStop p) := by
  unfold State.softStop
  split
  · exact (Unarming.setReg s _ _ (by decide)).trans (Unarming.stopFrames _)
  · exact Unarming.cancelCommit s
  · exact Unarming.meAbort s _
  · exact Unarming.meAbort s _
  · split <;> exact Unarming.of_eq rfl rfl
  · exact Unarming.of_eq rfl rfl
  · refine Unarming.ite _ (Unarming.after ((Unarming.setReg _ _ _ ?_).trans (Unarming.of_eq rfl rfl)) rfl rfl) (Unarming.refl s)
    simp only [vfA, tePage, pageBase]; omega
  · refine (Unarming.setReg s _ _ ?_).trans (Unarming.of_eq rfl rfl)
    simp only [stoolPage, pageBase]; split_ifs <;> omega
  · exact Unarming.of_eq rfl rfl
  · exact Unarming.of_eq rfl rfl
  · exact Unarming.of_eq rfl rfl
  · exact Unarming.ite _ (Unarming.of_eq rfl rfl) (Unarming.refl s)
  · exact Unarming.ite _ (Unarming.of_eq rfl rfl) (Unarming.of_eq rfl rfl)
  · exact Unarming.of_eq rfl rfl
  · exact Unarming.refl s

theorem mem_insertOnce (x : Nat) (l : List Nat) : x ∈ insertOnce x l := by
  induction l with
  | nil => simp [insertOnce]
  | cons y l ih => unfold insertOnce; split_ifs <;> simp_all

/-- A soft reset that starts: the page is in reset, and its arms are cleared (02 R31; 18 R503). -/
theorem State.softReset_starts (s : State) (p : Page) :
    pageNo p.cab p.block p.page ∈ (s.softReset p).soft ∧ (s.softReset p).reg (p.base + 0x1C) = 0 := by
  unfold State.softReset
  have h := Unarming.softStop ({ s with soft := insertOnce (pageNo p.cab p.block p.page) s.soft }.setReg (p.base + 0x1C) 0) p
  refine ⟨by rw [h.soft]; exact mem_insertOnce _ _, h.arms _ ?_ (State.reg_setReg_same _ _ _)⟩
  have := p.base_mod
  omega

/-! ### Soft resets end (02 R31) -/

/-- A binding that ends changes no register and no soft reset (09 R249). -/
theorem State.bindChange_ends (s : State) (n : Nat) (o : W32) :
    (s.bindChange n o 0).regs = s.regs ∧ (s.bindChange n o 0).soft = s.soft := by
  have off : bndValid 0 = false := by decide
  unfold State.bindChange
  rw [off, Bool.false_and, if_neg (by simp)]
  split
  · extract_lets b
    split
    · split <;> exact ⟨rfl, rfl⟩
    · have h : BunkOnly n s _ := (BunkOnly.logRec n s true [ctlSlot 6 b.brpos 0]).trans (BunkOnly.flushLog n _)
      exact ⟨(congrArg State.regs h.rest : _), (congrArg State.soft h.rest : _)⟩
  · exact ⟨rfl, rfl⟩

/-- Registers and soft resets when a soft reset of a page has ended, but for what the block of the page then does itself. -/
def State.softCleared (s : State) (p : Page) : State :=
  (({ s with
      regs := s.regs.filter (fun r => !(decide (p.base + 0x40 ≤ r.1) && decide (r.1 < p.base + 0x1000)) || p.softKeeps (r.1 - p.base))
      soft := s.soft.filter (· ≠ pageNo p.cab p.block p.page) } : State).setReg (p.base + 0x20) 0).setBit (p.base + 0x10) 1 true

/-- The end of a soft reset, at a page that is neither a frame receiver's commit page nor the page of the power domains. -/
theorem State.softDone_regs (s : State) (p : Page) (hs : pageNo p.cab p.block p.page ∈ s.soft) (hr : s.softReady p = true)
    (h1 : p.kind ≠ .cmr) (h2 : p.kind ≠ .pwd) :
    (s.softDone p).regs = (s.softCleared p).regs ∧ (s.softDone p).soft = (s.softCleared p).soft := by
  have go : (!s.soft.contains (pageNo p.cab p.block p.page) || !s.softReady p) = false := by simp [hs, hr]
  generalize ht : s.softDone p = t
  simp only [State.softDone, go] at ht
  change (match p.kind with | .core => _ | .cmr => _ | .win => _ | .pwd => _ | _ => s.softCleared p) = t at ht
  split at ht <;> subst ht
  · exact State.bindChange_ends _ _ _
  · exact absurd ‹_› h1
  · exact ⟨foldl_keeps State.regs (fun s k => s.setWins (48 * p.cab + 4 * (p.page - 3) + k) []) (fun _ _ => rfl) _ _,
      foldl_keeps State.soft (fun s k => s.setWins (48 * p.cab + 4 * (p.page - 3) + k) []) (fun _ _ => rfl) _ _⟩
  · exact absurd ‹_› h2
  · exact ⟨rfl, rfl⟩

/-- A register after the functional registers of a page that a soft reset takes have gone back to their reset values. -/
theorem reg_softFiltered (s : State) (p : Page) (a : Nat) :
    SMap.get (resetValue a)
        (s.regs.filter (fun r => !(decide (p.base + 0x40 ≤ r.1) && decide (r.1 < p.base + 0x1000)) || p.softKeeps (r.1 - p.base))) a
      = if !(decide (p.base + 0x40 ≤ a) && decide (a < p.base + 0x1000)) || p.softKeeps (a - p.base) then s.reg a else resetValue a :=
  SMap.get_filter (resetValue a) s.regs
    (fun k => !(decide (p.base + 0x40 ≤ k) && decide (k < p.base + 0x1000)) || p.softKeeps (k - p.base)) a

theorem State.reg_softCleared_functional (s : State) (p : Page) (o : Nat) (h : 0x40 ≤ o) (l : o < 0x1000) (k : p.softKeeps o = false) :
    (s.softCleared p).reg (p.base + o) = resetValue (p.base + o) := by
  unfold State.softCleared
  rw [State.reg_setBit, if_neg (by omega), State.reg_setReg_other _ _ _ _ (by omega)]
  refine (reg_softFiltered s p _).trans ?_
  rw [Nat.add_sub_cancel_left, k]
  simp [h, l]

theorem State.reg_softCleared_elsewhere (s : State) (p : Page) (a : Nat) (h : a < p.base ∨ p.base + 0x1000 ≤ a) :
    (s.softCleared p).reg a = s.reg a := by
  unfold State.softCleared
  rw [State.reg_setBit, if_neg (by omega), State.reg_setReg_other _ _ _ _ (by omega)]
  refine (reg_softFiltered s p _).trans (if_pos ?_)
  have : ¬(p.base + 0x40 ≤ a ∧ a < p.base + 0x1000) := by omega
  simp only [Bool.or_eq_true, Bool.not_eq_true', Bool.and_eq_false_iff, decide_eq_false_iff_not]
  omega

theorem State.softCleared_header (s : State) (p : Page) :
    pageNo p.cab p.block p.page ∉ (s.softCleared p).soft ∧ (s.softCleared p).bit (p.base + 0x10) 1 = true
      ∧ (s.softCleared p).reg (p.base + 0x20) = 0 := by
  refine ⟨by simp [State.softCleared, State.setBit, State.setReg], State.bit_setBit_same _ _ _ _ (by decide), ?_⟩
  rw [State.softCleared, State.reg_setBit, if_neg (by omega), State.reg_setReg_same]

/-! ### PG_ERRMASK and PG_ERRINJ (02 R30; 18 R503) -/

/-- A fold in which one element alone does something. -/
theorem foldl_single {α β : Type} {f : β → α → β} {k : α} (h : ∀ s x, x ≠ k → f s x = s) {l : List α} (nd : l.Nodup) (hk : k ∈ l) (s : β) :
    l.foldl f s = f s k := by
  have idle : ∀ (l : List α) (s : β), k ∉ l → l.foldl f s = s := by
    intro l
    induction l with
    | nil => intro _ _; rfl
    | cons x l ih =>
      intro s hl
      rw [List.mem_cons, not_or] at hl
      rw [List.foldl_cons, h s x (Ne.symm hl.1), ih s hl.2]
  induction l generalizing s with
  | nil => simp at hk
  | cons x l ih =>
    rw [List.nodup_cons] at nd
    rw [List.foldl_cons]
    by_cases e : x = k
    · subst e; exact idle l _ nd.1
    · rw [h s x e]; exact ih nd.2 ((List.mem_cons.mp hk).resolve_left (Ne.symm e)) s

/-- A bit after a fold that sets bits under a condition. -/
theorem State.bit_foldl_setBit {α : Type} (A B : α → Nat) (c : α → Bool) (y : Bool) (l : List α) (hB : ∀ x ∈ l, B x < 32) (s : State)
    (a i : Nat) :
    (l.foldl (fun s x => if c x then s.setBit (A x) (B x) y else s) s).bit a i
      = if ∃ x ∈ l, c x = true ∧ A x = a ∧ B x = i then y else s.bit a i := by
  induction l generalizing s with
  | nil => simp
  | cons x l ih =>
    rw [List.foldl_cons, ih (fun z hz => hB z (by simp [hz]))]
    have hx : B x < 32 := hB x (by simp)
    have step : (if c x then s.setBit (A x) (B x) y else s).bit a i = if c x = true ∧ A x = a ∧ B x = i then y else s.bit a i := by
      by_cases hc : c x = true
      · by_cases ha : A x = a
        · subst ha; simp [hc, State.bit_setBit _ _ _ _ _ hx, eq_comm]
        · simp [hc, ha, State.bit, State.reg_setBit, Ne.symm ha]
      · simp [hc]
    rw [step]
    by_cases here : c x = true ∧ A x = a ∧ B x = i
    · simp [here]
    · simp only [if_neg here, List.mem_cons, exists_eq_or_imp]
      congr 1
      simp [here]

/-- An error whose bit is set already is forwarded with its late report. -/
theorem OnlyRegsErr.writeErrMask (s : State) (p : Page) (v : W32) : OnlyRegsErr s (s.writeErrMask p v) [p.base + 0x18] := by
  unfold State.writeErrMask
  extract_lets new s1
  refine (OnlyRegsErr.setReg s v (by simp)).trans (OnlyRegsErr.foldl (fun s b _ => ?_) _)
  exact OnlyRegsErr.ite _ (OnlyRegsErr.report s _ _) (OnlyRegsErr.refl s _)

theorem State.reg_writeErrMask (s : State) (p : Page) (v : W32) : (s.writeErrMask p v).reg (p.base + 0x18) = v := by
  unfold State.writeErrMask
  extract_lets new s1
  rw [foldl_keeps (fun t : State => t.reg (p.base + 0x18)) _ (fun s b => by split <;> rfl)]
  exact State.reg_setReg_same s _ v

/-- The errors that a write of PG_ERRMASK newly lets through. -/
def State.unmasked (s : State) (p : Page) (v : W32) : W32 := v &&& ~~~s.reg (p.base + 0x18) &&& s.reg (p.base + 0x14)

theorem State.writeErrMask_none (s : State) (p : Page) (v : W32) (h : s.unmasked p v = 0) : s.writeErrMask p v = s.setReg (p.base + 0x18) v := by
  unfold State.writeErrMask
  extract_lets new s1
  have none : ∀ (t : State) (b : Nat), (if bitOf new b then t.report (t.lateReport p b) else t) = t := by
    intro t b
    rw [show new = 0#32 from h, bitOf_zero]; rfl
  exact foldl_keeps (fun t : State => t) _ none _ _

theorem State.writeErrMask_single (s : State) (p : Page) (v : W32) (k : Nat) (hk : k < 32) (h : s.unmasked p v = BitVec.ofNat 32 (2 ^ k)) :
    s.writeErrMask p v = (s.setReg (p.base + 0x18) v).report ((s.setReg (p.base + 0x18) v).lateReport p k) := by
  unfold State.writeErrMask
  extract_lets new s1
  have bits : ∀ b, bitOf new b = (decide (b < 32) && decide (b = k)) := by
    intro b
    rw [show new = BitVec.ofNat 32 (2 ^ k) from h, bitOf_ofNat, Nat.testBit_two_pow]; simp [eq_comm]
  rw [foldl_single (k := k) (fun t b hb => by simp [bits, hb]) (List.nodup_range) (by simpa using hk)]
  simp [bits, hk, s1]

/-- Bits of detectors that arm are armed; the page and what it reports stay as they are. -/
theorem State.writeErrInj_arms (s : State) (p : Page) (v : W32) (h : ∀ k, k < 32 → bitOf v k = true → p.atOnce.testBit k = false) :
    s.writeErrInj p v
      = (List.range 32).foldl (fun s b => if bitOf v b && p.errBits.testBit b then s.setBit (p.base + 0x1C) b true else s) s := by
  unfold State.writeErrInj
  refine List.foldl_ext _ _ _ (fun t b hb => ?_)
  by_cases hv : bitOf v b = true
  · simp [hv, h b (List.mem_range.mp hb) hv]
  · simp [hv]

/-- One bit of the at-once method is detected now, as injected (18 R503). -/
theorem State.writeErrInj_atOnce (s : State) (p : Page) (k : Nat) (hk : k < 32) (h : p.atOnce.testBit k = true) :
    s.writeErrInj p (BitVec.ofNat 32 (2 ^ k)) = s.detect p k (ctlAddr p.base) none true := by
  have bits : ∀ b, bitOf (BitVec.ofNat 32 (2 ^ k)) b = (decide (b < 32) && decide (b = k)) := by
    intro b; rw [bitOf_ofNat, Nat.testBit_two_pow]; simp [eq_comm]
  unfold State.writeErrInj
  rw [foldl_single (k := k) (fun t b hb => by simp only [bits, hb]; simp) List.nodup_range (by simpa using hk)]
  simp only [bits, hk, h]
  simp

/-! ### PG_OWNER and AG_STAT (02 R33; 18 R497) -/

/-- PG_OWNER of a page that is not locked takes the written owner. -/
theorem State.plainWrite_owner (s : State) (p : Page) (v : W32) (h : s.bit (p.base + 0xC) 2 = false) :
    OnlyRegs s (s.plainWrite p 0x24 v) [p.base + 0x24] ∧ (s.plainWrite p 0x24 v).fld (p.base + 0x24) 0 6 = fieldOf v 0 6 := by
  have row : p.row 0x24 = some { off := 0x024, rwl := 0x3F } := rfl
  simp only [State.plainWrite, row]
  refine ⟨OnlyRegs.setReg s _ (by simp), ?_⟩
  rw [State.fld, State.reg_setReg_same]
  refine fieldOf_congr (fun j hj => ?_)
  have mask : bitOf (BitVec.ofNat 32 0x3F) (0 + j) = true := by
    rw [bitOf_ofNat, show (0x3F : Nat) = 2 ^ 6 - 1 from rfl, Nat.testBit_two_pow_sub_one]; simp; omega
  have j32 : 0 + j < 32 := by omega
  simp only [maskedWrite, State.locked, h, Bool.false_eq_true, if_false, Nat.zero_or, bitOf_or, bitOf_and, bitOf_not, mask, j32]
  simp

/-- AG_STAT after a write: the written classes are cleared. -/
theorem State.plainWrite_agStat (s : State) (p : Page) (v : W32) (h : p.kind = .agg) :
    ∃ x, s.plainWrite p 0x40 v = s.setReg (p.base + 0x40) x ∧ ∀ k, k < 5 → bitOf x k = (s.bit (p.base + 0x40) k && !bitOf v k) := by
  have row : p.row 0x40 = some { off := 0x040, w1c := 0x1F } := by
    simp [Page.row, Page.rows, h, aggRows, RegRow.holds]
  refine ⟨maskedWrite { off := 0x040, w1c := 0x1F } (s.locked p) (s.reg (p.base + 0x40)) v, by simp only [State.plainWrite, row], fun k hk => ?_⟩
  have mask : bitOf (BitVec.ofNat 32 0x1F) k = true := by
    rw [bitOf_ofNat, show (0x1F : Nat) = 2 ^ 5 - 1 from rfl, Nat.testBit_two_pow_sub_one]; simp; omega
  have zero : bitOf (BitVec.ofNat 32 0) k = false := bitOf_zero 32 k
  have k32 : k < 32 := by omega
  simp only [maskedWrite, Nat.or_zero, ite_self, bitOf_or, bitOf_and, bitOf_not, mask, zero, k32, State.bit]
  simp

/-- AG_STAT_CLEAR on an aggregator's page: the written classes and the VALID bits of their records clear (18 R497). -/
theorem State.clearAgStat_spec (s : State) (p : Page) (v : W32) (h : p.kind = .agg) :
    OnlyRegs s (s.clearAgStat p v) ((p.base + 0x40) :: (List.range 5).map (fun k => p.base + 0x84 + 16 * k))
      ∧ ∀ k, k < 5 → (s.clearAgStat p v).bit (p.base + 0x40) k = (s.bit (p.base + 0x40) k && !bitOf v k)
          ∧ (s.clearAgStat p v).bit (p.base + 0x84 + 16 * k) 31 = (s.bit (p.base + 0x84 + 16 * k) 31 && !bitOf v k) := by
  obtain ⟨x, hx, bits⟩ := s.plainWrite_agStat p v h
  have fold := fun a i => State.bit_foldl_setBit (fun k => p.base + 0x84 + 16 * k) (fun _ => 31) (bitOf v) false (List.range 5)
    (fun _ _ => by decide) (s.setReg (p.base + 0x40) x) a i
  simp only [State.clearAgStat, hx]
  refine ⟨(OnlyRegs.setReg s x List.mem_cons_self).trans ?_, fun k hk => ⟨?_, ?_⟩⟩
  · refine OnlyRegs.foldl (fun t j hj => OnlyRegs.ite _ (OnlyRegs.setReg t _ ?_) (OnlyRegs.refl t _)) _
    exact List.mem_cons_of_mem _ (List.mem_map_of_mem hj)
  · rw [fold, if_neg (by rintro ⟨j, -, -, e, -⟩; omega), State.bit, State.reg_setReg_same, bits k hk]
  · rw [fold, State.bit, State.reg_setReg_other _ _ _ _ (by omega)]
    by_cases hv : bitOf v k = true
    · rw [if_pos ⟨k, by simpa using hk, hv, rfl, rfl⟩, hv]; simp
    · rw [if_neg (by rintro ⟨j, -, hj, e, -⟩; obtain rfl : j = k := by omega
                     exact hv hj)]
      simp [State.bit, hv]

/-! ### The rows -/

/-- LOCK_SET and SOFT_RESET. -/
theorem exec_pgCtl_rows {s : State} {i : Initiator} {n : BitVec 16} {p : Page} (h : MayWrite s i (4096 * n.toNat + 0xC) p) (v : W32) :
    exec (.lockSet i n v) s = .next (s.setReg (p.base + 0xC) ((v &&& 1) ||| 4))
      ∧ (s.bit (p.base + 0xC) 2 = true → exec (.softReset i n v) s = .next (s.setReg (p.base + 0xC) (4 ||| (v &&& 1))))
      ∧ (s.bit (p.base + 0xC) 2 = false → bitOf v 2 = false → ∃ t, exec (.softReset i n v) s = .next t
          ∧ pageNo p.cab p.block p.page ∈ t.soft ∧ t.reg (p.base + 0x1C) = 0) := by
  have lock : exec (.lockSet i n v) s = .next (s.writePgCtl p (v ||| 4)) := act_write4_page h (by decide) _
  have reset : exec (.softReset i n v) s = .next (s.writePgCtl p (v ||| 2)) := act_write4_page h (by decide) _
  have en4 : (v ||| 4) &&& 1 = v &&& 1 := by
    rw [BitVec.and_or_distrib_right, show (4 : W32) &&& 1 = 0#32 from rfl, BitVec.or_zero]
  have en2 : (v ||| 2) &&& 1 = v &&& 1 := by
    rw [BitVec.and_or_distrib_right, show (2 : W32) &&& 1 = 0#32 from rfl, BitVec.or_zero]
  have set4 : bitOf (v ||| 4) 2 = true := by rw [bitOf_or, show bitOf (4 : W32) 2 = true from by decide, Bool.or_true]
  refine ⟨?_, fun locked => ?_, fun unlocked v2 => ?_⟩
  · rw [lock, State.writePgCtl_locked s p _ (by rw [set4, Bool.or_true]), en4, BitVec.or_comm]
  · rw [reset, State.writePgCtl_locked s p _ (by rw [locked, Bool.true_or]), en2]
  · obtain ⟨x, hx⟩ := State.writePgCtl_srst s p (v ||| 2) unlocked
      (by rw [bitOf_or, v2, show bitOf (2 : W32) 2 = false from by decide]; rfl)
      (by rw [bitOf_or, show bitOf (2 : W32) 1 = true from by decide, Bool.or_true])
    exact ⟨_, reset.trans (by rw [hx]), State.softReset_starts _ p⟩

theorem exec_softResetDone {s : State} {n : BitVec 16} {g : Page} (runs : s.stalled = false) (there : pageOf (4096 * n.toNat) = some g) :
    exec (.softResetDone n) s = .next (s.softDone g) := by
  show execSoftResetDone n s = _
  rw [execSoftResetDone, act_runs _ _ runs]
  simp only [pageOff, Nat.add_zero, there]

/-- SOFT_RESET_DONE of a page in a soft reset that may end. -/
theorem exec_softResetDone_ends {s : State} {n : BitVec 16} {g : Page} (runs : s.stalled = false) (there : pageOf (4096 * n.toNat) = some g)
    (busy : pageNo g.cab g.block g.page ∈ s.soft) (ready : s.softReady g = true) (h1 : g.kind ≠ .cmr) (h2 : g.kind ≠ .pwd) :
    ∃ t, exec (.softResetDone n) s = .next t ∧ pageNo g.cab g.block g.page ∉ t.soft ∧ t.bit (g.base + 0x10) 1 = true
      ∧ t.reg (g.base + 0x20) = 0
      ∧ (∀ o, 0x40 ≤ o → o < 0x1000 → g.softKeeps o = false → t.reg (g.base + o) = resetValue (g.base + o))
      ∧ (∀ a, a < g.base ∨ g.base + 0x1000 ≤ a → t.reg a = s.reg a) := by
  obtain ⟨regs, soft⟩ := s.softDone_regs g busy ready h1 h2
  have same := fun a => State.reg_congr regs a
  obtain ⟨ended, readyBit, errcnt⟩ := s.softCleared_header g
  exact ⟨s.softDone g, exec_softResetDone runs there, soft ▸ ended, (State.bit_congr (same _) _).trans readyBit, (same _).trans errcnt,
    fun o lo hi keeps => (same _).trans (s.reg_softCleared_functional g o lo hi keeps),
    fun a out => (same _).trans (s.reg_softCleared_elsewhere g a out)⟩

/-- SOFT_RESET_DONE of a page that is in no soft reset does nothing. -/
theorem exec_softResetDone_idle {s : State} {n : BitVec 16} {g : Page} (runs : s.stalled = false) (there : pageOf (4096 * n.toNat) = some g)
    (idle : pageNo g.cab g.block g.page ∉ s.soft) : exec (.softResetDone n) s = .next s := by
  rw [exec_softResetDone runs there]
  simp [State.softDone, idle]

/-- ERRMASK_WRITE. -/
theorem exec_errmaskWrite {s : State} {i : Initiator} {n : BitVec 16} {p : Page} (h : MayWrite s i (4096 * n.toNat + 0x18) p) (v : W32) :
    ∃ t, exec (.errmaskWrite i n v) s = .next t ∧ OnlyRegsErr s t [p.base + 0x18] ∧ t.reg (p.base + 0x18) = v
      ∧ (s.unmasked p v = 0 → t.err = s.err)
      ∧ (∀ k r, k < 32 → s.unmasked p v = BitVec.ofNat 32 (2 ^ k) →
          s.err.seen.find? (fun q => q.page = pageNo p.cab p.block p.page && q.bit = k) = some r →
          t.err = { s.err with reports := s.err.reports ++ [r] }) := by
  refine ⟨s.writeErrMask p v, act_write4_page h (by decide) v, OnlyRegsErr.writeErrMask s p v, s.reg_writeErrMask p v, fun none => ?_,
    fun k r hk single seen => ?_⟩
  · rw [s.writeErrMask_none p v none]; rfl
  · rw [s.writeErrMask_single p v k hk single]
    have late : (s.setReg (p.base + 0x18) v).lateReport p k = r := by
      simp only [State.lateReport, State.setReg_err, seen]
    rw [late]; rfl

/-- ERRINJ_ARM. -/
theorem exec_errinjArm {s : State} {i : Initiator} {n : BitVec 16} {p : Page} (h : MayWrite s i (4096 * n.toNat + 0x1C) p) (v : W32) :
    ((∀ k, k < 32 → bitOf v k = true → p.atOnce.testBit k = false) → ∃ t, exec (.errinjArm i n v) s = .next t ∧ OnlyRegs s t [p.base + 0x1C]
        ∧ ∀ k, k < 32 → t.bit (p.base + 0x1C) k = (s.bit (p.base + 0x1C) k || (bitOf v k && p.errBits.testBit k)))
      ∧ (∀ k, k < 32 → p.atOnce.testBit k = true → ∃ t, exec (.errinjArm i n (BitVec.ofNat 32 (2 ^ k))) s = .next t
          ∧ t.bit (p.base + 0x14) k = true ∧ OnlyRegsErr s t [p.base + 0x14, p.base + 0x20]) := by
  have write : ∀ w, exec (.errinjArm i n w) s = .next (s.writeErrInj p w) := fun w => act_write4_page h (by decide) w
  refine ⟨fun arms => ⟨_, write v, ?_, fun k hk => ?_⟩, fun k hk atOnce => ⟨_, write _, ?_⟩⟩
  · rw [s.writeErrInj_arms p v arms]
    exact OnlyRegs.foldl (fun t b _ => OnlyRegs.ite _ (OnlyRegs.setReg t _ (by simp)) (OnlyRegs.refl t _)) s
  · rw [s.writeErrInj_arms p v arms, State.bit_foldl_setBit (fun _ => p.base + 0x1C) (fun b => b) (fun b => bitOf v b && p.errBits.testBit b) true
      (List.range 32) (fun x hx => List.mem_range.mp hx)]
    by_cases c : (bitOf v k && p.errBits.testBit k) = true
    · rw [if_pos ⟨k, List.mem_range.mpr hk, c, rfl, rfl⟩, c, Bool.or_true]
    · rw [if_neg (by rintro ⟨j, -, hj, -, rfl⟩; exact c hj), Bool.eq_false_of_not_eq_true c, Bool.or_false]
  · rw [s.writeErrInj_atOnce p k hk atOnce]
    exact ⟨s.bit_detect p k _ none true hk, OnlyRegsErr.detect s p k _ none true⟩

/-- AG_STAT_CLEAR on an aggregator's page. -/
theorem exec_agStatClear {s : State} {i : Initiator} {n : BitVec 16} {p : Page} (h : MayWrite s i (4096 * n.toNat + 0x40) p) (hk : p.kind = .agg)
    (v : W32) : exec (.agStatClear i n v) s = .next (s.clearAgStat p v) := by
  have agg : (pageOf (pageOff n 0)).map Page.kind = some .agg := by
    rw [pageOff, Nat.add_zero, h.pageOf_eq (by decide), Option.map_some, hk]
  have func : s.writeReg (iniCode i) (s.partOf i) s.power.aon p 0x40 v = s.clearAgStat p v := by
    obtain ⟨kind, inst, cab, block, page⟩ := p
    obtain rfl : kind = .agg := hk
    rfl
  show execAgStatClear i n v s = _
  simp only [execAgStatClear, agg, if_true]
  rw [act_write4_page h (by decide), func]

/-- Settles O34: each row is a permitted write of its header register, or the end of a soft reset, and one lemma above says what that leaves. -/
theorem pageHeaderRows : Obligations.PageHeaderRows := by
  intro s i n v p
  refine ⟨fun h => exec_pgCtl_rows h v, fun g runs there busy ready h1 h2 => exec_softResetDone_ends runs there busy ready h1 h2,
    fun g runs there idle => exec_softResetDone_idle runs there idle, fun h => exec_errmaskWrite h v, fun h => exec_errinjArm h v,
    fun h unlocked => ?_, fun h hk => ?_⟩
  · exact ⟨_, act_write4_page h (by decide) v, s.plainWrite_owner p v unlocked⟩
  · exact ⟨_, exec_agStatClear h hk v, s.clearAgStat_spec p v hk⟩

end Sys2Proof.Machine
end

section
/-! ## What leaves the power controller's own state alone

Resets, wakes and losses of power of a domain change registers, cores, caches and packets; the power controller's sequence, queue, images and
waiting resets they change only where they name them. -/

namespace Sys2Proof.Machine

theorem BunkOnly.power {n : Nat} {s t : State} (h : BunkOnly n s t) : t.power = s.power := by rw [h.rest]

theorem ViaCaches.flushL1 (s : State) (n : Nat) : ViaCaches s (s.flushL1 n) := by
  unfold State.flushL1
  extract_lets s1
  have h1 : ViaCaches s s1 := by
    refine ViaCaches.foldl _ (fun t l => ?_) _ s
    exact ViaCaches.takeL1 t n l.line _
  exact h1.trans (ViaCaches.updCore s1 n _ (by intro _; rfl))

@[simp] theorem State.dropReserved_power (s : State) (p : Page) (o : W32) : (s.dropReserved p o).power = s.power := by
  unfold State.dropReserved
  split
  · rfl
  · split_ifs
    · rfl
    · rfl
    · refine foldl_keeps State.power _ (fun _ _ => ?_) _ _
      rfl

@[simp] theorem State.commitPage_power (s : State) (b : Nat) : (s.commitPage b).power = s.power := by
  unfold State.commitPage
  split
  · rfl
  · rename_i p _
    have banks : ∀ (l : List RegRow) (t : State), (l.foldl (fun s r => match r.act with
        | none => s
        | some a => (List.range r.num).foldl (fun s j => s.setReg (b + a + r.stride * j) (s.reg (b + r.off + r.stride * j))) s) t).power
          = t.power := by
      intro l t
      refine foldl_keeps State.power _ (fun s r => ?_) l t
      split
      · rfl
      · refine foldl_keeps State.power _ (fun _ _ => ?_) _ _
        rfl
    dsimp only
    split
    · rw [State.dropReserved_power]; exact banks _ _
    · exact banks _ _

@[simp] theorem State.wakeRouter_power (s : State) (r : Nat) : (s.wakeRouter r).power = s.power := by
  unfold State.wakeRouter
  extract_lets s1 s2
  have h1 : s1.power = s.power := foldl_keeps State.power _ (fun _ _ => by rw [State.setReg_power, State.setReg_power]) _ s
  have h2 : s2.power = s1.power := by unfold s2; rw [State.setReg_power, State.setReg_power]
  rw [State.setBit_power, h2, h1]

@[simp] theorem State.catchUp_power (s : State) (d : Nat) (i : Image) : (s.catchUp d i).power = s.power := by
  unfold State.catchUp
  extract_lets t1 t
  have ht : t.power = s.power := by
    unfold t; split
    · rfl
    · unfold t1
      rw [foldl_keeps State.power _ (fun t r => t.wakeRouter_power r)]
      exact foldl_keeps State.power _ (fun t b => t.commitPage_power b) _ _
  split
  · exact ht
  · rw [← ht]
    refine foldl_keeps State.power _ (fun _ _ => ?_) _ _
    rfl

@[simp] theorem State.completeWait_power (s : State) (n : Nat) (q : W64) : (s.completeWait n q).power = s.power := by
  unfold State.completeWait
  extract_lets s1 s2
  have h1 : s1.power = s.power := (BunkOnly.logRec n s _ _).power
  exact ((BunkOnly.bunkRetire n _).power.trans rfl).trans h1

@[simp] theorem State.endWait_power (s : State) (n : Nat) : (s.endWait n).power = s.power := by
  unfold State.endWait
  split
  · extract_lets c due
    split
    · exact s.completeWait_power n _
    · rfl
  · rfl

@[simp] theorem State.restoreCore_power (s : State) (n : Nat) (c : Core) : (s.restoreCore n c).power = s.power :=
  State.endWait_power _ n

@[simp] theorem State.rejoinWindows_power (s : State) (n : Nat) : (s.rejoinWindows n).power = s.power := rfl

@[simp] theorem State.startReceiver_power (s : State) (c : Nat) : (s.startReceiver c).power = s.power := by
  unfold State.startReceiver
  extract_lets t
  have ht : t.power = s.power := State.setNat_power s _ _
  clear_value t
  split
  · rw [← ht]
    exact foldl_keeps State.power (fun t k => t.rejoinWindows (48 * c + k)) (fun t k => t.rejoinWindows_power _) _ _
  · exact ht

@[simp] theorem State.alignReceiver_power (s : State) (c : Nat) (m : Bool) : (s.alignReceiver c m).power = s.power := by
  unfold State.alignReceiver
  extract_lets s1 s2
  have h1 : s1.power = s.power := by unfold s1; rw [State.setReg_power, State.setReg_power, State.setReg_power]
  have h2 : s2.power = s1.power := State.startReceiver_power s1 c
  clear_value s2
  split
  · rw [State.setReg_power, h2, h1]
  · rw [h2, h1]

@[simp] theorem State.disableQueues_power (s : State) : s.disableQueues.power = s.power := by
  refine foldl_keeps State.power _ (fun _ _ => ?_) _ s
  rfl

@[simp] theorem State.recallGptp_power (s : State) : s.recallGptp.power = s.power := rfl

end Sys2Proof.Machine
end

section
/-! ## Commands to the power controller (17 R464-R471): DCMD_STOP and DCMD_WAKE

Where the controller's registers stand, and what a write of DCMD does when no sequence runs. -/

namespace Sys2Proof.Machine

/-! ### The power controller's registers -/

/-- The page of the power controller's sequences, with DCMD (17 R489). -/
def pwqPage : Page := ⟨.pwq, 0, 7, 0x10, 2⟩

theorem pageOf_pwq : pageOf (pwq 0) = some pwqPage := by decide +kernel

theorem dstat_eq (d : Nat) : dstat d = 118493440 + 4 * d := by simp [dstat, pwd, pageBase, pageNo]; omega
theorem pwq_eq (o : Nat) : pwq o = 118497280 + o := by simp [pwq, pageBase, pageNo]
theorem cabCtl_eq (c o : Nat) : cabCtl c o = 16777216 * c + o := by simp [cabCtl, pageBase, pageNo]; omega

theorem dstat_inj {d k : Nat} (h : dstat d = dstat k) : d = k := by simp only [dstat_eq] at h; omega

theorem pwq_ne_dstat {o d : Nat} (h : d < 512) : pwq o ≠ dstat d := by rw [pwq_eq, dstat_eq]; omega

/-! ### STATE and the other fields of DSTAT (17 R489) -/

theorem State.domState_setDom_same (s : State) (d st : Nat) : (s.setDom d st).domState d = st % 4 :=
  State.fld_setFld_same s (dstat d) 0 2 st (by decide)

theorem State.domState_congr {s t : State} {d : Nat} (h : t.reg (dstat d) = s.reg (dstat d)) : t.domState d = s.domState d :=
  State.fld_congr h 0 2

theorem State.reg_setDom_other (s : State) (d st a : Nat) (h : a ≠ dstat d) : (s.setDom d st).reg a = s.reg a := by
  rw [State.setDom, State.reg_setFld, if_neg h]

theorem State.domState_setNat (s : State) (a v d : Nat) (h : dstat d ≠ a) : (s.setNat a v).domState d = s.domState d :=
  State.domState_congr (by rw [State.reg_setNat, if_neg h])

@[simp] theorem State.setDom_power (s : State) (d st : Nat) : (s.setDom d st).power = s.power := rfl

theorem OnlyRegs.setDom (s : State) {d : Nat} {l : List Nat} (st : Nat) (h : dstat d ∈ l) : OnlyRegs s (s.setDom d st) l := OnlyRegs.setReg s _ h

theorem OnlyRegs.setNat (s : State) {a : Nat} {l : List Nat} (v : Nat) (h : a ∈ l) : OnlyRegs s (s.setNat a v) l := OnlyRegs.setReg s _ h

/-! ### A write of DCMD (17 R466) -/

/-- A permitted write of a power command is the command. -/
theorem act_dcmd {s : State} {i : Initiator} {g : Page} (h : MayWrite s i (pwq 0x40) g) (w : W32) :
    act s (fun s => s.write4 i (pwq 0x40) w) = .next (s.writeDcmd (iniCode i) w) := by
  have page : pageOf (pwq 0x40) = some pwqPage := (pageOf_eq_of_div (by decide)).trans pageOf_pwq
  obtain rfl : pwqPage = g := Option.some.inj (page.symm.trans (State.pageOf_of_pageAt h.there))
  rw [act_write4 h]
  rfl

theorem exec_dcmdStop {s : State} {i : Initiator} {g : Page} (h : MayWrite s i (pwq 0x40) g) (v : W32) :
    exec (.dcmdStop i v) s = .next (s.writeDcmd (iniCode i) (putField v 12 2 1)) := act_dcmd h _

theorem exec_dcmdWake {s : State} {i : Initiator} {g : Page} (h : MayWrite s i (pwq 0x40) g) (v : W32) :
    exec (.dcmdWake i v) s = .next (s.writeDcmd (iniCode i) (putField v 12 2 2)) := act_dcmd h _

theorem exec_dcmdReset {s : State} {i : Initiator} {g : Page} (h : MayWrite s i (pwq 0x40) g) (v : W32) :
    exec (.dcmdReset i v) s = .next (s.writeDcmd (iniCode i) (putField v 12 2 3)) := act_dcmd h _

/-- A sequence that runs and a queued wake are what DCMD_STAT.BUSY shows. -/
theorem State.pwrBusy_eq_false (s : State) : s.pwrBusy = false ↔ s.power.seq = none ∧ s.power.wakeq = [] := by
  simp [State.pwrBusy]

theorem State.writeDcmd_busy (s : State) (i : Nat) (v : W32) (h : s.pwrBusy = true) :
    s.writeDcmd i v = (s.raise (pwq 0) 0).fire 0x301 := by rw [State.writeDcmd, if_pos h]

/-- A command that is refused: its RESULT, PG_ERR and the event. -/
theorem State.writeDcmd_refused (s : State) (i op : Nat) (v : W32) (h : s.pwrBusy = false) (hop : op < 4)
    (hr : s.dcmdResult (fieldOf v 0 9) op ≠ 0) : s.writeDcmd i (putField v 12 2 op)
      = ((s.setNat (pwq 0x44) (2 * s.dcmdResult (fieldOf v 0 9) op + 65536 * fieldOf v 0 9)).raise (pwq 0) 0).fire 0x301 := by
  have field : fieldOf (putField v 12 2 op) 0 9 = fieldOf v 0 9 := fieldOf_putField_other v 12 2 op 0 9 (by decide) (by decide)
  have opcode : fieldOf (putField v 12 2 op) 12 2 = op := (fieldOf_putField_same v 12 2 op (by decide)).trans (Nat.mod_eq_of_lt hop)
  simp only [State.writeDcmd, h, field, opcode]
  rw [if_neg (by decide), if_pos hr]

/-- A command that is accepted, by its operation. -/
theorem State.writeDcmd_accepted (s : State) (i op : Nat) (v : W32) (h : s.pwrBusy = false) (hop : op < 4)
    (hr : s.dcmdResult (fieldOf v 0 9) op = 0) :
    let d := fieldOf v 0 9
    let t := s.setNat (pwq 0x44) (65536 * d)
    s.writeDcmd i (putField v 12 2 op)
      = if op = 1 then ({ t with power := { t.power with seq := some (.stop d), selfLeft := if i = d then 4 else 0 } } : State).setDom d 2
        else if op = 2 then t.startWake d 1 true
        else if d < 192 then (t.resetDomain d 4).fire 0x300
        else (t.resetBench (d - 192) 3).fire 0x300 := by
  have field : fieldOf (putField v 12 2 op) 0 9 = fieldOf v 0 9 := fieldOf_putField_other v 12 2 op 0 9 (by decide) (by decide)
  have opcode : fieldOf (putField v 12 2 op) 12 2 = op := (fieldOf_putField_same v 12 2 op (by decide)).trans (Nat.mod_eq_of_lt hop)
  simp only [State.writeDcmd, h, field, opcode, hr]
  rw [if_neg (by decide), if_neg (by decide), Nat.mul_zero, Nat.zero_add]

/-! ### RESULT (17 R466) -/

theorem mem_domChildren (d k : Nat) : k ∈ domChildren d ↔ k < 296 ∧ domParent k = some d := by simp [domChildren]

theorem State.dcmdResult_stop (s : State) (d : Nat) (h : d < 296) (run : s.domState d = 3)
    (kids : ∀ k, k < 296 → domParent k = some d → s.domState k = 0) (empty : s.notEmpty d = false)
    (free : d < 192 → (s.core d).bunk.bound = false) : s.dcmdResult d 1 = 0 := by
  have noKid : ∀ k ∈ domChildren d, s.domState k = 0 := fun k hk =>
    kids k ((mem_domChildren d k).mp hk).1 ((mem_domChildren d k).mp hk).2
  have unbound : ¬(d < 192 ∧ (s.core d).bunk.bound = true) := by rintro ⟨lt, b⟩; simp [free lt] at b
  simpa [State.dcmdResult, show ¬ 295 < d by omega, run, empty, unbound] using noKid

theorem State.dcmdResult_stop_notRun (s : State) (d : Nat) (h : d < 296) (run : s.domState d ≠ 3) : s.dcmdResult d 1 = 1 := by
  simp [State.dcmdResult, show ¬ 295 < d by omega, run]

theorem State.dcmdResult_wake (s : State) (d : Nat) (h : d < 296) (stop : s.domState d = 0) : s.dcmdResult d 2 = 0 := by
  simp [State.dcmdResult, show ¬ 295 < d by omega, stop]

theorem State.dcmdResult_reset (s : State) (d : Nat) (h : d < 216) : s.dcmdResult d 3 = 0 := by
  simp [State.dcmdResult, show ¬ 295 < d by omega, show ¬ 216 ≤ d by omega]

/-! ### Wakes (17 R464, R471) -/

/-- The domains of a wake: its target last, before it those of its ancestors that do not run. -/
theorem State.wakesAll_wakeChain (s : State) (d : Nat) : WakesAll s (s.wakeChain d) d := by
  unfold State.wakeChain
  refine ⟨by simp, fun k hk hne => ?_⟩
  simp only [List.mem_append, List.mem_filter, List.mem_singleton, decide_eq_true_eq] at hk
  obtain ⟨up, run⟩ := hk.resolve_right hne
  refine ⟨run, ?_⟩
  cases parent : domParent d with
  | none => simp [parent] at up
  | some p =>
    cases grand : domParent p with
    | none => simp only [parent, grand, List.mem_singleton] at up; subst up; exact .inl rfl
    | some q =>
      simp only [parent, grand, List.mem_cons, List.not_mem_nil, or_false] at up
      obtain rfl | rfl := up
      · exact .inr ⟨p, rfl, grand⟩
      · exact .inl rfl

theorem State.wakeChain_ne_nil (s : State) (d : Nat) : s.wakeChain d ≠ [] := by unfold State.wakeChain; simp

/-- A wake that starts: its sequence, and the first of its domains waking. -/
theorem State.startWake_eq (s : State) (d src : Nat) (dcmd : Bool) :
    s.startWake d src dcmd
      = ({ s with power := { s.power with seq := some (.wake (s.wakeChain d) d src dcmd) } } : State).setDom ((s.wakeChain d).headD d) 1 := by
  unfold State.startWake
  obtain ⟨k, rest, chain⟩ := List.exists_cons_of_ne_nil (s.wakeChain_ne_nil d)
  simp only [chain, List.headD_cons]

theorem domParent_lt {d p : Nat} (h : domParent d = some p) : p < 296 := by
  unfold domParent at h
  split_ifs at h <;> cases h <;> omega

/-- The chain of a wake depends on the states of the domains alone. -/
theorem State.wakeChain_congr {s t : State} (h : ∀ k, k < 296 → t.domState k = s.domState k) (d : Nat) : t.wakeChain d = s.wakeChain d := by
  unfold State.wakeChain
  dsimp only
  congr 1
  refine List.filter_congr (fun k hk => ?_)
  cases parent : domParent d with
  | none => simp [parent] at hk
  | some p =>
    have hp := domParent_lt parent
    cases grand : domParent p with
    | none => simp only [parent, grand, List.mem_singleton] at hk; rw [hk, h p hp]
    | some q =>
      simp only [parent, grand, List.mem_cons, List.not_mem_nil, or_false] at hk
      obtain rfl | rfl := hk
      · rw [h k (domParent_lt grand)]
      · rw [h k hp]

/-- What a wake that starts changes. -/
theorem State.startWake_spec (s : State) (d src : Nat) (dcmd : Bool) :
    let t := s.startWake d src dcmd
    let k := (s.wakeChain d).headD d
    t.power = { s.power with seq := some (.wake (s.wakeChain d) d src dcmd) } ∧ OnlyRegs { s with power := t.power } t [dstat k] ∧ t.domState k = 1 := by
  dsimp only
  rw [State.startWake_eq]
  exact ⟨rfl, OnlyRegs.setDom _ 1 (by simp), State.domState_setDom_same _ _ _⟩

/-! ### DCMD_STOP and DCMD_WAKE -/

theorem OnlyRegs.mono {s t : State} {l m : List Nat} (h : OnlyRegs s t l) (k : ∀ a ∈ l, a ∈ m) : OnlyRegs s t m :=
  ⟨h.rest, fun a ha => h.others a (fun ha' => ha (k a ha'))⟩

theorem OnlyRegs.withPower {s t : State} {l : List Nat} (h : OnlyRegs s t l) (p : PowerSt) :
    OnlyRegs { s with power := p } { t with power := p } l := ⟨congrArg (fun u : State => { u with power := p }) h.rest, h.others⟩

/-- RESULT in DCMD_STAT. -/
theorem fieldOf_result (r d : Nat) (hr : r < 128) : fieldOf (BitVec.ofNat 32 (2 * r + 65536 * d)) 1 7 = r := by
  simp only [fieldOf, BitVec.toNat_ofNat, Nat.shiftRight_eq_div_pow]
  omega

/-- A power command while a sequence runs or a wake is queued. -/
theorem exec_dcmd_busy {s : State} {i : Initiator} {g : Page} (h : MayWrite s i (pwq 0x40) g) (busy : s.pwrBusy = true) (v : W32) (x : Instr)
    (hx : x = .dcmdStop i v ∨ x = .dcmdWake i v ∨ x = .dcmdReset i v) : exec x s = .next ((s.raise (pwq 0) 0).fire 0x301) := by
  obtain rfl | rfl | rfl := hx
  · rw [exec_dcmdStop h, State.writeDcmd_busy _ _ _ busy]
  · rw [exec_dcmdWake h, State.writeDcmd_busy _ _ _ busy]
  · rw [exec_dcmdReset h, State.writeDcmd_busy _ _ _ busy]

/-- DCMD_STOP that is accepted. -/
theorem exec_dcmdStop_accepted {s : State} {i : Initiator} {v : W32} {g : Page} (h : MayWrite s i (pwq 0x40) g) (free : s.pwrBusy = false)
    (hr : s.dcmdResult (fieldOf v 0 9) 1 = 0) :
    ∃ t, exec (.dcmdStop i v) s = .next t ∧ t.power.seq = some (.stop (fieldOf v 0 9)) ∧ t.domState (fieldOf v 0 9) = 2
      ∧ OnlyRegs { s with power := t.power } t [pwq 0x44, dstat (fieldOf v 0 9)] ∧ t.fld (pwq 0x44) 1 7 = 0 := by
  have hd : fieldOf v 0 9 < 512 := fieldOf_lt v 0 9
  rw [exec_dcmdStop h, State.writeDcmd_accepted s _ 1 v free (by decide) hr, if_pos rfl]
  refine ⟨_, rfl, rfl, State.domState_setDom_same _ _ _, ?_, ?_⟩
  · exact ((OnlyRegs.setNat s _ (by simp)).withPower _).trans (OnlyRegs.setDom _ 2 (by simp))
  · have status := fieldOf_result 0 (fieldOf v 0 9) (by decide)
    rw [Nat.mul_zero, Nat.zero_add] at status
    rw [State.fld, State.reg_setDom_other _ _ _ _ (pwq_ne_dstat hd)]
    exact (congrArg (fun w => fieldOf w 1 7) (State.reg_setReg_same s _ _)).trans status

/-- DCMD_STOP of a domain that is not in Run. -/
theorem exec_dcmdStop_notRun {s : State} {i : Initiator} {v : W32} {g : Page} (h : MayWrite s i (pwq 0x40) g) (free : s.pwrBusy = false)
    (hr : s.dcmdResult (fieldOf v 0 9) 1 = 1) :
    ∃ t, exec (.dcmdStop i v) s = .next t ∧ t.power = s.power ∧ t.fld (pwq 0x44) 1 7 = 1 ∧ t.bit (pwq 0x14) 0 = true := by
  rw [exec_dcmdStop h, State.writeDcmd_refused s _ 1 v free (by decide) (by rw [hr]; decide), hr]
  refine ⟨_, rfl, ?_, ?_, ?_⟩
  · rw [State.fire_power, State.raise_power, State.setNat_power]
  · rw [State.fld_congr (State.reg_congr (State.fire_regs _ _) _), State.fld_congr (State.reg_raise _ _ _ _ _ (by decide) (by decide)), State.fld,
      State.reg_setNat, if_pos rfl]
    exact fieldOf_result 1 _ (by decide)
  · rw [State.bit_congr (State.reg_congr (State.fire_regs _ _) _)]
    exact State.bit_raise pageOf_pwq rfl _ _ _ (by decide)

/-- DCMD_WAKE that is accepted. -/
theorem exec_dcmdWake_accepted {s : State} {i : Initiator} {v : W32} {g : Page} (h : MayWrite s i (pwq 0x40) g) (free : s.pwrBusy = false)
    (hr : s.dcmdResult (fieldOf v 0 9) 2 = 0) :
    ∃ t ch, exec (.dcmdWake i v) s = .next t ∧ t.power.seq = some (.wake ch (fieldOf v 0 9) 1 true) ∧ WakesAll s ch (fieldOf v 0 9)
      ∧ OnlyRegs { s with power := t.power } t [pwq 0x44, dstat (ch.headD (fieldOf v 0 9))] ∧ t.domState (ch.headD (fieldOf v 0 9)) = 1 := by
  rw [exec_dcmdWake h, State.writeDcmd_accepted s _ 2 v free (by decide) hr, if_neg (by decide), if_pos rfl]
  have same : ∀ k, k < 296 → (s.setNat (pwq 0x44) (65536 * fieldOf v 0 9)).domState k = s.domState k := fun k hk =>
    State.domState_setNat _ _ _ _ (pwq_ne_dstat (by omega)).symm
  obtain ⟨power, regs, waking⟩ := (s.setNat (pwq 0x44) (65536 * fieldOf v 0 9)).startWake_spec (fieldOf v 0 9) 1 true
  rw [State.wakeChain_congr same] at power regs waking
  refine ⟨_, _, rfl, congrArg PowerSt.seq power, s.wakesAll_wakeChain _, ?_, waking⟩
  exact ((OnlyRegs.setNat s _ (by simp)).withPower _).trans (regs.mono (by simp))

end Sys2Proof.Machine
end

section
/-! ## Resets of cells, benches and cabinets (17 R485, R486)

A reset of a domain marks it in DSTAT and gives its image up; of a domain in Run it resets the pages and units too.  Of the registers of the
AOC it changes DSTAT alone, and a locked page stays locked. -/

namespace Sys2Proof.Machine

/-! ### The frame of a reset -/

/-- From `s` to `t` the domains `e` may have been reset: of the registers of the AOC only their DSTAT changed, error bits aside, and of the images
theirs alone. -/
structure Resets (e : List Nat) (s t : State) : Prop where
  high : ∀ a, 117440512 ≤ a → a % 4096 ≠ 0x14 → a % 4096 ≠ 0x20 → (∀ d ∈ e, a ≠ dstat d) → t.reg a = s.reg a
  images : ∀ k, k ∉ e → SMap.get none t.power.images k = SMap.get none s.power.images k

theorem Resets.refl (e : List Nat) (s : State) : Resets e s s := ⟨fun _ _ _ _ _ => rfl, fun _ _ => rfl⟩

theorem Resets.trans {e : List Nat} {s t u : State} (h : Resets e s t) (k : Resets e t u) : Resets e s u :=
  ⟨fun a h1 h2 h3 h4 => (k.high a h1 h2 h3 h4).trans (h.high a h1 h2 h3 h4), fun d hd => (k.images d hd).trans (h.images d hd)⟩

theorem Resets.mono {e f : List Nat} {s t : State} (h : Resets e s t) (k : ∀ d ∈ e, d ∈ f) : Resets f s t :=
  ⟨fun a h1 h2 h3 h4 => h.high a h1 h2 h3 (fun d hd => h4 d (k d hd)), fun d hd => h.images d (fun hd' => hd (k d hd'))⟩

theorem Resets.of_eq {e : List Nat} {s t : State} (hr : t.regs = s.regs) (hp : t.power.images = s.power.images) : Resets e s t :=
  ⟨fun a _ _ _ _ => State.reg_congr hr a, fun _ _ => by rw [hp]⟩

theorem Resets.foldl {α : Type} {e : List Nat} {f : State → α → State} {l : List α} (h : ∀ s, ∀ x ∈ l, Resets e s (f s x)) (s : State) :
    Resets e s (l.foldl f s) := by
  induction l generalizing s with
  | nil => exact Resets.refl e s
  | cons x l ih => exact (h s x (by simp)).trans (ih (fun s y hy => h s y (by simp [hy])) _)

theorem Resets.raise (e : List Nat) (s : State) (b k : Nat) (q : Option PartId) : Resets e s (s.raise b k q) :=
  ⟨fun _ _ h2 h3 _ => State.reg_raise _ _ _ _ _ h2 h3, fun _ _ => by rw [State.raise_power]⟩

/-! ### Locks (00 R5) -/

/-- From `s` to `t` every page keeps LOCK. -/
def KeepsLocks (s t : State) : Prop := ∀ a, a % 4096 = 0xC → t.bit a 2 = s.bit a 2

theorem KeepsLocks.refl (s : State) : KeepsLocks s s := fun _ _ => rfl

theorem KeepsLocks.trans {s t u : State} (h : KeepsLocks s t) (k : KeepsLocks t u) : KeepsLocks s u := fun a ha => (k a ha).trans (h a ha)

theorem KeepsLocks.of_eq {s t : State} (h : t.regs = s.regs) : KeepsLocks s t := fun a _ => State.bit_congr (State.reg_congr h a) 2

theorem KeepsLocks.setReg (s : State) (a : Nat) (v : W32) (h : a % 4096 ≠ 0xC) : KeepsLocks s (s.setReg a v) := fun b hb =>
  State.bit_congr (State.reg_setReg_other _ _ _ _ (by rintro rfl; exact h hb)) 2

theorem KeepsLocks.raise (s : State) (b k : Nat) (q : Option PartId) : KeepsLocks s (s.raise b k q) := fun _ ha =>
  State.bit_congr (State.reg_raise _ _ _ _ _ (by omega) (by omega)) 2

/-- LOCK is 0 after reset. -/
theorem bitOf_resetValue_lock {a : Nat} (h : a % 4096 = 0xC) : bitOf (resetValue a) 2 = false := by
  unfold resetValue
  split
  · exact bitOf_zero 32 2
  · rename_i p _
    have plain : p.resetOver 0xC = none := by
      rw [Page.resetOver, if_neg (by decide), if_neg (by decide)]
      split <;> simp
    have row : p.row 0xC = some { off := 0x00C, rst := 1, rw := 1, w1s := 4 } := rfl
    simp only [h, plain, row]
    decide

/-- What a page that is locked keeps of PG_CTL, and that one that is not locked keeps nothing. -/
theorem lockedReg_pgCtl (look : Nat → W32) {a : Nat} {p : Page} (there : pageOf a = some p) (h : a % 4096 = 0xC) (v : W32) :
    lockedReg look (a, v) = if bitOf (look a) 2 = true ∧ bitOf v 2 = true then some (a, (resetValue a &&& ~~~4) ||| (v &&& 4)) else none := by
  have row : p.row 0xC = some { off := 0x00C, rst := 1, rw := 1, w1s := 4 } := rfl
  have ctl : a / 4096 * 4096 + 0xC = a := by omega
  have four : ∀ k, bitOf (4 : W32) k = decide (k = 2) := by
    intro k; rw [bitOf, show (4 : W32).toNat = 2 ^ 2 from rfl, Nat.testBit_two_pow]; simp [eq_comm]
  have kept : ∀ k, k < 32 → bitOf ((resetValue a &&& ~~~4) ||| (v &&& 4)) k = if k = 2 then bitOf v 2 else bitOf (resetValue a) k := by
    intro k k32
    rw [bitOf_or, bitOf_and, bitOf_and, bitOf_not, four]
    by_cases k2 : k = 2
    · subst k2; simp
    · simp [k2, k32]
  have changed : (resetValue a &&& ~~~4) ||| (v &&& 4) ≠ resetValue a ↔ bitOf v 2 = true := by
    constructor
    · intro ne
      by_contra v2
      refine ne (eq_of_bitOf (fun k k32 => ?_))
      rw [kept k k32]
      split
      · subst_vars; rw [bitOf_resetValue_lock h]; simpa using v2
      · rfl
    · intro v2 same
      have bit := kept 2 (by decide)
      rw [same, bitOf_resetValue_lock h, if_pos rfl, v2] at bit
      cases bit
  simp only [lockedReg, there, Option.bind_some, h, row, ctl, if_true, Bool.and_eq_true, decide_eq_true_eq]
  exact if_congr (and_congr_right fun _ => changed) rfl rfl

/-- A read of a map some of whose entries at a key go, and all others at it get a value of their own. -/
theorem SMap.get_filterMap_at {α : Type} (d : α) (f : Nat × α → Option (Nat × α)) (hf : ∀ r q, f r = some q → q.1 = r.1) (P : α → Prop) (k : Nat)
    (hd : P d) (hk : ∀ v q, f (k, v) = some q → P q.2) (m : SMap α) : P (SMap.get d (m.filterMap f) k) := by
  induction m with
  | nil => exact hd
  | cons r m ih =>
    obtain ⟨j, v⟩ := r
    rw [List.filterMap_cons]
    split
    · exact ih
    · rename_i q hq
      obtain ⟨i, w⟩ := q
      obtain rfl : i = j := hf _ _ hq
      rw [SMap.get]
      split
      · subst_vars; exact hk v _ hq
      · exact ih

/-- The same where the first of them stays, with `P` of it. -/
theorem SMap.get_filterMap_first {α : Type} (d : α) (f : Nat × α → Option (Nat × α)) (hf : ∀ r q, f r = some q → q.1 = r.1) (P Q : α → Prop)
    (k : Nat) (hd : ¬Q d) (hk : ∀ v, Q v → ∃ w, f (k, v) = some (k, w) ∧ P w) (m : SMap α) (h : Q (SMap.get d m k)) :
    P (SMap.get d (m.filterMap f) k) := by
  induction m with
  | nil => exact absurd h hd
  | cons r m ih =>
    obtain ⟨j, v⟩ := r
    rw [SMap.get] at h
    by_cases e : j = k
    · subst e
      rw [if_pos rfl] at h
      obtain ⟨w, hw, pw⟩ := hk v h
      rw [List.filterMap_cons, hw]
      simpa [SMap.get] using pw
    · rw [if_neg e] at h
      rw [List.filterMap_cons]
      split
      · exact ih h
      · rename_i q hq
        obtain ⟨i, w⟩ := q
        obtain rfl : i = j := hf _ _ hq
        rw [SMap.get, if_neg e]
        exact ih h

theorem lockedReg_key (look : Nat → W32) (r q : Nat × W32) (h : lockedReg look r = some q) : q.1 = r.1 := by
  unfold lockedReg at h
  dsimp only at h
  split at h
  · cases h
  · obtain ⟨-, kept⟩ := Option.ite_none_right_eq_some.mp h
    cases kept; rfl

/-- What the reset of a page does to one listed register. -/
def resetEntry (s : State) (base : Nat) (r : Nat × W32) : Option (Nat × W32) :=
  if r.1 < base ∨ base + 0x1000 ≤ r.1 then some r else lockedReg s.reg r

theorem State.reg_resetPage (s : State) (base a : Nat) :
    (s.resetPage base).reg a = SMap.get (resetValue a) (s.regs.filterMap (resetEntry s base)) a := rfl

theorem resetEntry_key (s : State) (base : Nat) (r q : Nat × W32) (h : resetEntry s base r = some q) : q.1 = r.1 := by
  unfold resetEntry at h
  split at h
  · cases h; rfl
  · exact lockedReg_key _ _ _ h

theorem State.reg_resetPage_outside (s : State) (base a : Nat) (h : a < base ∨ base + 0x1000 ≤ a) : (s.resetPage base).reg a = s.reg a := by
  rw [State.reg_resetPage, State.reg]
  have key : ∀ l : SMap W32, SMap.get (resetValue a) (l.filterMap (resetEntry s base)) a = SMap.get (resetValue a) l a := by
    intro l
    induction l with
    | nil => rfl
    | cons r l ih =>
      obtain ⟨j, v⟩ := r
      rw [List.filterMap_cons]
      by_cases e : j = a
      · subst e; simp [resetEntry, h, SMap.get]
      · split
        · rw [ih, SMap.get, if_neg e]
        · rename_i q hq
          obtain ⟨i, w⟩ := q
          obtain rfl : i = j := resetEntry_key _ _ _ _ hq
          rw [SMap.get, SMap.get, if_neg e, if_neg e, ih]
  exact key s.regs

/-- A reset page that is locked stays locked, and one that is not stays open. -/
theorem KeepsLocks.resetPage (s : State) {base : Nat} {p : Page} (there : pageOf (base + 0xC) = some p) (hb : base % 4096 = 0) :
    KeepsLocks s (s.resetPage base) := by
  intro a ha
  by_cases out : a < base ∨ base + 0x1000 ≤ a
  · exact State.bit_congr (s.reg_resetPage_outside base a out) 2
  · obtain rfl : a = base + 0xC := by omega
    have entry : ∀ v, resetEntry s base (base + 0xC, v) = lockedReg s.reg (base + 0xC, v) := fun v => if_neg out
    rw [State.bit, State.reg_resetPage]
    by_cases lock : s.bit (base + 0xC) 2 = true
    · rw [lock]
      refine SMap.get_filterMap_first _ _ (resetEntry_key s base) (fun v => bitOf v 2 = true) (fun v => bitOf v 2 = true) (base + 0xC)
        (by rw [bitOf_resetValue_lock ha]; decide) (fun v hv => ⟨(resetValue (base + 0xC) &&& ~~~4) ||| (v &&& 4), ?_, ?_⟩) s.regs lock
      · rw [entry, lockedReg_pgCtl _ there ha, if_pos ⟨lock, hv⟩]
      · rw [bitOf_or, bitOf_and, bitOf_and, hv, show bitOf (4 : W32) 2 = true from by decide]; simp
    · rw [Bool.not_eq_true] at lock
      rw [lock]
      refine SMap.get_filterMap_at _ _ (resetEntry_key s base) (fun v => bitOf v 2 = false) (base + 0xC) (bitOf_resetValue_lock ha)
        (fun v q hq => ?_) s.regs
      rw [entry, lockedReg_pgCtl _ there ha, if_neg (by rintro ⟨l, -⟩; rw [State.bit] at lock; rw [lock] at l; cases l)] at hq
      cases hq

/-! ### The pages of a domain -/

theorem pageOf_pageBase {c b p o : Nat} (hc : c < 16) (hb : b < 256) (hp : p < 16) (ho : o < 4096) :
    pageOf (pageBase c b p + o) = (pageKindAt c b p).map (fun x => ⟨x.1, x.2, c, b, p⟩) := by
  have cab : natField (pageBase c b p + o) 24 4 = c := by
    simp only [natField, pageBase, pageNo, Nat.shiftRight_eq_div_pow]; omega
  have block : natField (pageBase c b p + o) 16 8 = b := by
    simp only [natField, pageBase, pageNo, Nat.shiftRight_eq_div_pow]; omega
  have page : natField (pageBase c b p + o) 12 4 = p := by
    simp only [natField, pageBase, pageNo, Nat.shiftRight_eq_div_pow]; omega
  simp only [pageOf, cab, block, page]
  cases pageKindAt c b p <;> rfl

/-- A cell has its core's page and its debug page. -/
theorem pageOf_corePages {d p o : Nat} (hd : d < 192) (hp : p < 2) (ho : o < 4096) : ∃ g, pageOf (pageBase (d / 48) (0x40 + d % 48) p + o) = some g := by
  have kind : ∃ x, pageKindAt (d / 48) (0x40 + d % 48) p = some x := by
    unfold pageKindAt computePage
    rw [if_neg (by omega), if_neg (by omega), if_neg (by omega), if_pos (by omega), if_neg (by omega), if_pos (by omega)]
    obtain rfl | rfl : p = 0 ∨ p = 1 := by omega
    · exact ⟨_, rfl⟩
    · exact ⟨_, rfl⟩
  obtain ⟨x, hx⟩ := kind
  exact ⟨_, by rw [pageOf_pageBase (by omega) (by omega) (by omega) ho, hx]; rfl⟩

theorem mem_domPages_core {d b : Nat} (hd : d < 192) (hb : b ∈ domPages d) :
    b = pageBase (d / 48) (0x40 + d % 48) 0 ∨ b = pageBase (d / 48) (0x40 + d % 48) 1 := by
  rw [domPages, if_pos hd, List.mem_cons, List.mem_singleton] at hb
  obtain rfl | rfl := hb
  · exact .inl rfl
  · right; simp only [corePage, pageBase, pageNo]; omega

/-- What a reset takes stands in a compute cabinet. -/
theorem domPages_compute {d b : Nat} (hb : b ∈ domPages d) : b + 0x1000 ≤ 67108864 := by
  have low : ∀ {c x p : Nat}, c < 4 → x < 256 → p < 16 → b = pageBase c x p → b + 0x1000 ≤ 67108864 := by
    intro c x p hc hx hp e; simp only [pageBase, pageNo] at e; omega
  by_cases cell : d < 192
  · obtain h | h := mem_domPages_core cell hb <;> exact low (by omega) (by omega) (by omega) h
  · rw [domPages, if_neg cell] at hb
    split at hb
    · obtain ⟨p, hp, h⟩ := List.mem_map.mp hb
      rw [List.mem_range] at hp
      exact low (by omega) (by omega) (by omega) h.symm
    · split at hb
      · have ctl : cabCtl (d - 264) 0 = pageBase (d - 264) 0 0 := Nat.add_zero _
        simp only [ctl, List.mem_append, List.mem_cons, List.not_mem_nil, or_false, List.mem_map, List.mem_range, @eq_comm _ _ b] at hb
        have cab : d - 264 < 4 := by omega
        obtain ((h | h | h) | ⟨p, hp, h⟩) | h | h | h | h | h | h := hb <;> exact low cab (by omega) (by omega) h
      · simp at hb

theorem Resets.resetPage (e : List Nat) (s : State) {b : Nat} (h : b + 0x1000 ≤ 67108864) : Resets e s (s.resetPage b) :=
  ⟨fun _ h1 _ _ _ => s.reg_resetPage_outside _ _ (.inr (by omega)), fun _ _ => rfl⟩

/-! ### One domain (17 R486) -/

/-- No wake of the domain is queued any more. -/
def State.dropWakes (s : State) (d : Nat) : State := { s with power := { s.power with wakeq := s.power.wakeq.filter (· ≠ d) } }

/-- The first half of the reset of a domain: no wake of it is queued, its image is given up, a cell's pair is broken, and DSTAT tells. -/
def State.resetMark (s : State) (d rkind : Nat) : State :=
  let s := (s.dropWakes d).dropImage d
  let s := if d < 192 then s.breakPair d else s
  (s.setBit (dstat d) 2 false).setFld (dstat d) 12 3 rkind

/-- The second half, of a domain in Run: its pages and units. -/
def State.resetUnits (s : State) (d : Nat) : State :=
  let s := (domPages d).foldl (fun s b => s.resetPage b) s
  let s := if d < 192 then (s.freshCore d).dropFills d else s
  let s := if 192 ≤ d ∧ d < 216 then s.dropBenchCaches (d - 192) else s
  let s := (domStools d).foldl (fun s k => s.setStool k { sram := (s.stool k).sram }) s
  let s := s.dropNet d
  let s := if 264 ≤ d ∧ d < 268 then s.setDvfs (d - 264) none else s
  if 264 ≤ d ∧ d < 271 then s.startReceiver (d - 264) else s

theorem State.resetDomain_eq (s : State) (d rkind : Nat) :
    s.resetDomain d rkind
      = if (s.resetMark d rkind).domState d = 3 then ((s.resetMark d rkind).resetUnits d).setFld (dstat d) 4 4 4 else s.resetMark d rkind := rfl

theorem State.breakPair_frame (s : State) (n : Nat) : (∀ e, Resets e s (s.breakPair n)) ∧ KeepsLocks s (s.breakPair n) := by
  have logOut : ∀ (t : State) (m : Nat), (∀ e, Resets e t (t.logOut m)) ∧ KeepsLocks t (t.logOut m) := by
    intro t m
    unfold State.logOut
    split
    · exact ⟨fun e => (Resets.of_eq (State.updBunk_regs _ _ _) (congrArg PowerSt.images (State.updBunk_power _ _ _))).trans (Resets.raise e _ _ _ _),
        (KeepsLocks.of_eq (State.updBunk_regs _ _ _)).trans (KeepsLocks.raise _ _ _ _)⟩
    · exact ⟨fun e => Resets.refl e t, KeepsLocks.refl t⟩
  unfold State.breakPair
  extract_lets b
  split
  · exact ⟨fun e => Resets.refl e s, KeepsLocks.refl s⟩
  · split
    · exact ⟨fun e => Resets.trans (t := s.muteLog b.partner true) (Resets.of_eq rfl rfl) (Resets.raise e _ _ _ _),
        KeepsLocks.trans (t := s.muteLog b.partner true) (KeepsLocks.of_eq rfl) (KeepsLocks.raise _ _ _ _)⟩
    · obtain ⟨frame, locks⟩ := logOut (s.updBunk b.partner (fun q => { q with broken := true })) b.partner
      exact ⟨fun e => (Resets.of_eq (State.updBunk_regs _ _ _) (congrArg PowerSt.images (State.updBunk_power _ _ _))).trans (frame e),
        (KeepsLocks.of_eq (State.updBunk_regs _ _ _)).trans locks⟩

theorem State.dropImage_frame (s : State) (d : Nat) : Resets [d] s (s.dropImage d) ∧ (s.dropImage d).regs = s.regs
    ∧ SMap.get none (s.dropImage d).power.images d = none := by
  unfold State.dropImage
  split
  · rename_i h; exact ⟨Resets.refl _ s, rfl, h⟩
  · refine ⟨⟨fun _ _ _ _ _ => rfl, fun k hk => ?_⟩, rfl, ?_⟩
    · exact SMap.get_set_other none s.power.images d k none (by simpa using hk)
    · exact SMap.get_set_same none s.power.images d none

theorem Resets.setDstat {e : List Nat} (s : State) {d : Nat} (hd : d ∈ e) (v : W32) : Resets e s (s.setReg (dstat d) v) :=
  ⟨fun _ _ _ _ h => State.reg_setReg_other _ _ _ _ (h d hd), fun _ _ => rfl⟩

/-- DSTAT of a domain that a reset marked (17 R486). -/
def ResetMarked (t : State) (k r : Nat) : Prop := t.fld (dstat k) 12 3 = r ∧ t.bit (dstat k) 2 = false ∧ SMap.get none t.power.images k = none

theorem KeepsLocks.setDstat (s : State) {d : Nat} (hd : d < 512) (v : W32) : KeepsLocks s (s.setReg (dstat d) v) :=
  KeepsLocks.setReg s _ _ (by rw [dstat_eq]; omega)

theorem dstat_functional {d : Nat} (hd : d < 512) : 117440512 ≤ dstat d ∧ dstat d % 4096 ≠ 0x14 ∧ dstat d % 4096 ≠ 0x20 := by
  rw [dstat_eq]; omega

theorem State.resetMark_spec (s : State) {d r : Nat} (hd : d < 512) (hr : r < 8) :
    Resets [d] s (s.resetMark d r) ∧ KeepsLocks s (s.resetMark d r) ∧ ResetMarked (s.resetMark d r) d r
      ∧ (s.resetMark d r).domState d = s.domState d := by
  unfold State.resetMark
  extract_lets s1 s2
  obtain ⟨frame1, regs1, image1⟩ := (s.dropWakes d).dropImage_frame d
  have two : Resets [] s1 s2 ∧ KeepsLocks s1 s2 := by
    unfold s2; split
    · exact ⟨(s1.breakPair_frame d).1 [], (s1.breakPair_frame d).2⟩
    · exact ⟨Resets.refl _ _, KeepsLocks.refl _⟩
  obtain ⟨frame2, locks2⟩ := two
  have frame12 : Resets [d] s s2 := (Resets.trans (s := s) (t := s.dropWakes d) (Resets.of_eq rfl rfl) frame1).trans (frame2.mono (by simp))
  have locks12 : KeepsLocks s s2 := (KeepsLocks.of_eq regs1).trans locks2
  obtain ⟨high, f1, f2⟩ := dstat_functional hd
  have dstat2 : s2.reg (dstat d) = s.reg (dstat d) := (frame2.high _ high f1 f2 (by simp)).trans (State.reg_congr regs1 _)
  have images2 : SMap.get none s2.power.images d = none := (frame2.images d (by simp)).trans image1
  clear_value s2
  have word : ((s2.setBit (dstat d) 2 false).setFld (dstat d) 12 3 r).reg (dstat d) = putField (putBit (s.reg (dstat d)) 2 false) 12 3 r := by
    rw [State.reg_setFld, if_pos rfl, State.reg_setBit, if_pos rfl, dstat2]
  refine ⟨frame12.trans ((Resets.setDstat _ (by simp) _).trans (Resets.setDstat _ (by simp) _)),
    locks12.trans ((KeepsLocks.setDstat _ hd _).trans (KeepsLocks.setDstat _ hd _)), ⟨?_, ?_, images2⟩, ?_⟩
  · rw [State.fld, word, fieldOf_putField_same _ _ _ _ (by decide)]; exact Nat.mod_eq_of_lt hr
  · rw [State.bit, word, bitOf_putField_other _ _ _ _ _ (by decide) (by decide), bitOf_putBit_same _ _ _ (by decide)]
  · rw [State.domState, State.fld, word, fieldOf_putField_other _ _ _ _ _ _ (by decide) (by decide), fieldOf_putBit_other _ _ _ _ _ (by decide) (by decide)]
    rfl

/-- The pages of a domain at their reset values. -/
def State.resetPages (s : State) (d : Nat) : State := (domPages d).foldl (fun s b => s.resetPage b) s

theorem Resets.resetPages (s : State) (d : Nat) : Resets [] s (s.resetPages d) :=
  Resets.foldl (fun t _ hb => Resets.resetPage [] t (domPages_compute hb)) s

theorem KeepsLocks.resetPages (s : State) {d : Nat} (hd : d < 192) : KeepsLocks s (s.resetPages d) := by
  have page : ∀ (t : State) (p : Nat), p < 2 → KeepsLocks t (t.resetPage (pageBase (d / 48) (0x40 + d % 48) p)) := by
    intro t p hp
    obtain ⟨g, there⟩ := pageOf_corePages (o := 0xC) hd hp (by decide)
    exact KeepsLocks.resetPage t there (by simp [pageBase])
  have fold : ∀ (l : List Nat), (∀ b ∈ l, b ∈ domPages d) → ∀ t : State, KeepsLocks t (l.foldl (fun s b => s.resetPage b) t) := by
    intro l
    induction l with
    | nil => exact fun _ t => KeepsLocks.refl t
    | cons b l ih =>
      intro hl t
      refine KeepsLocks.trans ?_ (ih (fun x hx => hl x (by simp [hx])) _)
      obtain rfl | rfl := mem_domPages_core hd (hl b (by simp))
      · exact page t 0 (by decide)
      · exact page t 1 (by decide)
  exact fold _ (fun _ h => h) s

@[simp] theorem State.leaveDirs_regs (s : State) (b : Nat) : (s.leaveDirs b).regs = s.regs := by
  unfold State.leaveDirs
  refine foldl_keeps State.regs _ (fun _ _ => ?_) _ s
  rfl

@[simp] theorem State.leaveDirs_power (s : State) (b : Nat) : (s.leaveDirs b).power = s.power := by
  unfold State.leaveDirs
  refine foldl_keeps State.power _ (fun _ _ => ?_) _ s
  rfl

theorem State.startReceiver_regs (s : State) (c : Nat) : (s.startReceiver c).regs = (s.setNat (cmr c 0x44) (b2n s.armed)).regs := by
  unfold State.startReceiver
  extract_lets t
  split
  · exact foldl_keeps State.regs (fun t k => t.rejoinWindows (48 * c + k)) (fun _ _ => rfl) _ t
  · rfl

@[simp] theorem State.freshCore_regs (s : State) (n : Nat) : (s.freshCore n).regs = s.regs := by unfold State.freshCore; rw [State.setCore_regs]
@[simp] theorem State.freshCore_power (s : State) (n : Nat) : (s.freshCore n).power = s.power := by unfold State.freshCore; rw [State.setCore_power]
@[simp] theorem State.dropFills_regs (s : State) (n : Nat) : (s.dropFills n).regs = s.regs := rfl
@[simp] theorem State.dropFills_power (s : State) (n : Nat) : (s.dropFills n).power = s.power := rfl

@[simp] theorem State.dropNet_regs (s : State) (d : Nat) : (s.dropNet d).regs = s.regs := rfl

/-- The state with other caches in flight. -/
def State.withCoh (s : State) (c : CohSt) : State := { s with coh := c }

@[simp] theorem State.withCoh_regs (s : State) (c : CohSt) : (s.withCoh c).regs = s.regs := rfl
@[simp] theorem State.withCoh_power (s : State) (c : CohSt) : (s.withCoh c).power = s.power := rfl

theorem State.dropBenchCaches_eq (s : State) (b : Nat) : ∃ c, s.dropBenchCaches b = (((s.setL2 b {}).setEvb b []).leaveDirs b).withCoh c := ⟨_, rfl⟩

@[simp] theorem State.dropBenchCaches_regs (s : State) (b : Nat) : (s.dropBenchCaches b).regs = s.regs := by
  obtain ⟨c, h⟩ := s.dropBenchCaches_eq b
  rw [h, State.withCoh_regs, State.leaveDirs_regs]; rfl

@[simp] theorem State.dropBenchCaches_power (s : State) (b : Nat) : (s.dropBenchCaches b).power = s.power := by
  obtain ⟨c, h⟩ := s.dropBenchCaches_eq b
  rw [h, State.withCoh_power, State.leaveDirs_power]; rfl

theorem Resets.restart (e : List Nat) (s : State) (n : Nat) : Resets e s ((s.freshCore n).dropFills n) := by
  have hp : ((s.freshCore n).dropFills n).power = s.power := by rw [State.dropFills_power, State.freshCore_power]
  exact Resets.of_eq (by rw [State.dropFills_regs, State.freshCore_regs]) (by rw [hp])

/-- Of a domain in Run, the units beside its pages: what they lose is no register of the AOC and no image. -/
theorem Resets.resetUnits (s : State) (d : Nat) : Resets [] s (s.resetUnits d) := by
  unfold State.resetUnits
  extract_lets s1 s2 s3 s4 s5 s6
  have h1 : Resets [] s s1 := Resets.resetPages s d
  clear_value s1
  have h2 : Resets [] s1 s2 := by
    unfold s2; split
    · exact Resets.restart [] s1 d
    · exact Resets.refl _ _
  clear_value s2
  have h3 : Resets [] s2 s3 := by
    unfold s3; split
    · exact Resets.of_eq (s2.dropBenchCaches_regs _) (congrArg PowerSt.images (s2.dropBenchCaches_power _))
    · exact Resets.refl _ _
  clear_value s3
  have h4 : Resets [] s3 s4 := Resets.foldl (fun t k _ => Resets.of_eq (State.setStool_regs _ _ _) (congrArg PowerSt.images (State.setStool_power _ _ _))) s3
  clear_value s4
  have h5 : Resets [] s4 s5 := Resets.of_eq rfl rfl
  clear_value s5
  have h6 : Resets [] s5 s6 := by
    unfold s6; split
    · exact Resets.of_eq rfl rfl
    · exact Resets.refl _ _
  clear_value s6
  refine ((((h1.trans h2).trans h3).trans h4).trans h5).trans (h6.trans ?_)
  split
  · refine ⟨fun a high _ _ _ => ?_, fun _ _ => by rw [State.startReceiver_power]⟩
    rw [State.reg_congr (State.startReceiver_regs _ _), State.reg_setNat, if_neg]
    simp only [cmr, pageBase, pageNo]; omega
  · exact Resets.refl _ _

/-- Of a cell, besides its pages the core alone has registers, and it starts afresh. -/
theorem State.resetUnits_cell (s : State) {d : Nat} (hd : d < 192) :
    (s.resetUnits d).regs = (s.resetPages d).regs ∧ (s.resetUnits d).core d = { pc := BitVec.ofNat 64 ((s.resetPages d).reg64 (rts 0x4C)) } := by
  have stools : domStools d = [] := by rw [domStools, if_neg (by omega), if_neg (by omega)]
  have units : s.resetUnits d = (((s.resetPages d).freshCore d).dropFills d).dropNet d := by
    unfold State.resetUnits
    simp only [if_pos hd, stools, List.foldl_nil]
    rw [if_neg (by omega), if_neg (by omega), if_neg (by omega)]
    rfl
  rw [units]
  generalize s.resetPages d = t
  have cores : (((t.freshCore d).dropFills d).dropNet d).cores = (t.freshCore d).cores := rfl
  refine ⟨by rw [State.dropNet_regs, State.dropFills_regs, State.freshCore_regs], ?_⟩
  rw [State.core_congr cores, State.freshCore, State.core_setCore_same]

theorem State.reg64_congr {s t : State} {a : Nat} (h : t.reg a = s.reg a) (k : t.reg (a + 4) = s.reg (a + 4)) : t.reg64 a = s.reg64 a := by
  unfold State.reg64; rw [h, k]

/-- The reset vector is no business of a reset. -/
theorem Resets.rvbar {e : List Nat} {s t : State} (h : Resets e s t) (he : ∀ d ∈ e, d < 512) : t.reg64 (rts 0x4C) = s.reg64 (rts 0x4C) := by
  have apart : ∀ o, o < 4096 → ∀ d ∈ e, rts o ≠ dstat d := by
    intro o ho d hd
    have := he d hd
    simp only [rts, pageBase, pageNo, dstat_eq]; omega
  exact State.reg64_congr (h.high _ (by decide) (by decide) (by decide) (apart _ (by decide)))
    (h.high (rts 0x50) (by decide) (by decide) (by decide) (apart _ (by decide)))

/-- The reset of one domain. -/
theorem State.resetDomain_spec (s : State) {d r : Nat} (hd : d < 512) (hr : r < 8) :
    Resets [d] s (s.resetDomain d r) ∧ ResetMarked (s.resetDomain d r) d r := by
  obtain ⟨mark, -, marked, -⟩ := s.resetMark_spec hd hr
  rw [State.resetDomain_eq]
  split
  · have units := Resets.resetUnits (s.resetMark d r) d
    obtain ⟨high, f1, f2⟩ := dstat_functional hd
    have same := units.high (dstat d) high f1 f2 (by simp)
    refine ⟨(mark.trans (units.mono (by simp))).trans (Resets.setDstat _ (by simp) _), ?_⟩
    obtain ⟨kind, saved, image⟩ := marked
    have word : (((s.resetMark d r).resetUnits d).setFld (dstat d) 4 4 4).reg (dstat d) = putField ((s.resetMark d r).reg (dstat d)) 4 4 4 := by
      rw [State.reg_setFld, if_pos rfl, same]
    refine ⟨?_, ?_, (units.images d (by simp)).trans image⟩
    · rw [State.fld, word, fieldOf_putField_other _ _ _ _ _ _ (by decide) (by decide)]; exact kind
    · rw [State.bit, word, bitOf_putField_other _ _ _ _ _ (by decide) (by decide)]; exact saved
  · exact ⟨mark, marked⟩

/-- The reset of a cell in Run. -/
theorem State.resetDomain_runningCell (s : State) {d r : Nat} (hd : d < 192) (hr : r < 8) (run : s.domState d = 3) :
    (s.resetDomain d r).core d = { pc := BitVec.ofNat 64 (s.reg64 (rts 0x4C)) } ∧ (s.resetDomain d r).fld (dstat d) 4 4 = 4
      ∧ (s.resetDomain d r).domState d = 3 ∧ KeepsLocks s (s.resetDomain d r) := by
  obtain ⟨mark, locks, -, state⟩ := s.resetMark_spec (d := d) (by omega) hr
  rw [State.resetDomain_eq, if_pos (state.trans run)]
  obtain ⟨regs, core⟩ := (s.resetMark d r).resetUnits_cell hd
  obtain ⟨high, f1, f2⟩ := dstat_functional (d := d) (by omega)
  have vector : ((s.resetMark d r).resetPages d).reg64 (rts 0x4C) = s.reg64 (rts 0x4C) :=
    ((Resets.resetPages _ d).rvbar (by simp)).trans (mark.rvbar (by simp; omega))
  refine ⟨?_, State.fld_setFld_same _ _ _ _ _ (by decide), ?_, ?_⟩
  · rw [State.core_congr (State.setFld_cores _ _ _ _ _) d, core, vector]
  · rw [State.domState, State.fld, State.reg_setFld, if_pos rfl, fieldOf_putField_other _ _ _ _ _ _ (by decide) (by decide),
      (Resets.resetUnits _ d).high (dstat d) high f1 f2 (by simp)]
    exact state.trans run
  · exact ((locks.trans (KeepsLocks.resetPages _ hd)).trans (KeepsLocks.of_eq regs)).trans (KeepsLocks.setDstat _ (by omega) _)

/-! ### Several domains (17 R485) -/

theorem ResetMarked.of_resets {e : List Nat} {s t : State} {k r : Nat} (m : ResetMarked s k r) (h : Resets e s t) (hk : k < 512) (hne : k ∉ e) :
    ResetMarked t k r := by
  obtain ⟨kind, saved, image⟩ := m
  obtain ⟨high, f1, f2⟩ := dstat_functional hk
  have same := h.high (dstat k) high f1 f2 (fun d hd e' => hne (dstat_inj e' ▸ hd))
  exact ⟨(State.fld_congr same 12 3).trans kind, (State.bit_congr same 2).trans saved, (h.images k hne).trans image⟩

/-- Domains reset one after the other are all marked. -/
theorem State.resetAll_marked {r : Nat} (hr : r < 8) (l : List Nat) (hl : ∀ d ∈ l, d < 512) (s : State) :
    ∀ k ∈ l, ResetMarked (l.foldl (fun s d => s.resetDomain d r) s) k r := by
  have keeps : ∀ (l : List Nat) (s : State) (k : Nat), (∀ d ∈ l, d < 512) → k < 512 → k ∈ l ∨ ResetMarked s k r →
      ResetMarked (l.foldl (fun s d => s.resetDomain d r) s) k r := by
    intro l
    induction l with
    | nil => intro s k _ _ h; exact h.resolve_left (by simp)
    | cons d l ih =>
      intro s k hl hk h
      obtain ⟨frame, marked⟩ := s.resetDomain_spec (d := d) (r := r) (hl d (by simp)) hr
      refine ih _ k (fun x hx => hl x (by simp [hx])) hk ?_
      by_cases e : k = d
      · subst e; exact .inr marked
      · refine h.imp (fun m => ?_) (fun m => m.of_resets frame hk (by simpa using e))
        exact (List.mem_cons.mp m).resolve_left e
  exact fun k hk => keeps l s k hl (hl k hk) (.inl hk)

/-- The domains of a bench, and of a compute cabinet. -/
def benchDomains (b : Nat) : List Nat := (192 + b) :: (List.range 8).map (fun k => 8 * b + k)
def cabinetDomains (c : Nat) : List Nat := (264 + c) :: (List.range 6).flatMap (fun b => benchDomains (6 * c + b))

theorem State.resetBench_eq (s : State) (b r : Nat) : s.resetBench b r = (benchDomains b).foldl (fun s d => s.resetDomain d r) s := by
  rw [State.resetBench, benchDomains, List.foldl_cons, List.foldl_map]

theorem State.resetCabinet_eq (s : State) (c : Nat) : s.resetCabinet c = (cabinetDomains c).foldl (fun s d => s.resetDomain d 2) s := by
  rw [State.resetCabinet, cabinetDomains, List.foldl_cons, List.foldl_flatMap]
  simp only [State.resetBench_eq]

theorem benchDomains_lt {b : Nat} (hb : b < 24) : ∀ d ∈ benchDomains b, d < 512 := by
  simp only [benchDomains, List.mem_cons, List.mem_map, List.mem_range]
  rintro d (rfl | ⟨k, hk, rfl⟩) <;> omega

theorem mem_cabinetDomains {c k : Nat} :
    k ∈ cabinetDomains c ↔ k = 264 + c ∨ (192 + 6 * c ≤ k ∧ k < 198 + 6 * c) ∨ (48 * c ≤ k ∧ k < 48 * c + 48) := by
  simp only [cabinetDomains, benchDomains, List.mem_cons, List.mem_flatMap, List.mem_map, List.mem_range]
  refine or_congr_right ⟨?_, ?_⟩
  · rintro ⟨b, hb, rfl | ⟨j, hj, rfl⟩⟩ <;> omega
  · rintro (⟨lo, hi⟩ | ⟨lo, hi⟩)
    · exact ⟨k - 192 - 6 * c, by omega, .inl (by omega)⟩
    · exact ⟨k / 8 - 6 * c, by omega, .inr ⟨k % 8, by omega, by omega⟩⟩

end Sys2Proof.Machine
end

section
/-! ## Commands to the power controller (17 R466, R485): DCMD_RESET, CABINET_RESET, and all of them together -/

namespace Sys2Proof.Machine

/-- The controller page of a cabinet. -/
def cabCtlPage (c : Nat) : Page := ⟨.cabCtl, c, c, 0, 0⟩

theorem pageOf_cabCtl {c o : Nat} (hc : c < 8) (ho : o < 4096) : pageOf (cabCtl c o) = some (cabCtlPage c) := by
  have kind : pageKindAt c 0 0 = some (.cabCtl, c) := by
    rw [pageKindAt, if_neg (by omega), if_neg (by omega), if_pos (by decide)]; rfl
  rw [cabCtl, pageOf_pageBase (by omega) (by decide) (by decide) ho, kind]; rfl

/-- A permitted write of a register of a cabinet's controller. -/
theorem act_cabCtl {s : State} {i : Initiator} {c o : Nat} {g : Page} (hc : c < 8) (ho : o < 4096) (h : MayWrite s i (cabCtl c o) g) (v : W32) :
    act s (fun s => s.write4 i (cabCtl c o) v) = .next (s.writeReg (iniCode i) (s.partOf i) s.power.aon (cabCtlPage c) o v) := by
  obtain rfl : cabCtlPage c = g := Option.some.inj ((pageOf_cabCtl hc ho).symm.trans (State.pageOf_of_pageAt h.there))
  have offset : cabCtl c o % 4096 = o := by rw [cabCtl_eq]; omega
  rw [act_write4 h, offset]

theorem exec_cabinetReset {s : State} {i : Initiator} {c : Fin 8} {g : Page} (h : MayWrite s i (cabCtl c.val 0x4C) g) (v : W32) :
    exec (.cabinetReset i c v) s = .next (s.writeCrst c.val (v ||| 1)) := act_cabCtl c.isLt (by decide) h _

/-- DCMD_RESET of a cell in Run. -/
theorem exec_dcmdReset_cell {s : State} {i : Initiator} {v : W32} {g : Page} (h : MayWrite s i (pwq 0x40) g) (free : s.pwrBusy = false)
    (cell : fieldOf v 0 9 < 192) (run : s.domState (fieldOf v 0 9) = 3) :
    ∃ t, exec (.dcmdReset i v) s = .next t ∧ t.core (fieldOf v 0 9) = { pc := BitVec.ofNat 64 (s.reg64 (rts 0x4C)) }
      ∧ t.fld (dstat (fieldOf v 0 9)) 12 3 = 4 ∧ t.fld (dstat (fieldOf v 0 9)) 4 4 = 4 ∧ t.domState (fieldOf v 0 9) = 3
      ∧ ∀ p : Page, p.domain = some (fieldOf v 0 9) → t.bit (p.base + 0xC) 2 = s.bit (p.base + 0xC) 2 := by
  rw [exec_dcmdReset h, State.writeDcmd_accepted s _ 3 v free (by decide) (s.dcmdResult_reset _ (by omega)), if_neg (by decide),
    if_neg (by decide), if_pos cell]
  generalize fieldOf v 0 9 = d at *
  have state : (s.setNat (pwq 0x44) (65536 * d)).domState d = 3 := (State.domState_setNat _ _ _ _ (pwq_ne_dstat (by omega)).symm).trans run
  have vector : (s.setNat (pwq 0x44) (65536 * d)).reg64 (rts 0x4C) = s.reg64 (rts 0x4C) :=
    State.reg64_congr (State.reg_setReg_other _ _ _ _ (by decide)) (State.reg_setReg_other _ _ _ _ (by decide))
  obtain ⟨core, source, running, locks⟩ := (s.setNat (pwq 0x44) (65536 * d)).resetDomain_runningCell (r := 4) cell (by decide) state
  obtain ⟨kind, -, -⟩ := ((s.setNat (pwq 0x44) (65536 * d)).resetDomain_spec (d := d) (r := 4) (by omega) (by decide)).2
  rw [vector] at core
  have locked : KeepsLocks s ((s.setNat (pwq 0x44) (65536 * d)).resetDomain d 4) := (KeepsLocks.setReg s _ _ (by decide)).trans locks
  generalize (s.setNat (pwq 0x44) (65536 * d)).resetDomain d 4 = t at *
  have regs := State.fire_regs t 0x300
  refine ⟨_, rfl, (State.core_congr (State.fire_cores t _) d).trans core, (State.fld_congr (State.reg_congr regs _) _ _).trans kind,
    (State.fld_congr (State.reg_congr regs _) _ _).trans source, (State.fld_congr (State.reg_congr regs _) _ _).trans running, fun p _ => ?_⟩
  exact (State.bit_congr (State.reg_congr regs _) _).trans (locked _ (by have := p.base_mod; omega))

/-- DCMD_RESET of a bench. -/
theorem exec_dcmdReset_bench {s : State} {i : Initiator} {v : W32} {g : Page} (h : MayWrite s i (pwq 0x40) g) (free : s.pwrBusy = false)
    (lo : 192 ≤ fieldOf v 0 9) (hi : fieldOf v 0 9 < 216) :
    ∃ t, exec (.dcmdReset i v) s = .next t
      ∧ t = (((s.setNat (pwq 0x44) (65536 * fieldOf v 0 9)).resetBench (fieldOf v 0 9 - 192) 3).fire 0x300)
      ∧ t.fld (dstat (fieldOf v 0 9)) 12 3 = 3 := by
  rw [exec_dcmdReset h, State.writeDcmd_accepted s _ 3 v free (by decide) (s.dcmdResult_reset _ (by omega)), if_neg (by decide),
    if_neg (by decide), if_neg (by omega)]
  generalize fieldOf v 0 9 = d at *
  refine ⟨_, rfl, rfl, ?_⟩
  have own : d ∈ benchDomains (d - 192) := List.mem_cons.mpr (.inl (by omega))
  obtain ⟨kind, -, -⟩ := State.resetAll_marked (r := 3) (by decide) (benchDomains (d - 192)) (benchDomains_lt (by omega))
    (s.setNat (pwq 0x44) (65536 * d)) d own
  rw [← State.resetBench_eq] at kind
  exact (State.fld_congr (State.reg_congr (State.fire_regs _ _) _) _ _).trans kind

/-- CABINET_RESET while no sequence runs. -/
theorem exec_cabinetReset_idle {s : State} {i : Initiator} {c : Fin 8} {g : Page} (h : MayWrite s i (cabCtl c.val 0x4C) g) (v : W32)
    (hc : c.val < 4) (idle : s.power.seq = none) :
    exec (.cabinetReset i c v) s = .next (s.resetCabinet c.val)
      ∧ ∀ k, k ∈ cabinetDomains c.val → ResetMarked (s.resetCabinet c.val) k 2 := by
  have set0 : bitOf (v ||| 1) 0 = true := by rw [bitOf_or, show bitOf (1 : W32) 0 = true from by decide, Bool.or_true]
  have alone : s.seqIn c.val = false := by simp only [State.seqIn, idle]
  refine ⟨?_, fun k hk => ?_⟩
  · rw [exec_cabinetReset h]
    simp only [State.writeCrst, set0, alone]
    rw [if_neg (by decide), if_neg (by omega), if_neg (by decide)]
  · rw [State.resetCabinet_eq]
    refine State.resetAll_marked (by decide) _ (fun d hd => ?_) s k hk
    rw [mem_cabinetDomains] at hd
    omega

/-- The commands to the power controller are as the statement gives them. -/
theorem powerCommands : Rules.PowerCommands := by
  intro s i v g d free
  have busy : s.pwrBusy = false ↔ free := s.pwrBusy_eq_false
  refine ⟨fun h => ⟨fun nfree x hx => ?_, fun hf hd run kids empty unbound => ?_, fun hf hd run => ?_, fun hf hd stop => ?_,
    fun hf hd run => ?_, fun hf lo hi => ?_⟩, fun c h => ⟨fun hc => ?_, fun hc idle => ?_⟩⟩
  · exact exec_dcmd_busy h (by rwa [← Bool.not_eq_false, busy]) v x hx
  · exact exec_dcmdStop_accepted h (busy.mpr hf) (s.dcmdResult_stop d hd run kids empty unbound)
  · exact exec_dcmdStop_notRun h (busy.mpr hf) (s.dcmdResult_stop_notRun d hd run)
  · exact exec_dcmdWake_accepted h (busy.mpr hf) (s.dcmdResult_wake d hd stop)
  · exact exec_dcmdReset_cell h (busy.mpr hf) hd run
  · exact exec_dcmdReset_bench h (busy.mpr hf) lo hi
  · rw [exec_cabinetReset h]
    have set0 : bitOf (v ||| 1) 0 = true := by rw [bitOf_or, show bitOf (1 : W32) 0 = true from by decide, Bool.or_true]
    simp only [State.writeCrst, set0]
    rw [if_neg (by decide), if_pos hc]
  · obtain ⟨done, marked⟩ := exec_cabinetReset_idle h v hc idle
    exact ⟨_, done, rfl, fun k hk => marked k (mem_cabinetDomains.mpr hk)⟩

end Sys2Proof.Machine
end

section
/-! ## A domain that stops (17 R466-R468, R475, R476)

What the flush of its caches and the loss of its power leave alone, and the end of its sequence. -/

namespace Sys2Proof.Machine

/-! ### The power controller is no part of what a domain loses -/

/-- The state with another memory. -/
def State.withMem (s : State) (m : MemSt) : State := { s with mem := m }

/-- The state with another number of values drawn. -/
def State.withFresh (s : State) (n : Nat) : State := { s with fresh := n }

@[simp] theorem State.withFresh_power (s : State) (n : Nat) : (s.withFresh n).power = s.power := rfl
@[simp] theorem State.withMem_power (s : State) (m : MemSt) : (s.withMem m).power = s.power := rfl

@[simp] theorem State.bumpMinor_power (s : State) (m l b i : Nat) : (s.bumpMinor m l b i).power = s.power := by
  unfold State.bumpMinor
  extract_lets
  split
  · rw [State.count_power, State.setBit_power]
  · rfl

@[simp] theorem State.ctrTouch_power (fuel : Nat) (s : State) (m l b : Nat) (dirty : Bool) : (s.ctrTouch m l b dirty fuel).power = s.power := by
  induction fuel generalizing s l b dirty with
  | zero => rfl
  | succ fuel ih =>
    rw [State.ctrTouch]
    extract_lets _ t1 t2 c out _ t3
    split
    · rfl
    · have h1 : t1.power = s.power := State.count_power _ _ _
      have h2 : t2.power = t1.power := by
        unfold t2; split
        · rw [ih]
        · rfl
      have h3 : t3.power = t2.power := rfl
      clear_value t3
      refine (foldl_keeps State.power _ (fun t e => ?_) out t3).trans (h3.trans (h2.trans h1))
      split
      · extract_lets lv bl
        split
        · rw [ih, State.bumpMinor_power]
        · exact State.bumpMinor_power _ _ _ _ _
      · rfl

@[simp] theorem State.ctrFlush_power (s : State) (m : Nat) : (s.ctrFlush m).power = s.power := by
  have line : ∀ (lv : Nat) (t : State) (e : Nat × Bool), (let bl := e.1 % 1048576
      if lv < 2 then (t.bumpMinor m (lv + 1) (bl / 64) (bl % 64)).ctrTouch m (lv + 1) (bl / 64) true 8 else t.bumpMinor m 3 0 bl).power = t.power := by
    intro lv t e
    extract_lets bl
    split
    · rw [State.ctrTouch_power, State.bumpMinor_power]
    · exact State.bumpMinor_power _ _ _ _ _
  obtain ⟨x, hx⟩ : ∃ x, s.ctrFlush m = State.withMem ((List.range 3).foldl
    (fun (s : State) lv =>
      ((SMap.get [] s.mem.ctrCache m).filter (fun e => e.2 && e.1 / 1048576 = lv)).foldl
        (fun (s : State) e =>
          let bl := e.1 % 1048576
          if lv < 2 then (s.bumpMinor m (lv + 1) (bl / 64) (bl % 64)).ctrTouch m (lv + 1) (bl / 64) true 8 else s.bumpMinor m 3 0 bl) s) s) x := ⟨_, rfl⟩
  rw [hx, State.withMem_power]
  exact foldl_keeps State.power _ (fun t lv => foldl_keeps State.power _ (line lv) _ t) _ s

@[simp] theorem State.eccWrite_power (s : State) (b c u k : Nat) (w : Bool) : (s.eccWrite b c u k w).power = s.power := by
  unfold State.eccWrite
  extract_lets _ s1
  have h1 : s1.power = s.power := by unfold s1; split <;> rfl
  exact ((ViaCaches.taint _ b u k).power.trans (ViaCaches.taint s1 b c k).power).trans h1

@[simp] theorem State.dropNet_power (s : State) (d : Nat) : (s.dropNet d).power = s.power := rfl
@[simp] theorem State.dropSlice_power (s : State) (k : Nat) : (s.dropSlice k).power = s.power := rfl

@[simp] theorem State.blankStool_power (s : State) (k : Nat) : (s.blankStool k).power = s.power := by
  obtain ⟨x, y, h⟩ : ∃ x y, s.blankStool k = (s.setStool k x).withFresh y := ⟨_, _, rfl⟩
  rw [h, State.withFresh_power, State.setStool_power]

@[simp] theorem State.dropUnit_power (s : State) (d : Nat) : (s.dropUnit d).power = s.power := by
  unfold State.dropUnit
  extract_lets te m s1 i s2
  split_ifs
  · rfl
  · rfl
  · rfl
  · split
    · rw [State.setBit_power]
    · rfl
  · rfl
  · rfl
  · rfl

@[simp] theorem State.powerOff_power (s : State) (d : Nat) : (s.powerOff d).power = s.power := by
  unfold State.powerOff
  extract_lets s1 s2 s3 s4 _ s5
  have h1 : s1.power = s.power := rfl
  clear_value s1
  have h2 : s2.power = s1.power := by
    unfold s2; split
    · rw [State.dropFills_power, State.setCore_power]
    · rfl
  clear_value s2
  have h3 : s3.power = s2.power := by
    unfold s3; split
    · refine foldl_keeps State.power _ (fun _ _ => ?_) _ s2
      rfl
    · rfl
  clear_value s3
  have h4 : s4.power = s3.power := by
    unfold s4; split_ifs
    · exact State.dropBenchCaches_power _ _
    · exact State.dropSlice_power _ _
    · rfl
  clear_value s4
  have h5 : s5.power = s4.power := rfl
  clear_value s5
  rw [State.dropNet_power, State.dropUnit_power, foldl_keeps State.power _ State.blankStool_power, h5, h4, h3, h2, h1]

/-- A cell without power has an empty core. -/
theorem State.powerOff_core (s : State) {d : Nat} (hd : d < 192) : (s.powerOff d).core d = {} := by
  have stools : domStools d = [] := by rw [domStools, if_neg (by omega), if_neg (by omega)]
  have unit : ∀ t : State, t.dropUnit d = t := by
    intro t
    unfold State.dropUnit
    dsimp only
    rw [if_neg (by omega), if_neg (by omega), if_neg (by omega), if_neg (by omega), if_neg (by omega), if_neg (by omega)]
  unfold State.powerOff
  extract_lets s1 s2 s3 s4 _ s5
  have h2 : s2.core d = {} := by
    unfold s2; rw [if_pos hd]; exact (State.core_congr rfl d).trans (State.core_setCore_same s1 d {})
  have h3 : s3 = s2 := if_neg (by omega)
  have h4 : s4 = s3 := by unfold s4; rw [if_neg (by omega), if_neg (by omega)]
  have h5 : s5.core d = {} := (State.core_congr rfl d).trans ((congrArg (fun t => t.core d) (h4.trans h3)).trans h2)
  clear_value s5
  rw [stools, List.foldl_nil, unit]
  exact (State.core_congr rfl d).trans h5

/-! ### STOP_SEQUENCE_DONE (17 R468) -/

/-- What a domain writes back before its image is taken: a cell its L1 caches, a memory controller its counter cache. -/
def State.stopFlush (s : State) (d : Nat) : State :=
  if d < 192 then s.flushL1 d
  else if 248 ≤ d ∧ d < 264 then
    let t := s.ctrFlush (d - 248)
    (t.setBit (ipe (d - 248) 0x44) 2 false).withMem { t.mem with selfRefresh := insertOnce (d - 248) t.mem.selfRefresh }
  else s

/-- The domain without power, its image kept and its sequence over. -/
def State.stopOff (s : State) (d : Nat) (img : Image) : State :=
  let s := (s.eccWrite chs 0 1 (chestImage d) true).powerOff d
  (({ s with power := { s.power with seq := none, selfLeft := 0, images := SMap.set none s.power.images d (some img) } } : State).setDom d 0).setBit
    (dstat d) 2 true

/-- What follows: a compute cabinet's supply is lowered, and a cell's image may wake it at once. -/
def State.stopEnd (s : State) (d : Nat) : State :=
  let s := if 264 ≤ d ∧ d < 268 then s.pmicWrite (d - 264) 550 else s
  if d < 192 then s.checkImage d else s

theorem stopDone_eq (s : State) {d : Nat} (seq : s.power.seq = some (.stop d)) (idle : s.domWorks d = false) :
    stopDone d s = (((s.stopFlush d).stopOff d ((s.stopFlush d).imageOf d)).fire 0x300).stopEnd d := by
  have go : ¬((d ≠ d || s.domWorks d) = true) := by simp [idle]
  unfold stopDone
  simp only [seq]
  rw [if_neg go]
  rfl

theorem State.stopEnd_rest (s : State) (d : Nat) :
    ∃ p w, s.stopEnd d = { s with power := { s.power with pmic := p, wakeq := w } } := by
  have pmic : ∀ (t : State) (c mv : Nat), ∃ p, t.pmicWrite c mv = { t with power := { t.power with pmic := p } } := by
    intro t c mv
    unfold State.pmicWrite
    dsimp only
    split
    · exact ⟨_, rfl⟩
    · exact ⟨_, rfl⟩
  have image : ∀ t : State, ∃ w, t.checkImage d = { t with power := { t.power with wakeq := w } } := by
    intro t
    unfold State.checkImage
    split
    · split
      · exact ⟨_, rfl⟩
      · exact ⟨_, rfl⟩
    · exact ⟨_, rfl⟩
  unfold State.stopEnd
  dsimp only
  by_cases cell : d < 192
  · rw [if_pos cell, if_neg (by omega)]
    obtain ⟨w, h⟩ := image s
    exact ⟨s.power.pmic, w, h⟩
  · rw [if_neg cell]
    split
    · obtain ⟨p, h⟩ := pmic s (d - 264) 550
      exact ⟨p, s.power.wakeq, h⟩
    · exact ⟨_, _, rfl⟩

theorem State.stopFlush_power (s : State) (d : Nat) : (s.stopFlush d).power = s.power := by
  unfold State.stopFlush
  split
  · exact (ViaCaches.flushL1 s d).power
  · split
    · rw [State.withMem_power, State.setBit_power, State.ctrFlush_power]
    · rfl

theorem State.stopOff_spec (s : State) (d : Nat) (img : Image) :
    (s.stopOff d img).power = { s.power with seq := none, selfLeft := 0, images := SMap.set none s.power.images d (some img) }
      ∧ (s.stopOff d img).domState d = 0 ∧ (s.stopOff d img).bit (dstat d) 2 = true ∧ (d < 192 → (s.stopOff d img).core d = {}) := by
  have power : ((s.eccWrite chs 0 1 (chestImage d) true).powerOff d).power = s.power := by rw [State.powerOff_power, State.eccWrite_power]
  have core : d < 192 → ((s.eccWrite chs 0 1 (chestImage d) true).powerOff d).core d = {} := State.powerOff_core _
  unfold State.stopOff
  dsimp only
  generalize (s.eccWrite chs 0 1 (chestImage d) true).powerOff d = t at *
  refine ⟨?_, ?_, State.bit_setBit_same _ _ _ _ (by decide), fun cell => ?_⟩
  · rw [State.setBit_power, State.setDom_power, power]
  · rw [State.domState, State.fld, State.reg_setBit, if_pos rfl, fieldOf_putBit_other _ _ _ _ _ (by decide) (by decide)]
    exact State.domState_setDom_same _ d 0
  · exact (State.core_congr rfl d).trans (core cell)

/-- The end of a stop. -/
theorem stopDone_spec (s : State) {d : Nat} (seq : s.power.seq = some (.stop d)) (idle : s.domWorks d = false) :
    (stopDone d s).power.seq = none ∧ (stopDone d s).power.crst = s.power.crst ∧ (stopDone d s).domState d = 0
      ∧ (stopDone d s).bit (dstat d) 2 = true
      ∧ SMap.get none (stopDone d s).power.images d = some ((s.stopFlush d).imageOf d) ∧ (d < 192 → (stopDone d s).core d = {}) := by
  obtain ⟨power, stop, saved, core⟩ := (s.stopFlush d).stopOff_spec d ((s.stopFlush d).imageOf d)
  rw [State.stopFlush_power] at power
  rw [stopDone_eq s seq idle]
  generalize (s.stopFlush d).imageOf d = img at *
  generalize (s.stopFlush d).stopOff d img = t at *
  obtain ⟨p, w, rest⟩ := (t.fire 0x300).stopEnd_rest d
  rw [rest]
  have regs : ∀ a, ({ t.fire 0x300 with power := { (t.fire 0x300).power with pmic := p, wakeq := w } } : State).reg a = t.reg a := fun _ => rfl
  refine ⟨(congrArg PowerSt.seq power :), (congrArg PowerSt.crst power :), (State.domState_congr (regs _)).trans stop, (State.bit_congr (regs _) 2).trans saved,
    ?_, fun cell => (State.core_congr rfl d).trans (core cell)⟩
  exact (congrArg (fun q : PowerSt => SMap.get none q.images d) power :).trans (SMap.get_set_same none s.power.images d (some img))

/-- The image of a cell holds its registers, PC and level (17 R476). -/
theorem State.stopFlush_image (s : State) {d : Nat} (cell : d < 192) :
    ∃ c, ((s.stopFlush d).imageOf d).core = some c ∧ c.g = (s.core d).g ∧ c.f = (s.core d).f ∧ c.sys = (s.core d).sys ∧ c.pc = (s.core d).pc
      ∧ c.level = (s.core d).level := by
  have flush : s.stopFlush d = s.flushL1 d := if_pos cell
  have arch := (ViaCaches.flushL1 s d).cores d
  rw [flush]
  refine ⟨((s.flushL1 d).core d).imageOf, by simp only [State.imageOf, if_pos cell], ?_, ?_, ?_, ?_, ?_⟩
  · exact (congrArg Core.g arch :)
  · exact (congrArg Core.f arch :)
  · exact (congrArg Core.sys arch :)
  · exact (congrArg Core.pc arch :)
  · exact (congrArg Core.level arch :)

/-- A stop whose domain has something under way goes on. -/
theorem stopDone_works (s : State) {d : Nat} (seq : s.power.seq = some (.stop d)) (works : s.domWorks d = true) : stopDone d s = s := by
  unfold stopDone
  simp only [seq]
  rw [if_pos (by simp [works])]

theorem stopDone_none (s : State) (d : Nat) (seq : s.power.seq = none) : stopDone d s = s := by
  unfold stopDone; simp only [seq]

/-- With no cabinet reset waiting, the end of a sequence performs none. -/
theorem State.runCrst_of_none (s : State) (h : s.power.crst = []) : s.runCrst = s := by
  unfold State.runCrst
  simp only [h, List.filter_nil, List.foldl_nil]
  rw [← h]

theorem exec_stopSequenceDone {s : State} (runs : s.stalled = false) (d : Fin 296) (h : (stopDone d.val s).power.crst = []) :
    exec (.stopSequenceDone d) s = .next (stopDone d.val s) := by
  show execStopSequenceDone d s = _
  rw [execStopSequenceDone, act_runs _ _ runs, State.runCrst_of_none _ h]

/-! ### What keeps a domain from stopping (10 R283) -/

/-- A cell that has drained. -/
theorem State.domWorks_cell (s : State) {d : Nat} (cell : d < 192) (sb : (s.core d).sb = []) (issued : (s.core d).issued = false)
    (tlbis : (s.core d).tlbis = []) (fills : ∀ m ∈ s.coh.misses, m.core = d → m.got.isSome = true) : s.domWorks d = false := by
  have noFill : s.coh.misses.any (fun m => m.core = d && m.got.isNone) = false := by
    rw [List.any_eq_false]
    intro m hm
    by_cases own : m.core = d
    · simp [own, Option.isNone_eq_false_iff.mpr (fills m hm own)]
    · simp [own]
  rw [State.domWorks, if_pos cell]
  simp only [State.drained, sb, issued, tlbis, noFill]
  rfl

theorem State.domWorks_of_issued (s : State) {d : Nat} (cell : d < 192) (issued : (s.core d).issued = true) : s.domWorks d = true := by
  rw [State.domWorks, if_pos cell]
  simp only [State.drained, issued]
  rfl

theorem State.domWorks_of_port (s : State) {d r q : Nat} (hd : 192 ≤ d) (port : (r, q) ∈ domainPorts d) (works : s.portWorks r q = true) :
    s.domWorks d = true := by
  have some : (domainPorts d).any (fun x => s.portWorks x.1 x.2) = true := List.any_eq_true.mpr ⟨(r, q), port, works⟩
  rw [State.domWorks, if_neg (by omega), some, Bool.or_true, Bool.true_or]

theorem State.portWorks_of_owed (s : State) {r q : Nat}
    (h : (∃ p ∈ s.net.outs, p.src.toNat = r ∧ p.srcp.val = q) ∨ ∃ f ∈ s.net.flights, f.rtr = r ∧ f.port = q ∧ isResponse f.pkt = true) :
    s.portWorks r q = true := by
  rw [State.portWorks, Bool.or_eq_true, List.any_eq_true, List.any_eq_true]
  obtain ⟨p, hp, src, port⟩ | ⟨f, hf, rtr, port, resp⟩ := h
  · exact .inl ⟨p, hp, by simp [src, port]⟩
  · exact .inr ⟨f, hf, by simp [rtr, port, resp]⟩

theorem State.domWorks_of_dvfs (s : State) {d : Nat} (lo : 264 ≤ d) (hi : d < 268) (h : SMap.get none s.power.dvfs (d - 264) ≠ none) :
    s.domWorks d = true := by
  have some : (SMap.get none s.power.dvfs (d - 264)).isSome = true := Option.isSome_iff_ne_none.mpr h
  rw [State.domWorks, if_neg (by omega), if_neg (by omega), if_neg (by omega), if_neg (by omega), if_pos (by omega), some]
  simp [hi]

end Sys2Proof.Machine
end

section
/-! ## Wakes: how they end (17 R470-R473), and the sequences together -/

namespace Sys2Proof.Machine

/-! ### The steps of a wake that ends (17 R471) -/

/-- The registers, engines and core of a domain from its image, or where it has none what its locks hold, and a fresh core. -/
def State.wakeImage (s : State) (d : Nat) : State :=
  match (SMap.get none s.power.images d : Option Image) with
  | some i =>
    let s := i.regs.foldl (fun (s : State) (r : Nat × W32) => s.setReg r.1 r.2) s
    let s := i.lregs.foldl (fun (s : State) (k : Nat × SMap W32) => s.setStool k.1 { s.stool k.1 with lreg := k.2 }) s
    let s := match i.core with
      | some c => s.restoreCore d c
      | none => s
    let s := if d = 270 then s.disableQueues else if d = 279 then s.recallGptp else s
    s.catchUp d i
  | none =>
    let s := (SMap.get [] s.power.locks d).foldl (fun (s : State) (r : Nat × W32) => s.setReg r.1 r.2) s
    if d < 192 then s.freshCore d else s

/-- The frame receiver of a cabinet, and the inline engine of a memory controller, in step again. -/
def State.wakeAlign (s : State) (d : Nat) (missed : Bool) : State :=
  let s := if 264 ≤ d ∧ d < 271 then s.alignReceiver (d - 264) missed else s
  if 248 ≤ d ∧ d < 264 then
    (s.setBit (ipe (d - 248) 0x40) 0 (s.bit (ipe (d - 248) 0x44) 0 || s.bit (ipe (d - 248) 0x44) 1)).withMem
      { s.mem with selfRefresh := s.mem.selfRefresh.filter (· ≠ d - 248) }
  else s

/-- The domain in Run: its image and locks given up, DSTAT with the source of the wake. -/
def State.wakeEnd (s : State) (d src : Nat) : State :=
  ((({ s with power := { s.power with images := SMap.set none s.power.images d none, locks := SMap.set [] s.power.locks d [] } } : State).setDom d 3).setBit
    (dstat d) 2 false).setFld (dstat d) 4 4 src

theorem State.wakeUp_eq (s : State) (d src : Nat) : ∃ missed, s.wakeUp d src = ((s.wakeImage d).wakeAlign d missed).wakeEnd d src := ⟨_, rfl⟩

@[simp] theorem State.wakeImage_power (s : State) (d : Nat) : (s.wakeImage d).power = s.power := by
  have regs : ∀ (l : SMap W32) (t : State), (l.foldl (fun (s : State) (r : Nat × W32) => s.setReg r.1 r.2) t).power = t.power := fun l t =>
    foldl_keeps State.power (fun (s : State) (r : Nat × W32) => s.setReg r.1 r.2) (fun t r => State.setReg_power t r.1 r.2) l t
  have lregs : ∀ (l : SMap (SMap W32)) (t : State),
      (l.foldl (fun (s : State) (k : Nat × SMap W32) => s.setStool k.1 { s.stool k.1 with lreg := k.2 }) t).power = t.power := fun l t =>
    foldl_keeps State.power (fun (s : State) (k : Nat × SMap W32) => s.setStool k.1 { s.stool k.1 with lreg := k.2 })
      (fun t k => State.setStool_power t k.1 _) l t
  unfold State.wakeImage
  split
  · rename_i i _
    extract_lets s1 s2 s3 s4
    have h1 : s1.power = s.power := regs i.regs s
    have h2 : s2.power = s1.power := lregs i.lregs s1
    have h3 : s3.power = s2.power := by
      unfold s3; split
      · exact State.restoreCore_power _ _ _
      · rfl
    have h4 : s4.power = s3.power := by
      unfold s4; split_ifs
      · exact State.disableQueues_power _
      · exact State.recallGptp_power _
      · rfl
    rw [State.catchUp_power, h4, h3, h2, h1]
  · extract_lets s1
    have h1 : s1.power = s.power := regs _ s
    split
    · rw [State.freshCore_power, h1]
    · exact h1

@[simp] theorem State.wakeAlign_power (s : State) (d : Nat) (missed : Bool) : (s.wakeAlign d missed).power = s.power := by
  unfold State.wakeAlign
  extract_lets s1
  have h1 : s1.power = s.power := by
    unfold s1; split
    · exact State.alignReceiver_power _ _ _
    · rfl
  clear_value s1
  split
  · rw [State.withMem_power, State.setBit_power, h1]
  · exact h1

/-- A domain that has woken. -/
theorem State.wakeUp_spec (s : State) {d src : Nat} (hs : src < 16) :
    (s.wakeUp d src).power = { s.power with images := SMap.set none s.power.images d none, locks := SMap.set [] s.power.locks d [] }
      ∧ (s.wakeUp d src).domState d = 3 ∧ (s.wakeUp d src).bit (dstat d) 2 = false ∧ (s.wakeUp d src).fld (dstat d) 4 4 = src := by
  obtain ⟨missed, h⟩ := s.wakeUp_eq d src
  have power : ((s.wakeImage d).wakeAlign d missed).power = s.power := by rw [State.wakeAlign_power, State.wakeImage_power]
  rw [h]
  generalize (s.wakeImage d).wakeAlign d missed = t at *
  unfold State.wakeEnd
  have word : ∀ u : State, (((u.setDom d 3).setBit (dstat d) 2 false).setFld (dstat d) 4 4 src).reg (dstat d)
      = putField (putBit ((u.setDom d 3).reg (dstat d)) 2 false) 4 4 src := by
    intro u; rw [State.reg_setFld, if_pos rfl, State.reg_setBit, if_pos rfl]
  refine ⟨?_, ?_, ?_, ?_⟩
  · rw [State.setFld_power, State.setBit_power, State.setDom_power, power]
  · rw [State.domState, State.fld, word, fieldOf_putField_other _ _ _ _ _ _ (by decide) (by decide), fieldOf_putBit_other _ _ _ _ _ (by decide) (by decide)]
    exact State.domState_setDom_same _ d 3
  · rw [State.bit, word, bitOf_putField_other _ _ _ _ _ (by decide) (by decide), bitOf_putBit_same _ _ _ (by decide)]
  · rw [State.fld_setFld_same _ _ _ _ _ (by decide)]; exact Nat.mod_eq_of_lt hs

/-! ### WAKE_DONE and WAKE_FAILURE -/

/-- An image that no injection altered is read as it is. -/
theorem State.eccRead_unflawed (s : State) (b c u k : Nat) (h : s.err.flaws = []) : s.eccRead b c u k = (false, s) := by
  have clean : ∀ b' c' k', s.tainted b' c' k' = false := by intro _ _ _; simp [State.tainted, h]
  unfold State.eccRead State.checkUnit
  rw [if_neg (by simp [clean]), if_neg (by simp [clean]), if_neg (by simp [clean])]

/-- WAKE_DONE of the last domain of a chain. -/
theorem wakeDone_last (s : State) {d src : Nat} {dcmd : Bool} (seq : s.power.seq = some (.wake [d] d src dcmd)) (clean : s.err.flaws = []) :
    wakeDone d s = ({ s.wakeUp d src with power := { (s.wakeUp d src).power with seq := none } } : State).fire 0x300 := by
  have read : (if (SMap.get none s.power.images d).isSome then s.eccRead chs 0 1 (chestImage d) else (false, s)) = (false, s) := by
    split
    · exact s.eccRead_unflawed _ _ _ _ clean
    · rfl
  unfold wakeDone
  simp only [seq, read, if_true]
  rw [if_neg (by simp), if_neg (by simp)]

theorem wakeDone_none (s : State) (d : Nat) (seq : s.power.seq = none) : wakeDone d s = s := by unfold wakeDone; simp only [seq]
theorem wakeFailure_none (s : State) (d k : Nat) (seq : s.power.seq = none) : wakeFailure d k s = s := by unfold wakeFailure; simp only [seq]

/-- DSTAT of a domain whose wake failed with a cause (17 R473). -/
def WakeFailed (t : State) (d cause : Nat) : Prop := t.domState d = 0 ∧ t.bit (dstat d) 3 = true ∧ t.fld (dstat d) 8 4 = cause

theorem WakeFailed.congr {s t : State} {d k : Nat} (h : t.reg (dstat d) = s.reg (dstat d)) (w : WakeFailed s d k) : WakeFailed t d k := by
  obtain ⟨state, flag, cause⟩ := w
  exact ⟨(State.domState_congr h).trans state, (State.bit_congr h 3).trans flag, (State.fld_congr h 8 4).trans cause⟩

theorem OnlyRegs.latchFail (s : State) (d k : Nat) : OnlyRegs s (s.latchFail d k) [dstat d] :=
  ((OnlyRegs.setDom s 0 (by simp)).trans (OnlyRegs.setReg _ _ (by simp))).trans (OnlyRegs.setReg _ _ (by simp))

theorem State.latchFail_failed (s : State) (d : Nat) {k : Nat} (hk : k < 16) : WakeFailed (s.latchFail d k) d k := by
  have word : (s.latchFail d k).reg (dstat d) = putField (putBit ((s.setDom d 0).reg (dstat d)) 3 true) 8 4 k := by
    unfold State.latchFail
    rw [State.reg_setFld, if_pos rfl, State.reg_setBit, if_pos rfl]
  refine ⟨?_, ?_, ?_⟩
  · rw [State.domState, State.fld, word, fieldOf_putField_other _ _ _ _ _ _ (by decide) (by decide), fieldOf_putBit_other _ _ _ _ _ (by decide) (by decide)]
    exact State.domState_setDom_same s d 0
  · rw [State.bit, word, bitOf_putField_other _ _ _ _ _ (by decide) (by decide), bitOf_putBit_same _ _ _ (by decide)]
  · rw [State.fld, word, fieldOf_putField_same _ _ _ _ (by decide)]; exact Nat.mod_eq_of_lt hk

/-- The failure of the wakes below: each of them is latched, and other domains' failures stay. -/
theorem State.latchAll_failed (l : List Nat) (s : State) :
    OnlyRegs s (l.foldl (fun s j => s.latchFail j 4) s) (l.map dstat) ∧ ∀ j ∈ l, WakeFailed (l.foldl (fun s j => s.latchFail j 4) s) j 4 := by
  have keeps : ∀ (l : List Nat) (s : State) (j : Nat), j ∈ l ∨ WakeFailed s j 4 → WakeFailed (l.foldl (fun s j => s.latchFail j 4) s) j 4 := by
    intro l
    induction l with
    | nil => intro s j h; exact h.resolve_left (by simp)
    | cons x l ih =>
      intro s j h
      refine ih _ j ?_
      by_cases e : j = x
      · subst e; exact .inr (s.latchFail_failed j (by decide))
      · refine h.imp (fun m => (List.mem_cons.mp m).resolve_left e) (fun w => w.congr ((OnlyRegs.latchFail s x 4).others _ ?_))
        simpa using fun e' => e (dstat_inj e')
  refine ⟨OnlyRegs.foldl (fun t x hx => (OnlyRegs.latchFail t x 4).mono ?_) s, fun j hj => keeps l s j (.inl hj)⟩
  simpa using ⟨x, hx, rfl⟩

/-- WF_DOM and WF_TIME of a failed wake (17 R489). -/
def State.recordWake (s : State) (d cause : Nat) : State :=
  let s := s.setNat (pwq 0x48) (d + 4096 * cause + 2147483648)
  s.setReg64 (pwq 0x4C) s.time

/-- No sequence runs any more. -/
def State.closeSeq (s : State) : State := { s with power := { s.power with seq := none } }

@[simp] theorem State.closeSeq_regs (s : State) : s.closeSeq.regs = s.regs := rfl

/-- The error and the events of a failed wake (17 R473). -/
def State.announceWake (s : State) (dcmd : Bool) : State :=
  let s := (((s.raise (pwq 0) 1).fire 0x302).fireStool 32 3 63).fireStool 33 3 63
  if dcmd then s.fire 0x300 else s

theorem wakeFailure_first (s : State) {d cause tgt src : Nat} {rest : List Nat} {dcmd : Bool}
    (seq : s.power.seq = some (.wake (d :: rest) tgt src dcmd)) (hc : cause ≠ 0) :
    wakeFailure d cause s = ((rest.foldl (fun s j => s.latchFail j 4) (s.latchFail d cause)).recordWake d cause).closeSeq.announceWake dcmd := by
  have go : ¬(d ≠ d ∨ cause = 0) := by simp [hc]
  unfold wakeFailure
  simp only [seq]
  rw [if_neg go]
  rfl

theorem State.recordWake_spec (s : State) (d cause : Nat) :
    (s.recordWake d cause).power = s.power ∧ (∀ j, j < 296 → (s.recordWake d cause).reg (dstat j) = s.reg (dstat j))
      ∧ (s.recordWake d cause).reg64 (pwq 0x4C) = s.time := by
  unfold State.recordWake
  extract_lets s1
  have same : s1.time = s.time := congrArg (fun c : ClockSt => c.time.toNat) (State.setNat_clock s _ _)
  have lt : s1.time < 2 ^ 64 := s1.clock.time.isLt
  refine ⟨?_, fun j hj => ?_, ?_⟩
  · rw [State.setReg64_power]; exact State.setNat_power s _ _
  · have apart : ∀ o, dstat j ≠ pwq o := fun o => (pwq_ne_dstat (by omega)).symm
    rw [State.reg_setReg64_other _ _ _ _ (apart _) (apart 0x50)]
    exact (State.reg_setNat _ _ _ _).trans (if_neg (apart _))
  · rw [State.reg64_setReg64, Nat.mod_eq_of_lt lt, same]

theorem State.announceWake_spec (s : State) (dcmd : Bool) :
    (s.announceWake dcmd).power = s.power ∧ (∀ a, a % 4096 ≠ 0x14 → a % 4096 ≠ 0x20 → (s.announceWake dcmd).reg a = s.reg a)
      ∧ (s.announceWake dcmd).bit (pwq 0x14) 1 = true ∧ (dcmd = true → .source 0x300 ∈ (s.announceWake dcmd).ev.fires) := by
  have set1 : (s.raise (pwq 0) 1).bit (pwq 0x14) 1 = true := State.bit_raise pageOf_pwq rfl s 1 none (by decide)
  have others : ∀ a, a % 4096 ≠ 0x14 → a % 4096 ≠ 0x20 → (s.raise (pwq 0) 1).reg a = s.reg a := fun a => State.reg_raise _ _ _ _ _
  have power : (s.raise (pwq 0) 1).power = s.power := State.raise_power _ _ _ _
  unfold State.announceWake
  generalize s.raise (pwq 0) 1 = t at *
  have regs : (if dcmd = true then (((t.fire 0x302).fireStool 32 3 63).fireStool 33 3 63).fire 0x300
      else ((t.fire 0x302).fireStool 32 3 63).fireStool 33 3 63).regs = t.regs := by split <;> rfl
  have power' : (if dcmd = true then (((t.fire 0x302).fireStool 32 3 63).fireStool 33 3 63).fire 0x300
      else ((t.fire 0x302).fireStool 32 3 63).fireStool 33 3 63).power = t.power := by split <;> rfl
  refine ⟨power'.trans power, fun a h1 h2 => (State.reg_congr regs a).trans (others a h1 h2), (State.bit_congr (State.reg_congr regs _) 1).trans set1,
    fun own => ?_⟩
  dsimp only
  rw [if_pos own]; simp [State.fire]

/-! ### The sequences -/

theorem exec_wakeDone {s : State} (runs : s.stalled = false) (d : Fin 296) (h : (wakeDone d.val s).power.crst = []) :
    exec (.wakeDone d) s = .next (wakeDone d.val s) := by
  show execWakeDone d s = _
  rw [execWakeDone, act_runs _ _ runs, State.runCrst_of_none _ h]

theorem exec_wakeFailure {s : State} (runs : s.stalled = false) (d : Fin 296) (k : Fin 4) (h : (wakeFailure d.val k.val s).power.crst = []) :
    exec (.wakeFailure d k) s = .next (wakeFailure d.val k.val s) := by
  show execWakeFailure d k s = _
  rw [execWakeFailure, act_runs _ _ runs, State.runCrst_of_none _ h]

/-- STOP_SEQUENCE_DONE of a domain that owes nothing. -/
theorem exec_stopSequenceDone_idle {s : State} (runs : s.stalled = false) (none_ : s.power.crst = []) (d : Fin 296)
    (seq : s.power.seq = some (.stop d.val)) (idle : s.domWorks d.val = false) :
    ∃ t img, exec (.stopSequenceDone d) s = .next t ∧ t.power.seq = none ∧ t.domState d.val = 0 ∧ t.bit (dstat d.val) 2 = true
      ∧ SMap.get none t.power.images d.val = some img
      ∧ (d.val < 192 → t.core d.val = {} ∧ ∃ c, img.core = some c ∧ c.g = (s.core d.val).g ∧ c.f = (s.core d.val).f ∧ c.sys = (s.core d.val).sys
          ∧ c.pc = (s.core d.val).pc ∧ c.level = (s.core d.val).level) := by
  obtain ⟨ended, crst, state, saved, image, core⟩ := stopDone_spec s seq idle
  exact ⟨_, _, exec_stopSequenceDone runs d (crst.trans none_), ended, state, saved, image, fun cell => ⟨core cell, s.stopFlush_image cell⟩⟩

theorem exec_stopSequenceDone_works {s : State} (runs : s.stalled = false) (none_ : s.power.crst = []) (d : Fin 296)
    (seq : s.power.seq = some (.stop d.val)) (works : s.domWorks d.val = true) : exec (.stopSequenceDone d) s = .next s := by
  have same := stopDone_works s seq works
  rw [exec_stopSequenceDone runs d (by rw [same, none_]), same]

/-- An event without a sequence. -/
theorem exec_sequenceEvents_idle {s : State} (runs : s.stalled = false) (none_ : s.power.crst = []) (d : Fin 296) (seq : s.power.seq = none) :
    exec (.stopSequenceDone d) s = .next s ∧ exec (.wakeDone d) s = .next s ∧ ∀ k, exec (.wakeFailure d k) s = .next s := by
  have stop := stopDone_none s d.val seq
  have done := wakeDone_none s d.val seq
  refine ⟨?_, ?_, fun k => ?_⟩
  · rw [exec_stopSequenceDone runs d (by rw [stop, none_]), stop]
  · rw [exec_wakeDone runs d (by rw [done, none_]), done]
  · have fail := wakeFailure_none s d.val k.val seq
    rw [exec_wakeFailure runs d k (by rw [fail, none_]), fail]

/-- WAKE_DONE of the last domain. -/
theorem exec_wakeDone_last {s : State} (runs : s.stalled = false) (none_ : s.power.crst = []) (d : Fin 296) {src : Nat} {dcmd : Bool}
    (seq : s.power.seq = some (.wake [d.val] d.val src dcmd)) (clean : s.err.flaws = []) (hs : src < 16) :
    ∃ t, exec (.wakeDone d) s = .next t ∧ t.power.seq = none ∧ t.domState d.val = 3 ∧ t.bit (dstat d.val) 2 = false ∧ t.fld (dstat d.val) 4 4 = src
      ∧ SMap.get none t.power.images d.val = none := by
  obtain ⟨power, state, saved, source⟩ := s.wakeUp_spec (d := d.val) hs
  have last := wakeDone_last s seq clean
  have crst : (wakeDone d.val s).power.crst = [] := by
    rw [last]; exact (congrArg PowerSt.crst power :).trans none_
  refine ⟨_, exec_wakeDone runs d crst, ?_⟩
  rw [last]
  generalize s.wakeUp d.val src = t at *
  have regs : ∀ a, (({ t with power := { t.power with seq := none } } : State).fire 0x300).reg a = t.reg a := fun _ => rfl
  refine ⟨rfl, (State.domState_congr (regs _)).trans state, (State.bit_congr (regs _) 2).trans saved, (State.fld_congr (regs _) 4 4).trans source, ?_⟩
  exact (congrArg (fun q : PowerSt => SMap.get none q.images d.val) power :).trans (SMap.get_set_same none s.power.images d.val none)

/-- WAKE_FAILURE of the first domain. -/
theorem exec_wakeFailure_first {s : State} (runs : s.stalled = false) (none_ : s.power.crst = []) (d : Fin 296) (k : Fin 4) {rest : List Nat}
    {tgt src : Nat} {dcmd : Bool} (seq : s.power.seq = some (.wake (d.val :: rest) tgt src dcmd)) (hk : k ≠ 0) (apart : d.val ∉ rest)
    (hrest : ∀ j ∈ rest, j < 296) :
    ∃ t, exec (.wakeFailure d k) s = .next t ∧ t.power.seq = none ∧ WakeFailed t d.val k.val ∧ (∀ j ∈ rest, WakeFailed t j 4)
      ∧ t.bit (pwq 0x14) 1 = true ∧ t.reg64 (pwq 0x4C) = s.time ∧ (dcmd = true → .source 0x300 ∈ t.ev.fires) := by
  have hk' : k.val ≠ 0 := fun e => hk (Fin.ext e)
  have own : WakeFailed (s.latchFail d.val k.val) d.val k.val := s.latchFail_failed d.val (by omega)
  obtain ⟨frame, below⟩ := State.latchAll_failed rest (s.latchFail d.val k.val)
  have first := wakeFailure_first s seq hk'
  have latched : ∃ u : State, u = rest.foldl (fun s j => s.latchFail j 4) (s.latchFail d.val k.val) := ⟨_, rfl⟩
  obtain ⟨u, hu⟩ := latched
  rw [← hu] at first frame below
  have power : u.power = s.power := by rw [frame.rest]; rfl
  have time : u.time = s.time := by
    have clock : u.clock = s.clock := by rw [frame.rest]; rfl
    exact congrArg (fun c : ClockSt => c.time.toNat) clock
  have ownU : WakeFailed u d.val k.val := own.congr (frame.others _ (by
    rw [List.mem_map]; rintro ⟨j, hj, e⟩; exact apart (dstat_inj e ▸ hj)))
  obtain ⟨powerR, regsR, timeR⟩ := u.recordWake_spec d.val k.val
  generalize u.recordWake d.val k.val = v at *
  obtain ⟨powerA, regsA, errA, firesA⟩ := v.closeSeq.announceWake_spec dcmd
  have regs : ∀ a, a % 4096 ≠ 0x14 → a % 4096 ≠ 0x20 → (v.closeSeq.announceWake dcmd).reg a = v.reg a := fun a h1 h2 =>
    (regsA a h1 h2).trans (State.reg_congr v.closeSeq_regs a)
  have dstats : ∀ j, j < 296 → (v.closeSeq.announceWake dcmd).reg (dstat j) = u.reg (dstat j) := fun j hj => by
    obtain ⟨-, f1, f2⟩ := dstat_functional (d := j) (by omega)
    exact (regs _ f1 f2).trans (regsR j hj)
  have crst : (wakeFailure d.val k.val s).power.crst = [] := by
    rw [first, powerA]; exact (congrArg PowerSt.crst (powerR.trans power) :).trans none_
  refine ⟨_, exec_wakeFailure runs d k crst, ?_⟩
  rw [first]
  refine ⟨by rw [powerA]; rfl, ownU.congr (dstats _ d.isLt), fun j hj => (below j hj).congr (dstats j (hrest j hj)), errA, ?_, firesA⟩
  exact (State.reg64_congr (regs _ (by decide) (by decide)) (regs (pwq 0x50) (by decide) (by decide))).trans (timeR.trans time)

/-- EVENT_WAKE with a queued wake and no sequence. -/
theorem exec_eventWake_first {s : State} (runs : s.stalled = false) {n : Nat} {rest : List Nat} (seq : s.power.seq = none)
    (queue : s.power.wakeq = n :: rest) (stop : s.domState n = 0) :
    ∃ t ch, exec .eventWake s = .next t ∧ t.power.wakeq = rest ∧ t.power.seq = some (.wake ch n 2 false) ∧ WakesAll s ch n
      ∧ OnlyRegs { s with power := t.power } t [dstat (ch.headD n)] := by
  have start : eventWake s = ({ s with power := { s.power with wakeq := rest } } : State).startWake n 2 false := by
    unfold eventWake
    simp only [seq, queue]
    exact if_pos stop
  obtain ⟨power, frame, -⟩ := ({ s with power := { s.power with wakeq := rest } } : State).startWake_spec n 2 false
  refine ⟨_, s.wakeChain n, act_runs _ _ runs, ?_⟩
  rw [start]
  exact ⟨(congrArg PowerSt.wakeq power :), (congrArg PowerSt.seq power :), s.wakesAll_wakeChain n, frame⟩

theorem exec_eventWake_idle {s : State} (runs : s.stalled = false) (queue : s.power.wakeq = []) : exec .eventWake s = .next s := by
  have same : eventWake s = s := by
    unfold eventWake
    split
    · rename_i queued; rw [queue] at queued; cases queued
    · rfl
  show act s eventWake = _
  rw [act_runs _ _ runs, same]

/-- The ends of sequences are as the statement gives them. -/
theorem powerSequences : Rules.PowerSequences := by
  intro s runs none_
  refine ⟨fun d seq cell other => ?_, fun d seq cell issued => ?_, fun d seq common works => ?_, fun d seq => exec_sequenceEvents_idle runs none_ d seq,
    fun d src dcmd seq clean hs => exec_wakeDone_last runs none_ d seq clean hs, fun d k rest tgt src dcmd seq hk apart hrest => ?_,
    fun n rest seq queue _ stop => exec_eventWake_first runs seq queue stop, fun queue => exec_eventWake_idle runs queue⟩
  · refine exec_stopSequenceDone_idle runs none_ d seq ?_
    by_cases c : d.val < 192
    · obtain ⟨sb, issued, tlbis, fills⟩ := cell c
      exact s.domWorks_cell c sb issued tlbis fills
    · exact other (by omega)
  · exact exec_stopSequenceDone_works runs none_ d seq (s.domWorks_of_issued cell issued)
  · refine exec_stopSequenceDone_works runs none_ d seq ?_
    obtain ⟨r, q, port, owed⟩ | ⟨lo, hi, dvfs⟩ := works
    · exact s.domWorks_of_port common port (s.portWorks_of_owed owed)
    · exact s.domWorks_of_dvfs lo hi dvfs
  · obtain ⟨t, done, ended, ⟨state, flag, cause⟩, below, err, time, fires⟩ := exec_wakeFailure_first runs none_ d k seq hk apart hrest
    exact ⟨t, done, ended, state, flag, cause, below, err, time, fires⟩

end Sys2Proof.Machine
end

section
/-! ## Operating points and temperature (17 R482-R484; 19 R519, R529), and O43 -/

namespace Sys2Proof.Machine

/-! ### The DVFS sequence of a cabinet (17 R483) -/

theorem cabCtl_ne {c o x : Nat} (h : o ≠ x) : cabCtl c o ≠ cabCtl c x := by rw [cabCtl_eq, cabCtl_eq]; omega

theorem State.dvfsStep_congr {s t : State} (h : t.power.dvfs = s.power.dvfs) (c : Nat) : t.dvfsStep c = s.dvfsStep c := by
  unfold State.dvfsStep; rw [h]

theorem State.dvfsStep_setDvfs (s : State) (c : Nat) (x : Option DvfsStep) : (s.setDvfs c x).dvfsStep c = x :=
  SMap.get_set_same none s.power.dvfs c x

/-- A write to the PMIC is no register and no step of a sequence. -/
theorem State.pmicWrite_rest (s : State) (c mv : Nat) : (s.pmicWrite c mv).regs = s.regs ∧ (s.pmicWrite c mv).power.dvfs = s.power.dvfs := by
  unfold State.pmicWrite
  dsimp only
  split
  · exact ⟨rfl, rfl⟩
  · exact ⟨rfl, rfl⟩

/-- The next step of a sequence, or its end: the step by rule, and of the registers BUSY alone, which ends with the sequence. -/
theorem State.dvfsNext_spec (s : State) (c : Nat) :
    (s.dvfsNext c).dvfsStep c = nextStep (s.curMv c) (s.curMhz c) (s.tgtMv c) (s.tgtMhz c)
      ∧ ((s.dvfsNext c).regs = s.regs ∧ ((s.dvfsNext c).dvfsStep c).isSome = true
        ∨ (s.dvfsNext c).regs = (s.setBit (cabCtl c 0x44) 31 false).regs ∧ (s.dvfsNext c).dvfsStep c = none) := by
  have clock : ∀ k, (s.setDvfs c (some (.clock k))).dvfsStep c = some (.clock k) := fun k => s.dvfsStep_setDvfs c _
  have volt : ((s.setDvfs c (some (.voltage (s.tgtMv c)))).pmicWrite c (s.tgtMv c)).dvfsStep c = some (.voltage (s.tgtMv c)) :=
    (State.dvfsStep_congr (State.pmicWrite_rest _ _ _).2 c).trans (s.dvfsStep_setDvfs c _)
  have voltRegs : ((s.setDvfs c (some (.voltage (s.tgtMv c)))).pmicWrite c (s.tgtMv c)).regs = s.regs := (State.pmicWrite_rest _ _ _).1.trans rfl
  unfold State.dvfsNext nextStep
  dsimp only
  split
  · exact ⟨clock _, .inl ⟨rfl, by rw [clock]; rfl⟩⟩
  · split
    · exact ⟨volt, .inl ⟨voltRegs, by rw [volt]; rfl⟩⟩
    · split
      · exact ⟨clock _, .inl ⟨rfl, by rw [clock]; rfl⟩⟩
      · have none_ : (((s.setDvfs c none).setBit (cabCtl c 0x44) 31 false).fire (0x308 + c)).dvfsStep c = none := s.dvfsStep_setDvfs c none
        exact ⟨none_, .inr ⟨rfl, none_⟩⟩

/-- The point in force and the target stay as they are while a step starts. -/
theorem State.dvfsNext_points (s : State) (c : Nat) :
    (s.dvfsNext c).curMv c = s.curMv c ∧ (s.dvfsNext c).curMhz c = s.curMhz c ∧ (s.dvfsNext c).tgtMv c = s.tgtMv c
      ∧ (s.dvfsNext c).tgtMhz c = s.tgtMhz c := by
  obtain ⟨-, ⟨regs, -⟩ | ⟨regs, -⟩⟩ := s.dvfsNext_spec c
  · have r := State.reg_congr regs
    exact ⟨State.fld_congr (r _) _ _, State.fld_congr (r _) _ _, State.fld_congr (r _) _ _, State.fld_congr (r _) _ _⟩
  · have r := State.reg_congr regs
    have own : (s.dvfsNext c).reg (cabCtl c 0x44) = putBit (s.reg (cabCtl c 0x44)) 31 false := by rw [r, State.reg_setBit, if_pos rfl]
    have target : (s.dvfsNext c).reg (cabCtl c 0x48) = s.reg (cabCtl c 0x48) := by rw [r, State.reg_setBit, if_neg (cabCtl_ne (by decide))]
    refine ⟨?_, ?_, State.fld_congr target _ _, State.fld_congr target _ _⟩
    · rw [State.curMv, State.fld, own, fieldOf_putBit_other _ _ _ _ _ (by decide) (by decide)]; rfl
    · rw [State.curMhz, State.fld, own, fieldOf_putBit_other _ _ _ _ _ (by decide) (by decide)]; rfl

/-- The next step after the point in force became another one. -/
theorem State.dvfsNext_after {s t : State} {c x y : Nat} (mv : t.curMv c = x) (mhz : t.curMhz c = y)
    (target : t.reg (cabCtl c 0x48) = s.reg (cabCtl c 0x48)) :
    (t.dvfsNext c).curMv c = x ∧ (t.dvfsNext c).curMhz c = y ∧ (t.dvfsNext c).dvfsStep c = nextStep x y (s.tgtMv c) (s.tgtMhz c) := by
  obtain ⟨next, -⟩ := t.dvfsNext_spec c
  obtain ⟨curMv, curMhz, -, -⟩ := t.dvfsNext_points c
  have tMv : t.tgtMv c = s.tgtMv c := State.fld_congr target 0 10
  have tMhz : t.tgtMhz c = s.tgtMhz c := State.fld_congr target 16 12
  exact ⟨curMv.trans mv, curMhz.trans mhz, by rw [next, mv, mhz, tMv, tMhz]⟩

/-- BUSY while a sequence runs. -/
theorem State.dvfsNext_busy (s : State) (c : Nat) (h : s.bit (cabCtl c 0x44) 31 = true) :
    (s.dvfsNext c).bit (cabCtl c 0x44) 31 = ((s.dvfsNext c).dvfsStep c).isSome := by
  obtain ⟨-, ⟨regs, some_⟩ | ⟨regs, none_⟩⟩ := s.dvfsNext_spec c
  · rw [some_, State.bit_congr (State.reg_congr regs _), h]
  · rw [none_, State.bit_congr (State.reg_congr regs _)]
    exact State.bit_setBit_same _ _ _ _ (by decide)

/-! ### DVFS_REQUEST (17 R482) -/

theorem exec_dvfsRequest {s : State} {i : Initiator} {c : Fin 8} {g : Page} (h : MayWrite s i (cabCtl c.val 0x40) g) (v : W32) :
    exec (.dvfsRequest i c v) s = .next (s.writeDvfsReq c.val v) := act_cabCtl c.isLt (by decide) h _

/-- A request that is accepted while no sequence runs. -/
theorem State.writeDvfsReq_accepted (s : State) {c : Nat} {v : W32} (hc : c < 4) (range : dvfsRange (fieldOf v 0 10) (fieldOf v 16 12) = true)
    (near : s.mvTooFar c (fieldOf v 0 10) = false) (idle : s.dvfsStep c = none) :
    let t := s.writeDvfsReq c v
    t.tgtMv c = fieldOf v 0 10 ∧ t.tgtMhz c = fieldOf v 16 12
      ∧ t.dvfsStep c = nextStep (s.curMv c) (s.curMhz c) (fieldOf v 0 10) (fieldOf v 16 12) ∧ t.curMv c = s.curMv c ∧ t.curMhz c = s.curMhz c
      ∧ t.bit (cabCtl c 0x44) 31 = (t.dvfsStep c).isSome := by
  have mv : fieldOf v 0 10 < 1024 := fieldOf_lt v 0 10
  have mhz : fieldOf v 16 12 < 4096 := fieldOf_lt v 16 12
  have start : s.writeDvfsReq c v
      = ((s.setNat (cabCtl c 0x48) (fieldOf v 0 10 + 65536 * fieldOf v 16 12)).setBit (cabCtl c 0x44) 31 true).dvfsNext c := by
    have idle' : (s.setNat (cabCtl c 0x48) (fieldOf v 0 10 + 65536 * fieldOf v 16 12)).dvfsStep c = none := idle
    unfold State.writeDvfsReq
    simp only [range, near, idle']
    rw [if_neg (by omega), if_neg (by decide), if_neg (by decide)]
  dsimp only
  rw [start]
  generalize fieldOf v 0 10 = x at *
  generalize fieldOf v 16 12 = y at *
  have target : ((s.setNat (cabCtl c 0x48) (x + 65536 * y)).setBit (cabCtl c 0x44) 31 true).reg (cabCtl c 0x48) = BitVec.ofNat 32 (x + 65536 * y) := by
    rw [State.reg_setBit, if_neg (cabCtl_ne (by decide)), State.reg_setNat, if_pos rfl]
  have point : ((s.setNat (cabCtl c 0x48) (x + 65536 * y)).setBit (cabCtl c 0x44) 31 true).reg (cabCtl c 0x44) = putBit (s.reg (cabCtl c 0x44)) 31 true := by
    rw [State.reg_setBit, if_pos rfl, State.reg_setNat, if_neg (cabCtl_ne (by decide))]
  have busy : ((s.setNat (cabCtl c 0x48) (x + 65536 * y)).setBit (cabCtl c 0x44) 31 true).bit (cabCtl c 0x44) 31 = true :=
    State.bit_setBit_same _ _ _ _ (by decide)
  generalize (s.setNat (cabCtl c 0x48) (x + 65536 * y)).setBit (cabCtl c 0x44) 31 true = t at *
  have tMv : t.tgtMv c = x := by
    simp only [State.tgtMv, State.fld, target, fieldOf, BitVec.toNat_ofNat, Nat.shiftRight_eq_div_pow]; omega
  have tMhz : t.tgtMhz c = y := by
    simp only [State.tgtMhz, State.fld, target, fieldOf, BitVec.toNat_ofNat, Nat.shiftRight_eq_div_pow]; omega
  have cMv : t.curMv c = s.curMv c := by
    rw [State.curMv, State.fld, point, fieldOf_putBit_other _ _ _ _ _ (by decide) (by decide)]; rfl
  have cMhz : t.curMhz c = s.curMhz c := by
    rw [State.curMhz, State.fld, point, fieldOf_putBit_other _ _ _ _ _ (by decide) (by decide)]; rfl
  obtain ⟨curMv, curMhz, step⟩ := State.dvfsNext_after (s := t) cMv cMhz rfl
  obtain ⟨-, -, tgtMv, tgtMhz⟩ := t.dvfsNext_points c
  rw [tMv, tMhz] at step
  exact ⟨tgtMv.trans tMv, tgtMhz.trans tMhz, step, curMv, curMhz, t.dvfsNext_busy c busy⟩

/-! ### The steps, and their failure (17 R483; 19 R519) -/

/-- A clock step that completes. -/
theorem dvfsStepDone_clock (s : State) {c k : Nat} (hk : k < 4096) (step : s.dvfsStep c = some (.clock k)) :
    (dvfsStepDone c s).curMv c = s.curMv c ∧ (dvfsStepDone c s).curMhz c = k
      ∧ (dvfsStepDone c s).dvfsStep c = nextStep (s.curMv c) k (s.tgtMv c) (s.tgtMhz c) := by
  have done : dvfsStepDone c s = (s.setFld (cabCtl c 0x44) 16 12 k).dvfsNext c := by unfold dvfsStepDone; simp only [step]
  rw [done]
  refine State.dvfsNext_after ?_ ((State.fld_setFld_same s _ 16 12 k (by decide)).trans (Nat.mod_eq_of_lt hk)) ?_
  · rw [State.curMv, State.fld, State.reg_setFld, if_pos rfl, fieldOf_putField_other _ _ _ _ _ _ (by decide) (by decide)]; rfl
  · rw [State.reg_setFld, if_neg (cabCtl_ne (by decide))]

/-- A voltage step that completes. -/
theorem dvfsStepDone_voltage (s : State) {c k : Nat} (hk : k < 1024) (step : s.dvfsStep c = some (.voltage k)) (en : s.bit (pwc 0x80) 31 = true) :
    (dvfsStepDone c s).curMv c = k ∧ (dvfsStepDone c s).curMhz c = s.curMhz c
      ∧ (dvfsStepDone c s).dvfsStep c = nextStep k (s.curMhz c) (s.tgtMv c) (s.tgtMhz c) := by
  have done : dvfsStepDone c s = (s.setFld (cabCtl c 0x44) 0 10 k).dvfsNext c := by unfold dvfsStepDone; simp only [step]; rw [if_pos en]
  rw [done]
  refine State.dvfsNext_after ((State.fld_setFld_same s _ 0 10 k (by decide)).trans (Nat.mod_eq_of_lt hk)) ?_ ?_
  · rw [State.curMhz, State.fld, State.reg_setFld, if_pos rfl, fieldOf_putField_other _ _ _ _ _ _ (by decide) (by decide)]; rfl
  · rw [State.reg_setFld, if_neg (cabCtl_ne (by decide))]

/-- A voltage step with the PMIC off. -/
theorem dvfsStepDone_off (s : State) {c k : Nat} (step : s.dvfsStep c = some (.voltage k)) (off : s.bit (pwc 0x80) 31 = false) : dvfsStepDone c s = s := by
  unfold dvfsStepDone; simp only [step]; rw [if_neg (by rw [off]; decide)]

theorem dvfsStepDone_none (s : State) {c : Nat} (idle : s.dvfsStep c = none) : dvfsStepDone c s = s := by unfold dvfsStepDone; simp only [idle]
theorem dvfsTimeout_none (s : State) {c : Nat} (idle : s.dvfsStep c = none) : dvfsTimeout c s = s := by unfold dvfsTimeout; simp only [idle]

/-- A poll that a byte answers, and one that a NACK answers. -/
theorem pmicPoll_voltage (s : State) {c k : Nat} {b : Byte} (step : s.dvfsStep c = some (.voltage k))
    (bit : bitOf b (s.fld (pwc (0x84 + 4 * c)) 8 3) = true) : pmicPoll c (some b) s = dvfsStepDone c s := by
  unfold pmicPoll; simp only [step]; rw [if_pos bit]

theorem pmicPoll_nack (s : State) (c : Nat) : pmicPoll c none s = s := by
  unfold pmicPoll
  split
  · contradiction
  · rfl

/-- A sequence that times out. -/
theorem dvfsTimeout_spec (s : State) {c : Nat} (hc : c < 8) {x : DvfsStep} (step : s.dvfsStep c = some x) :
    let t := dvfsTimeout c s
    t.dvfsStep c = none ∧ t.bit (cabCtl c 0x44) 31 = false ∧ t.tgtMv c = s.curMv c ∧ t.tgtMhz c = s.curMhz c ∧ t.bit (cabCtl c 0x14) 1 = true
      ∧ t.ev.fires = s.ev.fires ++ [.source (0x30C + c)] := by
  have base : (cabCtlPage c).base = cabCtl c 0 := rfl
  have high : ∀ o, o < 4096 → cabCtl c o % 4096 = o := fun o ho => by rw [cabCtl_eq]; omega
  obtain ⟨u, hu⟩ : ∃ u : State, u = ((s.setDvfs c none).setBit (cabCtl c 0x44) 31 false).setReg (cabCtl c 0x48)
      (((s.setDvfs c none).setBit (cabCtl c 0x44) 31 false).reg (cabCtl c 0x44)) := ⟨_, rfl⟩
  have out : dvfsTimeout c s = (u.raise (cabCtl c 0) 1).fire (0x30C + c) := by unfold dvfsTimeout; simp only [step, hu]
  have point : u.reg (cabCtl c 0x44) = putBit (s.reg (cabCtl c 0x44)) 31 false := by
    rw [hu, State.reg_setReg_other _ _ _ _ (cabCtl_ne (by decide)), State.reg_setBit, if_pos rfl]; rfl
  have target : u.reg (cabCtl c 0x48) = putBit (s.reg (cabCtl c 0x44)) 31 false := by
    rw [hu, State.reg_setReg_same, State.reg_setBit, if_pos rfl]; rfl
  have ended : u.dvfsStep c = none := by rw [hu]; exact s.dvfsStep_setDvfs c none
  have ev : u.ev = s.ev := by rw [hu]; rfl
  have regs : ∀ o, o < 4096 → o ≠ 0x14 → o ≠ 0x20 → ((u.raise (cabCtl c 0) 1).fire (0x30C + c)).reg (cabCtl c o) = u.reg (cabCtl c o) :=
    fun o ho h1 h2 => (State.reg_congr (State.fire_regs _ _) _).trans (State.reg_raise _ _ _ _ _ (by rw [high o ho]; exact h1) (by rw [high o ho]; exact h2))
  have fields : ∀ lo w, lo + w ≤ 31 → fieldOf (putBit (s.reg (cabCtl c 0x44)) 31 false) lo w = s.fld (cabCtl c 0x44) lo w := fun lo w h =>
    fieldOf_putBit_other _ _ _ _ _ (by decide) (by omega)
  dsimp only
  rw [out]
  refine ⟨?_, ?_, ?_, ?_, ?_, ?_⟩
  · exact (State.dvfsStep_congr (congrArg PowerSt.dvfs (State.raise_power u _ _ _)) c).trans ended
  · rw [State.bit_congr (regs 0x44 (by decide) (by decide) (by decide)), State.bit, point, bitOf_putBit_same _ _ _ (by decide)]
  · rw [State.tgtMv, State.fld_congr (regs 0x48 (by decide) (by decide) (by decide)), State.fld, target, fields _ _ (by decide)]; rfl
  · rw [State.tgtMhz, State.fld_congr (regs 0x48 (by decide) (by decide) (by decide)), State.fld, target, fields _ _ (by decide)]; rfl
  · rw [State.bit_congr (State.reg_congr (State.fire_regs _ _) _)]
    exact State.bit_raise (pageOf_cabCtl hc (by decide)) base u 1 none (by decide)
  · show (u.raise (cabCtl c 0) 1).ev.fires ++ _ = _
    rw [State.raise_ev, ev]

/-! ### Temperature (17 R484; 19 R529) -/

/-- `argMax` finds a place of the greatest value. -/
theorem argMax_spec (f : Nat → Int) (n : Nat) : argMax f (n + 1) < n + 1 ∧ ∀ k, k < n + 1 → f k ≤ f (argMax f (n + 1)) := by
  induction n with
  | zero =>
    have zero : argMax f (0 + 1) = 0 := by simp [argMax]
    refine ⟨by rw [zero]; decide, fun k hk => ?_⟩
    obtain rfl : k = 0 := by omega
    rw [zero]
  | succ n ih =>
    obtain ⟨lt, max⟩ := ih
    rw [argMax]
    split
    · rename_i greater
      refine ⟨by omega, fun k hk => ?_⟩
      by_cases e : k = n + 1
      · rw [e]
      · have := max k (by omega); omega
    · refine ⟨by omega, fun k hk => ?_⟩
      by_cases e : k = n + 1
      · rw [e]; omega
      · exact max k (by omega)

/-- The readings of the eight cabinets (17 R484). -/
def State.readTemps (s : State) (l : List W16) : State :=
  (List.range 8).foldl (fun s c => s.setNat (pwt (0x40 + 4 * c)) (l.getD c 0).toNat) s

theorem pwt_inj {a b : Nat} (h : pwt a = pwt b) : a = b := by simp only [pwt] at h; omega

theorem State.readTemps_spec (s : State) (l : List W16) :
    (∀ c, c < 8 → (s.readTemps l).reg (pwt (0x40 + 4 * c)) = BitVec.ofNat 32 (l.getD c 0).toNat)
      ∧ OnlyRegs s (s.readTemps l) ((List.range 8).map (fun c => pwt (0x40 + 4 * c))) := by
  have written : ∀ n, ∀ t : State, ∀ c, c < n →
      ((List.range n).foldl (fun s c => s.setNat (pwt (0x40 + 4 * c)) (l.getD c 0).toNat) t).reg (pwt (0x40 + 4 * c))
        = BitVec.ofNat 32 (l.getD c 0).toNat := by
    intro n t
    induction n with
    | zero => intro c hc; omega
    | succ n ih =>
      intro c hc
      rw [List.range_succ, List.foldl_append, List.foldl_cons, List.foldl_nil, State.reg_setNat]
      by_cases e : c = n
      · rw [e, if_pos rfl]
      · rw [if_neg (fun e' => e (by have := pwt_inj e'; omega))]
        exact ih c (by omega)
  refine ⟨written 8 s, OnlyRegs.foldl (fun t c hc => OnlyRegs.setNat t _ ?_) s⟩
  exact List.mem_map.mpr ⟨c, hc, rfl⟩

/-- The page of the temperature controller (17 R489). -/
def pwtPage : Page := ⟨.pwt, 0, 7, 0x10, 3⟩

theorem pageOf_pwt : pageOf (pwt 0) = some pwtPage := by decide +kernel

/-- No injection is armed, so none is forced. -/
theorem State.force_unarmed (s : State) (k : Nat) (h : s.reg (pwt 0x1C) = 0) : s.force (pwt 0) k = s := by
  have arm : s.bit (pwtPage.base + 0x1C) k = false := by
    have word : s.reg (pwtPage.base + 0x1C) = 0#32 := h
    rw [State.bit, word, bitOf_zero]
  unfold State.force
  simp only [pageOf_pwt, arm]
  rw [if_neg (by decide)]

/-- The hottest and the coolest cabinet of a sample, and how far they are apart. -/
def hottest (l : List W16) : Nat := argMax (tempOf l) 8
def coolest (l : List W16) : Nat := argMax (fun c => - tempOf l c) 8

theorem temps_within (l : List W16) : hottest l < 8 ∧ coolest l < 8
    ∧ ∀ a b, a < 8 → b < 8 → tempOf l a - tempOf l b ≤ tempOf l (hottest l) - tempOf l (coolest l) := by
  obtain ⟨lt, max⟩ := argMax_spec (tempOf l) 7
  obtain ⟨lt', min⟩ := argMax_spec (fun c => - tempOf l c) 7
  refine ⟨lt, lt', fun a b ha hb => ?_⟩
  have up : tempOf l a ≤ tempOf l (hottest l) := max a ha
  have low : - tempOf l b ≤ - tempOf l (coolest l) := min b hb
  omega

/-- TDIFF of a sample. -/
def tdiff (l : List W16) : Nat :=
  hottest l + 16 * coolest l + 256 * ((tempOf l (hottest l) - tempOf l (coolest l)).toNat / 16 % 256) + 2147483648

theorem bitOf_tdiff (l : List W16) : bitOf (BitVec.ofNat 32 (tdiff l)) 31 = true := by
  obtain ⟨hot, cool, -⟩ := temps_within l
  have split : tdiff l = 2 ^ 31 + (tdiff l - 2147483648) := by unfold tdiff; omega
  have low : tdiff l - 2147483648 < 2 ^ 31 := by unfold tdiff; omega
  rw [bitOf_ofNat, split, Nat.testBit_two_pow_add_eq, Nat.testBit_lt_two_pow low]; rfl

theorem temperatureSample_eq (s : State) (l : List W16) (unarmed : s.reg (pwt 0x1C) = 0) :
    temperatureSample l s = if 720 < tempOf l (hottest l) - tempOf l (coolest l)
      then (((s.readTemps l).setNat (pwt 0x60) (tdiff l)).raise (pwt 0) 0).fire 0x304 else s.readTemps l := by
  have still : (s.readTemps l).reg (pwt 0x1C) = 0 := ((s.readTemps_spec l).2.others _ (by
    rw [List.mem_map]; rintro ⟨c, -, e⟩; have := pwt_inj e; omega)).trans unarmed
  have force : (s.readTemps l).force (pwt 0) 0 = s.readTemps l := State.force_unarmed _ 0 still
  have sample : temperatureSample l s = if 720 < tempOf l (hottest l) - tempOf l (coolest l)
      then ((((s.readTemps l).force (pwt 0) 0).setNat (pwt 0x60) (tdiff l)).raise (pwt 0) 0).fire 0x304 else (s.readTemps l).force (pwt 0) 0 := rfl
  rw [sample, force]

/-- A sample of the temperatures. -/
theorem temperatureSample_spec (s : State) (l : List W16) (unarmed : s.reg (pwt 0x1C) = 0) :
    let t := temperatureSample l s
    (∀ c, c < 8 → t.reg (pwt (0x40 + 4 * c)) = BitVec.ofNat 32 (l.getD c 0).toNat)
      ∧ ((∃ a b, a < 8 ∧ b < 8 ∧ 720 < tempOf l a - tempOf l b) → t.bit (pwt 0x60) 31 = true ∧ t.bit (pwt 0x14) 0 = true
          ∧ t.ev.fires = s.ev.fires ++ [.source 0x304])
      ∧ ((∀ a b, a < 8 → b < 8 → tempOf l a - tempOf l b ≤ 720) → t.ev = s.ev ∧ t.err = s.err) := by
  obtain ⟨readings, frame⟩ := s.readTemps_spec l
  obtain ⟨hot, cool, widest⟩ := temps_within l
  have ev : (s.readTemps l).ev = s.ev := by rw [frame.rest]
  have err : (s.readTemps l).err = s.err := by rw [frame.rest]
  dsimp only
  rw [temperatureSample_eq s l unarmed]
  generalize s.readTemps l = u at *
  split
  · rename_i apart
    have regs : ∀ a, a % 4096 ≠ 0x14 → a % 4096 ≠ 0x20 →
        (((u.setNat (pwt 0x60) (tdiff l)).raise (pwt 0) 0).fire 0x304).reg a = (u.setNat (pwt 0x60) (tdiff l)).reg a := fun a h1 h2 =>
      (State.reg_congr (State.fire_regs _ _) a).trans (State.reg_raise _ _ _ _ _ h1 h2)
    refine ⟨fun c hc => ?_, fun _ => ⟨?_, ?_, ?_⟩, fun close => ?_⟩
    · have offset : pwt (0x40 + 4 * c) % 4096 = 0x40 + 4 * c := by simp only [pwt, pageBase, pageNo]; omega
      rw [regs _ (by omega) (by omega), State.reg_setNat, if_neg (fun e => by have := pwt_inj e; omega)]
      exact readings c hc
    · rw [State.bit_congr (regs _ (by decide) (by decide)), State.bit, State.reg_setNat, if_pos rfl, bitOf_tdiff]
    · rw [State.bit_congr (State.reg_congr (State.fire_regs _ _) _)]
      exact State.bit_raise pageOf_pwt rfl _ 0 none (by decide)
    · show ((u.setNat (pwt 0x60) (tdiff l)).raise (pwt 0) 0).ev.fires ++ _ = _
      rw [State.raise_ev, State.setNat_ev, ev]
    · have := close _ _ hot cool; omega
  · rename_i near
    exact ⟨readings, fun ⟨a, b, ha, hb, far⟩ => absurd (Int.lt_of_lt_of_le far (widest a b ha hb)) near, fun _ => ⟨ev, err⟩⟩

/-- THERMTRIP: asserted at 135 degrees, and while PORST_N is low released below 130. -/
theorem thermtripSample_spec (s : State) (l : List W16) :
    ((∃ c, c < 8 ∧ 2160 ≤ tempOf l c) → thermtripSample l s = { s with power := { s.power with thermtrip := true } })
      ∧ ((∀ c, c < 8 → tempOf l c < 2080) → s.power.porst = true → thermtripSample l s = { s with power := { s.power with thermtrip := false } })
      ∧ ((∀ c, c < 8 → tempOf l c < 2160) → s.power.porst = false → thermtripSample l s = s) := by
  have hotter : ((List.range 8).any (fun c => decide (2160 ≤ tempOf l c)) = true) ↔ ∃ c, c < 8 ∧ 2160 ≤ tempOf l c := by simp
  have cooler : (∀ c, c < 8 → tempOf l c < 2080) → (List.range 8).all (fun c => decide (tempOf l c < 2080)) = true := by
    intro h
    rw [List.all_eq_true]
    exact fun c hc => decide_eq_true (h c (List.mem_range.mp hc))
  unfold thermtripSample
  dsimp only
  refine ⟨fun hot => if_pos (hotter.mpr hot), fun cool low => ?_, fun cool high => ?_⟩
  · rw [if_neg (fun h => by obtain ⟨c, hc, hot⟩ := hotter.mp h; have := cool c hc; omega), low, cooler cool]; rfl
  · rw [if_neg (fun h => by obtain ⟨c, hc, hot⟩ := hotter.mp h; have := cool c hc; omega), high]; rfl

/-! ### The statement -/

/-- DVFS_REQUEST, by the cabinet and the pair. -/
theorem exec_dvfsRequest_rows {s : State} {i : Initiator} {c : Fin 8} {g : Page} (h : MayWrite s i (cabCtl c.val 0x40) g) (v : W32) :
    (4 ≤ c.val → fieldOf v 0 10 = s.curMv c.val → fieldOf v 16 12 = s.curMhz c.val → exec (.dvfsRequest i c v) s = .next s)
      ∧ (4 ≤ c.val → fieldOf v 0 10 ≠ s.curMv c.val ∨ fieldOf v 16 12 ≠ s.curMhz c.val →
          exec (.dvfsRequest i c v) s = .next (s.raise (cabCtl c.val 0) 0))
      ∧ (c.val < 4 → dvfsRange (fieldOf v 0 10) (fieldOf v 16 12) = false → exec (.dvfsRequest i c v) s = .next (s.raise (cabCtl c.val 0) 0)) := by
  rw [exec_dvfsRequest h]
  unfold State.writeDvfsReq
  dsimp only
  refine ⟨fun hc hv hk => ?_, fun hc other => ?_, fun hc range => ?_⟩
  · rw [if_pos hc, if_pos (by simp [hv, hk])]
  · rw [if_pos hc, if_neg (by simpa [← not_and_or] using other)]
  · rw [if_neg (by omega), if_pos (by rw [range]; rfl)]

theorem exec_dvfsStepDone {s : State} (runs : s.stalled = false) (c : Fin 4) : exec (.dvfsStepDone c) s = .next (dvfsStepDone c.val s) :=
  act_runs _ _ runs
theorem exec_dvfsTimeout {s : State} (runs : s.stalled = false) (c : Fin 4) : exec (.dvfsTimeout c) s = .next (dvfsTimeout c.val s) :=
  act_runs _ _ runs
theorem exec_pmicStatusPoll {s : State} (runs : s.stalled = false) (c : Fin 4) (r : Option Byte) :
    exec (.pmicStatusPoll c r) s = .next (pmicPoll c.val r s) := act_runs _ _ runs
theorem exec_temperatureSample {s : State} (runs : s.stalled = false) (l : List W16) :
    exec (.temperatureSample l) s = .next (temperatureSample l s) := act_runs _ _ runs
theorem exec_thermtripSample (s : State) (l : List W16) : exec (.thermtripSample l) s = .next (thermtripSample l s) := rfl

/-- The operating points and the temperatures are as the statement gives them. -/
theorem operatingPoints : Rules.OperatingPoints := by
  intro s
  refine ⟨fun i c v g h => ?_, fun runs c => ⟨fun idle => ⟨?_, ?_⟩, fun k hk step => ?_, fun k hk step en x hx => ?_, fun k step off => ?_, ?_,
    fun x step => ?_⟩, fun runs unarmed l => ?_, fun l => ?_⟩
  · obtain ⟨same, other, outside⟩ := exec_dvfsRequest_rows h v
    exact ⟨same, other, outside, fun hc range near idle => ⟨_, exec_dvfsRequest h v, s.writeDvfsReq_accepted hc range near idle⟩⟩
  · rw [exec_dvfsStepDone runs, dvfsStepDone_none s idle]
  · rw [exec_dvfsTimeout runs, dvfsTimeout_none s idle]
  · obtain ⟨curMv, curMhz, next⟩ := dvfsStepDone_clock s hk step
    exact ⟨_, exec_dvfsStepDone runs c, curMhz, curMv, next⟩
  · refine ⟨dvfsStepDone c.val s, ?_, dvfsStepDone_voltage s hk step en⟩
    obtain rfl | ⟨b, rfl, bit⟩ := hx
    · exact exec_dvfsStepDone runs c
    · rw [exec_pmicStatusPoll runs, pmicPoll_voltage s step bit]
  · rw [exec_dvfsStepDone runs, dvfsStepDone_off s step off]
  · rw [exec_pmicStatusPoll runs, pmicPoll_nack]
  · exact ⟨_, exec_dvfsTimeout runs c, dvfsTimeout_spec s (by omega) step⟩
  · exact ⟨_, exec_temperatureSample runs l, temperatureSample_spec s l unarmed⟩
  · obtain ⟨hot, released, still⟩ := thermtripSample_spec s l
    rw [exec_thermtripSample]
    exact ⟨fun h => congrArg _ (hot h), fun h low => congrArg _ (released h low), fun h high => congrArg _ (still h high)⟩

/-- Settles O43: commands to the power controller, the ends of its sequences, and operating points and temperature, one theorem each. -/
theorem powerControl : Obligations.PowerControl := ⟨powerCommands, powerSequences, operatingPoints⟩

end Sys2Proof.Machine
end

section
/-! ## Reports of errors and their way up the aggregators (02 R30; 18 R492-R502), and O32 -/

namespace Sys2Proof.Machine

/-! ### What a detection sends (02 R30; 18 R495, R496) -/

theorem pageOf_block_lt {a : Nat} {p : Page} (h : pageOf a = some p) : p.block < 256 := by
  unfold pageOf at h
  extract_lets c b q at h
  split at h
  · obtain rfl := Option.some.inj h
    exact Nat.mod_lt _ (by decide)
  · cases h

/-- The domain of a page has its DSTAT among the first 512. -/
theorem Page.domain_lt {p : Page} {d : Nat} (hb : p.block < 256) (h : p.domain = some d) : d < 512 := by
  unfold Page.domain at h
  repeat' split at h
  all_goals simp only [Option.some.injEq, reduceCtorEq] at h
  all_goals omega

theorem State.pageUp_congr {s t : State} {p : Page} (h : ∀ d, p.domain = some d → t.reg (dstat d) = s.reg (dstat d)) :
    t.pageUp p = s.pageUp p := by
  unfold State.pageUp
  cases hd : p.domain with
  | none => rfl
  | some d => simp only [State.domUp, State.domState_congr (h d hd)]

/-- Whether a page is up does not rest on error bits and counters. -/
theorem State.pageUp_of_header {s t : State} {p : Page} (hb : p.block < 256)
    (h : ∀ a, a % 4096 ≠ 0x14 → a % 4096 ≠ 0x20 → t.reg a = s.reg a) : t.pageUp p = s.pageUp p :=
  State.pageUp_congr fun _ hd =>
    have ⟨_, h14, h20⟩ := dstat_functional (Page.domain_lt hb hd)
    h _ h14 h20

/-- The registers after a detection: PG_ERR takes the bit, PG_ERRCNT counts a corrected error. -/
def State.noteError (s : State) (p : Page) (bit : Nat) : State :=
  if errClass p.kind bit = .corrected then (s.setBit (p.base + 0x14) bit true).count16 (p.base + 0x20) else s.setBit (p.base + 0x14) bit true

theorem State.noteError_only (s : State) (p : Page) (bit : Nat) : OnlyRegs s (s.noteError p bit) [p.base + 0x14, p.base + 0x20] := by
  have mark : OnlyRegs s (s.setBit (p.base + 0x14) bit true) [p.base + 0x14, p.base + 0x20] := OnlyRegs.setReg s _ (by simp)
  exact OnlyRegs.ite _ (mark.trans (OnlyRegs.setReg _ _ (by simp))) mark

theorem State.detect_eq (s : State) (p : Page) (bit addr : Nat) (part : Option PartId) (inj : Bool) :
    s.detect p bit addr part inj
      = if ((s.noteError p bit).bit (p.base + 0x18) bit && (s.noteError p bit).pageUp p) = true
        then ((s.noteError p bit).see (s.reportOf p bit addr part inj)).report (s.reportOf p bit addr part inj)
        else (s.noteError p bit).see (s.reportOf p bit addr part inj) := by
  unfold State.noteError State.detect
  split <;> rfl

/-- A detection changes the registers as its error says. -/
theorem State.detect_regs (s : State) (p : Page) (bit addr : Nat) (part : Option PartId) (inj : Bool) :
    (s.detect p bit addr part inj).regs = (s.noteError p bit).regs := by
  rw [State.detect_eq]; split <;> rfl

/-- PG_ERR after a detection: the bit found, and the others as they were. -/
theorem State.bit_noteError (s : State) (p : Page) {bit : Nat} (k : Nat) (hb : bit < 32) :
    (s.noteError p bit).bit (p.base + 0x14) k = if k = bit then true else s.bit (p.base + 0x14) k := by
  have mark := State.bit_setBit s (p.base + 0x14) bit k true hb
  unfold State.noteError
  split
  · rwa [State.bit_congr (State.reg_count16_other _ _ _ (by omega))]
  · exact mark

theorem satInc_eq_min (m x : Nat) (h : x ≤ m) : satInc m x = min m (x + 1) := by unfold satInc; split <;> omega

theorem State.fld_count16 (s : State) (a : Nat) : (s.count16 a).fld a 0 16 = min 0xFFFF (s.fld a 0 16 + 1) := by
  have old : s.fld a 0 16 < 65536 := fieldOf_lt _ _ _
  rw [State.count16, State.fld_setFld_same _ _ _ _ _ (by decide), satInc_eq_min _ _ (by omega)]
  omega

/-- PG_ERRCNT after a detection. -/
theorem State.fld_noteError (s : State) (p : Page) (bit : Nat) :
    (s.noteError p bit).fld (p.base + 0x20) 0 16
      = if errClass p.kind bit = .corrected then min 0xFFFF (s.fld (p.base + 0x20) 0 16 + 1) else s.fld (p.base + 0x20) 0 16 := by
  have mark : (s.setBit (p.base + 0x14) bit true).fld (p.base + 0x20) 0 16 = s.fld (p.base + 0x20) 0 16 :=
    State.fld_congr (State.reg_setReg_other _ _ _ _ (by omega)) _ _
  unfold State.noteError
  split
  · rw [State.fld_count16, mark]
  · exact mark

/-- What a detection keeps as seen and what sets out: the report, where the mask bit lets it and the page's domain is up. -/
theorem State.detect_reports (s : State) {p : Page} (bit addr : Nat) (part : Option PartId) (inj : Bool) (hb : p.block < 256) :
    (∃ l, (s.detect p bit addr part inj).err.seen = s.reportOf p bit addr part inj :: l)
      ∧ (s.detect p bit addr part inj).err.reports
        = if s.bit (p.base + 0x18) bit ∧ s.pageUp p then s.err.reports ++ [s.reportOf p bit addr part inj] else s.err.reports := by
  have only := s.noteError_only p bit
  have page : p.base % 4096 = 0 := p.base_mod
  have mask : (s.noteError p bit).bit (p.base + 0x18) bit = s.bit (p.base + 0x18) bit := State.bit_congr (only.others _ (by simp)) _
  have up : (s.noteError p bit).pageUp p = s.pageUp p :=
    State.pageUp_of_header hb fun a h14 h20 => only.others a (by simp only [List.mem_cons, List.not_mem_nil, or_false]; omega)
  have err : (s.noteError p bit).err = s.err := by rw [only.rest]
  simp only [State.detect_eq, mask, up, Bool.and_eq_true]
  split
  · exact ⟨⟨_, rfl⟩, by simp only [State.report, State.see, err]⟩
  · exact ⟨⟨_, rfl⟩, by simp only [State.see, err]⟩

/-! ### What an aggregator does with a report (18 R496-R502) -/

/-- The first report for an aggregator is one for it. -/
theorem takeReport_dest {d : Nat} {l : List Report} {r : Report} {rs : List Report} (h : takeReport d l = some (r, rs)) : r.dest = d := by
  induction l generalizing rs with
  | nil => cases h
  | cons x l ih =>
    unfold takeReport at h
    split at h
    · rename_i here; obtain ⟨rfl, rfl⟩ := Prod.mk.inj (Option.some.inj h); exact here
    · split at h
      · rename_i y ys found; obtain ⟨rfl, rfl⟩ := Prod.mk.inj (Option.some.inj h); exact ih found
      · cases h

theorem takeReport_none {d : Nat} {l : List Report} (h : ∀ r ∈ l, r.dest ≠ d) : takeReport d l = none := by
  induction l with
  | nil => rfl
  | cons x l ih =>
    have rest := ih (fun r hr => h r (by simp [hr]))
    simp only [takeReport, h x (by simp), rest, if_false]

/-- A rival of a report is for the same aggregator and of the same class. -/
theorem mem_rivals {r q : Report} {rs : List Report} (h : q ∈ r :: rivals r rs) : q.dest = r.dest ∧ q.cls = r.cls := by
  obtain rfl | h := List.mem_cons.mp h
  · exact ⟨rfl, rfl⟩
  · simp only [rivals, List.mem_filter, Bool.and_eq_true, decide_eq_true_eq] at h
    exact h.2.1

theorem ErrClass.code_lt (c : ErrClass) : c.code < 5 := by cases c <;> decide

/-- The control-space offset of the record of a report's class. -/
def Report.record (r : Report) : Nat := 4096 * r.dest + 0x80 + 16 * r.cls.code

/-- The upper word of a record: what `fillRecord` puts beside the address (18 R497, R498). -/
theorem State.fillRecord_eq (s : State) (r : Report) : ∃ hi, (r.bit < 32 → bitOf (BitVec.ofNat 32 hi) 31 = true) ∧
    s.fillRecord (4096 * r.dest) r
      = if s.bit (r.record + 4) 31 then s
        else ((s.setNat r.record r.addr).setNat (r.record + 4) hi).setReg64 (r.record + 8) r.time.toNat := by
  refine ⟨_, fun hb => ?_, rfl⟩
  have inj : (if r.inj = true then 1073741824 else 0) ≤ 1073741824 := by split <;> decide
  rw [bitOf_ofNat, Nat.testBit_eq_decide_div_mod_eq]
  generalize (if r.inj = true then 1073741824 else 0) = y at inj ⊢
  simp only [show (31 : Nat) < 32 from by decide, decide_true, Bool.true_and, decide_eq_true_eq]
  cases r.part with
  | none => simp only; omega
  | some p => have := p.isLt; simp only; omega

/-- The record of a class: one that is VALID stays; another takes the report (18 R497). -/
theorem State.fillRecord_spec (s : State) (r : Report) :
    OnlyRegs s (s.fillRecord (4096 * r.dest) r) [r.record, r.record + 4, r.record + 8, r.record + 12]
      ∧ (s.bit (r.record + 4) 31 = true → s.fillRecord (4096 * r.dest) r = s)
      ∧ (s.bit (r.record + 4) 31 = false → (s.fillRecord (4096 * r.dest) r).reg r.record = BitVec.ofNat 32 r.addr
          ∧ (s.fillRecord (4096 * r.dest) r).reg64 (r.record + 8) = r.time.toNat
          ∧ (r.bit < 32 → (s.fillRecord (4096 * r.dest) r).bit (r.record + 4) 31 = true)) := by
  obtain ⟨hi, valid, eq⟩ := s.fillRecord_eq r
  rw [eq]
  have fill : OnlyRegs s (((s.setNat r.record r.addr).setNat (r.record + 4) hi).setReg64 (r.record + 8) r.time.toNat)
      [r.record, r.record + 4, r.record + 8, r.record + 12] :=
    ((OnlyRegs.setNat s _ (by simp)).trans (OnlyRegs.setNat _ _ (by simp))).trans ((OnlyRegs.setNat _ _ (by simp)).trans (OnlyRegs.setNat _ _ (by simp)))
  refine ⟨OnlyRegs.ite _ (OnlyRegs.refl _ _) fill, fun old => if_pos old, fun new => ?_⟩
  rw [if_neg (by simp [new])]
  refine ⟨?_, ?_, fun hb => ?_⟩
  · rw [State.reg_setReg64_other _ _ _ _ (by omega) (by omega), State.reg_setNat, if_neg (by omega), State.reg_setNat, if_pos rfl]
  · rw [State.reg64_setReg64]; exact Nat.mod_eq_of_lt r.time.isLt
  · rw [State.bit, State.reg_setReg64_other _ _ _ _ (by omega) (by omega), State.reg_setNat, if_pos rfl]; exact valid hb

/-- What an aggregator keeps of a report: AG_STAT, the class's counter, the class's record. -/
def State.tookReport (s : State) (r : Report) : State :=
  ((s.setBit (4096 * r.dest + 0x40) r.cls.code true).count (4096 * r.dest + 0x50 + 4 * r.cls.code)).fillRecord (4096 * r.dest) r

/-- What it then does: its source fires, and the report goes on, or the chip level acts on it. -/
def State.passReport (s : State) (r : Report) : State :=
  let s := if s.bit (4096 * r.dest + 0x48) r.cls.code then s.fire (aggSource r.dest) else s
  match aggParent r.dest with
  | some up => if s.bit (4096 * r.dest + 0x44) r.cls.code then s.report { r with dest := up } else s
  | none =>
    let s := (s.fireStool 32 3 62).fireStool 33 3 62
    if r.cls = .fatal && s.bit (chipAgg 0x100) 2 then s.stopHb 1 else s

theorem State.latch_eq (s : State) (r : Report) : s.latch r = (s.tookReport r).passReport r := rfl

/-- Units and memory are no business of a report, nor any register beside the heartbeat's status. -/
structure Passes (s t : State) : Prop where
  regs : ∀ a, a % 4096 ≠ 0x104 → t.reg a = s.reg a
  mem : t.mem = s.mem
  cores : t.cores = s.cores
  stools : t.stools = s.stools

theorem Passes.stopHb (s : State) (c : Nat) : Passes s (s.stopHb c) := by
  unfold State.stopHb
  split
  · exact ⟨fun _ _ => rfl, rfl, rfl, rfl⟩
  · exact ⟨fun a ha => State.reg_setReg_other _ _ _ _ (fun e => ha (by rw [e]; rfl)), rfl, rfl, rfl⟩

theorem Passes.passReport (s : State) (r : Report) : Passes s (s.passReport r) := by
  have fired : Passes s (if s.bit (4096 * r.dest + 0x48) r.cls.code then s.fire (aggSource r.dest) else s) := by
    split <;> exact ⟨fun _ _ => rfl, rfl, rfl, rfl⟩
  unfold State.passReport
  extract_lets u w
  split
  · split
    · exact ⟨fired.regs, fired.mem, fired.cores, fired.stools⟩
    · exact fired
  · split
    · have hb := Passes.stopHb w 1
      exact ⟨fun a ha => (hb.regs a ha).trans (fired.regs a ha), hb.mem.trans fired.mem, hb.cores.trans fired.cores, hb.stools.trans fired.stools⟩
    · exact ⟨fired.regs, fired.mem, fired.cores, fired.stools⟩

/-- A report goes on to the parent where the mask passes its class. -/
theorem State.passReport_forward (s : State) (r : Report) {up : Nat} (h : aggParent r.dest = some up) :
    (s.passReport r).err.reports
      = if s.bit (4096 * r.dest + 0x44) r.cls.code then s.err.reports ++ [{ r with dest := up }] else s.err.reports := by
  unfold State.passReport
  extract_lets u w
  have same : u.bit (4096 * r.dest + 0x44) r.cls.code = s.bit (4096 * r.dest + 0x44) r.cls.code ∧ u.err = s.err := by
    unfold u; split <;> exact ⟨rfl, rfl⟩
  obtain ⟨mask, err⟩ := same
  simp only [h, mask]
  split
  · simp only [State.report, err]
  · rw [err]

/-- Taking a report sets AG_STAT, counts the class and fills its record where that is not VALID. -/
theorem State.tookReport_spec (s : State) (r : Report) :
    OnlyRegs s (s.tookReport r)
        [4096 * r.dest + 0x40, 4096 * r.dest + 0x50 + 4 * r.cls.code, r.record, r.record + 4, r.record + 8, r.record + 12]
      ∧ (s.tookReport r).bit (4096 * r.dest + 0x40) r.cls.code = true
      ∧ (s.tookReport r).reg (4096 * r.dest + 0x50 + 4 * r.cls.code) = s.reg (4096 * r.dest + 0x50 + 4 * r.cls.code) + 1
      ∧ (s.bit (r.record + 4) 31 = true →
          (s.tookReport r).reg r.record = s.reg r.record ∧ (s.tookReport r).reg (r.record + 4) = s.reg (r.record + 4))
      ∧ (s.bit (r.record + 4) 31 = false → (s.tookReport r).reg r.record = BitVec.ofNat 32 r.addr
          ∧ (s.tookReport r).reg64 (r.record + 8) = r.time.toNat ∧ (r.bit < 32 → (s.tookReport r).bit (r.record + 4) 31 = true)) := by
  have code := r.cls.code_lt
  have rec_ : r.record = 4096 * r.dest + 0x80 + 16 * r.cls.code := rfl
  unfold State.tookReport
  have marked := State.bit_setBit_same s (4096 * r.dest + 0x40) r.cls.code true (by omega)
  have mark : ∀ a, a ≠ 4096 * r.dest + 0x40 → (s.setBit (4096 * r.dest + 0x40) r.cls.code true).reg a = s.reg a :=
    fun a ha => State.reg_setReg_other _ _ _ _ ha
  have only1 : OnlyRegs s (s.setBit (4096 * r.dest + 0x40) r.cls.code true) [4096 * r.dest + 0x40] := OnlyRegs.setReg s _ (by simp)
  generalize s.setBit (4096 * r.dest + 0x40) r.cls.code true = u at *
  have counted : (u.count (4096 * r.dest + 0x50 + 4 * r.cls.code)).reg (4096 * r.dest + 0x50 + 4 * r.cls.code)
      = u.reg (4096 * r.dest + 0x50 + 4 * r.cls.code) + 1 := State.reg_setReg_same _ _ _
  have count : ∀ a, a ≠ 4096 * r.dest + 0x50 + 4 * r.cls.code → (u.count (4096 * r.dest + 0x50 + 4 * r.cls.code)).reg a = u.reg a :=
    fun a ha => State.reg_setReg_other _ _ _ _ ha
  have only2 : OnlyRegs u (u.count (4096 * r.dest + 0x50 + 4 * r.cls.code)) [4096 * r.dest + 0x50 + 4 * r.cls.code] := OnlyRegs.setReg u _ (by simp)
  generalize u.count (4096 * r.dest + 0x50 + 4 * r.cls.code) = v at *
  obtain ⟨only3, old, new⟩ := v.fillRecord_spec r
  have below : ∀ a, a < r.record → (v.fillRecord (4096 * r.dest) r).reg a = v.reg a := fun a ha =>
    only3.others a (by simp only [List.mem_cons, List.not_mem_nil, or_false]; omega)
  have same : ∀ a, r.record ≤ a → v.reg a = s.reg a := fun a ha => (count a (by omega)).trans (mark a (by omega))
  have valid : v.bit (r.record + 4) 31 = s.bit (r.record + 4) 31 := State.bit_congr (same _ (by omega)) _
  refine ⟨((only1.mono (by simp)).trans (only2.mono (by simp))).trans (only3.mono (by simp)), ?_, ?_, fun h => ?_, fun h => new (valid.trans h)⟩
  · rw [State.bit_congr ((below _ (by omega)).trans (count _ (by omega)))]; exact marked
  · rw [below _ (by omega), counted, mark _ (by omega)]
  · rw [old (valid.trans h)]; exact ⟨same _ (by omega), same _ (by omega)⟩

/-- What a latched report leaves in its aggregator's page and of the block. -/
structure Latched (s t : State) (r : Report) : Prop where
  stat : t.bit (4096 * r.dest + 0x40) r.cls.code = true
  counter : t.reg (4096 * r.dest + 0x50 + 4 * r.cls.code) = s.reg (4096 * r.dest + 0x50 + 4 * r.cls.code) + 1
  old : s.bit (r.record + 4) 31 = true → t.reg r.record = s.reg r.record ∧ t.reg (r.record + 4) = s.reg (r.record + 4)
  new : s.bit (r.record + 4) 31 = false → t.reg r.record = BitVec.ofNat 32 r.addr ∧ t.reg64 (r.record + 8) = r.time.toNat
    ∧ (r.bit < 32 → t.bit (r.record + 4) 31 = true)
  forward : ∀ up, aggParent r.dest = some up →
    t.err.reports = if s.bit (4096 * r.dest + 0x44) r.cls.code then s.err.reports ++ [{ r with dest := up }] else s.err.reports
  mem : t.mem = s.mem
  cores : t.cores = s.cores
  stools : t.stools = s.stools

theorem State.latch_spec (s : State) (r : Report) : Latched s (s.latch r) r := by
  have code := r.cls.code_lt
  have rec_ : r.record = 4096 * r.dest + 0x80 + 16 * r.cls.code := rfl
  obtain ⟨only, stat, counter, old, new⟩ := s.tookReport_spec r
  have pass := Passes.passReport (s.tookReport r) r
  have page : ∀ a, 4096 * r.dest ≤ a → a < 4096 * r.dest + 0x104 → ((s.tookReport r).passReport r).reg a = (s.tookReport r).reg a :=
    fun a _ _ => pass.regs a (by omega)
  have mask : (s.tookReport r).bit (4096 * r.dest + 0x44) r.cls.code = s.bit (4096 * r.dest + 0x44) r.cls.code :=
    State.bit_congr (only.others _ (by simp only [List.mem_cons, List.not_mem_nil, or_false]; omega)) _
  have err : (s.tookReport r).err = s.err := by rw [only.rest]
  rw [State.latch_eq]
  refine ⟨?_, ?_, fun h => ?_, fun h => ?_, fun up parent => ?_, ?_, ?_, ?_⟩
  · rw [State.bit_congr (page _ (by omega) (by omega))]; exact stat
  · rw [page _ (by omega) (by omega)]; exact counter
  · rw [page _ (by omega) (by omega), page _ (by omega) (by omega)]; exact old h
  · obtain ⟨addr, time, valid⟩ := new h
    refine ⟨(page _ (by omega) (by omega)).trans addr, ?_, fun hb => ?_⟩
    · rw [State.reg64_congr (page _ (by omega) (by omega)) (page _ (by omega) (by omega))]; exact time
    · rw [State.bit_congr (page _ (by omega) (by omega))]; exact valid hb
  · rw [State.passReport_forward _ _ parent, mask, err]
  · rw [pass.mem, only.rest]
  · rw [pass.cores, only.rest]
  · rw [pass.stools, only.rest]

/-! ### AGGREGATOR_LATCH (18 R497; assumption log 1) -/

theorem exec_aggregatorLatch {s : State} (runs : s.stalled = false) (n : BitVec 16) :
    exec (.aggregatorLatch n) s = .next (aggregatorLatch n.toNat s) := act_runs _ _ runs

/-- Of reports of one class that may arrive in one cycle, one is latched. -/
theorem aggregatorLatch_rivals {s : State} {d : Nat} {r : Report} {rs : List Report} (h : takeReport d s.err.reports = some (r, rs))
    (some_ : rivals r rs ≠ []) : ∃ q ∈ r :: rivals r rs, ∃ u : State, u.regs = s.regs ∧ u.mem = s.mem ∧ u.cores = s.cores ∧ u.stools = s.stools
      ∧ aggregatorLatch d s = u.latch q := by
  have pick : ∀ k, (r :: rivals r rs).getD (k % ((rivals r rs).length + 1)) r ∈ r :: rivals r rs := by
    intro k
    have lt : k % ((rivals r rs).length + 1) < (r :: rivals r rs).length := Nat.mod_lt _ (by omega)
    rw [List.getD_eq_getElem _ _ lt]
    exact List.getElem_mem lt
  unfold aggregatorLatch
  simp only [h]
  refine ⟨_, pick _, _, ?_, ?_, ?_, ?_, rfl⟩ <;> rfl

/-- A report without a rival is latched. -/
theorem aggregatorLatch_alone {s : State} {d : Nat} {r : Report} {rs : List Report} (h : takeReport d s.err.reports = some (r, rs))
    (none_ : rivals r rs = []) : aggregatorLatch d s = ({ s with err := { s.err with reports := rs } } : State).latch r := by
  unfold aggregatorLatch
  simp only [h, none_]

/-- Settles O32: a detection is `noteError` and its report, a latch is `Latched`. -/
theorem errorsAreReported : Obligations.ErrorsAreReported := by
  refine ⟨fun s base bit p part there hb => ?_, fun s n runs => ⟨fun h => ?_, fun r rs taken some_ => ?_, fun r rs taken none_ hb => ?_⟩⟩
  · obtain ⟨⟨l, seen⟩, reports⟩ := s.detect_reports bit (ctlAddr p.base) part false (pageOf_block_lt there)
    have regs := fun a => State.reg_congr (s.detect_regs p bit (ctlAddr p.base) part false) a
    rw [State.raise_eq_detect there]
    refine ⟨OnlyRegsErr.detect _ _ _ _ _ _, State.bit_detect _ _ _ _ _ _ hb, fun k hk => ?_, ?_, fun h => ?_, _, l, seen, reports, rfl, rfl, rfl, rfl, rfl, rfl⟩
    · rw [State.bit_congr (regs _), State.bit_noteError _ _ _ hb, if_neg hk]
    · rw [State.fld_congr (regs _), State.fld_noteError]
    · rw [reports, if_neg]
      rintro ⟨mask, up⟩
      obtain h | h := h
      · rw [h] at mask; cases mask
      · rw [h] at up; cases up
  · rw [exec_aggregatorLatch runs, aggregatorLatch, takeReport_none h]
  · obtain ⟨q, hq, u, regs, mem, cores, stools, eq⟩ := aggregatorLatch_rivals taken some_
    obtain ⟨dest, cls⟩ := mem_rivals hq
    have latched := u.latch_spec q
    have here : q.dest = n.toNat := dest.trans (takeReport_dest taken)
    refine ⟨_, q, exec_aggregatorLatch runs n, hq, ?_⟩
    have valid : 4096 * q.dest + 0x84 + 16 * q.cls.code = q.record + 4 := by unfold Report.record; omega
    rw [eq, ← here, ← cls, ← State.reg_congr regs, ← State.bit_congr (State.reg_congr regs _), valid]
    exact ⟨latched.stat, latched.counter, fun new => (latched.new new).1, latched.mem.trans mem, latched.cores.trans cores,
      latched.stools.trans stools⟩
  · have latched := State.latch_spec { s with err := { s.err with reports := rs } } r
    have here : r.dest = n.toNat := takeReport_dest taken
    refine ⟨_, exec_aggregatorLatch runs n, ?_⟩
    rw [aggregatorLatch_alone taken none_, ← here]
    exact ⟨latched.stat, latched.counter, latched.old, fun new =>
        have ⟨addr, time, valid⟩ := latched.new new
        ⟨addr, valid hb, time⟩,
      latched.forward, latched.mem, latched.cores, latched.stools⟩

end Sys2Proof.Machine
end

section
/-! ## The root of trust: mailbox commands and its own rows (15 R407-R411, R427), and O40 -/

namespace Sys2Proof.Machine

/-! ### Detections at a page by its offset (02 R30; 18 R503) -/

theorem OnlyRegsErr.mono {s t : State} {l m : List Nat} (h : OnlyRegsErr s t l) (k : ∀ a ∈ l, a ∈ m) : OnlyRegsErr s t m :=
  ⟨h.rest, fun a ha => h.others a (fun hl => ha (k a hl))⟩

/-- An error raised at a page changes its PG_ERR and PG_ERRCNT, and error reports. -/
theorem OnlyRegsErr.raise {base : Nat} {p : Page} (there : pageOf base = some p) (e : p.base = base) (s : State) (bit : Nat)
    (part : Option PartId) : OnlyRegsErr s (s.raise base bit part) [base + 0x14, base + 0x20] := by
  rw [State.raise_eq_detect there, ← e]; exact OnlyRegsErr.detect _ _ _ _ _ _

/-- Without an armed injection, a detector of the forced kind finds nothing. -/
theorem State.force_of_unarmed {base : Nat} {p : Page} (there : pageOf base = some p) (e : p.base = base) (s : State) {bit : Nat}
    (h : s.bit (base + 0x1C) bit = false) : s.force base bit = s := by
  unfold State.force
  simp only [there, e, h]
  rfl

/-! ### The root of trust's pages (02 R27) -/

/-- The root of trust's own page, and mailbox page `p`, 1 to 3. -/
def rtsPage : Page := ⟨.rts, 0, 7, 0x12, 0⟩
def rtmPage (p : Nat) : Page := ⟨.rtm, 0, 7, 0x12, p⟩

theorem pageOf_rts {o : Nat} (ho : o < 4096) : pageOf (rts o) = some rtsPage := by
  rw [rts, pageOf_pageBase (by decide) (by decide) (by decide) ho]; rfl

theorem pageOf_rtm (p : Fin 3) {o : Nat} (ho : o < 4096) : pageOf (rtm (p.val + 1) o) = some (rtmPage (p.val + 1)) := by
  have kind : pageKindAt 7 0x12 (p.val + 1) = some (.rtm, 0) := by
    revert p; decide
  rw [rtm, pageOf_pageBase (by decide) (by decide) (by omega) ho, kind]; rfl

theorem rts_eq (o : Nat) : rts o = 118620160 + o := by simp [rts, pageBase, pageNo]
theorem rts_ne_dstat {o d : Nat} (h : d < 512) : rts o ≠ dstat d := by rw [rts_eq, dstat_eq]; omega

theorem rts_add (o : Nat) : rts 0 + o = rts o := by simp [rts]

/-- With no injection armed on the root of trust's page, none of its forced detectors finds anything. -/
theorem State.force_rts {s : State} (unarmed : s.reg (rts 0x1C) = 0) (k : Nat) : s.force (rts 0) k = s :=
  State.force_of_unarmed (pageOf_rts (by decide)) rfl s (by rw [rts_add, State.bit, unarmed]; exact bitOf_zero _ _)

theorem OnlyRegsErr.raise_rts (s : State) (bit : Nat) (part : Option PartId) : OnlyRegsErr s (s.raise (rts 0) bit part) [rts 0x14, rts 0x20] := by
  have raised := OnlyRegsErr.raise (pageOf_rts (o := 0) (by decide)) rfl s bit part
  rwa [rts_add, rts_add] at raised

theorem State.bit_raise_rts (s : State) {bit : Nat} (part : Option PartId) (hb : bit < 32) : (s.raise (rts 0) bit part).bit (rts 0x14) bit = true := by
  have raised := State.bit_raise (pageOf_rts (o := 0) (by decide)) rfl s bit part hb
  rwa [rts_add] at raised

/-! ### Mailbox commands (15 R410, R427) -/

/-- A permitted write of MB_CMD with an OP of a row. -/
theorem act_mailbox {s : State} {i : Initiator} {p : Fin 3} {g : Page} (h : MayWrite s i (rtm (p.val + 1) 0x40) g) (op : Nat) (v : W32) :
    act s (fun s => s.mailbox i p.val op v) = .next (s.writeMbCmd (p.val + 1) (putField v 0 8 op)) := by
  obtain rfl : rtmPage (p.val + 1) = g := Option.some.inj ((pageOf_rtm p (by decide)).symm.trans (State.pageOf_of_pageAt h.there))
  have offset : rtm (p.val + 1) 0x40 % 4096 = 0x40 := by simp [rtm, pageBase]
  have write := act_write4 h (putField v 0 8 op)
  rw [offset] at write
  exact write

/-- Every row of a mailbox command writes MB_CMD with its OP. -/
theorem exec_mailbox {x : (Initiator → Fin 3 → W32 → Instr) × Nat} (hx : IsMailbox x) (s : State) (i : Initiator) (p : Fin 3) (v : W32) :
    exec (x.1 i p v) s = act s (fun s => s.mailbox i p.val x.2 v) ∧ x.2 < 256 := by
  simp only [IsMailbox, List.mem_cons, List.not_mem_nil, or_false] at hx
  rcases hx with rfl | rfl | rfl | rfl | rfl | rfl | rfl | rfl | rfl | rfl | rfl | rfl | rfl | rfl | rfl | rfl | rfl | rfl | rfl | rfl <;>
    exact ⟨rfl, by decide⟩

/-- Mailbox commands are accepted, turned away, or nothing, as the statement says. -/
theorem mailboxCommands : Rules.MailboxCommands := by
  intro x hx s i p v g n h
  obtain ⟨row, small⟩ := exec_mailbox hx s i p v
  have op : fieldOf (putField v 0 8 x.2) 0 8 = x.2 := by
    rw [fieldOf_putField_same _ _ _ _ (by decide)]; exact Nat.mod_eq_of_lt small
  rw [row, act_mailbox h, State.writeMbCmd]
  refine ⟨fun passed free => ?_, fun passed busy => ?_, fun failed => if_pos failed ▸ rfl⟩
  · rw [if_neg (by rw [passed]; decide), if_neg (by rw [free]; decide), op]; rfl
  · rw [if_neg (by rw [passed]; decide), if_pos busy]

/-! ### KAT_DONE (15 R410) -/

/-- What the end of the known-answer tests does. -/
def State.katEnd (s : State) (ok : Bool) : State :=
  let t := s.setBit (rts 0x44) 0 true
  if s.bit (rts 0x44) 0 then s
  else if ok then (if t.domState 0 = 0 then (t.freshCore 0).setDom 0 3 else t) else (t.setBit (rts 0x44) 1 true).raise (rts 0) 3

theorem exec_katDone {s : State} (runs : s.stalled = false) (ok : Bool) : exec (.katDone ok) s = .next (s.katEnd ok) :=
  act_runs s (fun s => s.katEnd ok) runs

/-- READY is no business of a domain. -/
theorem State.domState_ready (s : State) (b : Bool) {d : Nat} (hd : d < 512) : (s.setBit (rts 0x44) 0 b).domState d = s.domState d :=
  State.domState_congr (State.reg_setReg_other _ _ _ _ (rts_ne_dstat hd).symm)

/-- The release of core 0 of cabinet 0, which is in Stop until then (15 R410; 17 R486). -/
theorem State.releaseCore0_spec (s : State) :
    let t := ((s.setBit (rts 0x44) 0 true).freshCore 0).setDom 0 3
    t = { s with regs := t.regs, cores := t.cores } ∧ (∀ a, a ≠ rts 0x44 → a ≠ dstat 0 → t.reg a = s.reg a)
      ∧ (∀ k, t.bit (rts 0x44) k = if k = 0 then true else s.bit (rts 0x44) k) ∧ t.domState 0 = 3
      ∧ t.core 0 = { pc := BitVec.ofNat 64 (s.reg64 (rts 0x4C)) } ∧ ∀ n, n ≠ 0 → t.core n = s.core n := by
  intro t
  let u := s.setBit (rts 0x44) 0 true
  have uReg : ∀ a, a ≠ rts 0x44 → u.reg a = s.reg a := fun a ha => State.reg_setReg_other _ _ _ _ ha
  have tReg : ∀ a, a ≠ dstat 0 → t.reg a = u.reg a := fun a ha =>
    (State.reg_setDom_other _ _ _ _ ha).trans (State.reg_congr (State.freshCore_regs u 0) a)
  have vector : u.reg64 (rts 0x4C) = s.reg64 (rts 0x4C) := State.reg64_congr (uReg _ (by decide)) (uReg (rts 0x50) (by decide))
  refine ⟨rfl, fun a h1 h2 => (tReg a h2).trans (uReg a h1), fun k => ?_, State.domState_setDom_same _ _ _, ?_, fun n hn => ?_⟩
  · rw [State.bit_congr (tReg _ (rts_ne_dstat (by decide)))]; exact State.bit_setBit _ _ _ _ _ (by decide)
  · rw [← vector]; exact State.core_setCore_same u 0 _
  · exact (State.core_setCore u 0 n _).trans (if_neg hn)

/-- KAT_FAIL and its report. -/
theorem State.katFail_spec (s : State) :
    let t := ((s.setBit (rts 0x44) 0 true).setBit (rts 0x44) 1 true).raise (rts 0) 3
    t.bit (rts 0x44) 0 = true ∧ t.bit (rts 0x44) 1 = true ∧ t.bit (rts 0x14) 3 = true ∧ OnlyRegsErr s t [rts 0x44, rts 0x14, rts 0x20] := by
  intro t
  let u := (s.setBit (rts 0x44) 0 true).setBit (rts 0x44) 1 true
  have keeps : ∀ k, t.bit (rts 0x44) k = u.bit (rts 0x44) k := fun k => State.bit_congr (State.reg_raise _ _ _ _ _ (by decide) (by decide)) k
  refine ⟨?_, ?_, State.bit_raise_rts _ _ (by decide), ?_⟩
  · rw [keeps, State.bit_setBit _ _ _ _ _ (by decide), if_neg (by decide), State.bit_setBit_same _ _ _ _ (by decide)]
  · rw [keeps, State.bit_setBit_same _ _ _ _ (by decide)]
  · have raised : OnlyRegsErr u t [rts 0x44, rts 0x14, rts 0x20] :=  (OnlyRegsErr.raise_rts u 3 none).mono (by simp)
    exact ((OnlyRegsErr.setReg s _ (by simp)).trans (OnlyRegsErr.setReg _ _ (by simp))).trans raised

/-! ### RVBAR_WRITE (15 R411) -/

/-- A permitted write of a half of the reset address, under LOCK and by where the address then lies. -/
theorem exec_rvbarWrite {s : State} {i : Initiator} {hi : Bool} {g : Page} (h : MayWrite s i (rts (0x4C + 4 * b2n hi)) g) (v : W32) :
    exec (.rvbarWrite i hi v) s
      = .next (if s.bit (rts 0xC) 2 then s else s.writeRvbar hi (if hi then v &&& 0x3FF else v &&& 0xFFFFF000)) := by
  have small : 0x4C + 4 * b2n hi < 4096 := by cases hi <;> decide
  obtain rfl : rtsPage = g := Option.some.inj ((pageOf_rts small).symm.trans (State.pageOf_of_pageAt h.there))
  have write := act_write4 h v
  cases hi
  · exact write
  · exact write

/-! ### EMRAM_ACCESS (02 R23; 15 R407) -/

/-- With no injection armed, a write of the eMRAM of 8 aligned bytes that the PARTID may write is stored, and another is refused. -/
theorem State.emWrite_eq {s : State} (unarmed : s.reg (rts 0x1C) = 0) (q : PartId) (off : Nat) (l : List Byte) :
    s.emWrite q off l = if l.length ≠ 8 ∨ off % 8 ≠ 0 ∨ !s.emRight q off true then s.emRefuse q off
      else { s with mem := { s.mem with emram := Memory.writeN s.mem.emram off l } } := by
  rw [State.emWrite, State.force_rts unarmed]

/-- A refused access counts, is recorded and reported. -/
theorem State.emRefuse_spec (s : State) (q : PartId) (off : Nat) :
    OnlyRegsErr s (s.emRefuse q off) [rts 0x64, rts 0x6C, rts 0x70, rts 0x14, rts 0x20]
      ∧ (s.emRefuse q off).reg (rts 0x64) = s.reg (rts 0x64) + 1 ∧ (s.emRefuse q off).bit (rts 0x14) 0 = true := by
  unfold State.emRefuse
  extract_lets a s1 s2 s3
  have recorded : OnlyRegsErr s s3 [rts 0x64, rts 0x6C, rts 0x70, rts 0x14, rts 0x20] :=
    ((OnlyRegsErr.setReg s _ (by simp)).trans (OnlyRegsErr.setReg s1 _ (by simp))).trans (OnlyRegsErr.setReg s2 _ (by simp))
  refine ⟨recorded.trans ((OnlyRegsErr.raise_rts s3 0 (some q)).mono (by simp)), ?_,
    State.bit_raise_rts _ _ (by decide)⟩
  rw [State.reg_raise _ _ _ _ _ (by decide) (by decide), State.reg_setNat, if_neg (by decide), State.reg_setNat, if_neg (by decide)]
  exact State.reg_setReg_same _ _ _

theorem length_leBytes (n x : Nat) : (leBytes n x).length = n := by
  induction n generalizing x with
  | zero => rfl
  | succ n ih => simp [leBytes, ih]

/-- Below the application area nobody writes; in it PARTID 0 does. -/
theorem State.emRight_write (s : State) {off : Nat} :
    (off < 0x100000 → ∀ q, s.emRight q off true = false) ∧ (0x100000 ≤ off → off < 0xF00000 → s.emRight 0 off true = true) := by
  unfold State.emRight
  refine ⟨fun low q => ?_, fun lo hi => ?_⟩
  · by_cases h1 : off < 0x10000
    · rw [if_pos h1]
    · by_cases h2 : off < 0x11000
      · rw [if_neg h1, if_pos h2]; rfl
      · rw [if_neg h1, if_neg h2, if_pos low]
  · rw [if_neg (by omega), if_neg (by omega), if_neg (by omega), if_pos hi]; rfl

theorem exec_emramAccess {s : State} (runs : s.stalled = false) (w : EmAccess) : exec (.emramAccess w) s = .next (emramAccess w s) :=
  act_runs _ _ runs

theorem emramAccess_write {w : EmAccess} {i : Initiator} {d : W64} (who : w.who = some i) (data : w.data = some d) (s : State) :
    emramAccess w s = s.emWrite (s.partOf i) w.off.toNat (leBytes w.size d.toNat) := by simp only [emramAccess, who, data]

theorem emramAccess_read {w : EmAccess} {i : Initiator} (who : w.who = some i) (data : w.data = none) (s : State) :
    emramAccess w s = (s.emRead (s.partOf i) w.off.toNat w.size).2 := by simp only [emramAccess, who, data]

/-- The root of trust's own rows are as the statement gives them. -/
theorem rootOfTrustRows : Rules.RootOfTrustRows := by
  intro s runs
  have ready : ∀ d, d < 512 → (s.setBit (rts 0x44) 0 true).domState d = s.domState d := fun _ hd => s.domState_ready true hd
  refine ⟨fun idle => ?_, fun ok done => ?_, fun new stop => ?_, fun new run => ?_, fun new => ?_, fun i hi v g h => ?_,
    fun w i d who data unarmed => ⟨fun eight aligned lo hi zero => ?_, fun bad => ?_⟩, fun w i who data unarmed may => ?_⟩
  · have row : exec .mailboxCommandDone s = .next (mailboxDone s) := act_runs _ _ runs
    rw [row, mailboxDone, idle]
  · rw [exec_katDone runs, State.katEnd, if_pos done]
  · obtain ⟨rest, others, bits, state, core, cores⟩ := s.releaseCore0_spec
    have kat : s.katEnd true = ((s.setBit (rts 0x44) 0 true).freshCore 0).setDom 0 3 := by
      rw [State.katEnd, if_neg (by rw [new]; decide), if_pos rfl, if_pos ((ready 0 (by decide)).trans stop)]
    rw [exec_katDone runs, kat]
    exact ⟨_, rfl, rest, others, bits 0, fun k hk => (bits k).trans (if_neg hk), state, core, cores⟩
  · rw [exec_katDone runs, State.katEnd, if_neg (by rw [new]; decide), if_pos rfl, if_neg (by rw [ready 0 (by decide)]; exact run)]
  · have kat : s.katEnd false = ((s.setBit (rts 0x44) 0 true).setBit (rts 0x44) 1 true).raise (rts 0) 3 := by
      rw [State.katEnd, if_neg (by rw [new]; decide), if_neg (by decide)]
    rw [exec_katDone runs, kat]
    exact ⟨_, rfl, s.katFail_spec⟩
  · intro w t a
    have write : s.writeRvbar hi w = if inRom a || t.isDram a then t else s.raise (rts 0) 4 := by
      cases hi <;> rfl
    rw [exec_rvbarWrite h]
    refine ⟨fun lock => by rw [if_pos lock], fun free good => ?_, fun free rom dram => ?_⟩
    · rw [if_neg (by rw [free]; decide), write, if_pos (by rw [Bool.or_eq_true]; exact good)]
    · rw [if_neg (by rw [free]; decide), write, if_neg (by rw [rom]; exact (Bool.not_eq_true _).mpr dram)]
  · rw [exec_emramAccess runs, emramAccess_write who data, State.emWrite_eq unarmed, length_leBytes, eight, zero,
      (s.emRight_write).2 lo hi, if_neg (by simp [aligned])]
    refine ⟨_, rfl, rfl, fun k hk => ?_, fun a ha => Memory.read_writeN_other _ _ _ _ (by rw [length_leBytes]; exact ha)⟩
    have inside : k < (leBytes 8 d.toNat).length := by rw [length_leBytes]; exact hk
    rw [Memory.read_writeN_same _ _ _ _ inside, List.getD_eq_getElem _ _ inside]
  · rw [exec_emramAccess runs, emramAccess_write who data, State.emWrite_eq unarmed, length_leBytes, if_pos]
    · exact ⟨_, rfl, s.emRefuse_spec _ _⟩
    · exact bad.imp_right fun low => .inr (by rw [(s.emRight_write).1 low]; rfl)
  · have all : (List.range w.size).all (fun k => s.emRight (s.partOf i) (w.off.toNat + k) false) = true := by
      simpa using may
    rw [exec_emramAccess runs, emramAccess_read who data, State.emRead, State.force_rts unarmed]
    rw [if_pos all]

/-- Settles O40: mailbox commands and the root of trust's own rows, one theorem each. -/
theorem mailboxAndRootRows : Obligations.MailboxAndRootRows := ⟨mailboxCommands, rootOfTrustRows⟩

end Sys2Proof.Machine
end

section
/-! ## Initiator timeouts (10 R285-R287) -/

namespace Sys2Proof.Machine

/-! ### Router pages (02 R27; 10 R266) -/

theorem routerPage_add (r o : Nat) : routerPage r 0 + o = routerPage r o := by
  unfold routerPage
  split
  · rfl
  · split
    · rfl
    · split
      · rfl
      · split <;> rfl

theorem routerPage_mod (r o : Nat) : routerPage r o % 4096 = o % 4096 := by
  have base : routerPage r 0 % 4096 = 0 := by
    simp only [routerPage, pageBase]; split_ifs <;> omega
  rw [← routerPage_add]; omega

theorem routerPage_inj {r o x : Nat} (h : routerPage r o = routerPage r x) : o = x := by
  rw [← routerPage_add, ← routerPage_add r x] at h; omega

/-- At every router's address stands its page. -/
theorem pageOf_routerPage {r o : Nat} (hr : r < 82) (ho : o < 4096) :
    ∃ p, pageOf (routerPage r o) = some p ∧ p.kind = .router ∧ p.inst = r ∧ p.base = routerPage r 0 := by
  have table : ∀ r : Fin 82, (pageOf (routerPage r.val 0)).map (fun p => (p.kind, p.inst, p.base)) = some (.router, r.val, routerPage r.val 0) := by
    decide +kernel
  have first : (pageOf (routerPage r 0)).map (fun p => (p.kind, p.inst, p.base)) = some (.router, r, routerPage r 0) := table ⟨r, hr⟩
  have base := routerPage_mod r 0
  rw [Option.map_eq_some_iff] at first
  obtain ⟨p, there, same⟩ := first
  obtain ⟨kind, inst, at_⟩ : p.kind = .router ∧ p.inst = r ∧ p.base = routerPage r 0 := by simpa using same
  exact ⟨p, (pageOf_eq_of_div (by rw [← routerPage_add r o]; omega)).trans there, kind, inst, at_⟩

/-! ### TO_CFG (10 R286) -/

theorem exec_toCfgWrite {s : State} {i : Initiator} {r : Fin 82} {g : Page} (h : MayWrite s i (routerPage r.val 0x48) g) (v : W32) :
    exec (.toCfgWrite i r v) s = .next (s.writeToCfg r.val v) := by
  obtain ⟨p, there, kind, inst, -⟩ := pageOf_routerPage (o := 0x48) r.isLt (by decide)
  obtain rfl : p = g := Option.some.inj (there.symm.trans (State.pageOf_of_pageAt h.there))
  have write := act_write4 h v
  have func : ∀ j q c, s.writeFunc j q c p 0x48 v = s.writeToCfg p.inst v := by
    intro j q c
    obtain ⟨k, n, x, y, z⟩ := p
    obtain rfl : k = .router := kind
    rfl
  rw [routerPage_mod] at write
  rw [← inst, ← func]
  exact write

/-! ### What a timeout records (10 R287) -/

/-- TOCNT counts, TO_ADR holds the address, and the router reports TOUT. -/
theorem State.timeoutAt_spec (s : State) {r : Nat} (port addr : Nat) (part : PartId) (hr : r < 82) :
    OnlyRegsErr s (s.timeoutAt r port addr part) [routerPage r 0x4C, routerPage r 0x50, routerPage r 0x54, routerPage r 0x14, routerPage r 0x20]
      ∧ (s.timeoutAt r port addr part).reg (routerPage r 0x4C) = s.reg (routerPage r 0x4C) + 1
      ∧ (s.timeoutAt r port addr part).reg (routerPage r 0x50) = BitVec.ofNat 32 addr
      ∧ (s.timeoutAt r port addr part).bit (routerPage r 0x14) 0 = true := by
  obtain ⟨p, there, -, -, at_⟩ := pageOf_routerPage (o := 0) hr (by decide)
  have apart : ∀ {x y : Nat}, x ≠ y → routerPage r x ≠ routerPage r y := fun h e => h (routerPage_inj e)
  have kept : ∀ (u : State) x, x % 4096 ≠ 0x14 → x % 4096 ≠ 0x20 →
      (u.raise (routerPage r 0) 0 (some part)).reg (routerPage r x) = u.reg (routerPage r x) :=
    fun u x h k => State.reg_raise _ _ _ _ _ (by rw [routerPage_mod]; exact h) (by rw [routerPage_mod]; exact k)
  unfold State.timeoutAt
  extract_lets s1 s2 s3
  have recorded : OnlyRegsErr s s3 [routerPage r 0x4C, routerPage r 0x50, routerPage r 0x54, routerPage r 0x14, routerPage r 0x20] :=
    ((OnlyRegsErr.setReg s _ (by simp)).trans (OnlyRegsErr.setReg s1 _ (by simp))).trans (OnlyRegsErr.setReg s2 _ (by simp))
  have raised := OnlyRegsErr.raise there at_ s3 0 (some part)
  rw [routerPage_add, routerPage_add] at raised
  refine ⟨recorded.trans (raised.mono (by simp)), ?_, ?_, ?_⟩
  · rw [kept _ _ (by decide) (by decide), State.reg_setNat, if_neg (apart (by decide)), State.reg_setNat, if_neg (apart (by decide))]
    exact State.reg_setReg_same _ _ _
  · rw [kept _ _ (by decide) (by decide), State.reg_setNat, if_neg (apart (by decide)), State.reg_setNat, if_pos rfl]
  · have set := State.bit_raise there at_ s3 0 (some part) (by decide)
    rwa [routerPage_add] at set

/-! ### What a request was for (10 R287) -/

/-- Cores changed one after the other, each in the same way. -/
theorem State.core_foldl_updCore (f : Core → Core) {l : List Nat} (nd : l.Nodup) (s : State) (n : Nat) :
    (l.foldl (fun s m => s.updCore m f) s).core n = if n ∈ l then f (s.core n) else s.core n := by
  induction l generalizing s with
  | nil => rfl
  | cons m l ih =>
    obtain ⟨fresh, nd⟩ := List.nodup_cons.mp nd
    rw [List.foldl_cons, ih nd, State.core_updCore]
    by_cases h : n = m
    · subst h; simp [fresh]
    · simp [h]

theorem mem_benchCores {b n : Nat} : n ∈ benchCores b ↔ n / 8 = b := by
  simp only [benchCores, List.mem_map, List.mem_range]
  exact ⟨fun ⟨k, hk, e⟩ => by omega, fun h => ⟨n % 8, by omega, by omega⟩⟩

theorem benchCores_nodup (b : Nat) : (benchCores b).Nodup := 
  List.Nodup.map (fun x y (h : 8 * b + x = 8 * b + y) => by omega) List.nodup_range

@[simp] theorem Core.ackStore_g (c : Core) (t : W16) : (c.ackStore t).g = c.g := by
  unfold Core.ackStore
  split
  · split <;> rfl
  · rfl

/-- A core whose request of a tag has timed out: a store of that tag is done, and a read gets 0. -/
def Core.giveUp (t : W16) (c : Core) : Core := (c.ackStore t).answer t 0 false

theorem Core.giveUp_spec (t : W16) (c : Core) : (c.giveUp t).g = c.g ∧ ∀ x ∈ (c.giveUp t).ext, x.tag = t → x.got = some (0, false) := by
  refine ⟨c.ackStore_g t, fun x hx tag => ?_⟩
  obtain ⟨y, -, rfl⟩ := List.mem_map.mp hx
  split
  · rfl
  · rename_i other; rw [if_neg other] at tag; exact absurd tag other

/-- A read outside the caches that times out: the cores of its bench give it up. -/
theorem State.benchTimeout_read (s : State) (b : Nat) {q : Packet} (h : q.op = 0x03 ∨ q.op = 0x04) :
    s.benchTimeout b q = (benchCores b).foldl (fun s n => s.updCore n (Core.giveUp q.tag)) s := by
  have fill : ¬(q.op = opRdSh ∨ q.op = opRdUn) := by rcases h with h | h <;> rw [h] <;> decide
  have back : q.op ≠ opWrBk := by rcases h with h | h <;> rw [h] <;> decide
  have inval : q.op ≠ opTlbi := by rcases h with h | h <;> rw [h] <;> decide
  unfold State.benchTimeout
  simp only [if_neg fill, if_neg back, if_neg inval]
  rfl

/-- A bench's request comes from a bench router. -/
theorem benchOf_src {q : Packet} {b : Nat} (h : benchOf q = some b) : q.src.toNat < 32 := by
  unfold benchOf at h
  dsimp only at h
  split at h
  · rename_i bench
    obtain ⟨kind, -⟩ := bench
    unfold routerKind at kind
    by_contra big
    rw [if_neg big] at kind
    split_ifs at kind
  · cases h

theorem exec_initiatorTimeout {s : State} (runs : s.stalled = false) (j : Nat) : exec (.initiatorTimeout j) s = .next (initiatorTimeout j s) :=
  act_runs _ _ runs

/-- The request list without request `j`. -/
def State.dropOut (s : State) (j : Nat) : State := { s with net := { s.net with outs := s.net.outs.eraseIdx j } }

/-- Is a request held back: a regulator still holds it, or it waits for a cache that is not ready (10 R286)? -/
def State.heldBack (s : State) (q : Packet) : Bool :=
  s.net.flights.any (fun f => (f.held || s.atUnready f) && f.pkt.tag = q.tag && f.pkt.src = q.src && f.pkt.srcp = q.srcp && f.pkt.op = q.op)

theorem State.heldBack_iff (s : State) (q : Packet) : s.heldBack q = true ↔ ∃ f ∈ s.net.flights,
    (f.held = true ∨ s.atUnready f = true) ∧ f.pkt.tag = q.tag ∧ f.pkt.src = q.src ∧ f.pkt.srcp = q.srcp ∧ f.pkt.op = q.op := by
  simp only [State.heldBack, List.any_eq_true, Bool.and_eq_true, Bool.or_eq_true, decide_eq_true_eq, and_assoc]

/-- A request that is held back does not expire. -/
theorem initiatorTimeout_held {s : State} {j : Nat} {q : Packet} (out : s.net.outs[j]? = some q) (held : s.heldBack q = true) :
    initiatorTimeout j s = s := by
  unfold State.heldBack at held
  simp only [initiatorTimeout, out, held, if_true]

/-- A read of a bench that nothing holds back expires. -/
theorem initiatorTimeout_read {s : State} {j b : Nat} {q : Packet} (out : s.net.outs[j]? = some q) (free : s.heldBack q = false)
    (bench : benchOf q = some b) :
    initiatorTimeout j s = ((s.dropOut j).timeoutAt q.src.toNat q.srcp.val q.addr.toNat q.part).benchTimeout b q := by
  have src := benchOf_src bench
  have slice : sliceOf q.src.toNat = none := if_neg (by omega)
  unfold State.heldBack at free
  unfold initiatorTimeout
  simp only [out, free, slice, bench]
  rfl

/-- Initiator timeouts are as the statement gives them. -/
theorem initiatorTimeouts : Rules.InitiatorTimeouts := by
  intro s runs
  refine ⟨fun j gone => ?_, fun j q out held => ?_, fun j q b n out free bench core hn op => ?_, fun i r v p h => ?_⟩
  · rw [exec_initiatorTimeout runs, initiatorTimeout, gone]
  · rw [exec_initiatorTimeout runs, initiatorTimeout_held out ((s.heldBack_iff q).mpr held)]
  · obtain ⟨only, count, addr, tout⟩ :=
      (s.dropOut j).timeoutAt_spec q.srcp.val q.addr.toNat q.part (r := q.src.toNat) (by have := benchOf_src bench; omega)
    have expires : s.heldBack q = false := by
      rw [← Bool.not_eq_true, s.heldBack_iff]
      rintro ⟨f, hf, wait, -⟩
      simp [free f hf] at wait
    rw [exec_initiatorTimeout runs, initiatorTimeout_read out expires bench, State.benchTimeout_read _ _ op]
    generalize (s.dropOut j).timeoutAt q.src.toNat q.srcp.val q.addr.toNat q.part = u at only count addr tout
    have cores := State.core_foldl_updCore (Core.giveUp q.tag) (benchCores_nodup b) u n
    rw [if_pos (mem_benchCores.mpr core)] at cores
    have kept : ∀ {β : Type} (g : State → β), (∀ (t : State) m, g (t.updCore m (Core.giveUp q.tag)) = g t) →
        g ((benchCores b).foldl (fun s n => s.updCore n (Core.giveUp q.tag)) u) = g u := fun g hg => foldl_keeps g _ hg _ u
    have regs := State.reg_congr (kept State.regs fun _ _ => rfl)
    obtain ⟨g, ext⟩ := (u.core n).giveUp_spec q.tag
    have same : u.core n = s.core n := State.core_congr (by rw [only.rest]; rfl) n
    refine ⟨_, rfl, ?_, (regs _).trans count, (regs _).trans addr, (State.bit_congr (regs _) _).trans tout, ?_, ?_, ?_⟩
    · rw [kept (fun t => t.net.outs) fun _ _ => rfl, only.rest]; rfl
    · rw [cores]; exact ext
    · rw [cores, g, same]
    · rw [kept State.mem fun _ _ => rfl, only.rest]; rfl
  · rw [exec_toCfgWrite h, State.writeToCfg]
    exact ⟨fun low high => by rw [if_neg (by omega)], fun bad => by rw [if_pos bad]⟩

end Sys2Proof.Machine
end

section
/-! ## Control-space packets and the control network (02 R26; 10 R295-R298; 15 R425), and O35 -/

namespace Sys2Proof.Machine

/-! ### A word of control space (02 R26) -/

theorem toNat_word (v : W32) : v.toNat / 2 ^ (8 * 0) % 2 ^ (8 * 4) = v.toNat := by
  rw [Nat.mul_zero, Nat.pow_zero, Nat.div_one]; exact Nat.mod_eq_of_lt v.isLt

/-- A write of a whole word at a page that answers is performed as the page takes it. -/
theorem State.ctlWrite1_word {s : State} {x : Nat} {p : Page} (there : s.pageAt (x / 4 * 4) = some p) (i : Nat) (q : PartId) (v : W32) :
    s.ctlWrite1 i q (x / 4 * 4 + 0) 4 (v.toNat / 2 ^ (8 * 0) % 2 ^ (8 * 4)) = some (0, s.acceptWrite i q s.power.aon p (x % 4096 / 4 * 4) v) := by
  have offset : x / 4 * 4 % 4096 / 4 * 4 = x % 4096 / 4 * 4 := by omega
  have word : BitVec.ofNat 32 v.toNat = v := by rw [BitVec.ofNat_toNat, BitVec.setWidth_eq]
  rw [toNat_word, Nat.add_zero]
  simp only [State.ctlWrite1, there, offset, word]
  rfl

/-- A read of a whole word at a page that answers is the read of its register. -/
theorem State.ctlRead1_word {s : State} {x : Nat} {p : Page} (there : s.pageAt (x / 4 * 4) = some p) (i : Nat) :
    s.ctlRead1 i (x / 4 * 4 + 0) 4 = some ((s.readReg i p (x % 4096 / 4 * 4)).1.toNat, (s.readReg i p (x % 4096 / 4 * 4)).2) := by
  have offset : x / 4 * 4 % 4096 / 4 * 4 = x % 4096 / 4 * 4 := by omega
  have low : x / 4 * 4 % 4 = 0 := by omega
  rw [Nat.add_zero]
  simp only [State.ctlRead1, there, offset, low, toNat_word]

theorem beBytes_word : beBytes 15 = some (0, 4) := rfl

/-! ### Nodes on the way (10 R296; 18 R504) -/

theorem stoolPage_add (k o : Nat) : stoolPage k 0 + o = stoolPage k o := by
  unfold stoolPage
  split
  · rfl
  · split <;> rfl

/-- Where no node finds an error, a packet passes. -/
theorem State.ctlTravel_passes {s : State} {bad : Option Nat} {path : List Nat} (clear : PathClear s path) (good : ∀ n, bad = some n → n ∉ path) :
    s.ctlTravel bad path = (false, s) := by
  induction path with
  | nil => rfl
  | cons n path ih =>
    have here : bad ≠ some n := fun h => good n h (by simp)
    have unarmed : s.bit (stoolPage (nodeStool n) 0 + 0x1C) 29 = false := by rw [stoolPage_add]; exact clear n (by simp)
    rw [State.ctlTravel]
    simp only [here, unarmed, if_false, Bool.false_eq_true]
    exact ih (fun m hm => clear m (by simp [hm])) (fun m hm hin => good m hm (by simp [hin]))

/-- The node that finds an error discards the packet and reports it. -/
theorem State.ctlTravel_found {s : State} {n : Nat} {path : List Nat} (clear : PathClear s path) (on : n ∈ path) :
    s.ctlTravel (some n) path = (true, s.raise (stoolPage (nodeStool n) 0) 29) := by
  induction path with
  | nil => cases on
  | cons m path ih =>
    rw [State.ctlTravel]
    by_cases here : n = m
    · subst here; simp
    · have unarmed : s.bit (stoolPage (nodeStool m) 0 + 0x1C) 29 = false := by rw [stoolPage_add]; exact clear m (by simp)
      simp only [Option.some.injEq, here, unarmed, if_false, Bool.false_eq_true]
      exact ih (fun k hk => clear k (by simp [hk])) ((List.mem_cons.mp on).resolve_left here)

theorem map_val_good {bad : Option (Fin 33)} {path : List Nat} (h : ∀ n, bad = some n → n.val ∉ path) :
    ∀ n, bad.map Fin.val = some n → n ∉ path := by
  intro n hn
  obtain ⟨k, hk, rfl⟩ := Option.map_eq_some_iff.mp hn
  exact h k hk

/-! ### CONTROL_NODE_ACCEPT (10 R295-R297) -/

theorem exec_controlNodeAccept {s : State} (runs : s.stalled = false) (x : CtlAccess) : exec (.controlNodeAccept x) s = .next (nodeAccept x s) :=
  act_runs _ _ runs

/-- The block without a request of the control network. -/
def State.dropCtl (s : State) (k : CtlPkt) : State := { s with net := { s.net with ctl := s.net.ctl.erase k } }

/-- What a page's node and the way back make of a request that has come through. -/
def State.ctlReturn (s : State) (x : CtlAccess) (back : List Nat) (v : Nat) : State :=
  let u := s.ctlTravel (x.badResponse.map Fin.val) back
  if u.1 then u.2 else u.2.ctlAnswer (ctlPktOf x) v

theorem node_of_there {x : CtlAccess} {p : Page} (there : pageOf x.addr.toNat = some p) :
    ((pageOf (ctlPktOf x).addr.toNat).map Page.node).getD 0 = p.node := by
  show ((pageOf x.addr.toNat).map Page.node).getD 0 = p.node
  rw [there]; rfl

/-- A request that does not come through changes what the node that found the error reports. -/
theorem nodeAccept_discarded {s t : State} {x : CtlAccess} {p : Page} (there : pageOf x.addr.toNat = some p)
    (free : s.ctlBehind (ctlPktOf x) = false)
    (travel : (s.dropCtl (ctlPktOf x)).ctlTravel (x.badRequest.map Fin.val) (nodePath x.node.val p.node) = (true, t)) :
    nodeAccept x s = t := by
  unfold State.dropCtl at travel
  unfold nodeAccept
  simp only [free, node_of_there there]
  rw [show (ctlPktOf x).node = x.node.val from rfl, travel]
  rfl

/-- A request that comes through is performed, and its answer goes back. -/
theorem nodeAccept_performed {s u : State} {x : CtlAccess} {p : Page} {v : Nat} (there : pageOf x.addr.toNat = some p)
    (free : s.ctlBehind (ctlPktOf x) = false)
    (travel : (s.dropCtl (ctlPktOf x)).ctlTravel (x.badRequest.map Fin.val) (nodePath x.node.val p.node) = (false, s.dropCtl (ctlPktOf x)))
    (perform : (s.dropCtl (ctlPktOf x)).ctlPerform (ctlPktOf x) = some (v, u)) :
    nodeAccept x s = u.ctlReturn x (nodePath p.node x.node.val) v := by
  unfold State.dropCtl at travel perform
  unfold nodeAccept
  simp only [free, node_of_there there]
  rw [show (ctlPktOf x).node = x.node.val from rfl, travel]
  simp only [perform]
  rfl

/-- A page that answers performs a request of a whole word: a write as it takes it, a read as it reads (10 R297). -/
theorem State.ctlPerform_word {s : State} {k : CtlPkt} {p : Page} (there : s.pageAt (k.addr.toNat / 4 * 4) = some p) (be : k.be = 15) :
    (∀ v, k.data = some v →
        s.ctlPerform k = some (0, s.acceptWrite (s.ctlIni k) k.part s.power.aon p (k.addr.toNat % 4096 / 4 * 4) v))
      ∧ (k.data = none → s.ctlPerform k = some ((s.readReg (s.ctlIni k) p (k.addr.toNat % 4096 / 4 * 4)).1.toNat,
          (s.readReg (s.ctlIni k) p (k.addr.toNat % 4096 / 4 * 4)).2)) := by
  unfold State.ctlPerform
  rw [be, beBytes_word]
  refine ⟨fun v data => ?_, fun data => ?_⟩
  · rw [data]; exact State.ctlWrite1_word there _ _ _
  · rw [data]; exact State.ctlRead1_word there _

/-- The way back of an answer on which no injection is armed. -/
theorem State.ctlReturn_spec {u : State} {x : CtlAccess} {back : List Nat} (v : Nat) (clear : PathClear u back) :
    (∀ n, x.badResponse = some n → n.val ∈ back → u.ctlReturn x back v = u.raise (stoolPage (nodeStool n.val) 0) 29)
      ∧ ((∀ n, x.badResponse = some n → n.val ∉ back) → u.ctlReturn x back v = u.ctlAnswer (ctlPktOf x) v) := by
  unfold State.ctlReturn
  refine ⟨fun n bad on => ?_, fun good => ?_⟩
  · rw [bad, Option.map_some, State.ctlTravel_found clear on]; rfl
  · rw [State.ctlTravel_passes clear (map_val_good good)]; rfl

theorem State.pageAt_word {s : State} {x : Nat} {p : Page} (there : pageOf x = some p) (up : s.pageUp p = true) : s.pageAt (x / 4 * 4) = some p := by
  have word : pageOf (x / 4 * 4) = some p := (pageOf_eq_of_div (by omega)).trans there
  simp only [State.pageAt, word, up, if_true]

/-! ### Answers at a bridge (10 R298) -/

/-- An answer sent back is a packet in flight to where the request came from. -/
theorem State.respond_eq (s : State) (q : Packet) (op : BitVec 8) (inl : BitVec 256) :
    ∃ f : Flight, s.respond q op inl 0 false = { s with net := { s.net with flights := s.net.flights ++ [f] } }
      ∧ f.pkt.dst = q.src ∧ f.pkt.dstp = q.srcp ∧ f.pkt.tag = q.tag ∧ f.pkt.op = op ∧ f.pkt.inl = inl := ⟨_, rfl, rfl, rfl, rfl, rfl, rfl⟩

/-- The halves of the data of an access as one number, the lower first. -/
def wordsNat (l : List W32) : Nat := l.foldr (fun w n => w.toNat + 4294967296 * n) 0

theorem State.ctlAnswer_none {s : State} {k : CtlPkt} (h : s.bridgeAcc k = none) (v : Nat) : s.ctlAnswer k v = s := by
  simp only [State.ctlAnswer, h]

/-- The half of an access that has another to come is kept by the bridge. -/
theorem State.ctlAnswer_half {s : State} {k : CtlPkt} {b : BridgeAcc} (h : s.bridgeAcc k = some b) (v : Nat) (more : b.left.erase k.tag ≠ []) :
    s.ctlAnswer k v = { s with net := { s.net with bridges := s.net.bridges.map (fun c =>
      if c = b then { b with left := b.left.erase k.tag, data := b.data ++ [BitVec.ofNat 32 v] } else c) } } := by
  have more_ : (b.left.erase k.tag).isEmpty = false := by rw [List.isEmpty_eq_false_iff]; exact more
  simp only [State.ctlAnswer, h, more_]
  rfl

/-- With the last half the bridge answers. -/
theorem State.ctlAnswer_last {s : State} {k : CtlPkt} {b : BridgeAcc} (h : s.bridgeAcc k = some b) (v : Nat) (last : b.left.erase k.tag = []) :
    s.ctlAnswer k v = if k.data.isSome then ({ s with net := { s.net with bridges := s.net.bridges.erase b } } : State).respond b.pkt opAck 0 0 false
      else ({ s with net := { s.net with bridges := s.net.bridges.erase b } } : State).respond b.pkt opDataS
        (BitVec.ofNat 256 (wordsNat (b.data ++ [BitVec.ofNat 32 v]))) 0 false := by
  simp only [State.ctlAnswer, h, last]
  rfl

theorem mem_of_bridgeAcc {s : State} {k : CtlPkt} {b : BridgeAcc} (h : s.bridgeAcc k = some b) : b ∈ s.net.bridges := by
  unfold State.bridgeAcc at h
  split at h
  · exact List.mem_of_find?_eq_some h
  · cases h

/-- What answers do at a bridge. -/
theorem State.ctlAnswer_spec {s : State} {k : CtlPkt} {b : BridgeAcc} {v : Nat} (hv : v < 2 ^ 32) (h : s.bridgeAcc k = some b) :
    (b.left.erase k.tag ≠ [] → ∃ w, s.ctlAnswer k v = { s with net := { s.net with bridges := w } } ∧ w.length = s.net.bridges.length
        ∧ { b with left := b.left.erase k.tag, data := b.data ++ [BitVec.ofNat 32 v] } ∈ w)
      ∧ (b.left.erase k.tag = [] → ∃ f, s.ctlAnswer k v
            = { s with net := { s.net with bridges := s.net.bridges.erase b, flights := s.net.flights ++ [f] } }
          ∧ f.pkt.dst = b.pkt.src ∧ f.pkt.dstp = b.pkt.srcp ∧ f.pkt.tag = b.pkt.tag ∧ f.pkt.op = (if k.data.isSome then 0x22 else 0x21)
          ∧ (k.data = none → b.data = [] → f.pkt.inl = BitVec.ofNat 256 v)
          ∧ (∀ lo, k.data = none → b.data = [lo] → f.pkt.inl = BitVec.ofNat 256 (lo.toNat + 4294967296 * v))) := by
  have word : (BitVec.ofNat 32 v).toNat = v := by rw [BitVec.toNat_ofNat]; exact Nat.mod_eq_of_lt hv
  refine ⟨fun more => ⟨_, State.ctlAnswer_half h v more, List.length_map _, ?_⟩, fun last => ?_⟩
  · exact List.mem_map.mpr ⟨b, mem_of_bridgeAcc h, if_pos rfl⟩
  · rw [State.ctlAnswer_last h v last]
    cases data : k.data with
    | some d =>
      obtain ⟨f, sent, dst, dstp, tag, op, -⟩ := State.respond_eq ({ s with net := { s.net with bridges := s.net.bridges.erase b } } : State) b.pkt opAck 0
      exact ⟨f, sent, dst, dstp, tag, op, nofun, nofun⟩
    | none =>
      obtain ⟨f, sent, dst, dstp, tag, op, inl⟩ := State.respond_eq ({ s with net := { s.net with bridges := s.net.bridges.erase b } } : State) b.pkt opDataS
        (BitVec.ofNat 256 (wordsNat (b.data ++ [BitVec.ofNat 32 v])))
      refine ⟨f, sent, dst, dstp, tag, op, fun _ first => ?_, fun lo _ second => ?_⟩
      · rw [inl, first, List.nil_append, wordsNat, List.foldr_cons, List.foldr_nil, word, Nat.mul_zero, Nat.add_zero]
      · rw [inl, second, wordsNat, List.cons_append, List.nil_append, List.foldr_cons, List.foldr_cons, List.foldr_nil, word, Nat.mul_zero, Nat.add_zero]

/-! ### Packets at a gateway's bridge (10 R298) -/

/-- The node and the source of a gateway's bridge in the control network. -/
def bridgeNode (g : Nat) : Nat := 1 + routerCabinet g
def bridgeSrc (g : Nat) : Nat := if g = gatewayRouter (bridgeNode g - 1) 0 then 1 else 2

theorem bridgeSrc_eq (g : Nat) : bridgeSrc g = if g = gatewayRouter (routerCabinet g) 0 then 1 else 2 := by
  unfold bridgeSrc bridgeNode; rw [Nat.add_sub_cancel_left]

/-- The request that a bridge makes of half `j` of a packet of `n` bytes at offset `a`, under tag `t`. -/
def bridgeHalf (g : Nat) (q : Packet) (write : Bool) (n a j : Nat) (t : BitVec 6) : CtlPkt :=
  ⟨bridgeNode g, bridgeSrc g, t, q.part, BitVec.ofNat 4 (if n = 8 then 15 else (2 ^ n - 1) * 2 ^ (a % 4)), BitVec.ofNat 28 (a + 4 * j),
    if write then some (BitVec.ofNat 32 (if n = 8 then natField q.inl.toNat (32 * j) 32 else natField q.inl.toNat 0 (8 * n) * 2 ^ (8 * (a % 4))))
    else none⟩

theorem foldl_ctlSend {α : Type} (f : α → CtlPkt) (l : List α) (s : State) :
    l.foldl (fun s x => s.ctlSend (f x)) s = { s with net := { s.net with ctl := s.net.ctl ++ l.map f } } := by
  induction l generalizing s with
  | nil => simp
  | cons x l ih => rw [List.foldl_cons, ih]; simp [State.ctlSend]

/-- The tags that a bridge takes for a packet of `n` bytes. -/
def State.bridgeTags (s : State) (g n : Nat) : List (BitVec 6) := (s.freeTags (bridgeNode g) (bridgeSrc g)).take (if n = 8 then 2 else 1)

/-- A bridge holds the packet and its halves set out. -/
theorem State.bridgeForward_eq (s : State) (g : Nat) (q : Packet) (write : Bool) :
    let n := q.size.toNat + 1
    let a := q.addr.toNat - 0x3F000000000
    s.bridgeForward g q write = ({ s with net := { s.net with
        bridges := s.net.bridges ++ [⟨g, q, s.bridgeTags g n, []⟩]
        ctl := s.net.ctl ++ (s.bridgeTags g n).zipIdx.map (fun x => bridgeHalf g q write n a x.2 x.1) } } : State).count (routerPage g 0x7C) := by
  intro n a
  have fold := foldl_ctlSend (fun x : BitVec 6 × Nat => bridgeHalf g q write n a x.2 x.1) (s.bridgeTags g n).zipIdx
    { s with net := { s.net with bridges := s.net.bridges ++ [⟨g, q, s.bridgeTags g n, []⟩] } }
  exact (congrArg (fun t : State => t.count (routerPage g 0x7C)) fold :)

/-- A packet that arrives leaves the list of those in flight. -/
theorem State.arrive_eq (s : State) (q : Packet) : ∃ l, s.arrive q = { s with net := { s.net with flights := l } } := by
  unfold State.arrive
  split
  · exact ⟨_, rfl⟩
  · exact ⟨s.net.flights, rfl⟩

/-- A packet for control space at a gateway's bridge: a seventeenth waits, another of a size that control space takes is forwarded. -/
theorem bridgeArrive_gateway {s : State} {q : Packet} (write : Bool) (gate : s.atGate q = false)
    (kind : routerKind q.dst.toNat = .computeGateway ∨ routerKind q.dst.toNat = .memoryGateway ∨ routerKind q.dst.toNat = .iocGateway)
    (port : q.dstp = 0) (there : inControl q.addr.toNat = true) :
    (16 ≤ (s.net.bridges.filter (fun b => b.gw = q.dst.toNat)).length → bridgeArrive q write s = s)
      ∧ ((s.net.bridges.filter (fun b => b.gw = q.dst.toNat)).length < 16 → ctlSize (q.addr.toNat % 8) (q.size.toNat + 1) = true →
          bridgeArrive q write s = (s.arrive q).bridgeForward q.dst.toNat q write) := by
  have bridge : (!(routerKind q.dst.toNat = .computeGateway || routerKind q.dst.toNat = .memoryGateway || routerKind q.dst.toNat = .iocGateway)
      || !inControl q.addr.toNat || q.dstp ≠ 0) = false := by
    rcases kind with kind | kind | kind <;> simp [kind, there, port]
  unfold bridgeArrive
  dsimp only
  rw [if_neg (by rw [gate]; decide), if_neg (by rw [bridge]; decide)]
  refine ⟨fun full => if_pos full, fun room size => ?_⟩
  rw [if_neg (by omega), if_pos size]

/-- Control space takes 1, 2, 4 and 8 aligned bytes. -/
theorem ctlSize_of_offset {x n : Nat} (there : inControl x = true) (hn : n ∈ [1, 2, 4, 8]) (aligned : (x - 0x3F000000000) % n = 0) :
    ctlSize (x % 8) n = true := by
  have low : 0x3F000000000 ≤ x := by
    unfold inControl at there; rw [Bool.and_eq_true, decide_eq_true_eq] at there; exact there.1
  simp only [List.mem_cons, List.not_mem_nil, or_false] at hn
  have al : x % 8 % n = 0 := by obtain rfl | rfl | rfl | rfl := hn <;> omega
  unfold ctlSize
  rw [al]
  obtain rfl | rfl | rfl | rfl := hn <;> rfl

theorem State.arrive_keeps (s : State) (q : Packet) :
    (s.arrive q).net.bridges = s.net.bridges ∧ (s.arrive q).net.ctl = s.net.ctl ∧ (s.arrive q).regs = s.regs := by
  obtain ⟨l, eq⟩ := s.arrive_eq q
  rw [eq]; exact ⟨rfl, rfl, rfl⟩

theorem State.freeTags_arrive (s : State) (q : Packet) (node src : Nat) : (s.arrive q).freeTags node src = s.freeTags node src := by
  obtain ⟨l, eq⟩ := s.arrive_eq q
  rw [eq]; rfl

theorem State.bridgeTags_eq (s : State) (g n : Nat) :
    s.bridgeTags g n = (s.freeTags (1 + routerCabinet g) (if g = gatewayRouter (routerCabinet g) 0 then 1 else 2)).take (if n = 8 then 2 else 1) := by
  rw [State.bridgeTags, bridgeSrc_eq]; rfl

/-- What a bridge that takes a packet changes: CB_CNT, what it holds, and what is under way in the control network. -/
theorem State.bridgeForward_arrived (s : State) (g : Nat) (q : Packet) (write : Bool) :
    let n := q.size.toNat + 1
    let a := q.addr.toNat - 0x3F000000000
    let t := (s.arrive q).bridgeForward g q write
    t.reg (routerPage g 0x7C) = s.reg (routerPage g 0x7C) + 1 ∧ OnlyRegs { s.arrive q with net := t.net } t [routerPage g 0x7C]
      ∧ t.net.bridges = s.net.bridges ++ [⟨g, q, s.bridgeTags g n, []⟩]
      ∧ t.net.ctl = s.net.ctl ++ (s.bridgeTags g n).zipIdx.map (fun x => bridgeHalf g q write n a x.2 x.1) := by
  intro n a t
  obtain ⟨bridges, ctl, regs⟩ := s.arrive_keeps q
  have tags : (s.arrive q).bridgeTags g n = s.bridgeTags g n := by rw [State.bridgeTags, State.freeTags_arrive]; rfl
  have eq := (s.arrive q).bridgeForward_eq g q write
  dsimp only at eq
  rw [show q.size.toNat + 1 = n from rfl, tags, bridges, ctl] at eq
  unfold t
  rw [eq]
  exact ⟨(State.reg_setReg_same _ _ _).trans (congrArg (· + 1) (State.reg_congr regs _)),
    ⟨rfl, fun b hb => State.reg_setReg_other _ _ _ _ (by simpa using hb)⟩, rfl, rfl⟩

theorem natField_word (x : BitVec 256) (j : Nat) : BitVec.ofNat 32 (natField x.toNat (32 * j) 32) = BitVec.extractLsb' (32 * j) 32 x := by
  apply BitVec.eq_of_toNat_eq
  simp [natField]

/-- A half of 4 whole bytes carries its word. -/
theorem bridgeHalf_word (g : Nat) (q : Packet) (write : Bool) {n a j : Nat} (t : BitVec 6) (h : n = 8 ∨ (n = 4 ∧ a % 4 = 0 ∧ j = 0)) :
    bridgeHalf g q write n a j t = ⟨bridgeNode g, bridgeSrc g, t, q.part, 15, BitVec.ofNat 28 (a + 4 * j),
      if write then some (BitVec.extractLsb' (32 * j) 32 q.inl) else none⟩ := by
  rw [← natField_word]
  obtain rfl | ⟨rfl, aligned, rfl⟩ := h
  · rfl
  · unfold bridgeHalf; rw [aligned]; simp

theorem bridgeHalf_addr (g : Nat) (q : Packet) (write : Bool) (n a : Nat) (t : BitVec 6) : (bridgeHalf g q write n a 0 t).addr = BitVec.ofNat 28 a := rfl

/-- The byte enables of fewer bytes select them. -/
theorem bridgeHalf_bytes (g : Nat) (q : Packet) (write : Bool) {n a j i : Nat} (t : BitVec 6) (hn : n ≠ 8) (hi : i < 4) :
    (bridgeHalf g q write n a j t).be.getLsbD i = decide (a % 4 ≤ i ∧ i < a % 4 + n) := by
  have bits : (bridgeHalf g q write n a j t).be = BitVec.ofNat 4 ((2 ^ n - 1) * 2 ^ (a % 4)) := by unfold bridgeHalf; rw [if_neg hn]
  rw [bits, BitVec.getLsbD_ofNat, Nat.testBit_mul_two_pow, Nat.testBit_two_pow_sub_one]
  simp only [hi, decide_true, Bool.true_and, ← Bool.decide_and]
  exact decide_eq_decide.mpr ⟨fun h => by omega, fun h => by omega⟩

theorem zipIdx_take_one_map {α β : Type} (f : α → Nat → β) (l : List α) :
    (l.take 1).zipIdx.map (fun x => f x.1 x.2) = (l.take 1).map (fun x => f x 0) := by cases l <;> rfl

/-! ### JTAG (15 R425) -/

theorem exec_jtagControlAccess {s : State} (runs : s.stalled = false) (x : JtagAccess) : exec (.jtagControlAccess x) s = .next (jtagAccess x s) :=
  act_runs _ _ runs

/-- A word written over JTAG is a write by PARTID 0, where JTAG is in DBG. -/
theorem jtagAccess_write {s : State} {x : JtagAccess} {p : Page} {v : W32} (there : s.pageAt (x.addr.toNat / 4 * 4) = some p) (be : x.be = 15)
    (data : x.data = some v) (clear : PathClear s (nodePath 0 p.node)) :
    jtagAccess x s = if s.dbg.testBit 0 then s.acceptWrite 226 0 s.power.aon p (x.addr.toNat % 4096 / 4 * 4) v else s := by
  have dst : ((pageOf (x.addr.toNat / 4 * 4)).map Page.node).getD 0 = p.node := by rw [State.pageOf_of_pageAt there]; rfl
  have travel : s.ctlTravel none (nodePath 0 p.node) = (false, s) := State.ctlTravel_passes clear nofun
  have write := State.ctlWrite1_word there 226 0 v
  unfold jtagAccess
  cases on : s.dbg.testBit 0 with
  | false => rfl
  | true =>
    simp only [dst, travel, be, beBytes_word, data, write]
    rfl

/-! ### The statement -/

/-- The control network and its bridges are as the statement gives them. -/
theorem controlNetwork : Rules.ControlNetwork := by
  intro s runs
  refine ⟨?_, fun g j => ⟨fun gone => ?_, fun x held => ?_⟩,
    fun x p there => ⟨fun behind => ?_, fun free clear => ⟨fun n bad on => ?_, fun good up be => ?_⟩⟩,
    fun k v hv => ⟨fun none_ => State.ctlAnswer_none none_ v, fun b held => State.ctlAnswer_spec hv held⟩, fun x p v there be data clear => ?_⟩
  · rintro k _ rfl kind port ctl ⟨ins, q, w⟩ row gate
    obtain ⟨⟨op, rfl⟩, row⟩ : (∃ op, q = { k with op := op }) ∧ exec ins s = .next (bridgeArrive q w s) := by
      simp only [List.mem_cons, List.not_mem_nil, or_false, Prod.mk.injEq] at row
      obtain ⟨rfl, rfl, rfl⟩ | ⟨rfl, rfl, rfl⟩ := row
      · exact ⟨⟨_, rfl⟩, act_runs _ _ runs⟩
      · exact ⟨⟨_, rfl⟩, act_runs _ _ runs⟩
    obtain ⟨waits, forwards⟩ := bridgeArrive_gateway w gate kind port ctl
    intro g n a node src free word
    obtain ⟨count, only, bridges, ctls⟩ := s.bridgeForward_arrived g { k with op := op } w
    have tags := s.bridgeTags_eq g n
    refine ⟨fun full => by rw [row, waits full], fun room hn aligned => ?_⟩
    rw [row, forwards room (ctlSize_of_offset ctl hn aligned)]
    refine ⟨_, rfl, count, only, fun four => ?_, fun t r l eight some_ => ?_, fun t l small some_ => ?_⟩
    · have one : s.bridgeTags g n = free.take 1 := by rw [tags, if_neg (by omega)]
      have half : ∀ t, bridgeHalf g { k with op := op } w n a 0 t = ⟨node, src, t, k.part, 15, BitVec.ofNat 28 a, word 0⟩ := fun t => by
        rw [bridgeHalf_word g _ w t (.inr ⟨four, by rw [four] at aligned; exact aligned, rfl⟩), bridgeSrc_eq, Nat.mul_zero, Nat.add_zero]; rfl
      refine ⟨bridges.trans (by rw [one]), ctls.trans ?_⟩
      rw [one, zipIdx_take_one_map (fun t j => bridgeHalf g { k with op := op } w n a j t), funext half]
    · have two : s.bridgeTags g n = [t, r] := by rw [tags, if_pos eight, show s.freeTags _ _ = _ from some_]; rfl
      have half : ∀ j t, bridgeHalf g { k with op := op } w n a j t = ⟨node, src, t, k.part, 15, BitVec.ofNat 28 (a + 4 * j), word j⟩ :=
        fun j t => by rw [bridgeHalf_word g _ w t (.inl eight), bridgeSrc_eq]; rfl
      have lower := half 0 t
      have upper := half 1 r
      rw [Nat.mul_zero, Nat.add_zero] at lower
      rw [Nat.mul_one] at upper
      refine ⟨bridges.trans (by rw [two]), ctls.trans ?_⟩
      rw [two, ← lower, ← upper]; rfl
    · have one : s.bridgeTags g n = [t] := by rw [tags, if_neg (by omega), show s.freeTags _ _ = _ from some_]; rfl
      refine ⟨bridgeHalf g { k with op := op } w n a 0 t, ctls.trans (by rw [one]; rfl), rfl, rfl, bridgeHalf_addr g _ w _ _ t,
        fun i hi => bridgeHalf_bytes g _ w t (by omega) hi, ?_⟩
      cases w <;> rfl
  · have row : exec (.controlBridgeExpiry g j) s = .next (bridgeExpiry g.val j s) := act_runs _ _ runs
    rw [row, bridgeExpiry, gone]
  · have row : exec (.controlBridgeExpiry g j) s = .next (bridgeExpiry g.val j s) := act_runs _ _ runs
    have same : s.net.bridges.eraseP (fun b => decide (b = x)) = s.net.bridges.erase x := by
      rw [List.erase_eq_eraseP]; exact congrArg (s.net.bridges.eraseP ·) (funext fun b => by rw [Bool.beq_comm]; rfl)
    rw [row, bridgeExpiry, held, ← same]
  · rw [exec_controlNodeAccept runs, nodeAccept]
    simp only [behind, if_true]
  · have found := State.ctlTravel_found (s := s.dropCtl (ctlPktOf x)) clear on
    rw [exec_controlNodeAccept runs, nodeAccept_discarded there free (by rw [bad]; exact found)]
    rfl
  · intro o done back quiet
    have travel := State.ctlTravel_passes (s := s.dropCtl (ctlPktOf x)) clear (map_val_good good)
    have answers : (s.dropCtl (ctlPktOf x)).pageAt ((ctlPktOf x).addr.toNat / 4 * 4) = some p := State.pageAt_word there up
    obtain ⟨write, read⟩ := State.ctlPerform_word answers be
    have perform : (s.dropCtl (ctlPktOf x)).ctlPerform (ctlPktOf x) = some (done.1, done.2) := by
      cases data : x.data with
      | some v => rw [write v data]; simp only [done, data]; rfl
      | none => rw [read data]; simp only [done, data]; rfl
    rw [exec_controlNodeAccept runs, nodeAccept_performed there free travel perform]
    obtain ⟨found, comes⟩ := State.ctlReturn_spec (x := x) done.1 quiet
    exact ⟨fun n bad on => by rw [← found n bad on], fun fine => by rw [← comes fine]⟩
  · rw [exec_jtagControlAccess runs, jtagAccess_write there be data clear]

/-- Settles O35: the control network and the timeouts of initiators, one theorem each. -/
theorem controlNetworkAndTimeouts : Obligations.ControlNetworkAndTimeouts := ⟨controlNetwork, initiatorTimeouts⟩

end Sys2Proof.Machine
end

section
/-! ## What the frame unit's events leave alone (03)

Ticks, windows and the end of a WAIT change registers of some pages, cores, packets, and the frame unit's own state. -/

namespace Sys2Proof.Machine

/-! ### Pages by address (02 R25) -/

/-- A page starts at the first register of the page of its address. -/
theorem pageOf_base {a : Nat} {p : Page} (h : pageOf a = some p) : p.base = a % 268435456 / 4096 * 4096 := by
  unfold pageOf at h
  extract_lets c b q at h
  split at h
  · obtain rfl := Option.some.inj h
    simp only [Page.base, pageBase, pageNo, c, b, q, natField, Nat.shiftRight_eq_div_pow]
    omega
  · cases h

/-- The number of the page that stands at an offset of control space. -/
theorem Page.base_div {a : Nat} {p : Page} (h : pageOf a = some p) : p.base / 4096 = a % 268435456 / 4096 := by
  rw [pageOf_base h]; omega

/-! ### The frame -/

/-- From `s` to `t` nothing changed but cores, packets, error reports, fires, the frame unit, the ports, and registers of the pages whose numbers
are in `P`. -/
structure FrameOnly (P : Nat → Prop) (s t : State) : Prop where
  rest : t = { s with regs := t.regs, err := t.err, ev := t.ev, cores := t.cores, net := t.net, frame := t.frame, port := t.port }
  regs : ∀ a, ¬P (a / 4096) → t.reg a = s.reg a

namespace FrameOnly

variable {P : Nat → Prop} {s t u : State}

theorem refl (P : Nat → Prop) (s : State) : FrameOnly P s s := ⟨rfl, fun _ _ => rfl⟩

theorem trans (h : FrameOnly P s t) (k : FrameOnly P t u) : FrameOnly P s u :=
  ⟨by rw [k.rest, h.rest], fun a ha => (k.regs a ha).trans (h.regs a ha)⟩

theorem mono {Q : Nat → Prop} (h : FrameOnly P s t) (k : ∀ n, P n → Q n) : FrameOnly Q s t :=
  ⟨h.rest, fun a ha => h.regs a (fun hp => ha (k _ hp))⟩

theorem ite (c : Prop) [Decidable c] (ht : FrameOnly P s t) (hu : FrameOnly P s u) : FrameOnly P s (if c then t else u) := by
  split <;> assumption

theorem foldl {α : Type} {f : State → α → State} {l : List α} (h : ∀ s, ∀ x ∈ l, FrameOnly P s (f s x)) (s : State) :
    FrameOnly P s (l.foldl f s) := by
  induction l generalizing s with
  | nil => exact refl P s
  | cons x l ih => exact (h s x (by simp)).trans (ih (fun s y hy => h s y (by simp [hy])) _)

/-- What leaves registers alone leaves those of every page alone. -/
theorem of_regs (h : t = { s with err := t.err, ev := t.ev, cores := t.cores, net := t.net, frame := t.frame, port := t.port }) :
    FrameOnly P s t := ⟨by rw [h], fun _ _ => by rw [h]; rfl⟩

theorem setReg (s : State) {a : Nat} (v : W32) (h : P (a / 4096)) : FrameOnly P s (s.setReg a v) :=
  ⟨rfl, fun _ hb => State.reg_setReg_other _ _ _ _ (fun e => hb (e ▸ h))⟩

theorem setReg64 (s : State) {a : Nat} (v : Nat) (h : P (a / 4096)) (k : P ((a + 4) / 4096)) : FrameOnly P s (s.setReg64 a v) :=
  (setReg s _ h).trans (setReg _ _ k)

theorem clearRegs (s : State) {lo hi : Nat} (h : ∀ a, lo ≤ a → a < hi → P (a / 4096)) : FrameOnly P s (s.clearRegs lo hi) :=
  ⟨rfl, fun a ha => by rw [State.reg_clearRegs, if_pos]; by_contra c; exact ha (h a (by omega) (by omega))⟩

theorem of_onlyRegsErr {l : List Nat} (h : OnlyRegsErr s t l) (k : ∀ a ∈ l, P (a / 4096)) : FrameOnly P s t :=
  ⟨by rw [h.rest], fun a ha => h.others a (fun hl => ha (k a hl))⟩

theorem detect (s : State) (p : Page) (bit addr : Nat) (part : Option PartId) (inj : Bool) (h : P (p.base / 4096)) :
    FrameOnly P s (s.detect p bit addr part inj) := by
  have b := p.base_mod
  refine of_onlyRegsErr (OnlyRegsErr.detect s p bit addr part inj) (fun a ha => ?_)
  have e : a / 4096 = p.base / 4096 := by
    simp only [List.mem_cons, List.not_mem_nil, or_false] at ha; omega
  rwa [e]

theorem raise (s : State) {base : Nat} (bit : Nat) (part : Option PartId) (h : P (base % 268435456 / 4096)) :
    FrameOnly P s (s.raise base bit part) := by
  unfold State.raise
  split
  · exact refl P s
  · rename_i p hp
    exact detect s p _ _ _ _ (by rwa [Page.base_div hp])

theorem force (s : State) {base : Nat} (bit : Nat) (h : P (base % 268435456 / 4096)) : FrameOnly P s (s.force base bit) := by
  unfold State.force
  split
  · exact refl P s
  · rename_i p hp
    have aligned := p.base_mod
    have hb : P (p.base / 4096) := by rwa [Page.base_div hp]
    refine ite _ ((detect s p _ _ _ _ hb).trans (setReg _ _ ?_)) (refl P s)
    have e : (p.base + 0x1C) / 4096 = p.base / 4096 := by omega
    rwa [e]

theorem of_bunkOnly {n : Nat} (h : BunkOnly n s t) : FrameOnly P s t := of_regs (by rw [h.rest])

theorem updCore (s : State) (n : Nat) (f : Core → Core) : FrameOnly P s (s.updCore n f) := of_regs rfl

theorem mem (h : FrameOnly P s t) : t.mem = s.mem := by rw [h.rest]
theorem otp (h : FrameOnly P s t) : t.otp = s.otp := by rw [h.rest]
theorem stools (h : FrameOnly P s t) : t.stools = s.stools := by rw [h.rest]
theorem clock (h : FrameOnly P s t) : t.clock = s.clock := by rw [h.rest]
theorem power (h : FrameOnly P s t) : t.power = s.power := by rw [h.rest]

/-- A WAIT that ends counts in RETCNT of its core's page (04 R111; 06 R180). -/
theorem completeWait (s : State) (n : Nat) (seq : W64) (h : P (corePage n 0 / 4096)) : FrameOnly P s (s.completeWait n seq) := by
  have page : ∀ o, o < 4096 → P (corePage n o / 4096) := fun o ho => by
    have e : corePage n o / 4096 = corePage n 0 / 4096 := by simp only [corePage, pageBase]; omega
    rwa [e]
  unfold State.completeWait
  extract_lets s1 s2
  have h1 : FrameOnly P s s1 := of_bunkOnly (BunkOnly.logRec n s _ _)
  have h2 : FrameOnly P s s2 := h1.trans (updCore s1 n _)
  exact (h2.trans (setReg64 s2 _ (page 0x110 (by decide)) (page 0x114 (by decide)))).trans (of_bunkOnly (BunkOnly.bunkRetire n _))

theorem endWait (s : State) (n : Nat) (h : P (corePage n 0 / 4096)) : FrameOnly P s (s.endWait n) := by
  unfold State.endWait
  split
  · exact ite _ (completeWait s n _ h) (refl P s)
  · exact refl P s

/-- A level 3 source raised at a core may end its WAIT (12 R342). -/
theorem raiseL3 (s : State) (n b : Nat) (h : P (corePage n 0 / 4096)) : FrameOnly P s (s.raiseL3 n b) :=
  ite _ ((updCore s n _).trans (endWait _ n h)) (refl P s)

theorem raiseWin (s : State) (n b : Nat) (h : P (corePage n 0 / 4096)) : FrameOnly P s (s.raiseWin n b) :=
  ite _ (refl P s) (raiseL3 s n b h)

end FrameOnly

end Sys2Proof.Machine
end

section
/-! ## TIME (03 R38-R41): what a nanosecond does, and the writes and reads of TIM -/

namespace Sys2Proof.Machine

/-! ### Ticks at the master leave the rest of the block alone -/

namespace FrameOnly

variable {P : Nat → Prop}

/-- SNAP touches registers of the router's probe page (10 R291). -/
theorem snapProbe (s : State) (r : Nat) (h : P (probePage r 0 / 4096)) : FrameOnly P s (s.snapProbe r) := by
  have page : ∀ o, o < 4096 → P (probePage r o / 4096) := fun o ho => by
    have m := routerPage_mod r 0
    have e : probePage r o / 4096 = probePage r 0 / 4096 := by simp only [probePage]; omega
    rwa [e]
  refine ite _ (foldl (fun s k hk => ?_) s) (refl P s)
  have := List.mem_range.mp hk
  exact (setReg s _ (page _ (by omega))).trans (setReg _ _ (page _ (by omega)))

theorem commitRouter (s : State) (r : Nat) (h : ∀ o, P (routerPage r o / 4096)) : FrameOnly P s (s.commitRouter r) := by
  unfold State.commitRouter
  extract_lets e bank s1 s2 s3
  have h1 : FrameOnly P s s1 := foldl (fun s d _ => setReg s _ (h _)) s
  have h2 : FrameOnly P s s2 := (h1.trans (setReg s1 _ (h _))).trans (setReg _ _ (h _))
  have h3 : FrameOnly P s s3 := h2.trans (setReg s2 _ (h _))
  exact ite _ h3 (h3.trans (setReg s3 _ (h _)))

/-- The page of the frame unit's registers (03 R48). -/
theorem pageOf_frm : pageOf (frm 0) = some ⟨.frm, 7, 7, 2, 0⟩ := by decide +kernel

/-- The commit of the source values touches the frame unit's page only (03 R63). -/
theorem commitFrm (s : State) (h : ∀ o, P ((frm 0 + o) / 4096)) : FrameOnly P s (s.commitPage (frm 0)) := by
  unfold State.commitPage
  simp only [pageOf_frm]
  refine foldl (fun s r _ => ?_) s
  split
  · exact refl P s
  · exact foldl (fun s j _ => setReg s _ (by rw [Nat.add_assoc]; exact h _)) s

theorem masterCommit (s : State) : FrameOnly (fun _ => True) s s.masterCommit := by
  unfold State.masterCommit
  extract_lets t skip s1 s2 s3 s4 s5 s6
  have h1 : FrameOnly (fun _ => True) s s1 := commitFrm s (fun _ => trivial)
  have h2 := h1.trans (foldl (fun s k _ => commitRouter s (74 + k) (fun _ => trivial)) s1 : FrameOnly _ s1 s2)
  have h4 := (h2.trans (setReg s2 _ trivial : FrameOnly _ s2 s3)).trans (setReg s3 _ trivial : FrameOnly _ s3 s4)
  have h5 := h4.trans (foldl (fun s c _ => setReg s _ trivial) s4 : FrameOnly _ s4 s5)
  exact (h5.trans (ite _ (raise s5 _ _ trivial) (refl _ s5))).trans (of_regs rfl)

/-- A tick at the master (03 R42, R46, R48, R66). -/
theorem masterTick (s : State) (i : W64) (f : Option W32) : FrameOnly (fun _ => True) s (s.masterTick i f) := by
  unfold State.masterTick
  extract_lets old s1 s2 n s3 s4 s5 s6
  have h2 : FrameOnly (fun _ => True) s s2 := ((force s _ trivial).trans (force _ _ trivial)).trans (force _ _ trivial)
  have h3 := h2.trans ((setReg s2 _ trivial).trans (setReg64 _ _ trivial trivial) : FrameOnly _ s2 s3)
  have h4 := h3.trans (setReg s3 _ trivial : FrameOnly _ s3 s4)
  have h5 := h4.trans (ite _ (masterCommit s4) (refl _ s4) : FrameOnly _ s4 s5)
  have h6 := (h5.trans (foldl (fun s k _ => snapProbe s _ trivial) s5)).trans (of_regs rfl : FrameOnly _ _ s6)
  exact h6.trans (of_regs rfl)

theorem acceptTick (s : State) (e : TickEvent) : FrameOnly (fun _ => True) s (s.acceptTick e) :=
  ite _ (masterTick s _ _) (of_regs rfl)

theorem judgeTick (s : State) (e : TickEvent) : FrameOnly (fun _ => True) s (s.judgeTick e) := by
  unfold State.judgeTick
  split
  · exact acceptTick s e
  · exact ite _ (acceptTick s e) (ite _ ((setReg s _ trivial).trans (raise _ _ _ trivial))
      (ite _ ((acceptTick s e).trans (setReg _ _ trivial)) (of_regs rfl)))

theorem rejudge (s : State) : FrameOnly (fun _ => True) s s.rejudge :=
  FrameOnly.trans (of_regs rfl) (foldl (fun s e _ => judgeTick s e) _)

theorem dueTick (s : State) : FrameOnly (fun _ => True) s s.dueTick := by
  unfold State.dueTick
  split
  · exact ite _ ((masterTick s _ _).trans (rejudge _)) (refl _ s)
  · exact refl _ s

theorem hbTick (s : State) (old : Nat) : FrameOnly P s (s.hbTick old) := ite _ (of_regs rfl) (refl P s)

end FrameOnly

/-! ### TIME_INCREMENT (03 R38, R40) -/

/-- One increment of TIME (03 R38, R40). -/
theorem State.advance_clock (s : State) :
    let sum := (s.clock.acc.toNat : Int) + sextNat (s.reg (tim 0x48)).toNat 32
    s.advance.clock.step = none
      ∧ s.advance.clock.time = s.clock.time + (if sum < 0 then 0 else if 4294967296 ≤ sum then 2 else 1) + s.clock.step.getD 0
      ∧ (s.advance.clock.acc.toNat : Int) = sum % 4294967296 := by
  intro sum
  have inc : BitVec.ofNat 64 (if sum < 0 then 0 else if (4294967296 : Int) ≤ sum then 2 else 1)
      = if sum < 0 then 0 else if 4294967296 ≤ sum then 2 else 1 := by split_ifs <;> rfl
  have step : (match s.clock.step with | some x => x | none => 0) = s.clock.step.getD 0 := by cases s.clock.step <;> rfl
  refine ⟨rfl, ?_, ?_⟩
  · rw [← inc, ← step]; rfl
  · rw [show s.advance.clock.acc = BitVec.ofInt 32 sum from rfl, BitVec.toNat_ofInt]
    omega

/-- After TIME and its accumulator have advanced, a nanosecond ends WAITs and makes a tick, and leaves the rest alone. -/
theorem timeIncrement_frame {s : State} (locked : s.clock.locked = true) : FrameOnly (fun _ => True) s.advance (timeIncrement s) := by
  unfold timeIncrement
  rw [if_pos locked]
  have h1 := FrameOnly.hbTick (P := fun _ => True) s.advance s.time
  have h2 := h1.trans (FrameOnly.foldl (l := List.range 192) (fun s n _ => FrameOnly.endWait s n trivial) _)
  exact h2.trans (FrameOnly.dueTick _)

theorem exec_timeIncrement {s : State} (runs : s.stalled = false) : exec .timeIncrement s = .next (timeIncrement s) := act_runs _ _ runs

/-- TIME stands still while its PLL is not locked, and adds a nanosecond as the fraction says otherwise. -/
theorem timeIncrement_spec (s : State) :
    (timeIncrement s).mem = s.mem ∧ (timeIncrement s).otp = s.otp ∧ (timeIncrement s).stools = s.stools
      ∧ (s.clock.locked = false → timeIncrement s = s)
      ∧ (s.clock.locked = true → (timeIncrement s).clock = s.advance.clock) := by
  cases locked : s.clock.locked with
  | false =>
    have idle : timeIncrement s = s := by unfold timeIncrement; rw [locked]; rfl
    exact ⟨by rw [idle], by rw [idle], by rw [idle], fun _ => idle, nofun⟩
  | true =>
    have h := timeIncrement_frame locked
    exact ⟨h.mem, h.otp, h.stools, nofun, fun _ => h.clock⟩

/-! ### The registers of TIM (03 R39-R41) -/

theorem pageOf_tim : pageOf (tim 0) = some ⟨.tim, 7, 7, 2, 1⟩ := by decide +kernel

/-- ADJ takes a value of at most 500 ppm; any other is refused (03 R39). -/
theorem exec_adjWrite {s : State} {i : Initiator} {p : Page} (h : MayWrite s i (tim 0x48) p) (v : W32) :
    ((sextNat v.toNat 32).natAbs ≤ 0x20C49B → exec (.adjWrite i v) s = .next (s.setReg (tim 0x48) v))
      ∧ (0x20C49B < (sextNat v.toNat 32).natAbs → exec (.adjWrite i v) s = .next (s.raise (tim 0) 0)) := by
  have page : p = ⟨.tim, 7, 7, 2, 1⟩ := Option.some.inj ((State.pageOf_of_pageAt h.there).symm.trans (by decide +kernel))
  have write : exec (.adjWrite i v) s = .next (s.writeAdj v) := by subst page; exact act_write4 h v
  rw [write]
  unfold State.writeAdj
  extract_lets x
  exact ⟨fun fits => by rw [if_neg (by omega)], fun big => by rw [if_pos (by omega)]⟩

/-- A step of TIME is refused while ticks run, and pends otherwise (03 R40). -/
theorem exec_timeStep {s : State} {i : Initiator} {p : Page} (h : MayWrite s i (tim 0x54) p) (v : W32) :
    exec (.timeStep i v) s = .next (s.writeStep v) := by
  have page : p = ⟨.tim, 7, 7, 2, 1⟩ := Option.some.inj ((State.pageOf_of_pageAt h.there).symm.trans (by decide +kernel))
  subst page; exact act_write4 h v

/-- The pages that show TIME: TIM, and its copy in each cabinet (03 R36). -/
theorem pageOf_timeLo (c : Fin 8) :
    pageOf (pageBase c.val 2 1 + 0x40) = some ⟨if c.val = 7 then .tim else .timCopy, c.val, c.val, 2, 1⟩ := by
  revert c; decide +kernel

/-- A read of TIME_LO captures TIME_HI for its initiator (03 R41). -/
theorem exec_timeLoRead {s : State} {i : Initiator} {p : Page} (c : Fin 8) (h : MayRead s (pageBase c.val 2 1 + 0x40) p) :
    exec (.timeLoRead i c) s
      = .next (s.capture (iniCode i) (pageBase c.val 2 1 + 0x44) (BitVec.ofNat 32 (s.time / 4294967296))) := by
  have page := Option.some.inj ((State.pageOf_of_pageAt h.there).symm.trans (pageOf_timeLo c))
  have off : (pageBase c.val 2 1 + 0x40) % 4096 / 4 * 4 = 0x40 := by simp only [pageBase]; omega
  have read : exec (.timeLoRead i c) s = .next (s.read4 i (pageBase c.val 2 1 + 0x40)) :=
    act_runs s (fun s => s.read4 i (pageBase c.val 2 1 + 0x40)) h.runs
  rw [read, State.read4_mayRead h, off, page]
  split <;> rfl

/-- TIME is as the statement gives it. -/
theorem timeRules : Rules.TimeRules := by
  intro s i v p runs
  obtain ⟨mem, otp, stools, idle, clock⟩ := timeIncrement_spec s
  refine ⟨⟨_, exec_timeIncrement runs, mem, otp, stools, idle, fun locked => ?_⟩, fun h => exec_adjWrite h v, fun h => ?_,
    fun c h => exec_timeLoRead c h⟩
  · intro sum
    rw [clock locked]
    exact s.advance_clock
  · rw [exec_timeStep h, State.writeStep]
    exact ⟨fun run => by rw [if_pos run], fun stop none_ => by
      rw [if_neg (by simp [stop]), none_]; simp⟩

end Sys2Proof.Machine
end

section
/-! ## What regulators and a cancelled commit leave alone (03 R57-R61, R67) -/

namespace Sys2Proof.Machine

/-! ### What a regulator's decisions leave alone (03 R57-R61) -/

/-- From `s` to `t` a regulator changed registers of pages in `P`, packets in flight, error reports, fires, and what it remembers of meters without
budget, and nothing else. -/
structure Regulates (P : Nat → Prop) (s t : State) : Prop where
  rest : t = { s with
    regs := t.regs, err := t.err, ev := t.ev, net := { s.net with flights := t.net.flights }, frame := { s.frame with zeroSeen := t.frame.zeroSeen } }
  regs : ∀ a, ¬P (a / 4096) → t.reg a = s.reg a

namespace Regulates

variable {P : Nat → Prop} {s t u : State}

theorem refl (P : Nat → Prop) (s : State) : Regulates P s s := ⟨rfl, fun _ _ => rfl⟩

theorem trans (h : Regulates P s t) (k : Regulates P t u) : Regulates P s u :=
  ⟨by rw [k.rest, h.rest], fun a ha => (k.regs a ha).trans (h.regs a ha)⟩

theorem ite (c : Prop) [Decidable c] (ht : Regulates P s t) (hu : Regulates P s u) : Regulates P s (if c then t else u) := by
  split <;> assumption

theorem foldl {α : Type} {f : State → α → State} {l : List α} (h : ∀ s, ∀ x ∈ l, Regulates P s (f s x)) (s : State) :
    Regulates P s (l.foldl f s) := by
  induction l generalizing s with
  | nil => exact refl P s
  | cons x l ih => exact (h s x (by simp)).trans (ih (fun s y hy => h s y (by simp [hy])) _)

/-- What changes registers and reports only, where the registers stand on such pages. -/
theorem of_frameOnly (h : FrameOnly P s t) (k : t = { s with regs := t.regs, err := t.err, ev := t.ev }) : Regulates P s t :=
  ⟨by rw [k], h.regs⟩

theorem setReg (s : State) {a : Nat} (v : W32) (h : P (a / 4096)) : Regulates P s (s.setReg a v) :=
  of_frameOnly (FrameOnly.setReg s v h) rfl

theorem clearRegs (s : State) {lo hi : Nat} (h : ∀ a, lo ≤ a → a < hi → P (a / 4096)) : Regulates P s (s.clearRegs lo hi) :=
  of_frameOnly (FrameOnly.clearRegs s h) rfl

theorem raise (s : State) {base : Nat} (bit : Nat) (part : Option PartId) (h : P (base % 268435456 / 4096)) : Regulates P s (s.raise base bit part) :=
  of_frameOnly (FrameOnly.raise s bit part h) (by rw [State.raise_rest])

theorem force (s : State) {base : Nat} (bit : Nat) (h : P (base % 268435456 / 4096)) : Regulates P s (s.force base bit) := by
  refine of_frameOnly (FrameOnly.force s bit h) ?_
  unfold State.force
  split
  · rfl
  · split
    · rename_i p _ _
      have d := (OnlyRegsErr.detect s p bit (ctlAddr p.base) none true).rest
      rw [d]; rfl
    · rfl

/-- Only the list of packets in flight. -/
theorem of_flights (l : List Flight) : Regulates P s { s with net := { s.net with flights := l } } := ⟨rfl, fun _ _ => rfl⟩

theorem of_zeroSeen (l : List (Nat × Nat × Nat)) : Regulates P s { s with frame := { s.frame with zeroSeen := l } } := ⟨rfl, fun _ _ => rfl⟩

/-- The registers of a regulator's page. -/
theorem own {rg o : Nat} (aligned : rg % 4096 = 0) (page : P (rg / 4096)) (ho : o < 4096) : P ((rg + o) / 4096) := by
  have e : (rg + o) / 4096 = rg / 4096 := by omega
  rwa [e]

theorem own_page {rg : Nat} (inside : rg < 268435456) (page : P (rg / 4096)) : P (rg % 268435456 / 4096) := by rwa [Nat.mod_eq_of_lt inside]

section
variable {rg : Nat} (aligned : rg % 4096 = 0) (inside : rg < 268435456) (page : P (rg / 4096))
include aligned inside page

theorem exhaust (s : State) (m : Meter) {p : Nat} (hp : p < 64) : Regulates P s (s.exhaust rg m p) := by
  have he : P ((rg + 0x48 + 4 * (p / 32)) / 4096) := by rw [Nat.add_assoc]; exact own aligned page (by omega)
  have hx : P ((rg + 0xA00 + 4 * p) / 4096) := by rw [Nat.add_assoc]; exact own aligned page (by omega)
  unfold State.exhaust
  extract_lets e x s1 s2 s3
  have h1 : Regulates P s s1 := ite _ (refl P s) (setReg s _ hx)
  have h3 : Regulates P s s3 := (h1.trans (setReg s1 _ he : Regulates P s1 s2)).trans (setReg s2 _ hx)
  exact (h3.trans (raise s3 _ _ (own_page inside page))).trans ⟨rfl, fun _ _ => rfl⟩

theorem charge (s : State) (m : Meter) {p : Nat} (n : Nat) (hp : p < 64) : Regulates P s (s.charge rg m p n) := by
  have hm : m.usedOff ≤ 0x900 := by cases m <;> decide
  unfold State.charge
  extract_lets was a t
  have ht : Regulates P s t := setReg s _ (by unfold a; rw [Nat.add_assoc]; exact own aligned page (by omega))
  exact ite _ (ht.trans (exhaust aligned inside page t m hp)) ht

theorem holdAt (s : State) (m : Meter) {p : Nat} (hp : p < 64) : Regulates P s (s.holdAt rg m p) := by
  unfold State.holdAt
  exact ite _ ((of_zeroSeen _).trans (exhaust aligned inside page _ m hp)) (refl P s)

/-- A regulator decides on a packet that waits there. -/
theorem grant (s : State) {j : Nat} {f : Flight} (hf : s.net.flights[j]? = some f) (hw : f.wait = some rg) : Regulates P s (s.grant j) := by
  unfold State.grant
  simp only [hf, hw]
  have hp := f.pkt.part.isLt
  refine ite _ (refl P s) (ite _ ?_ ?_)
  · exact trans (of_flights _) (holdAt aligned inside page _ _ hp)
  · exact (force s 0 (own_page inside page)).trans (trans (of_flights _) (charge aligned inside page _ _ _ hp))

theorem release (s : State) : Regulates P s (s.release rg) := by
  refine foldl (fun s j _ => ?_) s
  split
  · rename_i f hf
    split
    · rename_i c
      simp only [Bool.and_eq_true, decide_eq_true_eq] at c
      exact grant aligned inside page s hf c.2
    · exact refl P s
  · exact refl P s

end

theorem cores (h : Regulates P s t) : t.cores = s.cores := by rw [h.rest]
theorem mem (h : Regulates P s t) : t.mem = s.mem := by rw [h.rest]
theorem clock (h : Regulates P s t) : t.clock = s.clock := by rw [h.rest]
theorem frame (h : Regulates P s t) : t.frame = { s.frame with zeroSeen := t.frame.zeroSeen } := by rw [h.rest]

end Regulates

/-- The regulators of a cabinet have pages of their own below those of the AOC (03 R56). -/
theorem cabRegulators_lt {c rg : Nat} (hc : c < 7) (h : rg ∈ cabRegulators c) : rg < pageBase 7 0 0 := by
  simp only [cabRegulators, List.mem_append, List.mem_cons, List.not_mem_nil, or_false] at h
  rcases h with h | rfl | rfl
  · split at h
    · obtain ⟨b, hb, rfl⟩ := List.mem_map.mp h
      have := List.mem_range.mp hb
      simp only [pageBase, pageNo]; omega
    · split at h
      · obtain ⟨b, hb, rfl⟩ := List.mem_map.mp h
        have := List.mem_range.mp hb
        simp only [pageBase, pageNo]; omega
      · simp at h
  · simp only [pageBase, pageNo]; omega
  · simp only [pageBase, pageNo]; omega

/-! ### A commit is cancelled (03 R67) -/

/-- One word written at several registers. -/
theorem State.reg_foldl_setNat (A : Nat → Nat) (v : Nat) (l : List Nat) (s : State) (a : Nat) :
    (l.foldl (fun s c => s.setNat (A c) v) s).reg a = if ∃ c ∈ l, a = A c then BitVec.ofNat 32 v else s.reg a := by
  induction l generalizing s with
  | nil => simp
  | cons c l ih =>
    rw [List.foldl_cons, ih, State.reg_setNat]
    by_cases h : ∃ c ∈ l, a = A c
    · rw [if_pos h, if_pos (by obtain ⟨d, hd, e⟩ := h; exact ⟨d, by simp [hd], e⟩)]
    · rw [if_neg h]
      by_cases e : a = A c
      · rw [if_pos e, if_pos ⟨c, by simp, e⟩]
      · rw [if_neg e, if_neg (by simpa [e] using h)]

theorem cmr_ne_cmt (c o : Nat) (hc : c < 7) {x : Nat} (ho : o < 4096) : cmr c o ≠ cmt x := by
  simp only [cmr, cmt, pageBase, pageNo]; omega

/-- A cancelled commit: neither armed nor checking; if it was, CANCELLED is set, and no receiver's page shows it armed. -/
theorem State.cancelCommit_spec (s : State) :
    s.cancelCommit = { s with regs := s.cancelCommit.regs } ∧ s.cancelCommit.armed = false ∧ s.cancelCommit.checking = false
      ∧ (∀ a, a ≠ cmt 0x48 → (∀ c, c < 7 → a ≠ cmr c 0x44) → s.cancelCommit.reg a = s.reg a)
      ∧ (s.armed = true ∨ s.checking = true →
          s.cancelCommit.bit (cmt 0x48) 3 = true ∧ ∀ c, c < 7 → s.cancelCommit.reg (cmr c 0x44) = 0) := by
  unfold State.cancelCommit
  split
  · rename_i on
    extract_lets s1
    have regs : ∀ a, ((List.range 7).foldl (fun s c => s.setNat (cmr c 0x44) 0) s1).reg a
        = if ∃ c ∈ List.range 7, a = cmr c 0x44 then 0 else s1.reg a := fun a => State.reg_foldl_setNat (fun c => cmr c 0x44) 0 _ s1 a
    have stat : ((List.range 7).foldl (fun s c => s.setNat (cmr c 0x44) 0) s1).reg (cmt 0x48) = putField (s.reg (cmt 0x48)) 0 4 8 := by
      rw [regs, if_neg, State.reg_setReg_same]
      rintro ⟨c, hc, e⟩
      exact cmr_ne_cmt c 0x44 (List.mem_range.mp hc) (by decide) e.symm
    have bits : ∀ k, k < 4 → State.bit ((List.range 7).foldl (fun s c => s.setNat (cmr c 0x44) 0) s1) (cmt 0x48) k = (8 : Nat).testBit k := by
      intro k hk
      rw [State.bit, stat, bitOf_putField _ _ _ _ _ (by decide), if_pos (by omega), Nat.sub_zero]
    refine ⟨(OnlyRegs.foldl (l := List.range 7 |>.map (cmr · 0x44)) (fun t c hc => OnlyRegs.setReg t _ (List.mem_map_of_mem hc)) s1).rest.trans rfl,
      bits 0 (by decide), bits 1 (by decide), fun a ha hc => ?_, fun _ => ⟨bits 3 (by decide), fun c hc => ?_⟩⟩
    · rw [regs, if_neg (by rintro ⟨c, h, e⟩; exact hc c (List.mem_range.mp h) e), State.reg_setReg_other _ _ _ _ ha]
    · rw [regs, if_pos ⟨c, List.mem_range.mpr hc, rfl⟩]
  · rename_i off
    simp only [Bool.or_eq_true, not_or, Bool.not_eq_true] at off
    exact ⟨rfl, off.1, off.2, fun _ _ _ => rfl, fun on => by simp [off] at on⟩

end Sys2Proof.Machine
end

section
/-! ## Starting and stopping the frame (03 R43, R46, R47, R49), and O36 -/

namespace Sys2Proof.Machine

/-! ### Windows of a stopped frame (03 R47, R54) -/

/-- The windows of a core where no frame goes on: no window raises an event any more. -/
def stoppedWins (l : List WinRun) : List WinRun := (l.filter (fun w => !w.old)).map (fun w => { w with ended := true, closed := true })

theorem State.winsOf_setWins (s : State) (n m : Nat) (l : List WinRun) : (s.setWins n l).winsOf m = if m = n then l else s.winsOf m :=
  SMap.get_set _ _ _ _ _

@[simp] theorem State.winsOf_setWins_same (s : State) (n : Nat) (l : List WinRun) : (s.setWins n l).winsOf n = l := by
  rw [State.winsOf_setWins, if_pos rfl]

/-- The windows of every core that are stopped one after the other. -/
theorem State.winsOf_stopWindows {l : List Nat} (nd : l.Nodup) (s : State) (k : Nat) :
    (l.foldl (fun s n => s.stopWindows n) s).winsOf k = if k ∈ l then stoppedWins (s.winsOf k) else s.winsOf k := by
  induction l generalizing s with
  | nil => rfl
  | cons n l ih =>
    obtain ⟨fresh, nd⟩ := List.nodup_cons.mp nd
    have head : (s.stopWindows n).winsOf k = if k = n then stoppedWins (s.winsOf k) else s.winsOf k := by
      rw [State.stopWindows, State.winsOf_setWins]
      split
      · rename_i e; rw [e]; rfl
      · rfl
    rw [List.foldl_cons, ih nd, head]
    by_cases e : k = n
    · simp [e, fresh]
    · simp [e]

/-- Stopping windows changes the frame unit's list of windows only. -/
theorem State.stopWindows_rest (l : List Nat) (s : State) :
    l.foldl (fun s n => s.stopWindows n) s
      = { s with frame := { s.frame with wins := (l.foldl (fun s n => s.stopWindows n) s).frame.wins } } := by
  induction l generalizing s with
  | nil => rfl
  | cons n l ih => rw [List.foldl_cons, ih]; rfl

/-- The window state shows the latest window that was entered, stopped or not (03 R54). -/
theorem windowState_stopped {s t : State} {n : Nat} (time : t.clock = s.clock) (wins : t.winsOf n = stoppedWins (s.winsOf n)) :
    t.windowState n = s.windowState n := by
  have shown : ∀ l : List WinRun, (stoppedWins l).filter (fun w => !w.old && !w.lost)
      = (l.filter (fun w => !w.old && !w.lost)).map (fun w => { w with ended := true, closed := true }) := fun l => by
    rw [stoppedWins, List.filter_map, List.filter_filter]
    congr 1
    refine List.filter_congr (fun w _ => ?_)
    cases h : w.old <;> cases h' : w.lost <;> simp [h, h']
  unfold State.windowState State.time
  rw [wins, shown, ← List.map_reverse, time]
  cases ((s.winsOf n).filter (fun w => !w.old && !w.lost)).reverse <;> rfl

theorem mem_stoppedWins {w : WinRun} {l : List WinRun} (h : w ∈ stoppedWins l) : w.ended = true ∧ w.closed = true ∧ w.old = false := by
  obtain ⟨x, hx, rfl⟩ := List.mem_map.mp h
  obtain ⟨-, hold⟩ := List.mem_filter.mp hx
  exact ⟨rfl, rfl, by simpa using hold⟩

/-! ### Ticks stop (03 R47) -/

theorem frm_div {o : Nat} (ho : o < 4096) : frm o / 4096 = 28704 := by simp only [frm, pageBase, pageNo]; omega
theorem cmt_div {o : Nat} (ho : o < 4096) : cmt o / 4096 = 28706 := by simp only [cmt, pageBase, pageNo]; omega
theorem frm_ne {a b : Nat} (h : a ≠ b) : frm a ≠ frm b := by simp only [frm]; omega
theorem frm_ne_cmt {a b : Nat} (ha : a < 4096) (hb : b < 4096) : frm a ≠ cmt b := by
  have := frm_div ha; have := cmt_div hb; intro e; omega
theorem frm_ne_cmr {a c o : Nat} (hc : c < 7) (ho : o < 4096) : frm a ≠ cmr c o := by simp only [frm, cmr, pageBase, pageNo]; omega

/-- Ticks that stop: VALID is 0, nothing of the frame is left, every window is closed, and no commit is in progress; the other registers of the
frame unit's page, the cores and memory are as they were. -/
theorem State.stopFrames_spec (s : State) :
    let t := s.stopFrames
    t.mem = s.mem ∧ t.cores = s.cores ∧ t.bit (frm 0x44) 0 = false ∧ t.reg (frm 0x40) = s.reg (frm 0x40)
      ∧ t.frame.expected = none ∧ t.frame.events = [] ∧ t.frame.due = none ∧ t.frame.msgs = [] ∧ t.frame.metered = []
      ∧ (∀ n, n < 192 → t.windowState n = s.windowState n ∧ ∀ w ∈ t.winsOf n, w.ended = true ∧ w.closed = true ∧ w.old = false)
      ∧ t.armed = false ∧ t.checking = false := by
  intro t
  unfold t State.stopFrames
  extract_lets s1 f s2 s3 s4
  have h3 : s3 = { s2 with frame := { s2.frame with wins := s3.frame.wins } } := State.stopWindows_rest _ _
  have h4 : Regulates (fun n => n < 28672) s3 s4 := by
    refine Regulates.foldl (fun s c hc => Regulates.foldl (fun s rg hrg => ?_) s) s3
    have low := cabRegulators_lt (List.mem_range.mp hc) hrg
    have aligned := cabRegulators_mod hrg
    simp only [pageBase, pageNo] at low
    exact (Regulates.clearRegs s (fun a _ h => by omega)).trans (Regulates.release aligned (by omega) (by omega) _)
  have regs : ∀ a, s3.reg a = s1.reg a := State.reg_congr (by rw [h3])
  have stopped : ∀ n, n < 192 → s3.winsOf n = stoppedWins (s.winsOf n) := fun n hn => by
    unfold s3
    rw [State.winsOf_stopWindows List.nodup_range, if_pos (List.mem_range.mpr hn)]
    rfl
  clear_value s4 s3
  obtain ⟨rest, armed, checking, others, -⟩ := s4.cancelCommit_spec
  have frame : s4.cancelCommit.frame = { s3.frame with zeroSeen := s4.frame.zeroSeen } := by rw [rest]; exact h4.frame
  have upper : ∀ o, o < 4096 → s4.cancelCommit.reg (frm o) = s3.reg (frm o) := fun o ho =>
    (others _ (frm_ne_cmt ho (by decide)) (fun c hc => frm_ne_cmr hc (by decide))).trans (h4.regs _ (by rw [frm_div ho]; decide))
  have wins : ∀ n, n < 192 → s4.cancelCommit.winsOf n = stoppedWins (s.winsOf n) := fun n hn => by
    have same : s4.cancelCommit.winsOf n = s3.winsOf n := by unfold State.winsOf; rw [frame]
    rw [same, stopped n hn]
  have clock : s4.cancelCommit.clock = s.clock := by rw [rest]; exact h4.clock.trans (by rw [h3]; rfl)
  refine ⟨by rw [rest]; exact h4.mem.trans (by rw [h3]; rfl), by rw [rest]; exact h4.cores.trans (by rw [h3]; rfl), ?_, ?_, ?_⟩
  · rw [State.bit, upper _ (by decide), regs]
    exact State.bit_setBit_same s _ _ _ (by decide)
  · rw [upper _ (by decide), regs, State.reg_setBit, if_neg (frm_ne (by decide))]
  · rw [frame, h3]
    exact ⟨rfl, rfl, rfl, rfl, rfl, fun n hn => ⟨windowState_stopped clock (wins n hn),
      fun w hw => mem_stoppedWins (by rw [← wins n hn]; exact hw)⟩, armed, checking⟩

/-! ### RUN_START, RUN_STOP, FNUM_WRITE (03 R43, R46, R47) -/

theorem MayWrite.frm_page {s : State} {i : Initiator} {o : Nat} {p : Page} (h : MayWrite s i (frm o) p) (ho : o < 4096) : p = ⟨.frm, 7, 7, 2, 0⟩ := by
  have there := State.pageOf_of_pageAt h.there
  rw [pageOf_eq_of_div (b := frm 0) (by rw [frm_div ho, frm_div (by decide)]), FrameOnly.pageOf_frm] at there
  exact (Option.some.inj there).symm

theorem exec_runStart {s : State} {i : Initiator} {p : Page} (h : MayWrite s i (frm 0x40) p) (v : W32) :
    exec (.runStart i v) s = .next (s.writeFrmCtl (v ||| 1)) := by
  obtain rfl := h.frm_page (by decide); exact act_write4 h _

theorem exec_runStop {s : State} {i : Initiator} {p : Page} (h : MayWrite s i (frm 0x40) p) (v : W32) :
    exec (.runStop i v) s = .next (s.writeFrmCtl (v &&& ~~~1)) := by
  obtain rfl := h.frm_page (by decide); exact act_write4 h _

theorem exec_fnumWrite {s : State} {i : Initiator} {p : Page} (h : MayWrite s i (frm 0x48) p) (v : W32) :
    exec (.fnumWrite i v) s = .next (s.writeFnum v) := by
  obtain rfl := h.frm_page (by decide); exact act_write4 h _

theorem bitOf_one (v : W32) : bitOf (v ||| 1) 0 = true := by rw [bitOf_or]; simp [bitOf]

/-- RUN set in a stopped unit whose source values are in range (03 R43, R47). -/
theorem State.writeFrmCtl_starts (s : State) (v : W32) (stopped : s.running = false)
    (ok : s.sourceOk (s.reg (frm 0x60)).toNat s.period (s.fld (frm 0x68) 0 27) s.tol = true) :
    let t := s.writeFrmCtl (v ||| 1)
    t.running = true ∧ t.mem = s.mem ∧ (∀ a, a ≠ frm 0x40 → t.reg a = s.reg a) ∧ t.frame.events = [] ∧ t.frame.due = none
      ∧ (s.kind = 0 → t.frame.expected = some (BitVec.ofNat 64 (firstInternal (s.reg64 (frm 0x58)) s.time s.period)))
      ∧ (s.kind ≠ 0 → t.frame.expected = none) := by
  intro t
  unfold t State.writeFrmCtl
  simp only [bitOf_one, stopped, ok, if_true, Bool.false_eq_true, if_false]
  generalize hu : State.setBit _ (frm 0x40) 0 true = u
  have run : u.running = true := by rw [← hu]; exact State.bit_setBit_same _ _ _ _ (by decide)
  have others : ∀ a, a ≠ frm 0x40 → u.reg a = s.reg a := fun a ha => by
    rw [← hu, State.reg_setBit, if_neg ha, State.reg_setReg_other _ _ _ _ ha]
  have rest : u = { s with regs := u.regs } := by rw [← hu]; rfl
  have kind : u.kind = s.kind := State.fld_congr (others _ (frm_ne (by decide))) _ _
  have first : firstInternal (u.reg64 (frm 0x58)) u.time u.period = firstInternal (s.reg64 (frm 0x58)) s.time s.period := by
    have next : u.reg64 (frm 0x58) = s.reg64 (frm 0x58) := by
      unfold State.reg64; rw [others _ (frm_ne (by decide)), others (frm 0x58 + 4) (frm_ne (a := 0x5C) (by decide))]
    have per : u.period = s.period := State.fld_congr (others _ (frm_ne (by decide))) _ _
    rw [next, per, show u.time = s.time by rw [rest]; rfl]
  refine ⟨run, by rw [rest], others, trivial, trivial, fun k => ?_, fun k => ?_⟩
  · rw [kind, k, if_pos rfl, first]
  · rw [kind, if_neg k]

/-- RUN is refused where the source values are out of range (03 R49). -/
theorem State.writeFrmCtl_refuses (s : State) (v : W32) (stopped : s.running = false)
    (bad : s.sourceOk (s.reg (frm 0x60)).toNat s.period (s.fld (frm 0x68) 0 27) s.tol = false) :
    let t := s.writeFrmCtl (v ||| 1)
    t.running = false ∧ t.bit (frm 0x14) 4 = true ∧ t.frame = s.frame := by
  intro t
  unfold t State.writeFrmCtl
  simp only [bitOf_one, stopped, bad, if_true, Bool.false_eq_true, if_false]
  refine ⟨?_, State.bit_raise FrameOnly.pageOf_frm rfl _ _ _ (by decide), by rw [State.raise_rest]; rfl⟩
  have word : bitOf ((v ||| 1) &&& 6 ||| 0) 0 = false := by simp [bitOf]
  rw [State.running, State.bit, State.reg_raise _ _ _ _ _ (by decide) (by decide), State.reg_setReg_same, word]

/-- RUN cleared (03 R47). -/
theorem State.writeFrmCtl_stops (s : State) (v : W32) :
    ∃ u : State, s.writeFrmCtl (v &&& ~~~1) = u.stopFrames ∧ u = { s with regs := u.regs } ∧ u.running = false := by
  have off : bitOf (v &&& ~~~1) 0 = false := by rw [bitOf_and, bitOf_not]; simp [bitOf]
  refine ⟨(s.setReg (frm 0x40) (((v &&& ~~~1) &&& 6) ||| (if s.running then 1 else 0))).setBit (frm 0x40) 0 false, ?_, rfl,
    State.bit_setBit_same _ _ _ _ (by decide)⟩
  unfold State.writeFrmCtl
  simp only [off, Bool.false_eq_true, if_false]

/-- Starting and stopping is as the statement gives it. -/
theorem frameStartAndStop : Rules.FrameStartAndStop := by
  intro s i v p ok
  refine ⟨fun h => ⟨fun stopped good => ?_, fun stopped bad => ⟨_, exec_runStart h v, s.writeFrmCtl_refuses v stopped bad⟩, ?_⟩,
    fun h => ⟨fun run => ?_, fun stop => ?_⟩⟩
  · exact ⟨_, exec_runStart h v, s.writeFrmCtl_starts v stopped good⟩
  · obtain ⟨u, stops, rest, run⟩ := s.writeFrmCtl_stops v
    obtain ⟨mem, cores, valid, ctl, frame⟩ := u.stopFrames_spec
    have state : ∀ n, u.windowState n = s.windowState n := fun n => by rw [rest]; rfl
    simp only [state] at frame
    refine ⟨_, (exec_runStop h v).trans (by rw [stops]), ?_, valid, mem.trans (by rw [rest]), cores.trans (by rw [rest]), frame⟩
    rw [State.running, State.bit_congr ctl]; exact run
  · rw [exec_fnumWrite h, State.writeFnum, if_pos run]
  · rw [exec_fnumWrite h, State.writeFnum, if_neg (by simp [stop])]

/-- Settles O36: TIME, and starting and stopping the frame, one theorem each. -/
theorem timeAndFrameControl : Obligations.TimeAndFrameControl := ⟨timeRules, frameStartAndStop⟩

end Sys2Proof.Machine
end

section
/-! ## Ticks at the master (03 R42-R48, R51) -/

namespace Sys2Proof.Machine

/-! ### The frame unit's registers -/

/-- With no injection armed, the frame unit's detectors find nothing. -/
theorem State.force_frm {s : State} (unarmed : s.reg (frm 0x1C) = 0) (k : Nat) : s.force (frm 0) k = s :=
  State.force_of_unarmed FrameOnly.pageOf_frm rfl s (by rw [State.bit, show frm 0 + 0x1C = frm 0x1C from rfl, unarmed]; exact bitOf_zero 32 k)

theorem State.bit_raise_frm (s : State) {k : Nat} (hk : k < 32) : (s.raise (frm 0) k).bit (frm 0x14) k = true :=
  State.bit_raise FrameOnly.pageOf_frm rfl s k none hk

theorem State.reg_raise_frm (s : State) (k : Nat) {o : Nat} (h : o ≠ 0x14) (h' : o ≠ 0x20) (ho : o < 4096) :
    (s.raise (frm 0) k).reg (frm o) = s.reg (frm o) :=
  State.reg_raise _ _ _ _ _ (by simp only [frm, pageBase]; omega) (by simp only [frm, pageBase]; omega)

@[simp] theorem State.raise_frame (s : State) (b k : Nat) (q : Option PartId) : (s.raise b k q).frame = s.frame := by rw [State.raise_rest]
@[simp] theorem State.raise_clock (s : State) (b k : Nat) (q : Option PartId) : (s.raise b k q).clock = s.clock := by rw [State.raise_rest]
@[simp] theorem State.raise_cores (s : State) (b k : Nat) (q : Option PartId) : (s.raise b k q).cores = s.cores := by rw [State.raise_rest]
@[simp] theorem State.raise_mem (s : State) (b k : Nat) (q : Option PartId) : (s.raise b k q).mem = s.mem := by rw [State.raise_rest]

/-! ### Probes at a tick (10 R291) -/

theorem State.snapProbe_rest (s : State) (r : Nat) : s.snapProbe r = { s with regs := (s.snapProbe r).regs } := by
  unfold State.snapProbe
  split
  · exact (OnlyRegs.foldl (l := (List.range 4).flatMap (fun k => [probePage r (0x78 + 0x20 * k), probePage r (0x74 + 0x20 * k)]))
      (fun t k hk => (OnlyRegs.setReg t _ (List.mem_flatMap.mpr ⟨k, hk, by simp⟩)).trans
        (OnlyRegs.setReg _ _ (List.mem_flatMap.mpr ⟨k, hk, by simp⟩))) s).rest
  · rfl

@[simp] theorem State.snapProbe_frame (s : State) (r : Nat) : (s.snapProbe r).frame = s.frame := by rw [State.snapProbe_rest]
@[simp] theorem State.snapProbe_cores (s : State) (r : Nat) : (s.snapProbe r).cores = s.cores := by rw [State.snapProbe_rest]
@[simp] theorem State.snapProbe_mem (s : State) (r : Nat) : (s.snapProbe r).mem = s.mem := by rw [State.snapProbe_rest]

/-- The probes of the spine stand above every page of the cabinets (10 R266). -/
theorem spineProbe_div (k : Nat) : 32768 ≤ probePage (74 + k) 0 / 4096 := by
  simp only [probePage, routerPage, pageBase, pageNo]
  split_ifs <;> omega

/-! ### The tick -/

/-- A tick at the master with no commit armed and no injection about: the frame number counts, the tick instant and VALID are written, the next
instant is one PERIOD on, and every receiver is sent a message. -/
theorem State.masterTick_spec {s : State} (unarmed : s.reg (frm 0x1C) = 0) (idle : s.armed = false) (i : W64) :
    let t := s.masterTick i none
    t.fnum = s.fnum + 1 ∧ t.reg64 (frm 0x50) = i.toNat ∧ t.bit (frm 0x44) 0 = true
      ∧ (∀ o, o < 4096 → o ≠ 0x44 → o ≠ 0x48 → o ≠ 0x50 → o ≠ 0x54 → t.reg (frm o) = s.reg (frm o))
      ∧ t.frame = { s.frame with
          expected := some (i + BitVec.ofNat 64 s.period), due := none, late := false
          msgs := s.frame.msgs ++ (List.range 7).map (fun c => ⟨c, s.fnum + 1, i⟩) }
      ∧ t.mem = s.mem ∧ t.cores = s.cores := by
  intro t
  unfold t State.masterTick
  simp only [State.force_frm unarmed]
  generalize hf : s.reg (frm 0x48) + 1 = f
  have fn : s.fnum + 1 = f := hf
  rw [fn]
  generalize hu : (((s.setReg (frm 0x48) f).setReg64 (frm 0x50) i.toNat).setBit (frm 0x44) 0 true) = u
  have rest : u = { s with regs := u.regs } := by rw [← hu]; rfl
  have fnum : u.reg (frm 0x48) = f := by
    rw [← hu, State.reg_setBit, if_neg (frm_ne (by decide)), State.reg_setReg64_other _ _ _ _ (frm_ne (by decide)) (frm_ne (b := 0x54) (by decide)),
      State.reg_setReg_same]
  have instant : u.reg64 (frm 0x50) = i.toNat := by
    have written : ∀ v : State, (v.setBit (frm 0x44) 0 true).reg64 (frm 0x50) = v.reg64 (frm 0x50) := fun v => by
      unfold State.reg64
      rw [State.reg_setBit, State.reg_setBit, if_neg (frm_ne (by decide)), if_neg (show frm 0x50 + 4 ≠ frm 0x44 from frm_ne (a := 0x54) (by decide))]
    rw [← hu, written, State.reg64_setReg64]
    exact Nat.mod_eq_of_lt i.isLt
  have valid : u.bit (frm 0x44) 0 = true := by rw [← hu]; exact State.bit_setBit_same _ _ _ _ (by decide)
  have others : ∀ a, a ≠ frm 0x44 → a ≠ frm 0x48 → a ≠ frm 0x50 → a ≠ frm 0x54 → u.reg a = s.reg a := fun a h44 h48 h50 h54 => by
    rw [← hu, State.reg_setBit, if_neg h44, State.reg_setReg64_other _ _ _ _ h50 h54, State.reg_setReg_other _ _ _ _ h48]
  have armed : u.armed = false := by
    have stat : u.reg (cmt 0x48) = s.reg (cmt 0x48) := others _ (frm_ne_cmt (by decide) (by decide)).symm
      (frm_ne_cmt (by decide) (by decide)).symm (frm_ne_cmt (by decide) (by decide)).symm (frm_ne_cmt (by decide) (by decide)).symm
    rw [State.armed, State.bit_congr stat]; exact idle
  simp only [armed, Bool.false_and, Bool.false_eq_true, if_false]
  generalize hv : (List.range 8).foldl (fun s k => s.snapProbe (74 + k)) u = v
  have probes : FrameOnly (fun n => 32768 ≤ n) u v := by
    rw [← hv]; exact FrameOnly.foldl (fun s k _ => FrameOnly.snapProbe s _ (spineProbe_div k)) u
  have frame : v.frame = s.frame := by rw [← hv, foldl_keeps State.frame _ (fun s k => s.snapProbe_frame _), rest]
  have cores : v.cores = s.cores := by rw [← hv, foldl_keeps State.cores _ (fun s k => s.snapProbe_cores _), rest]
  have same : ∀ o, o < 4096 → v.reg (frm o) = u.reg (frm o) := fun o ho => probes.regs _ (by rw [frm_div ho]; decide)
  have source : u.reg (frm 0x60) = s.reg (frm 0x60) :=
    others _ (frm_ne (by decide)) (frm_ne (by decide)) (frm_ne (by decide)) (frm_ne (by decide))
  have period : (v.beginGates f).period = s.period := by
    refine State.fld_congr ((same 0x64 (by decide)).trans (others _ ?_ ?_ ?_ ?_)) _ _ <;> exact frm_ne (by decide)
  have src : (v.beginGates f).reg (frm 0x60) = s.reg (frm 0x60) := (same 0x60 (by decide)).trans source
  refine ⟨(same 0x48 (by decide)).trans fnum, ?_, ?_, fun o ho h44 h48 h50 h54 => ?_, ?_, probes.mem.trans (by rw [rest]), cores⟩
  · refine Eq.trans ?_ instant
    unfold State.reg64
    exact congrArg₂ (fun a b : W32 => a.toNat + 4294967296 * b.toNat) (same 0x50 (by decide)) (same 0x54 (by decide))
  · exact (State.bit_congr (same 0x44 (by decide)) 0).trans valid
  · exact (same o ho).trans (others _ (frm_ne h44) (frm_ne h48) (frm_ne h50) (frm_ne h54))
  · rw [period, src, if_pos rfl, show (v.beginGates f).frame = s.frame from frame]

/-- INTERNAL_TICK at or after its instant (03 R42). -/
theorem internalTick_due {s : State} {x : W64} (expected : s.frame.expected = some x) (run : s.running = true) (kind : s.kind = 0)
    (due : x.toNat ≤ s.time) : internalTick s = s.masterTick x none := by
  simp [internalTick, expected, run, kind, due]

/-- INTERNAL_TICK with stopped ticks, another source, no expected instant, or before it (03 R42). -/
theorem internalTick_idle {s : State}
    (h : s.running = false ∨ s.kind ≠ 0 ∨ s.frame.expected = none ∨ (∃ x, s.frame.expected = some x ∧ s.time < x.toNat)) : internalTick s = s := by
  unfold internalTick
  split
  · rename_i x hx
    refine if_neg (fun c => ?_)
    simp only [Bool.and_eq_true, decide_eq_true_eq] at c
    obtain ⟨⟨run, kind⟩, due⟩ := c
    rcases h with h | h | h | ⟨y, h, late⟩
    · simp [h] at run
    · exact h kind
    · simp [h] at hx
    · obtain rfl : y = x := Option.some.inj (h.symm.trans hx)
      omega
  · rfl

/-! ### Events of a source (03 R42, R44, R45) -/

theorem State.tickEvent_other {s : State} {k : Nat} (h : s.running = false ∨ s.kind ≠ k) (e : TickEvent) : s.tickEvent k e = s :=
  if_neg (by rcases h with h | h <;> simp [h])

theorem State.tickEvent_own {s : State} {k : Nat} (run : s.running = true) (kind : s.kind = k) (e : TickEvent) : s.tickEvent k e = s.judgeTick e :=
  if_pos (by simp [run, kind])

/-- An event sampled 80 ns before its instant is a tick to come (03 R42, R44). -/
theorem State.acceptTick_ahead {s : State} (room : s.time + 80 < 2 ^ 64) (f : Option W32) :
    s.acceptTick ⟨s.clock.time + 80, f⟩ = { s with frame := { s.frame with
      due := some ⟨s.clock.time + 80, f⟩, late := false, expected := some (s.clock.time + 80 + BitVec.ofNat 64 s.period) } } := by
  refine if_neg ?_
  have e : (s.clock.time + 80).toNat = s.time + 80 := by
    rw [BitVec.toNat_add]; exact Nat.mod_eq_of_lt room
  simp only [e]
  omega

/-- An event inside the tolerance is accepted (03 R44). -/
theorem State.judgeTick_inside {s : State} {x : W64} {e : TickEvent} (expected : s.frame.expected = some x) (fresh : s.frame.late = false)
    (low : x.toNat ≤ e.instant.toNat + s.tol) (high : e.instant.toNat ≤ x.toNat + s.tol) :
    s.judgeTick e = (s.acceptTick e).setBit (frm 0x44) 1 false := by
  unfold State.judgeTick
  simp only [expected, fresh, Bool.false_eq_true, if_false]
  rw [if_neg (by omega), if_pos high]

/-- FRAME_IN_EDGE inside the tolerance. -/
theorem frameInEdge_inside {s : State} {x : W64} (run : s.running = true) (kind : s.kind = 1) (expected : s.frame.expected = some x)
    (fresh : s.frame.late = false) (room : s.time + 160 < 2 ^ 64) (low : x.toNat ≤ s.time + 80 + s.tol)
    (high : s.time + 80 + s.tol < x.toNat + 2 * s.tol + 1) :
    let t := s.tickEvent 1 ⟨s.clock.time + 80, none⟩
    t.bit (frm 0x44) 1 = false ∧ t.frame.due = some ⟨s.clock.time + 80, none⟩
      ∧ t.frame.expected = some (s.clock.time + 80 + BitVec.ofNat 64 s.period) := by
  intro t
  have e : (s.clock.time + 80).toNat = s.time + 80 := by
    rw [BitVec.toNat_add]; exact Nat.mod_eq_of_lt (by show s.time + 80 < _; omega)
  have judged := State.judgeTick_inside (e := ⟨s.clock.time + 80, none⟩) expected fresh (by simp only [e]; omega) (by simp only [e]; omega)
  unfold t
  rw [State.tickEvent_own run kind, judged, State.acceptTick_ahead (by omega)]
  exact ⟨State.bit_setBit_same _ _ _ _ (by decide), rfl, rfl⟩

theorem gptpBoundary_other {s : State} {p : Nat} (h : s.running = false ∨ s.kind ≠ 2 ∨ s.srcPort ≠ p) (j : GptpMove) : gptpBoundary p j s = s :=
  if_neg (by rcases h with h | h | h <;> simp [h])

section
variable {s : State} {p : Nat} (run : s.running = true) (kind : s.kind = 2) (port : s.srcPort = p)
include run kind port

/-- A backward step of the port's time is counted, and is no boundary (03 R45). -/
theorem gptpBoundary_stepBack : gptpBoundary p .stepBack s = (s.count16 (frm 0x88)).raise (frm 0) 2 := by
  unfold gptpBoundary
  rw [if_pos (by simp [run, kind, port])]
  simp

/-- A boundary of a port that is not synchronised is none (03 R44). -/
theorem gptpBoundary_unsynchronised (h : s.bit (tsp p 0x48) 1 = false) : gptpBoundary p .ran s = s := by
  unfold gptpBoundary
  rw [if_pos (by simp [run, kind, port])]
  simp [h]

/-- The first boundary of a synchronised port is a tick to come (03 R42, R44). -/
theorem gptpBoundary_first (h : s.bit (tsp p 0x48) 1 = true) (expected : s.frame.expected = none) (room : s.time + 80 < 2 ^ 64) :
    (gptpBoundary p .ran s).frame.due = some ⟨s.clock.time + 80, none⟩ ∧ (gptpBoundary p .ran s).regs = s.regs := by
  have tick : gptpBoundary p .ran s = s.acceptTick ⟨s.clock.time + 80, none⟩ := by
    unfold gptpBoundary
    rw [if_pos (by simp [run, kind, port])]
    simp [h, State.tickEvent_own run kind, State.judgeTick, expected]
  rw [tick, State.acceptTick_ahead room]
  exact ⟨rfl, rfl⟩

end

/-! ### Missing ticks (03 R44) -/

/-- With no event waiting there is nothing to judge again. -/
theorem State.rejudge_none {s : State} (h : s.frame.events = []) : s.rejudge = s := by
  unfold State.rejudge
  simp only [h, List.foldl_nil]
  rw [← h]

/-- What a missing tick writes first: MISSCNT counts and MISS is reported. -/
theorem State.missed_spec (s : State) :
    let u := (s.count16 (frm 0x80)).raise (frm 0) 0
    u.frame = s.frame ∧ u.cores = s.cores ∧ u.fld (frm 0x80) 0 16 = min 0xFFFF (s.fld (frm 0x80) 0 16 + 1) ∧ u.bit (frm 0x14) 0 = true
      ∧ ∀ o, o < 4096 → o ≠ 0x14 → o ≠ 0x20 → o ≠ 0x80 → u.reg (frm o) = s.reg (frm o) := by
  refine ⟨by rw [State.raise_frame]; rfl, by rw [State.raise_cores]; rfl, ?_, State.bit_raise_frm _ (by decide), fun o ho h14 h20 h80 => ?_⟩
  · rw [State.fld_congr (State.reg_raise_frm _ 0 (by decide) (by decide) (by decide)), State.fld_count16]
  · rw [State.reg_raise_frm _ 0 h14 h20 ho, State.reg_count16_other _ _ _ (frm_ne h80)]

section
variable {s : State} {x : W64} (expected : s.frame.expected = some x) (run : s.running = true) (kind : s.kind ≠ 0) (due : s.frame.due = none)
  (fresh : s.frame.late = false) (time : x.toNat + s.tol ≤ s.time) (calm : s.frame.events = [])
include expected run kind due fresh time calm

/-- TICK_MISS without holdover: the unit is late. -/
theorem tickMiss_late (hold : s.bit (frm 0x40) 1 = false) :
    (tickMiss s).frame.late = true ∧ (tickMiss s).fld (frm 0x80) 0 16 = min 0xFFFF (s.fld (frm 0x80) 0 16 + 1)
      ∧ (tickMiss s).bit (frm 0x14) 0 = true ∧ (tickMiss s).fnum = s.fnum := by
  obtain ⟨frame, -, missed, miss, others⟩ := s.missed_spec
  unfold tickMiss
  simp only [expected]
  rw [if_pos (by simp [run, kind, due, fresh, time])]
  generalize hu : (s.count16 (frm 0x80)).raise (frm 0) 0 = u at *
  have ctl : u.bit (frm 0x40) 1 = false := (State.bit_congr (others 0x40 (by decide) (by decide) (by decide) (by decide)) 1).trans hold
  rw [if_neg (by simp [ctl]), State.rejudge_none (by show u.frame.events = _; rw [frame, calm])]
  exact ⟨rfl, missed, miss, others 0x48 (by decide) (by decide) (by decide) (by decide)⟩

/-- TICK_MISS in holdover: the tick is given, and the next one is expected a PERIOD after the expected instant. -/
theorem tickMiss_holdover (hold : s.bit (frm 0x40) 1 = true) (idle : s.armed = false) (unarmed : s.reg (frm 0x1C) = 0) :
    (tickMiss s).fnum = s.fnum + 1 ∧ (tickMiss s).reg64 (frm 0x50) = x.toNat + s.tol ∧ (tickMiss s).bit (frm 0x44) 1 = true
      ∧ (tickMiss s).frame.expected = some (x + BitVec.ofNat 64 s.period) ∧ (tickMiss s).frame.late = false ∧ (tickMiss s).cores = s.cores := by
  obtain ⟨frame, cores, -, -, others⟩ := s.missed_spec
  have stat : ((s.count16 (frm 0x80)).raise (frm 0) 0).reg (cmt 0x48) = s.reg (cmt 0x48) := by
    rw [State.reg_raise _ _ _ _ _ (by decide) (by decide), State.reg_count16_other _ _ _ (frm_ne_cmt (by decide) (by decide)).symm]
  unfold tickMiss
  simp only [expected]
  rw [if_pos (by simp [run, kind, due, fresh, time])]
  generalize hu : (s.count16 (frm 0x80)).raise (frm 0) 0 = u at *
  have own : ∀ o, o < 4096 → o ≠ 0x14 → o ≠ 0x20 → o ≠ 0x80 → u.reg (frm o) = s.reg (frm o) := others
  have ctl : u.bit (frm 0x40) 1 = true := (State.bit_congr (own 0x40 (by decide) (by decide) (by decide) (by decide)) 1).trans hold
  have tol : u.tol = s.tol := State.fld_congr (own 0x6C (by decide) (by decide) (by decide) (by decide)) _ _
  have period : u.period = s.period := State.fld_congr (own 0x64 (by decide) (by decide) (by decide) (by decide)) _ _
  have number : u.fnum = s.fnum := own 0x48 (by decide) (by decide) (by decide) (by decide)
  have idle' : u.armed = false := (State.bit_congr stat 0).trans idle
  have unarmed' : u.reg (frm 0x1C) = 0 := (own 0x1C (by decide) (by decide) (by decide) (by decide)).trans unarmed
  have tick := State.masterTick_spec unarmed' idle' (x + BitVec.ofNat 64 u.tol)
  rw [if_pos ctl]
  generalize u.masterTick (x + BitVec.ofNat 64 u.tol) none = t at *
  obtain ⟨fnum, instant, -, kept, tframe, -, tcores⟩ := tick
  have same : ∀ o, o < 4096 → o ≠ 0x44 → (t.setBit (frm 0x44) 1 true).reg (frm o) = t.reg (frm o) := fun o _ h => by
    rw [State.reg_setBit, if_neg (frm_ne h)]
  have source : (t.setBit (frm 0x44) 1 true).sourceRegs = u.sourceRegs := by
    unfold State.sourceRegs
    refine List.map_congr_left (fun o ho => ?_)
    simp only [List.mem_cons, List.not_mem_nil, or_false] at ho
    rw [same o (by omega) (by omega), kept o (by omega) (by omega) (by omega) (by omega) (by omega)]
  have next : (t.setBit (frm 0x44) 1 true).period = s.period :=
    (State.fld_congr ((same 0x64 (by decide) (by decide)).trans (kept 0x64 (by decide) (by decide) (by decide) (by decide) (by decide))) _ _).trans period
  have exact_ : (x + BitVec.ofNat 64 u.tol).toNat = x.toNat + s.tol := by
    have := s.clock.time.isLt
    have room : s.time < 2 ^ 64 := this
    rw [tol, BitVec.toNat_add, BitVec.toNat_ofNat, Nat.add_mod_mod]
    exact Nat.mod_eq_of_lt (by omega)
  rw [if_pos source, State.rejudge_none (by show t.frame.events = _; rw [tframe]; exact (congrArg _ frame).trans calm), next]
  refine ⟨?_, ?_, State.bit_setBit_same _ _ _ _ (by decide), rfl, by show t.frame.late = _; rw [tframe], tcores.trans cores⟩
  · exact ((same 0x48 (by decide) (by decide)).trans fnum).trans (by rw [number])
  · refine Eq.trans ?_ (instant.trans exact_)
    unfold State.reg64
    exact congrArg₂ (fun a b : W32 => a.toNat + 4294967296 * b.toNat) (same 0x50 (by decide) (by decide)) (same 0x54 (by decide) (by decide))

end

theorem exec_internalTick {s : State} (runs : s.stalled = false) : exec .internalTick s = .next (internalTick s) := act_runs _ _ runs
theorem exec_frameInEdge {s : State} (runs : s.stalled = false) :
    exec .frameInEdge s = .next (s.tickEvent 1 ⟨s.clock.time + 80, none⟩) :=
  act_runs s (fun s => s.tickEvent 1 ⟨s.clock.time + 80, none⟩) runs
theorem exec_gptpBoundary {s : State} (runs : s.stalled = false) (p : Fin 8) (j : GptpMove) :
    exec (.gptpBoundary p j) s = .next (gptpBoundary p.val j s) := act_runs _ _ runs
theorem exec_tickMiss {s : State} (runs : s.stalled = false) : exec .tickMiss s = .next (tickMiss s) := act_runs _ _ runs

/-- The ticks of the master are as the statement gives them. -/
theorem masterTicks : Rules.MasterTicks := by
  intro s runs
  simp only [exec_internalTick runs, exec_frameInEdge runs, exec_gptpBoundary runs, exec_tickMiss runs]
  refine ⟨fun x expected run kind due idle unarmed => ?_, fun h => by rw [internalTick_idle h], fun h => by rw [State.tickEvent_other h],
    fun x run kind expected fresh room low high => ⟨_, rfl, frameInEdge_inside run kind expected fresh room low high⟩,
    fun p j h => by rw [gptpBoundary_other h], fun p run kind port => by rw [gptpBoundary_stepBack run kind port],
    fun p run kind port => ⟨fun sync none_ room => ⟨_, rfl, gptpBoundary_first run kind port sync none_ room⟩,
      fun h => by rw [gptpBoundary_unsynchronised run kind port h]⟩,
    fun x expected run kind due fresh time hold idle calm unarmed =>
      ⟨_, rfl, tickMiss_holdover expected run kind due fresh time calm hold idle unarmed⟩,
    fun x expected run kind due fresh time hold calm => ⟨_, rfl, tickMiss_late expected run kind due fresh time calm hold⟩,
    fun none_ => by rw [tickMiss]; simp [none_]⟩
  obtain ⟨fnum, instant, valid, -, frame, mem, cores⟩ := State.masterTick_spec unarmed idle x
  refine ⟨_, by rw [internalTick_due expected run kind due], fnum, instant, valid, by rw [frame], by rw [frame], mem, cores, by rw [frame]⟩

end Sys2Proof.Machine
end

section
/-! ## Ticks at a receiver (03 R51, R58, R61), and O37 -/

namespace Sys2Proof.Machine

/-! ### The frame unit's own state where cores and windows raise events -/

/-- A forced detector changes registers and error reports only. -/
theorem State.force_rest (s : State) (b k : Nat) : s.force b k = { s with regs := (s.force b k).regs, err := (s.force b k).err } := by
  unfold State.force
  split
  · rfl
  · split
    · rw [(OnlyRegsErr.detect s _ _ _ _ _).rest]; rfl
    · rfl

@[simp] theorem State.force_frame (s : State) (b k : Nat) : (s.force b k).frame = s.frame := by rw [State.force_rest]
@[simp] theorem State.force_net (s : State) (b k : Nat) : (s.force b k).net = s.net := by rw [State.force_rest]
@[simp] theorem State.force_cores (s : State) (b k : Nat) : (s.force b k).cores = s.cores := by rw [State.force_rest]
@[simp] theorem State.force_clock (s : State) (b k : Nat) : (s.force b k).clock = s.clock := by rw [State.force_rest]
@[simp] theorem State.raise_net (s : State) (b k : Nat) (q : Option PartId) : (s.raise b k q).net = s.net := by rw [State.raise_rest]

theorem BunkOnly.frame {n : Nat} {s t : State} (h : BunkOnly n s t) : t.frame = s.frame := by rw [h.rest]

@[simp] theorem State.completeWait_frame (s : State) (n : Nat) (q : W64) : (s.completeWait n q).frame = s.frame := by
  unfold State.completeWait
  extract_lets s1 s2
  have h1 : s1.frame = s.frame := (BunkOnly.logRec n s _ _).frame
  exact ((BunkOnly.bunkRetire n _).frame.trans rfl).trans h1

@[simp] theorem State.endWait_frame (s : State) (n : Nat) : (s.endWait n).frame = s.frame := by
  unfold State.endWait
  split
  · extract_lets c due
    split
    · exact s.completeWait_frame n _
    · rfl
  · rfl

@[simp] theorem State.raiseL3_frame (s : State) (n b : Nat) : (s.raiseL3 n b).frame = s.frame := by
  unfold State.raiseL3
  split
  · exact State.endWait_frame _ n
  · rfl

@[simp] theorem State.raiseWin_frame (s : State) (n b : Nat) : (s.raiseWin n b).frame = s.frame := by
  unfold State.raiseWin
  split
  · rfl
  · exact s.raiseL3_frame n b

theorem State.graceCheck_frame (s : State) (n : Nat) (w : WinRun) : (s.graceCheck n w).frame = s.frame := by
  unfold State.graceCheck
  split
  · rw [State.raise_frame, State.raiseWin_frame]; rfl
  · rfl

theorem State.endWindow_frame (s : State) (n e : Nat) (c : Bool) (w : WinRun) : (s.endWindow n e c w).2.frame = s.frame := by
  unfold State.endWindow
  simp only [State.raiseWin_frame, State.force_frame]

/-- What a window does at a tick instant: nothing, its grace point, or its end (03 R54, R55). -/
theorem State.tickWindow_cases (s : State) (n i : Nat) (w : WinRun) :
    (s.tickWindow n i w).2 = s ∨ (s.tickWindow n i w).2 = s.graceCheck n w ∨ ∃ e c, (s.tickWindow n i w).2 = (s.endWindow n e c w).2 := by
  unfold State.tickWindow
  extract_lets e c r
  split
  · cases w.closed
    · exact .inr (.inl rfl)
    · exact .inl rfl
  · split
    · exact .inr (.inr ⟨e, c, rfl⟩)
    · split
      · exact .inl rfl
      · split
        · exact .inr (.inl rfl)
        · exact .inl rfl

/-- One window more of those of a core at a tick instant: the windows so far that something is left of, and the state. -/
def tickWinStep (n i : Nat) (acc : List WinRun × State) (w : WinRun) : List WinRun × State :=
  (acc.1 ++ (acc.2.tickWindow n i w).1, (acc.2.tickWindow n i w).2)

theorem State.tickWindow_frame (s : State) (n i : Nat) (w : WinRun) : (s.tickWindow n i w).2.frame = s.frame := by
  obtain h | h | ⟨e, c, h⟩ := s.tickWindow_cases n i w
  · rw [h]
  · rw [h, State.graceCheck_frame]
  · rw [h, State.endWindow_frame]

namespace FrameOnly

variable {P : Nat → Prop}

section
variable {n : Nat} (hn : n < 192) (core : P (corePage n 0 / 4096)) (win : P (winPage n / 4096))
include hn win

theorem win_base : P (winPage n % 268435456 / 4096) := by
  rwa [Nat.mod_eq_of_lt (by simp only [winPage, pageBase, pageNo]; omega)]

include core

theorem graceCheck (s : State) (w : WinRun) : FrameOnly P s (s.graceCheck n w) := by
  have cur : P ((wcur n + 4) / 4096) := by
    have e : (wcur n + 4) / 4096 = winPage n / 4096 := by simp only [wcur, winPage, pageBase]; omega
    rwa [e]
  unfold State.graceCheck
  exact ite _ (((setReg s _ cur).trans (raiseWin _ n 3 core)).trans (raise _ _ _ (win_base hn win))) (refl P s)

theorem endWindow (s : State) (e : Nat) (c : Bool) (w : WinRun) : FrameOnly P s (s.endWindow n e c w).2 :=
  (force s 0 (win_base hn win)).trans (raiseWin _ n 2 core)

theorem tickWindow (s : State) (i : Nat) (w : WinRun) : FrameOnly P s (s.tickWindow n i w).2 := by
  obtain h | h | ⟨e, c, h⟩ := s.tickWindow_cases n i w
  · rw [h]; exact refl P s
  · rw [h]; exact graceCheck hn core win s w
  · rw [h]; exact endWindow hn core win s e c w

/-- The windows of a core at a tick instant (03 R54). -/
theorem tickWindows (s : State) (i : Nat) : FrameOnly P s (s.tickWindows n i) := by
  have fold : ∀ (l : List WinRun) (acc : List WinRun × State), FrameOnly P acc.2 (l.foldl (tickWinStep n i) acc).2 := by
    intro l
    induction l with
    | nil => exact fun acc => refl P acc.2
    | cons w l ih => exact fun acc => (tickWindow hn core win acc.2 i w).trans (ih (tickWinStep n i acc w))
  exact (fold (s.winsOf n) ([], s)).trans (of_regs rfl)

theorem tickCore (s : State) (i : Nat) : FrameOnly P s (s.tickCore n i) :=
  ((updCore s n _).trans (tickWindows hn core win _ i)).trans (raiseWin _ n 0 core)

end

/-- The frame end of a core's pair (09 R259, R261). -/
theorem frameEnd (s : State) {n : Nat} (f : W32) (hn : n < 192) (core : P (corePage n 0 / 4096)) : FrameOnly P s (s.frameEnd n f) := by
  have base : P (corePage n 0 % 268435456 / 4096) := by
    rwa [Nat.mod_eq_of_lt (by simp only [corePage, pageBase, pageNo]; omega)]
  unfold State.frameEnd
  extract_lets b s1 s2
  refine ite _ (refl P s) (ite _ (ite _ (refl P s) ?_) ?_)
  · exact (force s 11 base).trans (ite _ (raise _ _ _ base) (refl P _))
  · have log : FrameOnly P s s2 := of_bunkOnly (BunkOnly.logSigs n s _ _)
    exact ite _ log (log.trans (updCore _ _ _))

end FrameOnly

/-! ### The frame unit's own state at a tick -/

theorem State.frameEnd_frame (s : State) (n : Nat) (f : W32) : (s.frameEnd n f).frame = s.frame := by
  unfold State.frameEnd
  extract_lets b s1 s2
  have log : s2.frame = s.frame := (BunkOnly.logSigs n s _ _).frame
  have forced : s1.frame = s.frame := s.force_frame _ _
  clear_value s1 s2
  split_ifs
  · rfl
  · rfl
  · rw [State.raise_frame, forced]
  · exact forced
  · exact log
  · exact log

/-- A core's tick changes its list of windows only. -/
theorem State.tickCore_frame (s : State) (n i : Nat) :
    ∃ w, (s.tickCore n i).frame = { s.frame with wins := w } := by
  have fold : ∀ (l : List WinRun) (acc : List WinRun × State), (l.foldl (tickWinStep n i) acc).2.frame = acc.2.frame := by
    intro l
    induction l with
    | nil => exact fun acc => rfl
    | cons w l ih => exact fun acc => (ih (tickWinStep n i acc w)).trans (acc.2.tickWindow_frame n i w)
  unfold State.tickCore
  extract_lets s1 s2
  have windows : ∀ r : List WinRun × State, r.2.frame = s.frame → ∃ w, (r.2.setWins n r.1).frame = { s.frame with wins := w } := fun r h =>
    ⟨SMap.set [] r.2.frame.wins n r.1, by rw [← h]; rfl⟩
  rw [State.raiseWin_frame]
  exact windows _ (fold (s1.winsOf n) ([], s1))

/-! ### Nothing is held -/

/-- No regulator holds a packet. -/
def State.Unheld (s : State) : Prop := ∀ f ∈ s.net.flights, f.held = false

namespace State.Unheld

variable {s t : State}

theorem of_net (h : s.Unheld) (e : t.net = s.net) : t.Unheld := by unfold State.Unheld; rw [e]; exact h

/-- A packet that is injected is not held yet. -/
theorem send (h : s.Unheld) (r port : Nat) (p : Packet) : (s.send r port p).Unheld := by
  intro f hf
  rcases List.mem_append.mp hf with hf | hf
  · exact h f hf
  · rw [List.mem_singleton.mp hf]

theorem drainLog (h : s.Unheld) (n : Nat) (l : List LogLine) : (s.drainLog n l).Unheld := by
  induction l generalizing s with
  | nil => exact h
  | cons x l ih =>
    unfold State.drainLog
    extract_lets c
    split
    · exact h
    · exact ih (send h _ _ _)

theorem flushLog (h : s.Unheld) (n : Nat) : (s.flushLog n).Unheld := by
  unfold State.flushLog
  extract_lets b
  split
  · exact h
  · exact drainLog (s := s.updBunk n _) h n _

theorem logRec (h : s.Unheld) (n : Nat) (c : Bool) (l : List W64) : (s.logRec n c l).Unheld := by
  unfold State.logRec
  extract_lets b s1 s2
  have h2 : s2.Unheld := by
    have h1 : s1.Unheld := by unfold s1; split <;> [exact flushLog h n; exact h]
    exact h1
  clear_value s2
  split
  · exact h
  · split <;> [exact flushLog h2 n; exact h2]

theorem frameEnd (h : s.Unheld) (n : Nat) (f : W32) : (s.frameEnd n f).Unheld := by
  unfold State.frameEnd
  extract_lets b s1 s2
  have forced : s1.Unheld := h.of_net (s.force_net _ _)
  have logged : s2.Unheld := by
    unfold s2 State.logSigs
    dsimp only
    split
    · exact h
    · exact logRec h n _ _
  clear_value s1 s2
  split_ifs
  · exact h
  · exact h
  · exact forced.of_net (s1.raise_net _ _ _)
  · exact forced
  · exact logged
  · exact logged

/-- A regulator that holds nothing has nothing to release. -/
theorem release (h : s.Unheld) (rg : Nat) : s.release rg = s := by
  refine List.foldl_fixed' (fun j => ?_) _
  split
  · rename_i f hf
    rw [h f (List.mem_of_getElem? hf)]; rfl
  · rfl

end State.Unheld

end Sys2Proof.Machine
end

section
/-! ## TICK_MESSAGE (03 R51, R58, R61), and O37 -/

namespace Sys2Proof.Machine

/-! ### Regulators at a tick (03 R61) -/

/-- The pages of a cabinet's regulators (03 R56). -/
theorem cabRegulators_page (c : Fin 7) : ∀ rg ∈ cabRegulators c.val, (pageOf rg).map Page.kind = some .rg := by
  revert c; decide +kernel

theorem cabRegulators_nodup (c : Fin 7) : (cabRegulators c.val).Nodup := by revert c; decide +kernel

/-- The rows of a regulator's page that reach its used counts have the reset value 0 (03 R62). -/
theorem rgRows_used {m : Meters} {r : RegRow} {o : Nat} (mem : r ∈ rgRows m) (holds : r.holds o = true) (lo : 0x700 ≤ o) (hi : o < 0xA00) : r.rst = 0 := by
  simp only [RegRow.holds, Bool.and_eq_true, decide_eq_true_eq] at holds
  obtain ⟨⟨off, -⟩, num⟩ := holds
  simp only [rgRows, meterRows, ro, List.mem_append, List.mem_cons, List.not_mem_nil, or_false] at mem
  rcases mem with (((rfl | rfl | rfl | rfl | rfl | rfl | rfl) | rfl | rfl | rfl) | rfl | rfl | rfl) | rfl | rfl | rfl <;> simp only at off num ⊢ <;> omega

/-- A used count is 0 after reset. -/
theorem resetValue_used {rg o : Nat} (aligned : rg % 4096 = 0) (page : (pageOf rg).map Page.kind = some .rg) (lo : 0x700 ≤ o) (hi : o < 0xA00) :
    resetValue (rg + o) = 0 := by
  obtain ⟨p, hp, kind⟩ := Option.map_eq_some_iff.mp page
  have off : (rg + o) % 4096 = o := by omega
  have plain : p.resetOver o = none := by
    rw [Page.resetOver, if_neg (by omega), if_neg (by omega)]
    simp only [kind]
    rw [if_neg (by omega)]
  unfold resetValue
  rw [pageOf_eq_of_div (b := rg) (by omega), hp]
  simp only [off, plain]
  cases found : p.row o with
  | none => rfl
  | some r =>
    rw [Page.row, if_neg (by omega)] at found
    have row : r ∈ rgRows p.meters := by simpa only [Page.rows, kind] using List.mem_of_find?_eq_some found
    have holds : r.holds o = true := List.find?_some (p := fun x : RegRow => x.holds o) found
    simp only [rgRows_used row holds lo hi]
    rfl

/-- A regulator that holds nothing at a tick: RG_EXH moves to RG_PREV and the used counts are 0 (03 R61). -/
theorem State.tickRegulator_eq {s : State} (unheld : s.Unheld) (rg : Nat) :
    s.tickRegulator rg = (((((s.setReg (rg + 0x50) (s.reg (rg + 0x48))).setReg (rg + 0x54) (s.reg (rg + 0x4C))).setNat (rg + 0x48) 0).setNat
      (rg + 0x4C) 0).clearRegs (rg + 0x700) (rg + 0xA00)) := by
  unfold State.tickRegulator
  dsimp only
  refine State.Unheld.release (s := State.clearRegs _ _ _) (unheld.of_net ?_) rg
  rfl

/-- The registers of a regulator after a tick. -/
theorem State.reg_tickRegulator {s : State} (unheld : s.Unheld) (rg o : Nat) :
    (s.tickRegulator rg).reg (rg + o) = if 0x700 ≤ o ∧ o < 0xA00 then resetValue (rg + o) else if o = 0x48 ∨ o = 0x4C then 0
      else if o = 0x50 then s.reg (rg + 0x48) else if o = 0x54 then s.reg (rg + 0x4C) else s.reg (rg + o) := by
  rw [State.tickRegulator_eq unheld, State.reg_clearRegs]
  simp only [State.reg_setNat, State.reg_setReg]
  simp only [Nat.add_le_add_iff_left, Nat.add_lt_add_iff_left, Nat.add_right_inj]
  by_cases used : 0x700 ≤ o ∧ o < 0xA00
  · rw [if_neg (by omega : ¬(o < 0x700 ∨ 0xA00 ≤ o)), if_pos used]
  · rw [if_pos (by omega : o < 0x700 ∨ 0xA00 ≤ o), if_neg used]
    grind

/-- A regulator's tick leaves all but its page's registers alone. -/
theorem State.tickRegulator_rest {s : State} (unheld : s.Unheld) {rg : Nat} (aligned : rg % 4096 = 0) :
    s.tickRegulator rg = { s with regs := (s.tickRegulator rg).regs } ∧ FrameOnly (fun n => n = rg / 4096) s (s.tickRegulator rg) := by
  have own : ∀ o, o < 4096 → (rg + o) / 4096 = rg / 4096 := fun o ho => by omega
  rw [State.tickRegulator_eq unheld]
  have set : ∀ (u : State) (o : Nat) (v : W32), o < 4096 → FrameOnly (fun n => n = rg / 4096) u (u.setReg (rg + o) v) :=
    fun u o v ho => FrameOnly.setReg u v (own o ho)
  exact ⟨rfl, ((((set s _ _ (by decide)).trans (set _ _ _ (by decide))).trans (set _ _ _ (by decide))).trans (set _ _ _ (by decide))).trans
    (FrameOnly.clearRegs _ (fun a _ _ => by omega))⟩

/-- The regulators of a cabinet tick one after the other, each on its own page. -/
theorem tickRegulators_spec {l : List Nat} (nd : l.Nodup) (aligned : ∀ rg ∈ l, rg % 4096 = 0) {s : State} (unheld : s.Unheld) :
    let t := l.foldl (fun s rg => s.tickRegulator rg) s
    t = { s with regs := t.regs } ∧ (∀ a, (∀ rg ∈ l, a / 4096 ≠ rg / 4096) → t.reg a = s.reg a)
      ∧ ∀ rg ∈ l, ∀ o, o < 4096 → t.reg (rg + o) = (s.tickRegulator rg).reg (rg + o) := by
  induction l generalizing s with
  | nil => exact ⟨rfl, fun _ _ => rfl, nofun⟩
  | cons x l ih =>
    obtain ⟨fresh, nd⟩ := List.nodup_cons.mp nd
    have hx := aligned x (by simp)
    have hl : ∀ rg ∈ l, rg % 4096 = 0 := fun rg h => aligned rg (by simp [h])
    obtain ⟨rest, pages⟩ := State.tickRegulator_rest unheld hx
    have unheld' : (s.tickRegulator x).Unheld := unheld.of_net (by rw [rest])
    obtain ⟨rest', others, own⟩ := ih nd hl unheld'
    have apart : ∀ rg ∈ l, rg / 4096 ≠ x / 4096 := fun rg h e => by
      have := hl rg h
      exact fresh ((show rg = x by omega) ▸ h)
    intro t
    refine ⟨?_, fun a ha => ?_, fun rg h o ho => ?_⟩
    · have fields : ∀ regs, { s.tickRegulator x with regs := regs } = { s with regs := regs } := fun regs => by rw [rest]
      exact rest'.trans (fields _)
    · exact (others a (fun rg h => ha rg (by simp [h]))).trans (pages.regs a (ha x (by simp)))
    · rcases List.mem_cons.mp h with rfl | h
      · exact others _ (fun q hq e => apart q hq (by omega))
      · have before : ∀ o, o < 4096 → (s.tickRegulator x).reg (rg + o) = s.reg (rg + o) := fun o ho =>
          pages.regs _ (by have := hl rg h; have := apart rg h; omega)
        refine (own rg h o ho).trans ?_
        rw [State.reg_tickRegulator unheld', State.reg_tickRegulator unheld, before _ ho, before _ (by decide), before _ (by decide)]

/-! ### A receiver takes a tick (03 R51) -/

theorem frr_div {c o : Nat} (ho : o < 4096) : frr c o / 4096 = 4096 * c + 32 := by simp only [frr, pageBase, pageNo]; omega

theorem pageOf_frr (c : Fin 7) : pageOf (frr c.val 0) = some ⟨.frr, c.val, c.val, 2, 0⟩ := by revert c; decide +kernel

/-- No regulator has a page that a core, a window slot or a probe of its cabinet has. -/
theorem cabRegulators_apart (c : Fin 7) : ∀ rg ∈ cabRegulators c.val, (64 ≤ rg / 4096 % 4096 ∧ rg / 4096 % 4096 < 1024)
    ∧ ∀ r ∈ cabRouters c.val, probePage r 0 / 4096 ≠ rg / 4096 := by
  revert c; decide +kernel

/-- No probe has the page of a receiver. -/
theorem cabRouters_apart (c : Fin 7) : ∀ r ∈ cabRouters c.val, probePage r 0 / 4096 % 4096 ≠ 32 := by revert c; decide +kernel

/-- The pages of a cabinet's cores and window slots. -/
def corePages (n : Nat) : Prop := 1024 ≤ n % 4096 ∨ (35 ≤ n % 4096 ∧ n % 4096 < 47)

theorem corePages_core (n : Nat) : corePages (corePage n 0 / 4096) := by
  simp only [corePages, corePage, pageBase, pageNo]; omega

theorem corePages_win (n : Nat) : corePages (winPage n / 4096) := by
  simp only [corePages, winPage, pageBase, pageNo]; omega

/-- The frame end of a compute cabinet's pairs (09 R259, R261). -/
theorem frameEnds_spec {c : Nat} (hc : c < 4) (f : W32) {s : State} (unheld : s.Unheld) :
    let t := (List.range 48).foldl (fun s k => s.frameEnd (48 * c + k) f) s
    FrameOnly corePages s t ∧ t.frame = s.frame ∧ t.Unheld := by
  refine ⟨FrameOnly.foldl (fun s k hk => ?_) s, foldl_keeps State.frame _ (fun s k => s.frameEnd_frame _ f) _ s,
    List.foldlRecOn (List.range 48) _ unheld (fun s h k _ => h.frameEnd _ f)⟩
  have := List.mem_range.mp hk
  exact FrameOnly.frameEnd s f (by omega) (corePages_core _)

/-- The ticks of a compute cabinet's cores (03 R54). -/
theorem tickCores_spec {c : Nat} (hc : c < 4) (i : Nat) (s : State) :
    let t := (List.range 48).foldl (fun s k => s.tickCore (48 * c + k) i) s
    FrameOnly corePages s t ∧ t.frame.msgs = s.frame.msgs ∧ t.frame.metered = s.frame.metered := by
  refine ⟨FrameOnly.foldl (fun s k hk => ?_) s, foldl_keeps (fun s => s.frame.msgs) _ (fun s k => ?_) _ s,
    foldl_keeps (fun s => s.frame.metered) _ (fun s k => ?_) _ s⟩
  · have := List.mem_range.mp hk
    exact FrameOnly.tickCore (by omega) (corePages_core _) (corePages_win _) s i
  · obtain ⟨w, h⟩ := s.tickCore_frame (48 * c + k) i
    simp only [h]
  · obtain ⟨w, h⟩ := s.tickCore_frame (48 * c + k) i
    simp only [h]

/-- A receiver that takes a tick, with no commit owed and nothing held: its frame number and tick instant are those of the message, its regulators
count from 0 and are metered. -/
theorem State.takeTick_spec {s : State} {m : TickMsg} (hc : m.cab < 7) (owes : ∀ o ∈ s.frame.owed, o.cab ≠ m.cab) (unheld : s.Unheld) :
    let t := s.takeTick m
    t.frame.msgs = s.frame.msgs ∧ t.reg (frr m.cab 0x40) = m.fnum ∧ t.reg64 (frr m.cab 0x44) = m.instant.toNat ∧ m.cab ∈ t.frame.metered
      ∧ t.mem = s.mem
      ∧ ∀ rg ∈ cabRegulators m.cab, t.reg (rg + 0x50) = s.reg (rg + 0x48) ∧ t.reg (rg + 0x54) = s.reg (rg + 0x4C)
          ∧ t.reg (rg + 0x48) = 0 ∧ t.reg (rg + 0x4C) = 0 ∧ ∀ k, k < 64 → t.used rg .urg k = 0 ∧ t.used rg .bulk k = 0 ∧ t.used rg .bytes k = 0 := by
  obtain ⟨c, f, i⟩ := m
  simp only at hc owes ⊢
  unfold State.takeTick
  extract_lets c' ended s1 s2 com s3 fr s4 s5 s6
  have ec : c = c' := rfl
  clear_value c'
  subst ec
  have h1 : FrameOnly (fun n => n = 4096 * c + 32) s s1 :=
    (FrameOnly.setReg s _ (frr_div (by decide))).trans (FrameOnly.setReg64 _ _ (frr_div (by decide)) (frr_div (o := 0x48) (by decide)))
  have number : s1.reg (frr c 0x40) = f := by
    unfold s1
    rw [State.reg_setReg64_other _ _ _ _ (by simp only [frr]; omega) (by simp only [frr]; omega), State.reg_setReg_same]
  have instant : s1.reg64 (frr c 0x44) = i.toNat := by
    unfold s1
    rw [State.reg64_setReg64]
    exact Nat.mod_eq_of_lt i.isLt
  have frame1 : s1.frame = s.frame := by unfold s1; rw [State.setReg64_frame, State.setReg_frame]
  have unheld1 : s1.Unheld := unheld.of_net (by unfold s1; rw [State.setReg64_net, State.setReg_net])
  have h2 : FrameOnly corePages s1 s2 ∧ s2.frame = s1.frame ∧ s2.Unheld := by
    unfold s2
    split
    · exact frameEnds_spec (by omega) ended unheld1
    · exact ⟨FrameOnly.refl _ _, rfl, unheld1⟩
  clear_value s1 s2
  obtain ⟨h2, frame2, unheld2⟩ := h2
  have e3 : s3 = s2 := by
    have none_ : s2.frame.owed.find? (fun (o : Owed) => decide (o.cab = c)) = none := by
      rw [frame2, frame1]; exact List.find?_eq_none.mpr (fun o ho => by simpa using owes o ho)
    unfold s3; simp only [none_]
  have metered : c ∈ s4.frame.metered := mem_insertOnce _ _
  have msgs : s4.frame.msgs = s.frame.msgs := (congrArg (fun u : State => u.frame.msgs) e3).trans (by rw [frame2, frame1])
  have h4 : FrameOnly corePages s1 s4 := h2.trans (by rw [← e3]; exact FrameOnly.of_regs rfl)
  have unheld4 : s4.Unheld := unheld2.of_net (show s3.net = s2.net from congrArg State.net e3)
  clear_value s3 s4
  obtain ⟨rest5, others5, own5⟩ : s5 = { s4 with regs := s5.regs }
      ∧ (∀ a, (∀ rg ∈ cabRegulators c, a / 4096 ≠ rg / 4096) → s5.reg a = s4.reg a)
      ∧ ∀ rg ∈ cabRegulators c, ∀ o, o < 4096 → s5.reg (rg + o) = (s4.tickRegulator rg).reg (rg + o) := tickRegulators_spec (cabRegulators_nodup ⟨c, hc⟩) (fun rg h => cabRegulators_mod h) unheld4
  have h6 : FrameOnly (fun n => ∃ r ∈ cabRouters c, n = probePage r 0 / 4096) s5 s6 :=
    FrameOnly.foldl (fun s r hr => FrameOnly.snapProbe s r ⟨r, hr, rfl⟩) s5
  have frame6 : s6.frame = s4.frame := (foldl_keeps State.frame _ (fun s r => s.snapProbe_frame r) _ _).trans (by rw [rest5])
  have h7 : ∀ t, (if c < 4 then (List.range 48).foldl (fun s k => s.tickCore (48 * c + k) i.toNat) s6 else s6) = t →
      FrameOnly corePages s6 t ∧ t.frame.msgs = s6.frame.msgs ∧ t.frame.metered = s6.frame.metered := by
    rintro t rfl
    split
    · exact tickCores_spec (by omega) i.toNat s6
    · exact ⟨FrameOnly.refl _ _, rfl, rfl⟩
  obtain ⟨h7, msgs7, metered7⟩ := h7 _ rfl
  generalize (if c < 4 then (List.range 48).foldl (fun s k => s.tickCore (48 * c + k) i.toNat) s6 else s6) = t at *
  have h5 : FrameOnly (fun n => ∃ rg ∈ cabRegulators c, n = rg / 4096) s4 s5 :=
    ⟨by rw [rest5], fun a ha => others5 a (fun rg h e => ha ⟨rg, h, e⟩)⟩
  clear_value s5 s6
  have receiver : ∀ o, o < 4096 → t.reg (frr c o) = s1.reg (frr c o) := fun o ho => by
    have page := frr_div (c := c) ho
    rw [h7.regs _ (by rw [page]; simp only [corePages]; omega), h6.regs _, h5.regs _, h4.regs _ (by rw [page]; simp only [corePages]; omega)]
    · rintro ⟨rg, h, e⟩
      have := (cabRegulators_apart ⟨c, hc⟩ rg h).1
      omega
    · rintro ⟨r, h, e⟩
      have := cabRouters_apart ⟨c, hc⟩ r h
      omega
  have regulators : ∀ rg ∈ cabRegulators c, ∀ o, o < 4096 → t.reg (rg + o) = (s4.tickRegulator rg).reg (rg + o)
      ∧ s4.reg (rg + o) = s.reg (rg + o) := fun rg h o ho => by
    have aligned := cabRegulators_mod h
    obtain ⟨apart, probes⟩ := cabRegulators_apart ⟨c, hc⟩ rg h
    have page : (rg + o) / 4096 = rg / 4096 := by omega
    have cores : ¬corePages ((rg + o) / 4096) := by rw [page]; simp only [corePages]; omega
    refine ⟨?_, ?_⟩
    · rw [h7.regs _ cores, h6.regs _ (by rintro ⟨r, hr, e⟩; exact probes r hr (e.symm.trans page)), own5 rg h o ho]
    · rw [h4.regs _ cores, h1.regs _ (by rw [page]; omega)]
  refine ⟨by rw [msgs7, frame6, msgs], (receiver _ (by decide)).trans number, ?_, by rw [metered7, frame6]; exact metered, ?_, fun rg h => ?_⟩
  · refine Eq.trans ?_ instant
    unfold State.reg64
    exact congrArg₂ (fun a b : W32 => a.toNat + 4294967296 * b.toNat) (receiver 0x44 (by decide)) (receiver 0x48 (by decide))
  · rw [h7.mem, h6.mem, h5.mem, h4.mem, h1.mem]
  · have at_ := fun o ho => ((regulators rg h o ho).1.trans (State.reg_tickRegulator unheld4 rg o))
    have was := fun o ho => (regulators rg h o ho).2
    refine ⟨(at_ 0x50 (by decide)).trans (was 0x48 (by decide)), (at_ 0x54 (by decide)).trans (was 0x4C (by decide)), at_ 0x48 (by decide),
      at_ 0x4C (by decide), fun k hk => ?_⟩
    have zero : ∀ o, 0x700 ≤ o → o < 0xA00 → (t.reg (rg + o)).toNat = 0 := fun o lo hi => by
      rw [at_ o (by omega), if_pos ⟨lo, hi⟩, resetValue_used (cabRegulators_mod h) (cabRegulators_page ⟨c, hc⟩ rg h) lo hi]
      rfl
    refine ⟨?_, ?_, ?_⟩ <;> (rw [State.used, Nat.add_assoc]; refine zero _ ?_ ?_ <;> simp only [Meter.usedOff] <;> omega)

/-! ### TICK_MESSAGE (03 R51) -/

theorem exec_tickMessage {s : State} (runs : s.stalled = false) (c : Fin 7) (a b : Bool) :
    exec (.tickMessage c a b) s = .next (tickMessage c.val a b s) := act_runs _ _ runs

section
variable {s : State} {c : Nat} {m : TickMsg} (first : s.frame.msgs.find? (fun m => m.cab = c) = some m)
include first

/-- Before its instant a tick message waits. -/
theorem tickMessage_early (a b : Bool) (early : s.time < m.instant.toNat) : tickMessage c a b s = s := by
  unfold tickMessage
  simp only [first, early, if_true]

/-- At its instant a running cabinet takes the message of which a copy is intact, and loses the other. -/
theorem tickMessage_due (a b : Bool) (due : m.instant.toNat ≤ s.time) (up : s.domUp (264 + c) = true) :
    tickMessage c a b s =
      let u := ({ s with frame := { s.frame with msgs := s.frame.msgs.erase m } }).force (frr c 0) 0
      if a || b then u.takeTick m
      else ({ u with frame := { u.frame with
        owed := u.frame.owed.map (fun (o : Owed) => if o.cab = c then { o with lost := true } else o) } }).raise (frr c 0) 0 := by
  have up' : ({ s with frame := { s.frame with msgs := s.frame.msgs.erase m } }).domUp (264 + c) = true := up
  unfold tickMessage
  simp only [first]
  rw [if_neg (by omega)]
  simp only [up', Bool.not_true, Bool.false_eq_true, if_false]

end

/-- A receiver's ticks are as the statement gives them. -/
theorem receiverTicks : Rules.ReceiverTicks := by
  intro s c a b runs
  rw [exec_tickMessage runs]
  have base := pageOf_frr c
  have at0 : (⟨.frr, c.val, c.val, 2, 0⟩ : Page).base = frr c.val 0 := rfl
  refine ⟨fun none_ => ?_, fun m first => ⟨fun early => by rw [tickMessage_early first a b early], fun due up broken broken' unarmed => ?_,
    fun due up intact owes empty => ?_⟩⟩
  · have missing : s.frame.msgs.find? (fun m => decide (m.cab = c.val)) = none :=
      List.find?_eq_none.mpr (fun m hm => by simpa using none_ m hm)
    rw [tickMessage, missing]
  · subst broken broken'
    have still : ∀ l, ({ s with frame := { s.frame with msgs := l } }).force (frr c.val 0) 0 = { s with frame := { s.frame with msgs := l } } := fun l =>
      State.force_of_unarmed base at0 _ (by
        have zero : s.reg (frr c.val 0 + 0x1C) = 0 := unarmed
        show bitOf (s.reg (frr c.val 0 + 0x1C)) 0 = false
        rw [zero]; rfl)
    refine ⟨_, by rw [tickMessage_due first _ _ due up], ?_⟩
    simp only [still, Bool.or_self, Bool.false_eq_true, if_false]
    refine ⟨by rw [State.raise_frame], State.bit_raise base at0 _ _ _ (by decide), ?_, by rw [State.raise_cores]⟩
    rw [State.reg_raise _ _ _ _ _ (by simp only [frr, pageBase]; omega) (by simp only [frr, pageBase]; omega)]
    rfl
  · have cab : m.cab = c.val := by simpa using List.find?_some first
    refine ⟨_, by rw [tickMessage_due first _ _ due up], ?_⟩
    have copies : (a || b) = true := by simpa using intact
    simp only [copies, if_true]
    generalize hu : ({ s with frame := { s.frame with msgs := s.frame.msgs.erase m } }).force (frr c.val 0) 0 = u
    have forced : FrameOnly (fun n => n = 4096 * c.val + 32) { s with frame := { s.frame with msgs := s.frame.msgs.erase m } } u := by
      rw [← hu]
      have page := frr_div (c := c.val) (o := 0) (by decide)
      have low : frr c.val 0 < 268435456 := by simp only [frr, pageBase, pageNo]; omega
      exact FrameOnly.force _ 0 (by rw [Nat.mod_eq_of_lt low]; exact page)
    have frame : u.frame = { s.frame with msgs := s.frame.msgs.erase m } := by rw [← hu, State.force_frame]
    have unheld : u.Unheld := by
      have net : u.net = s.net := by rw [← hu, State.force_net]
      intro f hf
      rw [net, empty] at hf
      cases hf
    obtain ⟨msgs, number, instant, metered, mem, regulators⟩ := State.takeTick_spec (s := u) (m := m) (by omega)
      (fun o ho => by rw [cab]; exact owes o (by rw [frame] at ho; exact ho)) unheld
    rw [cab] at number instant metered regulators
    refine ⟨msgs.trans (by rw [frame]), number, instant, metered, mem.trans forced.mem, fun rg h => ?_⟩
    have was : ∀ o, o < 4096 → u.reg (rg + o) = s.reg (rg + o) := fun o ho => forced.regs _ (by
      have := cabRegulators_mod h
      have := (cabRegulators_apart c rg h).1
      omega)
    rw [← was _ (by decide), ← was _ (by decide)]
    exact regulators rg h

/-- Settles O37: the ticks of the master and of a receiver, one theorem each. -/
theorem frameTicks : Obligations.FrameTicks := ⟨masterTicks, receiverTicks⟩

end Sys2Proof.Machine
end

section
/-! ## Windows (03 R53-R55) -/

namespace Sys2Proof.Machine

/-! ### WCUR (03 R53) -/

/-- The window slots' pages (03 R36, R52). -/
theorem pageOf_winPage (n : Fin 192) : pageOf (winPage n.val) = some ⟨.win, n.val / 48, n.val / 48, 2, 3 + n.val % 48 / 4⟩ := by
  revert n; decide +kernel

/-- Where WCUR of a core stands on its page. -/
theorem wcur_place (n : Nat) : wcur n / 4096 = winPage n / 4096 ∧ wcur n % 4096 = 0x40 + 0x10 * (n % 4) := by
  simp only [wcur, winPage, pageBase]; omega

/-- WCUR reads as the window state without REMAIN and SEEN. -/
theorem readReg_wcur (s : State) (n : Fin 192) (k : Nat) {p : Page} (there : pageOf (wcur n.val) = some p) :
    (s.readReg k p (wcur n.val % 4096)).1 = BitVec.ofNat 32 (s.windowState n.val % 32 + 256 * (s.windowState n.val / 256 % 64)) := by
  obtain ⟨page, off⟩ := wcur_place n.val
  rw [pageOf_eq_of_div page, pageOf_winPage] at there
  obtain rfl := Option.some.inj there
  have core : 48 * (n.val / 48) + 4 * (3 + n.val % 48 / 4 - 3) + (0x40 + 0x10 * (n.val % 4) - 0x40) / 16 = n.val := by omega
  have slot : 64 ≤ 0x40 + 0x10 * (n.val % 4) ∧ 0x40 + 0x10 * (n.val % 4) < 128 ∧ (0x40 + 0x10 * (n.val % 4)) % 16 = 0 := by omega
  rw [off]
  unfold State.readReg
  simp only [State.view]
  rw [if_neg (by omega), if_neg (by omega), if_pos slot, core]
  rfl

/-! ### WINDOW_START (03 R54) -/

/-- WINDOW_START of stopped ticks, of an entry that is not valid, or before its instant: nothing. -/
theorem windowStart_idle {s : State} {n i : Nat}
    (h : s.running = false ∨ s.winValid (winEntry n i false) = false ∨ s.time < s.tickInstant (n / 48) + s.winStart (winEntry n i false)) :
    windowStart n i s = s := by
  refine if_neg (fun c => ?_)
  simp only [Bool.and_eq_true, decide_eq_true_eq] at c
  obtain ⟨⟨⟨⟨⟨run, -⟩, -⟩, valid⟩, due⟩, -⟩ := c
  rcases h with h | h | h
  · simp [h] at run
  · simp [h] at valid
  · omega

/-- The window that entry `i` of a core's table opens in the frame in progress. -/
def State.openedWin (s : State) (n i : Nat) : WinRun :=
  let e := winEntry n i false
  let t0 := s.tickInstant (n / 48) + s.winStart e
  ⟨i, BitVec.ofNat 64 (t0 + s.winLen e), s.winPart e, false, 0, false, false, false, false, BitVec.ofNat 64 t0⟩

/-- The first window of a frame, at its instant. -/
theorem windowStart_first {s : State} {n i : Nat} (run : s.running = true) (valid : s.bit (frm 0x44) 0 = true) (up : s.domUp (264 + n / 48) = true)
    (on : s.winValid (winEntry n i false) = true) (due : s.tickInstant (n / 48) + s.winStart (winEntry n i false) ≤ s.time)
    (first : s.winsOf n = []) : windowStart n i s = (s.setWins n [s.openedWin n i]).raiseWin n 1 := by
  unfold windowStart
  simp only [run, valid, up, on, due, first, Bool.and_self, List.any_nil, Bool.not_false, decide_true, if_true, List.nil_append]
  rfl

/-- A window source is not raised at a core in Stop, nor at a bound shadow (09 R257; 17 R470). -/
theorem State.raiseWin_silent {s : State} {n : Nat} (h : s.domUp n = false ∨ s.isShadow n = true) (b : Nat) : s.raiseWin n b = s := by
  unfold State.raiseWin
  split
  · rfl
  · rename_i shadow
    unfold State.raiseL3
    rw [if_neg (by rcases h with h | h <;> simp_all)]

/-- The window state of a core that has entered one window. -/
theorem windowState_one {s : State} {n : Nat} {w : WinRun} (one : s.winsOf n = [w]) (cur : w.old = false) (kept : w.lost = false) :
    s.windowState n = (if w.start.toNat ≤ s.time ∧ s.time < w.stop.toNat then min 0xFFFFFFFF (w.stop.toNat - s.time) * 4294967296 + 16 else 0)
      + 256 * w.part.toNat + 32 + w.idx := by
  unfold State.windowState
  simp [one, cur, kept]

/-- A window source raised at a core that runs, and is in no WAIT, is pending there, and nothing else is (12 R333, R336). -/
theorem State.raiseWin_ready {s : State} {n b : Nat} (up : s.domUp n = true) (single : s.isShadow n = false) (ready : (s.core n).run = .ready) :
    s.raiseWin n b = s.updCore n (fun c => c.pend 3 b 0) := by
  have still : ((s.updCore n (fun c => c.pend 3 b 0)).core n).run = .ready := by
    rw [State.core_updCore_same]
    exact ready
  unfold State.raiseWin State.raiseL3 State.pendCore
  rw [if_neg (by simp [single]), if_pos up]
  unfold State.endWait
  simp only [still]

theorem Core.evBit_pend (c : Core) (k b : Nat) : (c.pend k b 0).evBit evPend k b = true := by
  have bit : (c.setEvBit evPend k b true).evBit evPend k b = true := by
    rw [Core.evBit, Core.setEvBit, Core.sysReg_setSys, if_pos rfl]
    exact bitOf_putBit_same _ _ _ (Nat.mod_lt _ (by decide))
  exact bit

/-- A window that opens, at a core that it raises nothing at. -/
theorem windowStart_shows {s : State} {n i : Nat} (hi : i < 16) (run : s.running = true) (valid : s.bit (frm 0x44) 0 = true)
    (up : s.domUp (264 + n / 48) = true) (on : s.winValid (winEntry n i false) = true)
    (due : s.tickInstant (n / 48) + s.winStart (winEntry n i false) ≤ s.time) (first : s.winsOf n = [])
    (silent : s.domUp n = false ∨ s.isShadow n = true) :
    let t := windowStart n i s
    t.winsOf n = [s.openedWin n i]
      ∧ t.windowState n % 4294967296 = i + 32 + 256 * (s.winPart (winEntry n i false)).toNat + if s.time < (s.openedWin n i).stop.toNat then 16 else 0 := by
  intro t
  have opened : t = s.setWins n [s.openedWin n i] := by
    unfold t
    rw [windowStart_first run valid up on due first]
    exact State.raiseWin_silent (s := s.setWins n _) silent 1
  have one : t.winsOf n = [s.openedWin n i] := by rw [opened, State.winsOf_setWins_same]
  have start : (s.openedWin n i).start.toNat = s.tickInstant (n / 48) + s.winStart (winEntry n i false) :=
    (BitVec.toNat_ofNat _ _).trans (Nat.mod_eq_of_lt (Nat.lt_of_le_of_lt due s.clock.time.isLt))
  have time : t.time = s.time := by rw [opened]; rfl
  have part : (s.openedWin n i).part.toNat < 64 := (s.openedWin n i).part.isLt
  refine ⟨one, ?_⟩
  rw [windowState_one one rfl rfl, time, start]
  show (_ + 256 * (s.openedWin n i).part.toNat + 32 + i) % 4294967296 = i + 32 + 256 * (s.openedWin n i).part.toNat + _
  by_cases inside : s.time < (s.openedWin n i).stop.toNat
  · rw [if_pos ⟨due, inside⟩, if_pos inside]; omega
  · rw [if_neg (fun h => inside h.2), if_neg inside]; omega

/-- A window that opens at a core that runs raises bit 1 of level 3 there (12 R333). -/
theorem windowStart_raises {s : State} {n i : Nat} (run : s.running = true) (valid : s.bit (frm 0x44) 0 = true)
    (up : s.domUp (264 + n / 48) = true) (on : s.winValid (winEntry n i false) = true)
    (due : s.tickInstant (n / 48) + s.winStart (winEntry n i false) ≤ s.time) (first : s.winsOf n = [])
    (awake : s.domUp n = true) (single : s.isShadow n = false) (ready : (s.core n).run = .ready) :
    let t := windowStart n i s
    (t.core n).evBit evPend 3 1 = true ∧ t.mem = s.mem ∧ (t.core n).g = (s.core n).g := by
  intro t
  have pended : t = (s.setWins n [s.openedWin n i]).updCore n (fun c => c.pend 3 1 0) := by
    unfold t
    rw [windowStart_first run valid up on due first]
    exact State.raiseWin_ready awake single ready
  rw [pended, State.core_updCore_same]
  exact ⟨Core.evBit_pend _ 3 1, rfl, rfl⟩

/-! ### WINDOW_END (03 R54, R55) -/

section
variable {s : State} {n i : Nat} {w : WinRun} (one : s.winsOf n = [w]) (idx : w.idx = i)
include one idx

/-- Before its end a window goes on. -/
theorem windowEnd_early (running : w.ended = false) (current : w.old = false) (early : s.time < w.stop.toNat) : windowEnd n i s = s := by
  unfold windowEnd
  simp [one, idx, running, current, early]

/-- A window that ends: WCUR shows IN 0, and its grace point is fixed. -/
theorem windowEnd_spec (hn : n < 192) (running : w.ended = false) (current : w.old = false) (due : w.stop.toNat ≤ s.time) (kept : w.lost = false) :
    let t := windowEnd n i s
    ∃ x, t.winsOf n = [x] ∧ x.ended = true ∧ x.grace = BitVec.ofNat 64 (w.stop.toNat + s.fld (frr (n / 48) 0x4C) 0 16)
      ∧ t.windowState n = i + 32 + 256 * w.part.toNat ∧ x.part = w.part
      ∧ x.contd = s.hasWindow n (w.stop.toNat - s.tickInstant (n / 48)) w.part := by
  intro t
  generalize hc : s.hasWindow n (w.stop.toNat - s.tickInstant (n / 48)) w.part = contd
  generalize hr : s.endWindow n w.stop.toNat contd w = r
  have frame : r.2.frame = s.frame := by rw [← hr, State.endWindow_frame]
  have clock : r.2.clock = s.clock := by
    rw [← hr]; exact (FrameOnly.endWindow (P := fun _ => True) hn trivial trivial s _ contd w).clock
  have wins : r.2.winsOf n = [w] := by unfold State.winsOf; rw [frame]; exact one
  have ends : t = r.2.setWins n [r.1] := by
    have set : t = r.2.setWins n (listSet (r.2.winsOf n) 0 r.1) := by
      unfold t windowEnd
      simp [one, idx, running, current, Nat.not_lt.mpr due, hc, hr]
    rw [set, wins]; rfl
  have grace : (s.force (winPage n) 0).fld (frr (n / 48) 0x4C) 0 16 = s.fld (frr (n / 48) 0x4C) 0 16 := by
    have forced : FrameOnly (fun p => 35 ≤ p % 4096 ∧ p % 4096 < 47) s (s.force (winPage n) 0) :=
      FrameOnly.force s 0 (by simp only [winPage, pageBase, pageNo]; omega)
    exact State.fld_congr (forced.regs _ (by rw [frr_div (by decide)]; omega)) _ _
  have window : r.1 = { w with ended := true, stop := w.stop, grace := BitVec.ofNat 64 (w.stop.toNat + s.fld (frr (n / 48) 0x4C) 0 16), contd := contd } := by
    rw [← hr, ← grace]
    simp only [State.endWindow, BitVec.ofNat_toNat, BitVec.setWidth_eq]
  have shown : t.winsOf n = [r.1] := by rw [ends, State.winsOf_setWins_same]
  have time : t.time = s.time := by rw [ends]; exact congrArg (fun c : ClockSt => c.time.toNat) clock
  refine ⟨r.1, shown, by rw [window], by rw [window], ?_, by rw [window], by rw [window]⟩
  rw [windowState_one shown (by rw [window]; exact current) (by rw [window]; exact kept), time, window]
  simp only [Nat.not_lt.mpr due, and_false, if_false, idx]
  omega

/-! ### WINDOW_GRACE_POINT (03 R55) -/

omit idx in
/-- Before its grace point a window that ended stays as it is. -/
theorem gracePoint_early (early : s.time < w.grace.toNat) : gracePoint n i s = s := by
  unfold gracePoint
  simp [one, Nat.not_le.mpr early]

/-- At its grace point a window is closed, and checked. -/
theorem gracePoint_due (ended : w.ended = true) (opened : w.closed = false) (due : w.grace.toNat ≤ s.time) :
    gracePoint n i s = (s.setWins n [{ w with closed := true }]).graceCheck n w := by
  unfold gracePoint
  simp [one, idx, ended, opened, due, listSet]

end

/-- A core that continues the window, or has left its PARTID, has not overrun it. -/
theorem State.graceCheck_kept {s : State} {n : Nat} {w : WinRun} (h : w.contd = true ∨ (s.core n).part ≠ w.part) : s.graceCheck n w = s :=
  if_neg (by rcases h with h | h <;> simp [h])

/-- An overrun is counted in WOVCNT and reported. -/
theorem State.graceCheck_overrun {s : State} (n : Fin 192) {w : WinRun} (up : s.domState n.val = 3) (part : (s.core n.val).part = w.part)
    (last : w.contd = false) (single : s.isShadow n.val = false) :
    (s.graceCheck n.val w).fld (wcur n.val + 4) 0 16 = min 0xFFFF (s.fld (wcur n.val + 4) 0 16 + 1)
      ∧ (s.graceCheck n.val w).bit (winPage n.val + 0x14) 0 = true := by
  obtain ⟨page, off⟩ := wcur_place n.val
  unfold State.graceCheck
  rw [if_pos (by simp [up, part, last, single])]
  refine ⟨?_, State.bit_raise (pageOf_winPage n) rfl _ _ _ (by decide)⟩
  have raised : FrameOnly (fun p => 1024 ≤ p % 4096) (s.count16 (wcur n.val + 4)) ((s.count16 (wcur n.val + 4)).raiseWin n.val 3) :=
    FrameOnly.raiseWin _ _ 3 (by simp only [corePage, pageBase, pageNo]; omega)
  have apart : (wcur n.val + 4) / 4096 % 4096 < 1024 := by simp only [wcur, winPage, pageBase, pageNo]; omega
  rw [State.fld_congr (State.reg_raise _ _ _ _ _ (by omega) (by omega)), State.fld_congr (raised.regs _ (by omega)), State.fld_count16]

theorem exec_windowStart {s : State} (runs : s.stalled = false) (n : Fin 192) (i : Fin 16) :
    exec (.windowStart n i) s = .next (windowStart n.val i.val s) := act_runs _ _ runs
theorem exec_windowEnd {s : State} (runs : s.stalled = false) (n : Fin 192) (i : Fin 16) :
    exec (.windowEnd n i) s = .next (windowEnd n.val i.val s) := act_runs _ _ runs
theorem exec_windowGracePoint {s : State} (runs : s.stalled = false) (n : Fin 192) (i : Fin 16) :
    exec (.windowGracePoint n i) s = .next (gracePoint n.val i.val s) := act_runs _ _ runs

/-- Windows are as the statement gives them. -/
theorem windowEvents : Rules.WindowEvents := by
  intro s n i runs e t0 cur
  simp only [exec_windowStart runs, exec_windowEnd runs, exec_windowGracePoint runs]
  refine ⟨fun k p there => readReg_wcur s n k there, fun h => by rw [windowStart_idle h], fun run valid up on due first silent => ?_,
    fun run valid up on due first awake single ready => ⟨_, rfl, windowStart_raises run valid up on due first awake single ready⟩,
    fun w one idx running current => ⟨fun early => by rw [windowEnd_early one idx running current early], fun due kept => ?_⟩,
    fun w one idx ended opened => ⟨fun early => by rw [gracePoint_early one early], fun due kept => ?_, fun due last part up single => ?_⟩⟩
  · obtain ⟨wins, shown⟩ := windowStart_shows i.isLt run valid up on due first silent
    exact ⟨_, s.openedWin n.val i.val, rfl, wins, rfl, rfl, rfl, shown⟩
  · obtain ⟨x, rest⟩ := windowEnd_spec one idx n.isLt running current due kept
    exact ⟨_, x, rfl, rest⟩
  · rw [gracePoint_due one idx ended opened due]
    refine ⟨_, rfl, ?_⟩
    rw [State.graceCheck_kept (s := s.setWins n.val _) kept]
    exact ⟨State.winsOf_setWins_same _ _ _, rfl, rfl⟩
  · rw [gracePoint_due one idx ended opened due]
    exact ⟨_, rfl, State.graceCheck_overrun n (s := s.setWins n.val _) up part last single⟩

end Sys2Proof.Machine
end

section
/-! ## Commits (03 R47, R63-R67), and O38 -/

namespace Sys2Proof.Machine

/-! ### CMT_ARM and CMT_DISARM (03 R64, R67) -/

theorem pageOf_cmt {o : Nat} (ho : o < 4096) : pageOf (cmt o) = some ⟨.cmt, 7, 7, 2, 2⟩ := by
  rw [pageOf_eq_of_div (b := cmt 0) (by rw [cmt_div ho, cmt_div (by decide)])]
  decide

theorem MayWrite.cmt_page {s : State} {i : Initiator} {o : Nat} {p : Page} (h : MayWrite s i (cmt o) p) (ho : o < 4096) : p = ⟨.cmt, 7, 7, 2, 2⟩ := by
  have there := State.pageOf_of_pageAt h.there
  rw [pageOf_cmt ho] at there
  exact (Option.some.inj there).symm

theorem exec_cmtArm {s : State} {i : Initiator} {p : Page} (h : MayWrite s i (cmt 0x44) p) (v : W32) :
    exec (.cmtArm i v) s = .next (s.writeCmtCtl (putField v 0 2 1)) := by
  obtain rfl := h.cmt_page (by decide); exact act_write4 h _

theorem exec_cmtDisarm {s : State} {i : Initiator} {p : Page} (h : MayWrite s i (cmt 0x44) p) (v : W32) :
    exec (.cmtDisarm i v) s = .next (s.writeCmtCtl (v ||| 2)) := by
  obtain rfl := h.cmt_page (by decide); exact act_write4 h _

/-- A write of DISARM. -/
theorem State.writeCmtCtl_disarm (s : State) (v : W32) : s.writeCmtCtl (v ||| 2) = s.cancelCommit := by
  rw [State.writeCmtCtl, if_pos (by rw [bitOf_or, Bool.or_eq_true]; exact Or.inr rfl)]

/-- A write of ARM without DISARM. -/
theorem State.writeCmtCtl_arm (s : State) (v : W32) : s.writeCmtCtl (putField v 0 2 1)
    = if s.armed = false ∧ s.checking = false then
        { (s.setReg (cmt 0x48) (s.reg (cmt 0x48) &&& 0x00FFF000 ||| 2)) with frame := { s.frame with lateSeen := false } }
      else s := by
  have disarm : bitOf (putField v 0 2 1) 1 = false := by rw [bitOf_putField _ _ _ _ _ (by decide)]; rfl
  have arm : bitOf (putField v 0 2 1) 0 = true := by rw [bitOf_putField _ _ _ _ _ (by decide)]; rfl
  rw [State.writeCmtCtl, disarm, arm, if_neg Bool.false_ne_true]
  cases s.armed <;> cases s.checking <;> rfl

/-- An arm of an idle unit starts the check. -/
theorem State.writeCmtCtl_checks (s : State) (v : W32) (armed : s.armed = false) (checking : s.checking = false) :
    let t := s.writeCmtCtl (putField v 0 2 1)
    t.checking = true ∧ t.armed = false ∧ (∀ a, a ≠ cmt 0x48 → t.reg a = s.reg a) ∧ t.mem = s.mem ∧ t.cores = s.cores := by
  intro t
  have shown : t = { (s.setReg (cmt 0x48) (s.reg (cmt 0x48) &&& 0x00FFF000 ||| 2)) with frame := { s.frame with lateSeen := false } } := by
    unfold t
    rw [State.writeCmtCtl_arm, if_pos ⟨armed, checking⟩]
  have stat : t.reg (cmt 0x48) = s.reg (cmt 0x48) &&& 0x00FFF000 ||| 2 := by rw [shown]; exact State.reg_setReg_same _ _ _
  refine ⟨?_, ?_, fun a ha => by rw [shown]; exact State.reg_setReg_other _ _ _ _ ha, by rw [shown]; rfl, by rw [shown]; rfl⟩
  · rw [State.checking, State.bit, stat, bitOf_or, Bool.or_eq_true]; exact Or.inr rfl
  · rw [State.armed, State.bit, stat, bitOf_or, bitOf_and]; simp [bitOf]

/-! ### COMMIT_CHECK_END (03 R64) -/

/-- The first failing entry of a shadow window table: its core and its place in the table. -/
def State.tableFail (s : State) : Option (Nat × Nat) := (List.range 192).findSome? (fun n => (s.windowFail n).map (fun i => (n, i)))

/-- CMT.STAT.CORE and WINDOW as the check leaves them. -/
def State.failPlace (s : State) : Nat :=
  match s.tableFail with
  | some (n, i) => 4096 * n + 1048576 * i
  | none => 0

/-- What CMT.BAD shows after the check. -/
def State.badPage (s : State) : Nat :=
  match leastOf s.failingPages with
  | some b => ctlAddr b
  | none => 0

/-- A refused arm: CMT.STAT shows the reason and the failing place, and REFUSED is raised. -/
def State.refuseArm (s : State) (reason : Nat) : State :=
  ((s.setReg64 (cmt 0x5C) s.badPage).setNat (cmt 0x48) (256 * reason + s.failPlace)).raise (cmt 0) 0

/-- An accepted arm: ARMED at the master and at every receiver that is reachable. -/
def State.acceptArm (s : State) : State :=
  (List.range 7).foldl (fun s c => if s.domUp (264 + c) then s.setNat (cmr c 0x44) 1 else s)
    ((s.setReg64 (cmt 0x5C) s.badPage).setNat (cmt 0x48) (1 + s.failPlace))

/-- Of a chain of reasons the first that holds is taken. -/
theorem first_reason {c : Prop} [Decidable c] {n r : Nat} (hn : n ≠ 0) {t : State} {f : Nat → State} :
    (if (if c then n else r) = 0 then t else f (if c then n else r)) = if c then f n else if r = 0 then t else f r := by
  by_cases h : c
  · simp only [if_pos h, if_neg hn]
  · simp only [if_neg h]

/-- The check passes, or the first of its rules that fails gives the reason. -/
theorem commitCheckEnd_eq {s : State} (checking : s.checking = true) :
    commitCheckEnd s =
      if frameAfter (s.reg (cmt 0x40)) (s.fnum + 1) = false then s.refuseArm 1
      else if s.running = false then s.refuseArm 2
      else if s.tableFail.isSome then s.refuseArm 3
      else if s.sourceOk (s.reg (frm 0x70)).toNat (s.fld (frm 0x74) 0 27) (s.fld (frm 0x78) 0 27) (s.fld (frm 0x7C) 0 16) = false then s.refuseArm 4
      else if (leastOf s.failingPages).isSome then s.refuseArm 5 else s.acceptArm := by
  unfold commitCheckEnd
  extract_lets tab src bad reason place s1
  have place_eq : place = s.failPlace := rfl
  have s1_eq : s1 = s.setReg64 (cmt 0x5C) s.badPage := rfl
  have refuse : ∀ r, ((s.setReg64 (cmt 0x5C) s.badPage).setNat (cmt 0x48) (256 * r + s.failPlace)).raise (cmt 0) 0 = s.refuseArm r := fun _ => rfl
  have accept : (List.range 7).foldl (fun s c => if s.domUp (264 + c) then s.setNat (cmr c 0x44) 1 else s)
      ((s.setReg64 (cmt 0x5C) s.badPage).setNat (cmt 0x48) (1 + s.failPlace)) = s.acceptArm := rfl
  rw [place_eq, s1_eq, refuse, accept]
  unfold reason
  rw [checking, Bool.not_true, if_neg Bool.false_ne_true, first_reason (by decide), first_reason (by decide), first_reason (by decide),
    first_reason (by decide), first_reason (by decide), if_pos rfl]
  simp only [Bool.not_eq_true']
  rfl

theorem failPlace_mod (s : State) : s.failPlace % 4096 = 0 := by
  unfold State.failPlace
  split <;> omega

/-- A refused arm shows its reason; the unit is idle again. -/
theorem State.refuseArm_spec (s : State) {r : Nat} (hr : r < 16) :
    (s.refuseArm r).armed = false ∧ (s.refuseArm r).checking = false ∧ (s.refuseArm r).fld (cmt 0x48) 8 4 = r
      ∧ (s.refuseArm r).bit (cmt 0x14) 0 = true ∧ (s.refuseArm r).cores = s.cores := by
  have place := failPlace_mod s
  have stat : (s.refuseArm r).reg (cmt 0x48) = BitVec.ofNat 32 (256 * r + s.failPlace) := by
    unfold State.refuseArm
    rw [State.reg_raise _ _ _ _ _ (by decide) (by decide), State.reg_setNat, if_pos rfl]
  have low : ∀ k, k < 8 → bitOf (BitVec.ofNat 32 (256 * r + s.failPlace)) k = false := fun k hk => by
    rw [bitOf_ofNat, show 256 * r + s.failPlace = 2 ^ 8 * (r + s.failPlace / 256) by omega, Nat.testBit_two_pow_mul]
    simp [Nat.not_le.mpr hk]
  refine ⟨by rw [State.armed, State.bit, stat, low _ (by decide)], by rw [State.checking, State.bit, stat, low _ (by decide)], ?_,
    State.bit_raise (pageOf_cmt (by decide)) rfl _ _ _ (by decide), by unfold State.refuseArm; rw [State.raise_cores]; rfl⟩
  rw [State.fld, stat, fieldOf, BitVec.toNat_ofNat, Nat.shiftRight_eq_div_pow]
  omega

theorem dstat_ne_cmr {d c o : Nat} (hc : c < 7) (ho : o < 4096) : dstat d ≠ cmr c o := by
  rw [dstat_eq]; simp only [cmr, pageBase, pageNo]; omega

/-- A word written at the receivers that are reachable. -/
theorem State.reg_foldl_armed {l : List Nat} (hl : ∀ c ∈ l, c < 7) (s : State) (a : Nat) :
    (l.foldl (fun s c => if s.domUp (264 + c) then s.setNat (cmr c 0x44) 1 else s) s).reg a
      = if ∃ c ∈ l, s.domUp (264 + c) = true ∧ a = cmr c 0x44 then 1 else s.reg a := by
  induction l generalizing s with
  | nil => simp
  | cons c l ih =>
    have up : ∀ d, (if s.domUp (264 + c) then s.setNat (cmr c 0x44) 1 else s).domUp d = s.domUp d := fun d => by
      split
      · unfold State.domUp
        rw [State.domState_setNat _ _ _ _ (dstat_ne_cmr (hl c (by simp)) (by decide))]
      · rfl
    rw [List.foldl_cons, ih (fun d hd => hl d (by simp [hd]))]
    simp only [up, List.mem_cons, exists_eq_or_imp]
    by_cases tail : ∃ d ∈ l, s.domUp (264 + d) = true ∧ a = cmr d 0x44
    · rw [if_pos tail, if_pos (Or.inr tail)]
    · rw [if_neg tail]
      simp only [tail, or_false]
      by_cases on : s.domUp (264 + c) = true
      · rw [if_pos on, State.reg_setNat]; simp only [on, true_and]; rfl
      · rw [if_neg on, if_neg (fun h => on h.1)]

theorem State.cores_foldl_armed (l : List Nat) (s : State) :
    (l.foldl (fun s c => if s.domUp (264 + c) then s.setNat (cmr c 0x44) 1 else s) s).cores = s.cores := by
  induction l generalizing s with
  | nil => rfl
  | cons c l ih =>
    rw [List.foldl_cons, ih]
    split
    · exact State.setNat_cores _ _ _
    · exact Eq.refl _

/-- An accepted arm of a well-formed table is armed, at the master and at every reachable receiver. -/
theorem State.acceptArm_spec (s : State) (table : s.tableFail = none) :
    s.acceptArm.armed = true ∧ s.acceptArm.checking = false ∧ (∀ c, c < 7 → s.domUp (264 + c) = true → s.acceptArm.reg (cmr c 0x44) = 1)
      ∧ s.acceptArm.cores = s.cores := by
  have place : s.failPlace = 0 := by unfold State.failPlace; rw [table]
  have regs : ∀ a, s.acceptArm.reg a = if ∃ c ∈ List.range 7, s.domUp (264 + c) = true ∧ a = cmr c 0x44 then 1
      else ((s.setReg64 (cmt 0x5C) s.badPage).setNat (cmt 0x48) 1).reg a := fun a => by
    have up : ∀ d, ((s.setReg64 (cmt 0x5C) s.badPage).setNat (cmt 0x48) 1).domUp d = s.domUp d := fun d => by
      have apart : ∀ o, o < 4096 → dstat d ≠ cmt o := fun o ho => by rw [dstat_eq]; simp only [cmt, pageBase, pageNo]; omega
      unfold State.domUp
      rw [State.domState_setNat _ _ _ _ (apart 0x48 (by decide)),
        State.domState_congr (State.reg_setReg64_other _ _ _ _ (apart 0x5C (by decide)) (apart 0x60 (by decide)))]
    unfold State.acceptArm
    rw [place, State.reg_foldl_armed (fun c hc => List.mem_range.mp hc)]
    simp only [up]
  have stat : s.acceptArm.reg (cmt 0x48) = 1 := by
    rw [regs, if_neg, State.reg_setNat, if_pos rfl]
    · rfl
    rintro ⟨c, hc, -, e⟩
    exact cmr_ne_cmt c 0x44 (List.mem_range.mp hc) (by decide) e.symm
  refine ⟨by rw [State.armed, State.bit, stat]; rfl, by rw [State.checking, State.bit, stat]; rfl,
    fun c hc up => by rw [regs, if_pos ⟨c, List.mem_range.mpr hc, up, rfl⟩], ?_⟩
  unfold State.acceptArm
  rw [State.cores_foldl_armed, State.setNat_cores, State.setReg64_cores]

theorem leastOf_eq_none (l : List Nat) : leastOf l = none ↔ l = [] := by
  cases l with
  | nil => exact ⟨fun _ => rfl, fun _ => rfl⟩
  | cons x l =>
    refine ⟨fun h => ?_, fun h => by cases h⟩
    unfold leastOf at h
    split at h <;> cases h

theorem tableFail_eq_none (s : State) : s.tableFail = none ↔ ∀ n, n < 192 → s.windowFail n = none := by
  simp [State.tableFail, List.findSome?_eq_none_iff]

theorem exec_commitCheckEnd {s : State} (runs : s.stalled = false) : exec .commitCheckEnd s = .next (commitCheckEnd s) := act_runs _ _ runs

/-- A check of ticks that run, whose target is after the next frame. -/
theorem commitCheckEnd_tables {s : State} (checking : s.checking = true) (target : frameAfter (s.reg (cmt 0x40)) (s.fnum + 1) = true)
    (run : s.running = true) :
    let wins := ∀ n, n < 192 → s.windowFail n = none
    let src := s.sourceOk (s.reg (frm 0x70)).toNat (s.fld (frm 0x74) 0 27) (s.fld (frm 0x78) 0 27) (s.fld (frm 0x7C) 0 16) = true
    let pages := s.failingPages = []
    let t := commitCheckEnd s
    t.checking = false ∧ (t.armed = true ↔ wins ∧ src ∧ pages)
      ∧ (wins → src → pages → ∀ c, c < 7 → s.domUp (264 + c) = true → t.reg (cmr c 0x44) = 1)
      ∧ (¬wins → t.fld (cmt 0x48) 8 4 = 3) ∧ (wins → ¬src → t.fld (cmt 0x48) 8 4 = 4)
      ∧ (wins → src → ¬pages → t.fld (cmt 0x48) 8 4 = 5) ∧ t.cores = s.cores := by
  intro wins src pages t
  have step : t = commitCheckEnd s := rfl
  rw [commitCheckEnd_eq checking, if_neg (by rw [target]; decide), if_neg (by rw [run]; decide)] at step
  have table : s.tableFail.isSome = true ↔ ¬wins := by
    rw [Option.isSome_iff_ne_none, Ne, tableFail_eq_none]
  have least : (leastOf s.failingPages).isSome = true ↔ ¬pages := by
    rw [Option.isSome_iff_ne_none, Ne, leastOf_eq_none]
  by_cases hw : wins
  · rw [if_neg (by rw [table]; exact fun h => h hw)] at step
    by_cases hs : src
    · rw [if_neg (by rw [show _ = true from hs]; decide)] at step
      by_cases hp : pages
      · rw [if_neg (by rw [least]; exact fun h => h hp)] at step
        obtain ⟨armed, checked, receivers, cores⟩ := s.acceptArm_spec ((tableFail_eq_none s).mpr hw)
        rw [step]
        exact ⟨checked, iff_of_true armed ⟨hw, hs, hp⟩, fun _ _ _ => receivers, absurd hw, fun _ => absurd hs, fun _ _ => absurd hp, cores⟩
      · rw [if_pos (least.mpr hp)] at step
        obtain ⟨armed, checked, reason, -, cores⟩ := s.refuseArm_spec (r := 5) (by decide)
        rw [step]
        exact ⟨checked, iff_of_false (by simp [armed]) (fun h => hp h.2.2), fun _ _ h => absurd h hp, absurd hw, fun _ => absurd hs,
          fun _ _ _ => reason, cores⟩
    · rw [if_pos (by simpa [src] using hs)] at step
      obtain ⟨armed, checked, reason, -, cores⟩ := s.refuseArm_spec (r := 4) (by decide)
      rw [step]
      exact ⟨checked, iff_of_false (by simp [armed]) (fun h => hs h.2.1), fun _ h => absurd h hs, absurd hw, fun _ _ => reason,
        fun _ h => absurd h hs, cores⟩
  · rw [if_pos (table.mpr hw)] at step
    obtain ⟨armed, checked, reason, -, cores⟩ := s.refuseArm_spec (r := 3) (by decide)
    rw [step]
    exact ⟨checked, iff_of_false (by simp [armed]) (fun h => hw h.1), fun h => absurd h hw, fun _ => reason, fun h => absurd h hw,
      fun h => absurd h hw, cores⟩

/-! ### Writes of shadow registers (03 R47, R65) -/

/-- A register of a page stands on that page. -/
theorem pageOf_own {x o : Nat} {p : Page} (there : pageOf x = some p) (ho : o < 4096) : pageOf (p.base + o) = some p := by
  have base := pageOf_base there
  have cab : natField (p.base + o) 24 4 = natField x 24 4 := by simp only [natField, Nat.shiftRight_eq_div_pow]; omega
  have block : natField (p.base + o) 16 8 = natField x 16 8 := by simp only [natField, Nat.shiftRight_eq_div_pow]; omega
  have page : natField (p.base + o) 12 4 = natField x 12 4 := by simp only [natField, Nat.shiftRight_eq_div_pow]; omega
  rw [← there]
  unfold pageOf
  rw [cab, block, page]

/-- The shadow registers of a regulator's page: each active copy is 0x300 above its shadow (03 R62). -/
theorem rg_shadow {p : Page} {o a : Nat} {r : RegRow} (kind : p.kind = .rg) (row : p.row o = some r) (act : r.act = some a) :
    0x40 ≤ o ∧ r.off ≤ o ∧ a = r.off + 0x300 ∧ 0x100 ≤ r.off ∧ o < 0x400 := by
  by_cases header : o < 0x40
  · rw [Page.row, if_pos header] at row
    have none : ∀ x ∈ headerRows, x.act = none := by decide
    rw [none r (List.mem_of_find?_eq_some row)] at act
    cases act
  rw [Page.row, if_neg header, Page.rows, kind] at row
  have mem := List.mem_of_find?_eq_some row
  have holds := List.find?_some row
  simp only [RegRow.holds, Bool.and_eq_true, decide_eq_true_eq] at holds
  obtain ⟨⟨off, stride⟩, num⟩ := holds
  simp only [rgRows, meterRows, ro, List.mem_append, List.mem_cons, List.not_mem_nil, or_false] at mem
  rcases mem with (((rfl | rfl | rfl | rfl | rfl | rfl | rfl) | rfl | rfl | rfl) | rfl | rfl | rfl) | rfl | rfl | rfl <;>
    simp only [reduceCtorEq, Option.some.injEq] at act <;> subst act <;> simp only at off num <;>
    exact ⟨by omega, off, rfl, by simp, by omega⟩

section
variable {p : Page} {o a : Nat} {r : RegRow} (kind : p.kind = .rg) (row : p.row o = some r) (act : r.act = some a) (s : State)
include kind row act

/-- A write of a regulator's shadow register is a shadow write. -/
theorem State.writeReg_rg (i : Nat) (part : PartId) (c : BitVec 48) (v : W32) : s.writeReg i part c p o v = s.shadowWrite p o v := by
  obtain ⟨functional, -⟩ := rg_shadow kind row act
  have banked : p.shadowed o = true := by simp [Page.shadowed, row, act]
  have plain : s.writeFunc i part c p o v = s.shadowWrite p o v := by
    unfold State.writeFunc
    simp only [kind, banked, if_true]
  unfold State.writeReg
  split
  · omega
  · omega
  · omega
  · rw [if_neg (by omega), plain]

/-- With no commit in progress it takes the word; while RUN is 0 its active copy takes it too. -/
theorem State.shadowWrite_idle {x : Nat} (there : pageOf x = some p) (v : W32) (armed : s.armed = false) (checking : s.checking = false) :
    let w := maskedWrite r (s.bit (p.base + 0xC) 2) (s.reg (p.base + o)) v
    s.shadowWrite p o v = if s.running then s.setReg (p.base + o) w
      else (s.setReg (p.base + o) w).setReg (p.base + (a + (o - r.off))) w := by
  intro w
  obtain ⟨-, -, -, -, inside⟩ := rg_shadow kind row act
  have plain : s.plainWrite p o v = s.setReg (p.base + o) w := by simp only [State.plainWrite, row]; rfl
  have run : (s.setReg (p.base + o) w).running = s.running := by
    have apart : frm 0x40 ≠ p.base + o := fun e => by
      have own := pageOf_own there (o := o) (by omega)
      rw [← e, pageOf_eq_of_div (b := frm 0) (by rw [frm_div (by decide), frm_div (by decide)]), FrameOnly.pageOf_frm] at own
      rw [← Option.some.inj own] at kind
      cases kind
    exact State.bit_congr (State.reg_setReg_other _ _ _ _ apart) 0
  have active : (s.setReg (p.base + o) w).activeOf p o = some (a + (o - r.off)) := by simp [State.activeOf, kind, row, act]
  unfold State.shadowWrite
  simp only [armed, checking, kind, plain, run, active, State.reg_setReg_same]
  simp

omit row act in
/-- While a commit is checking or armed it counts as late, and changes nothing (03 R65). -/
theorem State.shadowWrite_late (v : W32) (late : s.armed = true ∨ s.checking = true) :
    s.shadowWrite p o v = s.lateWrite (p.base + o) := by
  have on : (s.armed || s.checking) = true := by rcases late with h | h <;> simp [h]
  unfold State.shadowWrite
  simp [on, kind]

end

/-- A late write shows LATE, counts, and changes the commit unit's page only. -/
theorem State.lateWrite_spec (s : State) (a : Nat) :
    (s.lateWrite a).bit (cmt 0x14) 1 = true ∧ (s.lateWrite a).fld (cmt 0x58) 0 16 = min 0xFFFF (s.fld (cmt 0x58) 0 16 + 1)
      ∧ ∀ b, b / 4096 ≠ 28706 → (s.lateWrite a).reg b = s.reg b := by
  unfold State.lateWrite
  extract_lets shown frame s1
  have kept : ∀ b, b ≠ cmt 0x50 → b ≠ cmt 0x54 → s1.reg b = s.reg b := fun b h h' => by
    by_cases seen : s.frame.lateSeen = true
    · simp only [s1, seen, if_true]
    · simp only [s1, seen, shown]
      exact State.reg_setReg64_other _ _ _ _ h h'
  clear_value s1
  refine ⟨State.bit_raise (pageOf_cmt (by decide)) rfl _ _ _ (by decide), ?_, fun b page => ?_⟩
  · rw [State.fld_congr (State.reg_raise _ _ _ _ _ (by decide) (by decide)), State.fld_count16,
      State.fld_congr (kept _ (by decide) (by decide))]
  · have apart : ∀ o, o < 4096 → b ≠ cmt o := fun o ho e => page (by rw [e, cmt_div ho])
    have raised := (OnlyRegsErr.raise (pageOf_cmt (o := 0) (by decide)) rfl (s1.count16 (cmt 0x58)) 1 none).others b (by
      simp only [List.mem_cons, List.not_mem_nil, or_false, not_or]
      exact ⟨apart 0x14 (by decide), apart 0x20 (by decide)⟩)
    rw [raised, State.reg_count16_other _ _ _ (apart 0x58 (by decide)), kept _ (apart 0x50 (by decide)) (apart 0x54 (by decide))]

/-- Commits are as the statement gives them. -/
theorem commitRules : Rules.CommitRules := by
  intro s i v p
  refine ⟨fun h => ⟨fun armed checking => ⟨_, exec_cmtArm h v, s.writeCmtCtl_checks v armed checking⟩, fun busy => ?_, fun busy => ?_, fun armed checking => ?_⟩,
    fun runs => ⟨fun idle => ?_, fun checking target => ?_, fun checking target stop => ?_,
      fun checking target run => ⟨_, exec_commitCheckEnd runs, commitCheckEnd_tables checking target run⟩⟩,
    fun x v r a h kind row act => ?_⟩
  · rw [exec_cmtArm h, State.writeCmtCtl_arm, if_neg (by rcases busy with b | b <;> simp [b])]
  · obtain ⟨rest, armed, checking, -, cancelled⟩ := s.cancelCommit_spec
    obtain ⟨bit, receivers⟩ := cancelled busy
    exact ⟨_, (exec_cmtDisarm h v).trans (by rw [State.writeCmtCtl_disarm]), armed, checking, bit, receivers, by rw [rest]⟩
  · rw [exec_cmtDisarm h, State.writeCmtCtl_disarm, State.cancelCommit, if_neg (by simp [armed, checking])]
  · rw [exec_commitCheckEnd runs, commitCheckEnd, if_pos (by simp [idle])]
  · obtain ⟨armed, idle, reason, raised, -⟩ := s.refuseArm_spec (r := 1) (by decide)
    exact ⟨_, (exec_commitCheckEnd runs).trans (by rw [commitCheckEnd_eq checking, if_pos target]), armed, idle, reason, raised⟩
  · obtain ⟨armed, -, reason, -, -⟩ := s.refuseArm_spec (r := 2) (by decide)
    exact ⟨_, (exec_commitCheckEnd runs).trans (by rw [commitCheckEnd_eq checking, if_neg (by rw [target]; decide), if_pos stop]), armed, reason⟩
  · intro y z w
    have there := State.pageOf_of_pageAt h.there
    obtain ⟨-, low, active, -, inside⟩ := rg_shadow kind row act
    have write : exec (.registerWrite i x 4 v) s = .next (s.shadowWrite p (x.toNat % 4096) (BitVec.ofNat 32 v.toNat)) := by
      rw [exec_registerWrite_mayWrite h, State.writeReg_rg kind row act]
      rfl
    have idle := State.shadowWrite_idle kind row act s there (BitVec.ofNat 32 v.toNat)
    refine ⟨fun late => ⟨_, write.trans (by rw [State.shadowWrite_late kind s _ late]), ?_⟩, fun armed checking run => ?_,
      fun armed checking stop => ?_⟩
    · obtain ⟨raised, count, kept⟩ := s.lateWrite_spec (p.base + x.toNat % 4096)
      have page : ∀ o, o < 4096 → (p.base + o) / 4096 ≠ 28706 := fun o ho e => by
        have own := pageOf_own there ho
        rw [pageOf_eq_of_div (b := cmt 0) (e.trans (cmt_div (by decide)).symm), pageOf_cmt (by decide)] at own
        rw [← Option.some.inj own] at kind
        cases kind
      exact ⟨kept _ (page _ (Nat.mod_lt _ (by decide))), kept _ (page _ (by omega)), raised, count⟩
    · rw [write, idle armed checking, if_pos run]
    · rw [write, idle armed checking, if_neg (by simp [stop])]

/-- Settles O38: windows and commits, one theorem each. -/
theorem windowsAndCommits : Obligations.WindowsAndCommits := ⟨windowEvents, commitRules⟩

end Sys2Proof.Machine
end

section
/-! ## Boot, storage, low-speed I/O, GPIO and trace (14 R398-R403), O60 -/

namespace Sys2Proof.Machine

/-! ### Writes of the boot and I/O pages -/

/-- A page of boot and I/O. -/
def bioP (n : Nat) : Page := ⟨.bio, 0, 6, 0x4C, n⟩

theorem pageOf_bioPage (n : Fin 4) {o : Nat} (ho : o < 4096) : pageOf (bioPage n.val o) = some (bioP n.val) := by
  rw [pageOf_eq_of_div (b := bioPage n.val 0) (by simp only [bioPage, pageBase, pageNo]; omega)]
  revert n; decide +kernel

theorem bioPage_mod (n : Nat) {o : Nat} (ho : o < 4096) : bioPage n o % 4096 = o := by simp only [bioPage, pageBase]; omega

/-- A write of CMD of a low-speed controller. -/
theorem State.writeFunc_lowSpeed (s : State) (i : Nat) (part : PartId) (c : BitVec 48) {n o k : Nat} (v : W32) (go : o ≠ 0x54) (ctl : o ≠ 0x100)
    (cmd : lowSpeedAt n o = some (k, 0x14)) : s.writeFunc i part c (bioP n) o v = s.writeLsCmd k v := by
  unfold State.writeFunc bioP
  split <;> simp_all

/-- Where CMD of a low-speed controller stands. -/
theorem lowSpeed_place (k : Fin 12) : ∃ n : Fin 4, lowSpeed k.val 0x14 = bioPage n.val (lowSpeed k.val 0x14 % 4096)
    ∧ lowSpeedAt n.val (lowSpeed k.val 0x14 % 4096) = some (k.val, 0x14) ∧ 0x100 < lowSpeed k.val 0x14 % 4096 := by
  revert k; decide

/-- CMD of a low-speed controller starts an operation there (14 R400). -/
theorem exec_lowSpeedCommand {s : State} {i : Initiator} {k : Fin 12} {p : Page} (h : MayWrite s i (lowSpeed k.val 0x14) p) (v : W32) :
    exec (.lowSpeedCommand i k v) s = .next (s.writeLsCmd k.val v) := by
  obtain ⟨n, place, cmd, low⟩ := lowSpeed_place k
  have there := State.pageOf_of_pageAt h.there
  rw [place, pageOf_bioPage n (Nat.mod_lt _ (by decide))] at there
  obtain rfl := Option.some.inj there
  have write : s.writeReg (iniCode i) (s.partOf i) s.power.aon (bioP n.val) (lowSpeed k.val 0x14 % 4096) v = s.writeLsCmd k.val v := by
    unfold State.writeReg
    split
    · omega
    · omega
    · omega
    · rw [if_neg (by omega), State.writeFunc_lowSpeed _ _ _ _ _ (by omega) (by omega) cmd]
  exact (act_write4 h v).trans (congrArg Host.Outcome.next write)

/-- Where a controller's registers are, for the page and offset of a write. -/
theorem MayWrite.bio_page {s : State} {i : Initiator} {o : Nat} {p : Page} (h : MayWrite s i (bioPage 0 o) p) (ho : o < 4096) : p = bioP 0 := by
  have there := State.pageOf_of_pageAt h.there
  rw [show bioPage 0 o = bioPage (0 : Fin 4).val o from rfl, pageOf_bioPage 0 ho] at there
  exact (Option.some.inj there).symm

theorem exec_xspiGo {s : State} {i : Initiator} {p : Page} (h : MayWrite s i (bioPage 0 0x54) p) (v : W32) :
    exec (.xspiGo i v) s = .next (s.writeXsGo (v ||| 1)) := by
  obtain rfl := h.bio_page (by decide); exact act_write4 h _

/-- A doorbell takes its word, and one that is not 0 starts a transfer (14 R399). -/
theorem State.writeReg_doorbell (s : State) (i : Nat) (part : PartId) (c : BitVec 48) {o : Nat} (door : o = 0x458 ∨ o = 0x470) (v : W32) :
    s.writeReg i part c (bioP 0) o v
      = if v != 0 then { s.setReg (bioPage 0 o) v with port := { s.port with ufs := true } } else s.setReg (bioPage 0 o) v := by
  have row : (bioP 0).row o = some { off := 0x400, num := 256, rw := full } := by rcases door with rfl | rfl <;> rfl
  have word : ∀ x : W32, maskedWrite { off := 0x400, num := 256, rw := full } (s.locked (bioP 0)) x v = v := fun x => by
    have all : v &&& 4294967295#32 = v := BitVec.and_allOnes
    simp [maskedWrite, full, all]
  have plain : s.plainWrite (bioP 0) o v = s.setReg (bioPage 0 o) v := by
    simp only [State.plainWrite, row, word]
    rfl
  have write : s.writeReg i part c (bioP 0) o v
      = if v != 0 then { s.plainWrite (bioP 0) o v with port := { (s.plainWrite (bioP 0) o v).port with ufs := true } } else s.plainWrite (bioP 0) o v := by
    rcases door with rfl | rfl <;> rfl
  rw [write, plain]
  rfl

theorem exec_ufsDoorbell {s : State} {i : Initiator} {o : BitVec 12} {p : Page} (door : o = 0x458 ∨ o = 0x470) (h : MayWrite s i (bioPage 0 o.toNat) p)
    (v : W32) : exec (.ufsDoorbell i o v) s
      = .next (if v != 0 then { s.setReg (bioPage 0 o.toNat) v with port := { s.port with ufs := true } } else s.setReg (bioPage 0 o.toNat) v) := by
  obtain rfl := h.bio_page o.isLt
  have offset : bioPage 0 o.toNat % 4096 = o.toNat := bioPage_mod 0 o.isLt
  have isDoor : o.toNat = 0x458 ∨ o.toNat = 0x470 := by rcases door with rfl | rfl <;> simp
  have row : exec (.ufsDoorbell i o v) s = act s (fun s => s.write4 i (bioPage 0 o.toNat) v) := by rcases door with rfl | rfl <;> rfl
  rw [row, act_write4 h, offset, State.writeReg_doorbell _ _ _ _ isDoor]

/-! ### Storage (14 R398-R400) -/

/-- DMA of a storage controller with nothing to write waits for nothing and writes nothing. -/
theorem State.bioHolder_nil (s : State) (a : Nat) : s.bioHolder a [] = none := rfl
theorem State.bioWrite_nil (s : State) (a : Nat) : s.bioWrite a [] = s := rfl

section
variable {s : State} {a : Nat} {l : List Byte} (some_ : l ≠ []) (dram : ∀ x ∈ rangeLines a l.length, s.isDram (64 * x) = true)
  (open_ : s.confBars a l.length s.bioPart = false)
include some_ dram open_

/-- DMA into visible DRAM that no confidential range bars waits as its write does. -/
theorem State.bioHolder_dram : s.bioHolder a l = s.wouldWait 68 2 s.bioPart a l.length true := by
  have inside : s.inDram a l.length = true := List.all_eq_true.mpr dram
  unfold State.bioHolder
  rw [inside, open_, List.isEmpty_eq_false_iff.mpr some_]
  rfl

/-- Such DMA is the write of its bytes. -/
theorem State.bioWrite_dram : s.bioWrite a l = (s.portAccess 68 2 a l.length s.bioPart (some l) false).2 := by
  have inside : s.inDram a l.length = true := List.all_eq_true.mpr dram
  unfold State.bioWrite
  simp only [inside, open_, List.isEmpty_eq_false_iff.mpr some_]
  rfl

end

section
variable {s : State} {ok : Bool} {d l : List Byte} {a : Nat} (on : s.port.xspi = true)
  (range : a = (s.reg (bioPage 0 0x4C)).toNat + 4294967296 * s.fld (bioPage 0 0x50) 0 10)
  (data : l = if ok then d.take (s.reg (bioPage 0 0x48)).toNat else [])
include on range data

/-- XSPI_DONE of an operation under way whose write of `l` at `a` has to wait. -/
theorem xspiDone_held {h : Held} (waits : s.bioHolder a l = some h) : xspiDone ok d s = s.holdFor h := by
  subst range data
  simp [xspiDone, on, waits]

/-- XSPI_DONE of an operation under way whose write of `l` at `a` is free to go. -/
theorem xspiDone_free (free : s.bioHolder a l = none) :
    xspiDone ok d s = ((({ s with port := { s.port with xspi := false } } : State).bioWrite a l).setNat (bioPage 0 0x58) 2).fire 0x6CC := by
  subst range data
  simp [xspiDone, on, free]

end

section
variable {s : State} {ok : Bool} {d l : List Byte} {a : Nat} (on : s.port.ufs = true) (data : l = if ok then d else [])
include on data

/-- UFS_TRANSFER_DONE of a transfer under way whose write has to wait. -/
theorem ufsDone_held {h : Held} (waits : s.bioHolder a l = some h) : ufsDone ok a d s = s.holdFor h := by
  subst data
  simp [ufsDone, on, waits]

/-- UFS_TRANSFER_DONE of a transfer under way whose write is free to go. -/
theorem ufsDone_free (free : s.bioHolder a l = none) :
    ufsDone ok a d s = (({ s with port := { s.port with ufs := false } } : State).bioWrite a l).fire 0x6CD := by
  subst data
  simp [ufsDone, on, free]

end

/-- Nothing came, or the operation failed: nothing is written. -/
theorem bio_nothing {ok : Bool} {d : List Byte} (h : ok = false ∨ d = []) (n : Nat) :
    (if ok then d.take n else []) = [] ∧ (if ok then d else []) = [] := by
  rcases h with rfl | rfl <;> simp

/-! ### Low-speed I/O (14 R400) -/

theorem lowSpeedDone_eq {s : State} {k : Nat} (on : k ∈ s.port.busy) (d : List Byte) :
    lowSpeedDone k d s = (State.pushRx { s with port := { s.port with busy := s.port.busy.filter (· ≠ k), tx := SMap.set [] s.port.tx k [] } } k d).fire
      (0x6C0 + k) := by
  unfold lowSpeedDone
  rw [if_neg (by simpa using on)]

theorem State.pushRx_rx (s : State) (k : Nat) (d : List Byte) : SMap.get [] (s.pushRx k d).port.rx k = (SMap.get [] s.port.rx k ++ d).take 64 := by
  unfold State.pushRx push64
  simp only [SMap.get_set, if_true]

/-! ### GPIO (14 R401) -/

/-- An edge changes the ball's level, and an enabled one fires. -/
theorem gpioEdge_eq (s : State) (g : Nat) (rise : Bool) :
    let u := s.setBit (bioPage 3 (0x40 + 4 * (g / 32))) (g % 32) rise
    gpioEdge g rise s = if s.bit (bioPage 3 ((if rise then 0x58 else 0x60) + 4 * (g / 32))) (g % 32) then u.fire (0x680 + g) else u := by
  intro u
  have enable : u.bit (bioPage 3 ((if rise then 0x58 else 0x60) + 4 * (g / 32))) (g % 32)
      = s.bit (bioPage 3 ((if rise then 0x58 else 0x60) + 4 * (g / 32))) (g % 32) :=
    State.bit_congr (State.reg_setReg_other _ _ _ _ (by simp only [bioPage]; split <;> omega)) _
  unfold gpioEdge
  rw [← enable]

/-! ### The trace-port exporter (14 R403) -/

/-- One record at an exporter that does not send: kept while there is room for 64, or counted. -/
def State.keepRecord (s : State) (d : BitVec 512) (k : Nat) : State :=
  if 64 ≤ s.port.trace.length then s.count (bioPage 3 0x104)
  else { s with port := { s.port with trace := s.port.trace ++ [BitVec.setWidth 128 (d >>> (128 * k))] } }

theorem State.exportTrace_off {s : State} (off : s.traceOn = false) (d : BitVec 512) :
    s.exportTrace d = (List.range 4).foldl (fun s k => s.keepRecord d k) s := by
  unfold State.exportTrace
  rw [off]
  rfl

/-- Records that have room are kept. -/
theorem State.keepRecords_room (d : BitVec 512) (l : List Nat) (s : State) (room : s.port.trace.length + l.length ≤ 64) :
    l.foldl (fun s k => s.keepRecord d k) s
      = { s with port := { s.port with trace := s.port.trace ++ l.map (fun k => BitVec.setWidth 128 (d >>> (128 * k))) } } := by
  induction l generalizing s with
  | nil => simp
  | cons k l ih =>
    rw [List.length_cons] at room
    have kept : s.keepRecord d k = { s with port := { s.port with trace := s.port.trace ++ [BitVec.setWidth 128 (d >>> (128 * k))] } } :=
      if_neg (by omega)
    rw [List.foldl_cons, kept, ih _ (by simp only [List.length_append, List.length_singleton]; omega)]
    simp

/-- Records without room are counted. -/
theorem State.keepRecords_full (d : BitVec 512) (l : List Nat) (s : State) (full : 64 ≤ s.port.trace.length) :
    OnlyRegs s (l.foldl (fun s k => s.keepRecord d k) s) [bioPage 3 0x104]
      ∧ (l.foldl (fun s k => s.keepRecord d k) s).reg (bioPage 3 0x104) = s.reg (bioPage 3 0x104) + BitVec.ofNat 32 l.length := by
  induction l generalizing s with
  | nil => exact ⟨OnlyRegs.refl s _, by simp⟩
  | cons k l ih =>
    have counted : s.keepRecord d k = s.count (bioPage 3 0x104) := if_pos full
    obtain ⟨rest, count⟩ := ih (s.count (bioPage 3 0x104)) full
    rw [List.foldl_cons, counted]
    refine ⟨(OnlyRegs.setReg s _ (by simp)).trans rest, ?_⟩
    rw [count, State.count, State.reg_setReg_same, BitVec.add_assoc, ← BitVec.ofNat_add, List.length_cons, Nat.add_comm]

/-- A trace line that is not on its way between routers arrives at the exporter at once. -/
theorem traceArrive_exporter {s : State} {q : Packet} (dst : q.dst = 71) (port : q.dstp = 1) (alone : ∀ f ∈ s.net.flights, f.pkt ≠ q) :
    traceArrive q s = s.exportTrace q.line := by
  have fresh : s.net.flights.findIdx? (fun f => f.pkt = q) = none := by
    rw [List.findIdx?_eq_none_iff]; simpa using alone
  have gate : s.atGate q = false := by unfold State.atGate; rw [fresh]
  have arrived : s.arrive q = s := by unfold State.arrive; rw [fresh]
  have slice : sliceOf q.dst.toNat = none := by rw [dst]; decide
  unfold traceArrive
  rw [gate, arrived, slice]
  simp [dst, port]

/-! ### The statement -/

/-- The numbers of a rising list into which one more was put. -/
theorem mem_insertOnce_iff (x y : Nat) (l : List Nat) : y ∈ insertOnce x l ↔ y = x ∨ y ∈ l := by
  induction l with
  | nil => simp [insertOnce]
  | cons z l ih =>
    unfold insertOnce
    split
    · simp
    · split
      · rename_i e; simp [e]
      · rw [List.mem_cons, ih, List.mem_cons]; tauto

/-- Settles O60: GO, doorbells and commands start an operation, an end that something began ends it, an edge changes a ball, and a trace line is sent, kept
or counted. -/
theorem bootAndIo : Obligations.BootAndIo := by
  intro s
  refine ⟨fun i v g h => ⟨fun off => ?_, fun on => ?_⟩, fun i o v g door h => ?_, fun i k v g h => ?_, fun runs => ?_⟩
  · rw [exec_xspiGo h, State.writeXsGo, if_neg (by rw [bitOf_one, off]; decide)]
  · rw [exec_xspiGo h, State.writeXsGo, if_pos (by rw [on, Bool.or_true])]
  · refine ⟨_, exec_ufsDoorbell door h v, ?_⟩
    cases zero : v != 0
    · rw [Bool.or_false]
      exact ⟨State.reg_setReg_same s _ _, ⟨rfl, fun b hb => State.reg_setReg_other s _ _ _ (by simpa using hb)⟩, rfl⟩
    · rw [Bool.or_true]
      exact ⟨State.reg_setReg_same s _ _, ⟨rfl, fun b hb => State.reg_setReg_other s _ _ _ (by simpa using hb)⟩, rfl⟩
  · refine ⟨_, exec_lowSpeedCommand h v, mem_insertOnce _ _, fun j hj => ?_, State.reg_setReg_same s _ _,
      ⟨rfl, fun b hb => State.reg_setReg_other s _ _ _ (by simpa using hb)⟩⟩
    exact (mem_insertOnce_iff _ _ _).trans ⟨fun m => m.resolve_left hj, Or.inr⟩
  have xspi : ∀ ok d, exec (.xspiDone ok d) s = .next (xspiDone ok d s) := fun ok d => act_runs s (xspiDone ok d) runs
  have ufs : ∀ ok (a : PAddr) d, exec (.ufsTransferDone ok a d) s = .next (ufsDone ok a.toNat d s) := fun ok a d => act_runs s (ufsDone ok a.toNat d) runs
  refine ⟨fun ok d off => ?_, fun ok d on none_ => ?_, fun d on => ?_, fun ok a d off => ?_, fun ok a d on none_ => ?_, fun a d on => ?_,
    fun k d off => ?_, fun k d on => ?_, fun k d => ?_, fun g rise => ?_, fun k dst port alone => ?_⟩
  · rw [xspi, xspiDone, if_pos (by rw [off]; rfl)]
  · rw [xspi, xspiDone_free on rfl (bio_nothing none_ _).1.symm (s.bioHolder_nil _), State.bioWrite_nil]
  · intro pa x u part some_ dram open_
    have holder : s.bioHolder pa x = s.wouldWait 68 2 part pa x.length true := State.bioHolder_dram some_ dram open_
    have write : u.bioWrite pa x = (u.portAccess 68 2 pa x.length part (some x) false).2 := State.bioWrite_dram (s := u) some_ dram open_
    exact ⟨fun h waits => (xspi true d).trans (congrArg _ (xspiDone_held (l := x) on rfl rfl (holder.trans waits))),
      fun free => by rw [xspi, xspiDone_free (l := x) (a := pa) on rfl rfl (holder.trans free), write]⟩
  · rw [ufs, ufsDone, if_pos (by rw [off]; rfl)]
  · rw [ufs, ufsDone_free on (bio_nothing none_ 0).2.symm (s.bioHolder_nil _), State.bioWrite_nil]
  · intro part u some_ dram open_
    have holder : s.bioHolder a.toNat d = s.wouldWait 68 2 part a.toNat d.length true := State.bioHolder_dram some_ dram open_
    have write : u.bioWrite a.toNat d = (u.portAccess 68 2 a.toNat d.length part (some d) false).2 := State.bioWrite_dram (s := u) some_ dram open_
    exact ⟨fun h waits => (ufs true a d).trans (congrArg _ (ufsDone_held on rfl (holder.trans waits))),
      fun free => by rw [ufs, ufsDone_free (l := d) on rfl (holder.trans free), write]⟩
  · exact (act_runs s (lowSpeedDone k.val d) runs).trans (by rw [lowSpeedDone, if_pos (by simpa using off)])
  · refine ⟨_, (act_runs s (lowSpeedDone k.val d) runs).trans (congrArg _ (lowSpeedDone_eq on d)), ?_, ?_, State.pushRx_rx _ _ _, rfl⟩
    · simp [State.pushRx]
    · simp [State.pushRx]
  · have receives := act_runs s (fun s => if 4 ≤ k.val ∧ k.val < 8 then s else s.pushRx k.val d) runs
    by_cases spi : 4 ≤ k.val ∧ k.val < 8
    · exact ⟨s, receives.trans (congrArg _ (if_pos spi)), rfl, (if_pos spi).symm⟩
    · exact ⟨_, receives.trans (congrArg _ (if_neg spi)), rfl, (State.pushRx_rx s k.val d).trans (if_neg spi).symm⟩
  · exact (act_runs s (gpioEdge g.val rise) runs).trans (congrArg Host.Outcome.next (gpioEdge_eq s g.val rise))
  · have arrives : exec (.trc k) s = .next (s.exportTrace k.line) :=
      (act_runs s (traceArrive { k with op := opTrc }) runs).trans (congrArg Host.Outcome.next (traceArrive_exporter dst port alone))
    refine ⟨fun on => ?_, fun off room => ⟨_, arrives.trans (congrArg Host.Outcome.next (s.exportTrace_off off k.line)), ?_⟩,
      fun off full => ⟨_, arrives.trans (congrArg Host.Outcome.next (s.exportTrace_off off k.line)), ?_⟩⟩
    · rw [arrives, State.exportTrace, if_pos on]
    · rw [State.keepRecords_room _ _ _ (by rw [List.length_range]; omega)]
      exact ⟨by simp, rfl, List.prefix_append _ _⟩
    · exact State.keepRecords_full _ _ _ full

end Sys2Proof.Machine
end

section
/-! ## Core pages, and commands of the maintenance engines (06 R180-R182; 08 R238-R244; 09 R265) -/

namespace Sys2Proof.Machine

/-! ### Registers of a core's page -/

theorem pageOf_corePage (n : Fin 192) {o : Nat} (ho : o < 4096) :
    pageOf (corePage n.val o) = some ⟨.core, n.val, n.val / 48, 0x40 + n.val % 48, 0⟩ := by
  rw [pageOf_eq_of_div (b := corePage n.val 0) (by simp only [corePage, pageBase]; omega)]
  revert n; decide +kernel

theorem corePage_mod (n : Nat) {o : Nat} (ho : o < 4096) : corePage n o % 4096 = o := by simp only [corePage, pageBase]; omega

section
variable {s : State} {i : Initiator} {n : Fin 192} {p : Page}

/-- The page of a register of a core. -/
theorem corePage_there {o : Nat} (there : s.pageAt (corePage n.val o) = some p) (ho : o < 4096) :
    p = ⟨.core, n.val, n.val / 48, 0x40 + n.val % 48, 0⟩ :=
  Option.some.inj ((State.pageOf_of_pageAt there).symm.trans (pageOf_corePage n ho))

/-- PL_CTL takes bits 2:0 (06 R181). -/
theorem plCtlWrite_takes (h : MayWrite s i (corePage n.val 0x100) p) (v : W32) : Takes s (.plCtlWrite i n v) (corePage n.val 0x100) 7 v := by
  have page := corePage_there h.there (by decide)
  subst page
  have row : exec (.plCtlWrite i n v) s = .next (s.writeReg (iniCode i) (s.partOf i) s.power.aon _ (corePage n.val 0x100 % 4096) v) := act_write4 h v
  rw [corePage_mod _ (by decide)] at row
  unfold Takes
  rw [row]
  have word : ∀ locked old, maskedWrite (rw 0x100 7 7) locked old v = (old &&& ~~~7) ||| (v &&& 7) := fun locked old => by
    have all : ∀ x : W32, x &&& 4294967295#32 = x := fun x => BitVec.and_allOnes
    simp [maskedWrite, rw, all]
  exact congrArg Host.Outcome.next (congrArg (s.setReg (corePage n.val 0x100)) (word _ _))

/-- PCLR (06 R182). -/
theorem exec_pclr (h : MayWrite s i (corePage n.val 0x104) p) (v : W32) : exec (.pclr i n v) s = .next (s.pclr n.val) := by
  have page := corePage_there h.there (by decide)
  subst page
  have row : exec (.pclr i n v) s = .next (s.writeReg (iniCode i) (s.partOf i) s.power.aon _ (corePage n.val 0x104 % 4096) (v ||| 1)) := act_write4 h _
  rw [corePage_mod _ (by decide)] at row
  exact row.trans (congrArg Host.Outcome.next (if_pos (bitOf_one v)))

/-- A read of the lower half of a register pair captures the upper half for the initiator (03 R41). -/
theorem exec_retcntLoRead (h : MayRead s (corePage n.val 0x110) p) : exec (.retcntLoRead i n) s
    = .next (s.capture (iniCode i) (corePage n.val 0x114) (BitVec.ofNat 32 (s.reg64 (corePage n.val 0x110) / 4294967296))) := by
  have row : exec (.retcntLoRead i n) s = .next (s.read4 i (corePage n.val 0x110)) := act_runs s (fun s => s.read4 i (corePage n.val 0x110)) h.runs
  rw [row, State.read4_mayRead h, corePage_mod _ (by decide), corePage_there h.there (by decide)]
  rfl

theorem exec_brposLoRead (h : MayRead s (corePage n.val 0x170) p) : exec (.brposLoRead i n) s
    = .next (s.capture (iniCode i) (corePage n.val 0x174) (BitVec.ofNat 32 ((s.core n.val).bunk.brpos.toNat / 4294967296))) := by
  have row : exec (.brposLoRead i n) s = .next (s.read4 i (corePage n.val 0x170)) := act_runs s (fun s => s.read4 i (corePage n.val 0x170)) h.runs
  rw [row, State.read4_mayRead h, corePage_mod _ (by decide), corePage_there h.there (by decide)]
  rfl

end

/-- The registers of a core's page are as the statement gives them. -/
theorem corePageRows : Rules.CorePageRows := by
  intro s i n v g captures
  refine ⟨fun h => plCtlWrite_takes h v, fun h => exec_pclr h v, fun h => exec_retcntLoRead h, fun h => exec_brposLoRead h,
    fun runs => act_runs s (fun s => (s.updCore n.val (fun c => { c with pred := [] })).setBit (corePage n.val 0x108) 0 false) runs, fun runs e p there => ?_⟩
  have row := act_runs s (fun s => match pageOf (cachePage e.val) with
    | some p => if s.pageUp p then s.setBit (cachePage e.val + 0x10) 1 true else s
    | none => s) runs
  exact row.trans (by simp only [there])

/-! ### GO and ABORT (08 R238-R242) -/

/-- The page of an engine: its bench's L2 or its slice. -/
def engineP (e : Nat) : Page :=
  if e < 24 then ⟨.l2, e, e / 6, 0x10 + e % 6, 0⟩ else ⟨.slc, e - 24, 4 + (e - 24) / 16, 0x10 + (e - 24) % 16, 0⟩

theorem pageOf_engine (e : Fin 56) : pageOf (enginePage e.val) = some (engineP e.val) := by revert e; decide +kernel

theorem engineP_base (e : Nat) : (engineP e).base = enginePage e := by
  unfold engineP enginePage
  split
  · simp [Page.base, benchPage]
  · simp [Page.base, slicePage]

theorem enginePage_mod (e : Nat) {o : Nat} (ho : o < 4096) : (enginePage e + o) % 4096 = o := by
  have base := (engineP e).base_mod
  rw [engineP_base] at base
  omega

section
variable {s : State} {i : Initiator} {e : Fin 56} {p : Page}

/-- A write of ME_CMD reaches the engine of its page. -/
theorem act_meCmd (h : MayWrite s i (enginePage e.val + 0x54) p) (w : W32) :
    act s (fun s => s.write4 i (enginePage e.val + 0x54) w) = .next (s.writeMeCmd e.val w) := by
  have there := State.pageOf_of_pageAt h.there
  rw [pageOf_eq_of_div (b := enginePage e.val) (by have := enginePage_mod e.val (o := 0x54) (by decide); omega), pageOf_engine] at there
  obtain rfl := Option.some.inj there
  rw [act_write4 h, enginePage_mod _ (by decide)]
  have inst : 24 ≤ e.val → 24 + (e.val - 24) = e.val := by omega
  unfold engineP
  split
  · rfl
  · rename_i slice
    show Host.Outcome.next (s.writeMeCmd (24 + (e.val - 24)) w) = _
    rw [inst (by omega)]

/-- A GO under the engine's operation is a write of GO. -/
theorem exec_meGo (h : MayWrite s i (enginePage e.val + 0x54) p) {x : (Initiator → Fin 56 → W32 → Instr) × Nat} (go : IsMeGo x)
    (op : s.fld (enginePage e.val + 0x50) 0 2 = x.2) (v : W32) : exec (x.1 i e v) s = .next (s.writeMeCmd e.val (putField v 0 2 1)) := by
  have row : exec (x.1 i e v) s = act s (fun s => s.meGo i e.val x.2 v) := by
    simp only [IsMeGo, List.mem_cons, List.not_mem_nil, or_false] at go
    rcases go with rfl | rfl | rfl <;> rfl
  have write : s.meGo i e.val x.2 v = s.write4 i (enginePage e.val + 0x54) (putField v 0 2 1) := if_pos op
  rw [row, act_runs _ _ h.runs, write, ← act_meCmd h, act_runs _ _ h.runs]

theorem exec_meAbort (h : MayWrite s i (enginePage e.val + 0x54) p) (v : W32) :
    exec (.meAbort i e v) s = .next (s.writeMeCmd e.val (putField v 0 2 2)) := act_meCmd h _

end

section
variable {s : State} {e : Nat} (v : W32)

/-- The two bits of a write of ME_CMD. -/
theorem meCmd_bits (v : W32) (x : Nat) : bitOf (putField v 0 2 x) 0 = x.testBit 0 ∧ bitOf (putField v 0 2 x) 1 = x.testBit 1 := by
  rw [bitOf_putField _ _ _ _ _ (by decide), bitOf_putField _ _ _ _ _ (by decide)]
  exact ⟨rfl, rfl⟩

/-- ABORT alone. -/
theorem State.writeMeCmd_abort : s.writeMeCmd e (putField v 0 2 2) = s.meAbort e := by
  obtain ⟨go, abort⟩ := meCmd_bits v 2
  unfold State.writeMeCmd
  simp only [go, abort]
  rfl

/-- GO while a sweep runs is refused. -/
theorem State.writeMeCmd_busy (busy : (s.engine e).isSome = true) : s.writeMeCmd e (putField v 0 2 1) = s.raise (enginePage e) 3 := by
  obtain ⟨go, abort⟩ := meCmd_bits v 1
  unfold State.writeMeCmd
  simp only [go, abort, busy]
  rfl

/-- GO for a range of length 0 is done at once. -/
theorem State.writeMeCmd_empty (idle : s.engine e = none) (len : (s.meRange (enginePage e)).2 = 0) :
    s.writeMeCmd e (putField v 0 2 1)
      = ((((s.setNat (enginePage e + 0x58) 2).setNat (enginePage e + 0x64) 0).setNat (enginePage e + 0x68) 0)).fire (engineSource e) := by
  obtain ⟨go, abort⟩ := meCmd_bits v 1
  unfold State.writeMeCmd
  simp only [go, abort, idle, len]
  rfl

/-- The sweep that a GO starts: in set mode from set 0, or from the first line of the range. -/
def State.meStarted (s : State) (e : Nat) (sets : Bool) : Sweep :=
  let page := enginePage e
  { lo := (s.meRange page).1, len := (s.meRange page).2, op := s.fld (page + 0x50) 0 2, scope := s.bit (page + 0x50) 4,
    part := BitVec.ofNat 6 (s.fld (page + 0x24) 0 6), abort := false, pos := if sets then 0 else (s.meRange page).1 / 64 }

/-- The registers that a GO writes. -/
def State.meShown (s : State) (e lo : Nat) (sets : Bool) : State :=
  let page := enginePage e
  (((((s.setNat (page + 0x58) (1 + 16 * b2n sets)).setNat (page + 0x64) 0).setNat (page + 0x68) 0).setNat (page + 0x5C)
    (if sets then 0 else lo / 64 * 64)).setNat (page + 0x60) (if sets then 0 else lo / 4294967296))

/-- GO that is accepted starts the sweep. -/
theorem State.writeMeCmd_starts {sets : Bool} (idle : s.engine e = none) (len : (s.meRange (enginePage e)).2 ≠ 0) (good : s.refCode (enginePage e) = 0)
    (mode : sets = decide ((if e < 24 then 65536 else 32768)
      < ((s.meRange (enginePage e)).1 + (s.meRange (enginePage e)).2 + 63) / 64 - (s.meRange (enginePage e)).1 / 64)) :
    s.writeMeCmd e (putField v 0 2 1) = (s.meShown e (s.meRange (enginePage e)).1 sets).setEngine e (some (s.meStarted e sets)) := by
  obtain ⟨go, abort⟩ := meCmd_bits v 1
  subst mode
  unfold State.writeMeCmd
  simp only [go, abort, idle, len, good]
  rfl

end

theorem IsMeGo.op_pos {x : (Initiator → Fin 56 → W32 → Instr) × Nat} (go : IsMeGo x) : x.2 ≠ 0 := by
  simp only [IsMeGo, List.mem_cons, List.not_mem_nil, or_false] at go
  rcases go with rfl | rfl | rfl <;> simp

/-- A GO is accepted under an operation, for a range inside the address space, in a cache that is ready and enabled. -/
theorem State.refCode_good {s : State} {b : Nat} (op : s.fld (b + 0x50) 0 2 ≠ 0) (range : (s.meRange b).1 + (s.meRange b).2 ≤ 0x40000000000)
    (ready : s.bit (b + 0x10) 1 = true) (enabled : s.bit (b + 0xC) 0 = true) : s.refCode b = 0 := by
  unfold State.refCode
  rw [if_neg op, if_neg (by omega), if_neg (by rw [ready]; decide), if_neg (by rw [enabled]; decide)]

/-- What a GO writes. -/
theorem State.meShown_spec (s : State) (e lo : Nat) (sets : Bool) :
    let b := enginePage e
    let t := s.meShown e lo sets
    t.fld (b + 0x58) 0 4 = 1 ∧ t.reg (b + 0x64) = 0 ∧ t.reg (b + 0x68) = 0 ∧ t.bit (b + 0x58) 4 = sets
      ∧ t.reg (b + 0x5C) = BitVec.ofNat 32 (if sets then 0 else lo / 64 * 64)
      ∧ OnlyRegs s t [b + 0x58, b + 0x5C, b + 0x60, b + 0x64, b + 0x68] := by
  intro b t
  have stat : t.reg (b + 0x58) = BitVec.ofNat 32 (1 + 16 * b2n sets) := by simp [t, State.meShown, State.reg_setNat, b]
  refine ⟨?_, by simp [t, State.meShown, State.reg_setNat, b], by simp [t, State.meShown, State.reg_setNat, b], ?_,
    by simp [t, State.meShown, State.reg_setNat, b], rfl, fun a ha => ?_⟩
  · rw [State.fld, stat]; cases sets <;> rfl
  · rw [State.bit, stat]; cases sets <;> rfl
  · simp only [List.mem_cons, List.not_mem_nil, or_false, not_or] at ha
    obtain ⟨h0, h1, h2, h3, h4⟩ := ha
    simp only [t, State.meShown, State.reg_setNat]
    rw [if_neg h2, if_neg h1, if_neg h4, if_neg h3, if_neg h0]

@[simp] theorem State.engine_setEngine (s : State) (e : Nat) (x : Option Sweep) : (s.setEngine e x).engine e = x := by
  unfold State.engine State.setEngine
  simp only [SMap.get_set, if_true]

/-- ABORT of a sweep that is not marked marks it, and it stops at or after its position (08 R242). -/
theorem State.meAbort_marks {s : State} {e : Nat} {w : Sweep} (on : s.engine e = some w) (unmarked : w.abort = false) :
    ∃ p, w.pos ≤ p ∧ s.meAbort e = ({ s with fresh := s.fresh + 1 }).setEngine e (some { w with abort := true, stop := some p }) := by
  refine ⟨w.pos + Config.place s.fresh % (s.meEnd e w - w.pos + 1), Nat.le_add_right _ _, ?_⟩
  simp [State.meAbort, on, unmarked]

end Sys2Proof.Machine
end

section
/-! ## Sweeps of the maintenance engines (08 R238-R243), and O45 -/

namespace Sys2Proof.Machine

/-- What an injection or an error at a page leaves: every register but PG_ERR, PG_ERRINJ and PG_ERRCNT. -/
theorem State.reg_force (s : State) (base bit : Nat) {a : Nat} (h : a % 4096 ≠ 0x14) (h' : a % 4096 ≠ 0x1C) (k : a % 4096 ≠ 0x20) :
    (s.force base bit).reg a = s.reg a := by
  unfold State.force
  split
  · rfl
  · rename_i p _
    have aligned := p.base_mod
    split
    · rw [State.reg_setBit, if_neg (by omega)]
      refine (OnlyRegsErr.detect s p bit _ none true).others a ?_
      simp only [List.mem_cons, List.not_mem_nil, or_false, not_or]
      omega
    · rfl

/-! ### Caches and eviction buffers -/

theorem State.l2_congr {s t : State} (h : t.coh = s.coh) (b : Nat) : t.l2 b = s.l2 b := by unfold State.l2; rw [h]
theorem State.evb_congr {s t : State} (h : t.coh = s.coh) (b : Nat) : t.evb b = s.evb b := by unfold State.evb; rw [h]

theorem State.l2_modL2 (s : State) (b line : Nat) (f : CLine → Option CLine) : (s.modL2 b line f).l2 b = (s.l2 b).modify 16 (l2Set line) line f := by
  unfold State.modL2 State.setL2
  rw [State.l2, SMap.get_set, if_pos rfl]

theorem State.evb_modL2 (s : State) (b c line : Nat) (f : CLine → Option CLine) : (s.modL2 b line f).evb c = s.evb c := rfl

theorem State.reg_modL2 (s : State) (b line a : Nat) (f : CLine → Option CLine) : (s.modL2 b line f).reg a = s.reg a := rfl

theorem State.evb_setEvb (s : State) (b : Nat) (l : List EvLine) : (s.setEvb b l).evb b = l := by
  unfold State.setEvb
  rw [State.evb, SMap.get_set, if_pos rfl]

/-! ### What acting on a line leaves alone -/

/-- From `s` to `t` the shared caches, the L1Ds and the counts of lines acted on stayed as they were. -/
structure LinesKept (s t : State) : Prop where
  coh : t.coh = s.coh
  l1d : ∀ n line, t.l1dLine n line = s.l1dLine n line
  count : ∀ a, a % 4096 = 0x64 → t.reg a = s.reg a

namespace LinesKept

variable {s t u : State}

theorem refl (s : State) : LinesKept s s := ⟨rfl, fun _ _ => rfl, fun _ _ => rfl⟩

theorem trans (h : LinesKept s t) (k : LinesKept t u) : LinesKept s u :=
  ⟨k.coh.trans h.coh, fun n l => (k.l1d n l).trans (h.l1d n l), fun a ha => (k.count a ha).trans (h.count a ha)⟩

theorem foldl {α : Type} {f : State → α → State} {l : List α} (h : ∀ s, ∀ x ∈ l, LinesKept s (f s x)) (s : State) : LinesKept s (l.foldl f s) := by
  induction l generalizing s with
  | nil => exact refl s
  | cons x l ih => exact (h s x (by simp)).trans (ih (fun s y hy => h s y (by simp [hy])) _)

theorem of_cores (coh : t.coh = s.coh) (cores : t.cores = s.cores) (count : ∀ a, a % 4096 = 0x64 → t.reg a = s.reg a) : LinesKept s t :=
  ⟨coh, fun n line => by unfold State.l1dLine State.core; rw [cores], count⟩

theorem setReg (s : State) {a : Nat} (v : W32) (h : a % 4096 ≠ 0x64) : LinesKept s (s.setReg a v) :=
  of_cores rfl rfl (fun b hb => State.reg_setReg_other _ _ _ _ (by intro e; rw [e] at hb; exact h hb))

theorem force (s : State) (base bit : Nat) : LinesKept s (s.force base bit) :=
  of_cores (by rw [State.force_rest]) (s.force_cores base bit) (fun a ha => State.reg_force s base bit (by omega) (by omega) (by omega))

theorem raise (s : State) (base bit : Nat) (part : Option PartId) : LinesKept s (s.raise base bit part) :=
  of_cores (by rw [State.raise_rest]) (by rw [State.raise_rest]) (fun a ha => State.reg_raise _ _ _ _ _ (by omega) (by omega))

theorem request (s : State) (r port : Nat) (p : Packet) : LinesKept s (s.request r port p) := by
  have forced := force s (routerPage r 0) 0
  exact forced.trans (of_cores rfl rfl (fun _ _ => rfl))

theorem dropL1i (s : State) (n line : Nat) : LinesKept s (s.dropL1i n line) := by
  refine ⟨rfl, fun m x => ?_, fun _ _ => rfl⟩
  unfold State.dropL1i State.l1dLine
  rw [State.core_updCore]
  split
  · rename_i e; rw [e]
  · rfl

theorem wroteBack (s : State) {page : Nat} (aligned : page % 4096 = 0) (poison : Bool) : LinesKept s (s.wroteBack page poison) := by
  have counted := (setReg s (a := page + 0x68) (s.reg (page + 0x68) + BitVec.ofNat 32 1) (by omega)).trans (force (s.count (page + 0x68)) page 4)
  unfold State.wroteBack
  split
  · exact counted.trans (raise _ _ _ _)
  · exact counted

end LinesKept

/-! ### An L2's engine acts on a line that no L1D of the bench holds (08 R238, R241) -/

section
variable {s : State} {b line : Nat} (alone : ∀ n, n / 8 = b → s.l1dLine n line = none)
include alone

theorem l1d_none {n : Nat} (hn : n ∈ benchCores b) : s.l1dLine n line = none := by
  obtain ⟨k, hk, rfl⟩ := List.mem_map.mp hn
  exact alone _ (by have := List.mem_range.mp hk; omega)

/-- There is nothing to collect from the L1Ds. -/
theorem State.settleL1_alone (but : Option Nat) (kill : Bool) : s.settleL1 b line but kill = s := by
  have one : ∀ n ∈ benchCores b, (if but = some n then s else s.takeL1 n line (fun l => if kill then none else l.shared)) = s := fun n hn => by
    unfold State.takeL1
    rw [l1d_none alone hn, ite_self]
  unfold State.settleL1
  generalize benchCores b = l at one
  induction l with
  | nil => rfl
  | cons n l ih => rw [List.foldl_cons, one n (by simp)]; exact ih (fun m hm => one m (by simp [hm]))

/-- Inclusion takes the line from the L1Is. -/
theorem State.include_alone : LinesKept s (s.include b line) := by
  have counted : LinesKept s (s.count (benchPage b 0 0x8C) (s.l1Copies b line)) :=
    LinesKept.setReg s _ (by simp only [benchPage, pageBase]; omega)
  have drops : ∀ (l : List Nat) (t : State), (∀ n ∈ l, t.l1dLine n line = none) →
      LinesKept t (l.foldl (fun s n => (s.takeL1 n line (fun _ => none)).dropL1i n line) t) := fun l => by
    induction l with
    | nil => exact fun t _ => LinesKept.refl t
    | cons n l ih =>
      intro t none_
      have taken : t.takeL1 n line (fun _ => none) = t := by unfold State.takeL1; rw [none_ n (by simp)]
      rw [List.foldl_cons, taken]
      have dropped := LinesKept.dropL1i t n line
      exact dropped.trans (ih _ (fun m hm => (dropped.l1d m line).trans (none_ m (by simp [hm]))))
  exact counted.trans (drops _ _ (fun n hn => (counted.l1d n line).trans (l1d_none alone hn)))

/-- An L2 acts on a line that it holds, for an invalidation: the line leaves, and dirty data that is written back is in the eviction buffer. -/
theorem State.actL2_kills {op : Nat} (part : PartId) (writes : Bool) (kill : op ≠ 1) {l : CLine} (held : s.l2Line b line = some l) :
    let t := s.actL2 b line op part writes
    t.l2 b = (s.l2 b).modify 16 (l2Set line) line (fun _ => none) ∧ (∀ a, a % 4096 = 0x64 → t.reg a = s.reg a)
      ∧ ((l.st = .m ∨ l.st = .o) → l.tagOnly = false → writes = true → ⟨line, l.data, l.poison, part⟩ ∈ t.evb b) := by
  intro t
  let dirty := (l.st = .m || l.st = .o) && !l.tagOnly
  let s1 := if dirty && writes then s.sendBack b line part l.data l.poison else s.homeRequest b line opEvCl part 0 0 false false
  have acts : t = ((s1.include b line).modL2 b line (fun _ => none)).count (benchPage b 0 0x88) := by
    unfold t State.actL2
    rw [State.settleL1_alone alone]
    simp only [held, kill, ne_eq, not_false_eq_true, decide_true, if_true]
    rfl
  clear_value t
  have sent : s1.l2 b = s.l2 b ∧ (∀ n x, s1.l1dLine n x = s.l1dLine n x) ∧ (∀ a, a % 4096 = 0x64 → s1.reg a = s.reg a)
      ∧ (dirty && writes → ⟨line, l.data, l.poison, part⟩ ∈ s1.evb b) := by
    unfold s1
    split
    · rename_i back
      have asked : LinesKept (s.setEvb b (s.evb b ++ [⟨line, l.data, l.poison, part⟩])) (s.sendBack b line part l.data l.poison) :=
        LinesKept.request _ _ _ _
      exact ⟨State.l2_congr asked.coh b, asked.l1d, asked.count,
        fun _ => by rw [State.evb_congr asked.coh, State.evb_setEvb]; exact List.mem_append_right _ (List.mem_singleton_self _)⟩
    · rename_i keeps
      have asked : LinesKept s (s.homeRequest b line opEvCl part 0 0 false false) := LinesKept.request _ _ _ _
      exact ⟨State.l2_congr asked.coh b, asked.l1d, asked.count, fun back => absurd back keeps⟩
  obtain ⟨l2, l1d, count, back⟩ := sent
  clear_value s1
  have included : LinesKept s1 (s1.include b line) := State.include_alone (fun n hn => (l1d n line).trans (alone n hn))
  have counted : (((s1.include b line).modL2 b line (fun _ => none)).count (benchPage b 0 0x88)).coh
      = ((s1.include b line).modL2 b line (fun _ => none)).coh := State.setReg_coh _ _ _
  refine ⟨?_, fun a ha => ?_, fun st full writes => ?_⟩
  · rw [acts, State.l2_congr counted, State.l2_modL2, State.l2_congr included.coh, l2]
  · rw [acts, State.count, State.reg_setReg_other _ _ _ _ (by simp only [benchPage, pageBase]; omega), State.reg_modL2,
      included.count a ha, count a ha]
  · rw [acts, State.evb_congr counted, State.evb_modL2, State.evb_congr included.coh]
    exact back (by rcases st with st | st <;> simp [dirty, st, full, writes])

end

/-- A line acted on is counted. -/
theorem State.meAct_spec (s : State) (e : Nat) (poison : Bool) :
    (s.meAct e poison).coh = s.coh ∧ (s.meAct e poison).cores = s.cores
      ∧ (s.meAct e poison).reg (enginePage e + 0x64) = s.reg (enginePage e + 0x64) + 1 := by
  have counted : (s.count (enginePage e + 0x64)).reg (enginePage e + 0x64) = s.reg (enginePage e + 0x64) + 1 := State.reg_setReg_same _ _ _
  unfold State.meAct
  cases poison
  · exact ⟨State.setReg_coh _ _ _, State.setReg_cores _ _ _, counted⟩
  · exact ⟨(State.setReg_coh _ _ _).trans (State.setReg_coh _ _ _), (State.setReg_cores _ _ _).trans (State.setReg_cores _ _ _),
      (State.reg_setReg_other _ _ _ _ (by omega)).trans counted⟩

/-- An L2's engine acts on a line that it holds and no L1D does. -/
theorem State.meLineL2_acts {s : State} {e line : Nat} {w : Sweep} {l : CLine} (alone : ∀ n, n / 8 = e → s.l1dLine n line = none)
    (scope : w.scope = false) (kill : w.op ≠ 1) (held : s.l2Line e line = some l) :
    let t := s.meLineL2 e w line
    t.l2 e = (s.l2 e).modify 16 (l2Set line) line (fun _ => none) ∧ t.reg (enginePage e + 0x64) = s.reg (enginePage e + 0x64) + 1
      ∧ ((l.st = .m ∨ l.st = .o) → l.tagOnly = false → w.writes = true → ⟨line, l.data, l.poison, w.part⟩ ∈ t.evb e) := by
  intro t
  have aligned : enginePage e % 4096 = 0 := enginePage_mod e (o := 0) (by decide)
  obtain ⟨s1, ⟨coh, cores, count⟩, s2, kept, acts⟩ : ∃ s1 : State,
      (s1.coh = s.coh ∧ s1.cores = s.cores ∧ s1.reg (enginePage e + 0x64) = s.reg (enginePage e + 0x64) + 1)
        ∧ ∃ s2, LinesKept s1 s2 ∧ t = s2.actL2 e line w.op w.part w.writes := by
    refine ⟨s.meAct e (s.benchPoison e line), State.meAct_spec s e _, ?_⟩
    unfold t State.meLineL2
    generalize s.meAct e (s.benchPoison e line) = s1
    simp only [scope, Bool.false_eq_true, if_false]
    refine ⟨_, ?_, rfl⟩
    split
    · split
      · exact LinesKept.wroteBack s1 aligned _
      · exact LinesKept.refl s1
    · exact LinesKept.refl s1
  clear_value t
  have l1d : ∀ n, s1.l1dLine n line = s.l1dLine n line := fun n => by unfold State.l1dLine State.core; rw [cores]
  have same : s2.l2 e = s.l2 e := by unfold State.l2; rw [kept.coh, coh]
  obtain ⟨gone, counts, back⟩ := State.actL2_kills (s := s2) (fun n hn => (kept.l1d n line).trans ((l1d n).trans (alone n hn))) w.part w.writes kill
    (held := by unfold State.l2Line; rw [same]; exact held)
  rw [acts]
  exact ⟨by rw [gone, same], by rw [counts _ (enginePage_mod e (by decide)), kept.count _ (enginePage_mod e (by decide)), count], back⟩

/-! ### A sweep runs (08 R240) -/

/-- The steps that a sweep may need: one for each line, and one for its end. -/
def State.meFuel (s : State) (e : Nat) (w : Sweep) : Nat := (s.meLines e w).length + (s.meFills e w).length

section
variable {s : State} {e : Nat} {w : Sweep} (on : s.engine e = some w)
include on

/-- With no line left, the sweep stands at its end. -/
theorem State.meRun_end (none_ : s.meNext e w = none) (n : Nat) :
    s.meRun e (n + 1) = s.setEngine e (some { w with pos := w.stop.getD (s.meEnd e w), acted := [] }) := by
  rw [State.meRun]
  simp only [on, none_]

/-- The sweep where it comes to line `x`. -/
def State.meAt (s : State) (e : Nat) (w : Sweep) (x : Nat) : Sweep :=
  if s.meKey e w x = w.pos then w else { w with pos := s.meKey e w x, acted := [] }

/-- Before a line that holds it, the sweep waits. -/
theorem State.meRun_stalls {x : Nat} (next : s.meNext e w = some x) (stalls : s.meStalls e x = true) (n : Nat) :
    s.meRun e (n + 1) = s.setEngine e (some (s.meAt e w x)) := by
  rw [State.meRun]
  simp only [on, next, stalls, if_true]
  rfl

/-- An L2's engine acts on the next line and goes on. -/
theorem State.meRun_acts {x : Nat} (l2 : e < 24) (next : s.meNext e w = some x) (free : s.meStalls e x = false) (n : Nat) :
    s.meRun e (n + 1) = State.meRun ((s.meLineL2 e (s.meAt e w x) x).setEngine e
      (some { s.meAt e w x with acted := (s.meAt e w x).acted ++ [x], out := (s.meAt e w x).out ++ [x] })) e n := by
  rw [State.meRun]
  simp only [on, next, free, l2, if_true]
  rfl

end

theorem mem_insertBy (f : Nat → Nat) (x y : Nat) (l : List Nat) : y ∈ insertBy f x l ↔ y = x ∨ y ∈ l := by
  induction l with
  | nil => simp [insertBy]
  | cons z l ih =>
    unfold insertBy
    split
    · simp
    · rw [List.mem_cons, ih, List.mem_cons]; tauto

theorem mem_sortBy (f : Nat → Nat) (y : Nat) (l : List Nat) : y ∈ sortBy f l ↔ y ∈ l := by
  unfold sortBy
  induction l with
  | nil => simp
  | cons x l ih => rw [List.foldr_cons, mem_insertBy, ih, List.mem_cons]

/-- The line that a sweep takes next lies before its end, and counts as a step. -/
theorem State.meNext_some {s : State} {e x : Nat} {w : Sweep} (next : s.meNext e w = some x) :
    s.meKey e w x < w.stop.getD (s.meEnd e w) ∧ 0 < s.meFuel e w := by
  unfold State.meNext at next
  have fits := List.find?_some next
  have found := (mem_sortBy _ _ _).mp (List.mem_of_find?_eq_some next)
  simp only [Bool.and_eq_true, decide_eq_true_eq] at fits
  refine ⟨fits.1.2, ?_⟩
  have line : x ∈ s.meLines e w ++ s.meFills e w := List.mem_eraseDups.mp found
  unfold State.meFuel
  rw [← List.length_append]
  exact List.length_pos_of_mem line

/-! ### Where a run of a sweep leaves it (08 R238, R240, R242) -/

/-- After a run: the sweep's place is shown, and it is over or waits. -/
def State.meSettle (s : State) (e : Nat) (w : Sweep) (stopped : Bool) : State :=
  let page := enginePage e
  let s := s.mePlace e w
  if (stopped || decide (w.pos = s.meEnd e w)) && !s.meOutstanding e w then
    ((s.setReg (page + 0x58) (putField (s.reg (page + 0x58)) 0 4 (if stopped then 4 else 2))).setEngine e none).fire (engineSource e)
  else s.setEngine e (some { w with stop := if stopped then some w.pos else none })

theorem State.endSweep_eq {s u : State} {e : Nat} {w x : Sweep} (on : s.engine e = some w) (run : s.meRun e (s.meFuel e w + 1) = u)
    (left : u.engine e = some x) (stopped : Bool) : s.endSweep e stopped = u.meSettle e x stopped := by
  unfold State.endSweep
  unfold State.meFuel at run
  simp only [on, run, left]
  rfl

section
variable (s : State) (e : Nat) (w : Sweep)

theorem State.mePlace_only : OnlyRegs s (s.mePlace e w) [enginePage e + 0x5C, enginePage e + 0x60] :=
  (OnlyRegs.setReg s _ (by simp)).trans (OnlyRegs.setReg _ _ (by simp))

theorem State.meEnd_congr {t : State} (h : t.reg (enginePage e + 0x58) = s.reg (enginePage e + 0x58)) : t.meEnd e w = s.meEnd e w := by
  unfold State.meEnd
  rw [State.bit_congr h]

theorem State.meOutstanding_congr {t : State} (evb : t.coh.evb = s.coh.evb) (txs : t.coh.txs = s.coh.txs) : t.meOutstanding e w = s.meOutstanding e w := by
  unfold State.meOutstanding State.evLine State.evb
  rw [evb, txs]

/-- A sweep at its end with nothing outstanding is over: STATE, and the engine's source. -/
theorem State.meSettle_ends {stopped : Bool} (ends : stopped = true ∨ w.pos = s.meEnd e w) (quiet : s.meOutstanding e w = false) :
    let t := s.meSettle e w stopped
    t.engine e = none ∧ t.fld (enginePage e + 0x58) 0 4 = (if stopped then 4 else 2) ∧ .source (engineSource e) ∈ t.ev.fires
      ∧ t.stools = s.stools ∧ t.clock = s.clock ∧ t.otp = s.otp ∧ t.cores = s.cores ∧ t.mem = s.mem := by
  intro t
  obtain ⟨rest, others⟩ := s.mePlace_only e w
  have stat : (s.mePlace e w).reg (enginePage e + 0x58) = s.reg (enginePage e + 0x58) := others _ (by simp)
  have finishes : ((stopped || decide (w.pos = (s.mePlace e w).meEnd e w)) && !(s.mePlace e w).meOutstanding e w) = true := by
    rw [State.meEnd_congr _ _ _ stat, State.meOutstanding_congr s e w (by rw [rest]) (by rw [rest]), quiet]
    rcases ends with h | h <;> simp [h]
  have shown : t = (((s.mePlace e w).setReg (enginePage e + 0x58) (putField ((s.mePlace e w).reg (enginePage e + 0x58)) 0 4 (if stopped then 4 else 2))).setEngine e
      none).fire (engineSource e) := by
    unfold t State.meSettle
    exact if_pos finishes
  clear_value t
  rw [shown]
  refine ⟨State.engine_setEngine _ _ _, ?_, ?_, ?_, ?_, ?_, ?_, ?_⟩
  · show fieldOf (((s.mePlace e w).setReg _ _).reg (enginePage e + 0x58)) 0 4 = _
    rw [State.reg_setReg_same, fieldOf_putField_same _ _ _ _ (by decide)]
    cases stopped <;> rfl
  · exact List.mem_append_right _ (List.mem_singleton_self _)
  all_goals rw [rest]; rfl

/-- A sweep before its end waits at its place. -/
theorem State.meSettle_waits (before : w.pos < s.meEnd e w) :
    s.meSettle e w false = (s.mePlace e w).setEngine e (some { w with stop := none }) := by
  obtain ⟨rest, others⟩ := s.mePlace_only e w
  have stat : (s.mePlace e w).reg (enginePage e + 0x58) = s.reg (enginePage e + 0x58) := others _ (by simp)
  unfold State.meSettle
  refine if_neg ?_
  rw [State.meEnd_congr s e w stat]
  simp [Nat.ne_of_lt before]

/-- Caches, eviction buffers and the count of lines acted on stay as the run left them. -/
theorem State.meSettle_keeps (stopped : Bool) :
    let t := s.meSettle e w stopped
    t.coh = { s.coh with me := t.coh.me } ∧ t.reg (enginePage e + 0x64) = s.reg (enginePage e + 0x64) := by
  intro t
  obtain ⟨rest, others⟩ := s.mePlace_only e w
  have count : (s.mePlace e w).reg (enginePage e + 0x64) = s.reg (enginePage e + 0x64) := others _ (by simp)
  have coh : (s.mePlace e w).coh = s.coh := by rw [rest]
  unfold t State.meSettle
  generalize s.mePlace e w = p at coh count
  rw [← coh, ← count]
  by_cases finishes : ((stopped || decide (w.pos = p.meEnd e w)) && !p.meOutstanding e w) = true
  · simp only [finishes, if_true]
    exact ⟨rfl, State.reg_setReg_other _ _ _ _ (by simp)⟩
  · simp only [finishes]
    exact ⟨rfl, rfl⟩

end

/-! ### ME_SWEEP_DONE and ME_ABORT_DONE -/

section
variable {s : State} {e : Fin 56} (runs : s.stalled = false)
include runs

theorem exec_meSweepDone {w : Sweep} (on : s.engine e.val = some w) :
    exec (.meSweepDone e) s = .next (if w.abort then s else s.endSweep e.val false) := by
  have row := act_runs s (fun s => match s.engine e.val with
    | some w => if w.abort then s else s.endSweep e.val false
    | none => s) runs
  exact row.trans (by simp only [on])

theorem exec_meAbortDone {w : Sweep} (on : s.engine e.val = some w) :
    exec (.meAbortDone e) s = .next (if w.abort then s.endSweep e.val true else s) := by
  have row := act_runs s (fun s => match s.engine e.val with
    | some w => if w.abort then s.endSweep e.val true else s
    | none => s) runs
  exact row.trans (by simp only [on])

theorem exec_me_idle (idle : s.engine e.val = none) : exec (.meSweepDone e) s = .next s ∧ exec (.meAbortDone e) s = .next s := by
  have sweep := act_runs s (fun s => match s.engine e.val with
    | some w => if w.abort then s else s.endSweep e.val false
    | none => s) runs
  have abort := act_runs s (fun s => match s.engine e.val with
    | some w => if w.abort then s.endSweep e.val true else s
    | none => s) runs
  exact ⟨sweep.trans (by simp only [idle]), abort.trans (by simp only [idle])⟩

end

section
variable {s : State} {e : Nat} {w : Sweep} (on : s.engine e = some w)
include on

/-- With no line left and nothing outstanding a sweep is over, DONE or ABORTED. -/
theorem State.endSweep_ends {stopped : Bool} (none_ : s.meNext e w = none) (stop : stopped = true ∨ w.stop = none) (quiet : s.meOutstanding e w = false) :
    let t := s.endSweep e stopped
    t.engine e = none ∧ t.fld (enginePage e + 0x58) 0 4 = (if stopped then 4 else 2) ∧ .source (engineSource e) ∈ t.ev.fires
      ∧ t.stools = s.stools ∧ t.clock = s.clock ∧ t.otp = s.otp ∧ t.cores = s.cores ∧ t.mem = s.mem := by
  intro t
  let x : Sweep := { w with pos := w.stop.getD (s.meEnd e w), acted := [] }
  have settled : t = (s.setEngine e (some x)).meSettle e x stopped := State.endSweep_eq on (State.meRun_end on none_ _) (State.engine_setEngine _ _ _) stopped
  have ends : stopped = true ∨ x.pos = (s.setEngine e (some x)).meEnd e x := stop.imp_right (fun h => by
    show w.stop.getD (s.meEnd e w) = s.meEnd e w
    rw [h]; rfl)
  rw [settled]
  exact State.meSettle_ends _ e x ends quiet

/-- A sweep waits before a line that holds it. -/
theorem State.endSweep_stalls {x : Nat} (stop : w.stop = none) (next : s.meNext e w = some x) (stalls : s.meStalls e x = true) :
    let t := s.endSweep e false
    ∃ y, t.engine e = some y ∧ y.out = w.out ∧ t.cores = s.cores ∧ t.mem = s.mem ∧ t.net = s.net ∧ t.coh = { s.coh with me := t.coh.me } ∧ t.ev = s.ev := by
  intro t
  have out : (s.meAt e w x).out = w.out := by unfold State.meAt; split <;> rfl
  have settled : t = (s.setEngine e (some (s.meAt e w x))).meSettle e (s.meAt e w x) false :=
    State.endSweep_eq on (State.meRun_stalls on next stalls _) (State.engine_setEngine _ _ _) false
  have before : (s.meAt e w x).pos < (s.setEngine e (some (s.meAt e w x))).meEnd e (s.meAt e w x) := by
    have fits := (State.meNext_some next).1
    rw [stop] at fits
    unfold State.meAt
    split
    · rename_i here; rw [← here]; exact fits
    · exact fits
  rw [State.meSettle_waits _ _ _ before] at settled
  obtain ⟨rest, -⟩ := State.mePlace_only (s.setEngine e (some (s.meAt e w x))) e (s.meAt e w x)
  clear_value t
  subst settled
  refine ⟨_, State.engine_setEngine _ _ _, out, ?_, ?_, ?_, ?_, ?_⟩
  all_goals rw [State.setEngine, rest]; rfl

/-- An L2's engine acts on the one line that is left. -/
theorem State.endSweep_acts {x : Nat} {l : CLine} (l2 : e < 24) (scope : w.scope = false) (kill : w.op ≠ 1) (next : s.meNext e w = some x)
    (free : s.meStalls e x = false) (held : s.l2Line e x = some l) (alone : ∀ n, n / 8 = e → s.l1dLine n x = none)
    (last : ((s.meLineL2 e (s.meAt e w x) x).setEngine e
        (some { s.meAt e w x with acted := (s.meAt e w x).acted ++ [x], out := (s.meAt e w x).out ++ [x] })).meNext e
          { s.meAt e w x with acted := (s.meAt e w x).acted ++ [x], out := (s.meAt e w x).out ++ [x] } = none) :
    let t := s.endSweep e false
    t.l2 e = (s.l2 e).modify 16 (l2Set x) x (fun _ => none) ∧ t.reg (enginePage e + 0x64) = s.reg (enginePage e + 0x64) + 1
      ∧ ((l.st = .m ∨ l.st = .o) → l.tagOnly = false → ¬(w.op = 2 ∧ w.part = 0) → ∃ y ∈ t.evb e, y.line = x ∧ y.data = l.data ∧ y.poison = l.poison) := by
  intro t
  let y : Sweep := { s.meAt e w x with acted := (s.meAt e w x).acted ++ [x], out := (s.meAt e w x).out ++ [x] }
  let u := (s.meLineL2 e (s.meAt e w x) x).setEngine e (some y)
  let z : Sweep := { y with pos := y.stop.getD (u.meEnd e y), acted := [] }
  obtain ⟨k, fuel⟩ := Nat.exists_eq_add_of_lt (State.meNext_some next).2
  have run : s.meRun e (s.meFuel e w + 1) = u.setEngine e (some z) := by
    rw [State.meRun_acts on l2 next free, show s.meFuel e w = k + 1 by omega]
    exact State.meRun_end (State.engine_setEngine _ _ _) last k
  have settled : t = (u.setEngine e (some z)).meSettle e z false := State.endSweep_eq on run (State.engine_setEngine _ _ _) false
  obtain ⟨coh, count⟩ := State.meSettle_keeps (u.setEngine e (some z)) e z false
  rw [← settled] at coh count
  have same : (s.meAt e w x).scope = w.scope ∧ (s.meAt e w x).op = w.op ∧ (s.meAt e w x).part = w.part := by
    unfold State.meAt; split <;> exact ⟨rfl, rfl, rfl⟩
  obtain ⟨sc, op, part⟩ := same
  obtain ⟨gone, counted, back⟩ := State.meLineL2_acts (w := s.meAt e w x) alone (sc.trans scope) (by rw [op]; exact kill) held
  clear_value t
  refine ⟨?_, ?_, fun st full writes => ⟨⟨x, l.data, l.poison, (s.meAt e w x).part⟩, ?_, rfl, rfl, rfl⟩⟩
  · rw [← gone, State.l2, coh]; rfl
  · rw [count, ← counted]; rfl
  · rw [State.evb, coh]
    refine back st full ?_
    unfold Sweep.writes
    rw [op, part]
    simpa [imp_iff_not_or] using writes

end

/-- GO that is accepted starts the sweep of its range. -/
theorem State.writeMeCmd_runs {s : State} {e lo len : Nat} {sets : Bool} (v : W32) (idle : s.engine e = none)
    (range : s.meRange (enginePage e) = (lo, len)) (some_ : len ≠ 0) (good : s.refCode (enginePage e) = 0)
    (mode : sets = decide ((if e < 24 then 65536 else 32768) < (lo + len + 63) / 64 - lo / 64)) :
    s.writeMeCmd e (putField v 0 2 1) = (s.meShown e lo sets).setEngine e (some
      { lo := lo, len := len, op := s.fld (enginePage e + 0x50) 0 2, scope := s.bit (enginePage e + 0x50) 4,
        part := BitVec.ofNat 6 (s.fld (enginePage e + 0x24) 0 6), abort := false, pos := if sets then 0 else lo / 64 }) := by
  have starts := State.writeMeCmd_starts (s := s) (e := e) (sets := sets) v idle (by rw [range]; exact some_) good (by rw [range]; exact mode)
  simp only [State.meStarted, range] at starts
  exact starts

theorem State.reg_setEngine (s : State) (e a : Nat) (x : Option Sweep) : (s.setEngine e x).reg a = s.reg a := rfl

/-- The registers of an engine whose sweep has been started. -/
theorem State.meShown_started (s : State) (e lo : Nat) (sets : Bool) (x : Option Sweep) :
    let b := enginePage e
    let t := (s.meShown e lo sets).setEngine e x
    t.fld (b + 0x58) 0 4 = 1 ∧ t.reg (b + 0x64) = 0 ∧ t.reg (b + 0x68) = 0 ∧ t.bit (b + 0x58) 4 = sets
      ∧ t.reg (b + 0x5C) = BitVec.ofNat 32 (if sets then 0 else lo / 64 * 64)
      ∧ OnlyRegs { s with coh := t.coh } t [b + 0x58, b + 0x5C, b + 0x60, b + 0x64, b + 0x68] := by
  intro b t
  obtain ⟨busy, count, wb, mode, pos, rest, others⟩ := s.meShown_spec e lo sets
  have kept : ∀ a, t.reg a = (s.meShown e lo sets).reg a := fun a => State.reg_setEngine _ _ _ _
  refine ⟨(State.fld_congr (kept _) _ _).trans busy, (kept _).trans count, (kept _).trans wb, (State.bit_congr (kept _) _).trans mode, (kept _).trans pos, ?_,
    fun a ha => (kept a).trans (others a ha)⟩
  unfold t State.setEngine
  rw [rest]

/-- Maintenance engines are as the statement gives them. -/
theorem maintenanceEngines : Rules.MaintenanceEngines := by
  intro s e b lo len sets
  refine ⟨fun i v g h => ⟨fun x go op => ⟨fun idle some_ inside ready enabled => ?_, fun idle none_ => ?_, fun busy => ?_⟩, fun w on unmarked => ?_,
    fun w on marked => ?_, fun idle => ?_⟩, fun runs => ⟨fun idle => exec_me_idle runs idle, fun w on => ?_⟩⟩
  · have good : s.refCode b = 0 := State.refCode_good (by rw [op]; exact IsMeGo.op_pos go) inside ready enabled
    have starts := State.writeMeCmd_runs v idle (show s.meRange (enginePage e.val) = (lo, len) from rfl) some_ good (show sets = _ from rfl)
    rw [op] at starts
    refine ⟨_, (exec_meGo h go op v).trans (congrArg _ starts), State.engine_setEngine _ _ _, State.meShown_started s e.val lo sets _⟩
  · refine ⟨_, (exec_meGo h go op v).trans (congrArg _ (State.writeMeCmd_empty v idle none_)), ?_, rfl, rfl⟩
    show State.reg (State.setNat _ _ _) (enginePage e.val + 0x58) = 2
    simp [State.reg_setNat]
  · rw [exec_meGo h go op, State.writeMeCmd_busy v busy]
  · obtain ⟨p, after, marks⟩ := State.meAbort_marks on unmarked
    exact ⟨p, after, by rw [exec_meAbort h, State.writeMeCmd_abort, marks]⟩
  · rw [exec_meAbort h, State.writeMeCmd_abort]
    simp [State.meAbort, on, marked]
  · rw [exec_meAbort h, State.writeMeCmd_abort]
    simp [State.meAbort, idle]
  · intro ends
    have sweep := exec_meSweepDone runs on
    have abort := exec_meAbortDone runs on
    refine ⟨fun unmarked => by rw [abort, unmarked]; rfl, fun marked => by rw [sweep, marked]; rfl, fun unmarked stop none_ quiet => ?_,
      fun marked none_ quiet => ?_, fun x unmarked stop next stalls => ?_, fun x l unmarked stop l2 scope kill next free held alone last => ?_⟩
    · rw [unmarked] at sweep
      exact ⟨_, sweep, State.endSweep_ends on none_ (.inr stop) quiet⟩
    · rw [marked] at abort
      exact ⟨_, abort, State.endSweep_ends on none_ (.inl rfl) quiet⟩
    · rw [unmarked] at sweep
      obtain ⟨y, left⟩ := State.endSweep_stalls on stop next stalls
      exact ⟨_, y, sweep, left⟩
    · rw [unmarked] at sweep
      exact ⟨_, sweep, State.endSweep_acts on l2 scope kill next free held alone last⟩

/-- Settles O45: the registers of a core's page and the maintenance engines, one theorem each. -/
theorem corePagesAndMaintenance : Obligations.CorePagesAndMaintenance := ⟨corePageRows, maintenanceEngines⟩

end Sys2Proof.Machine
end

section
/-! ## Bring-up of the memory controllers (11 R300, R306, R312, R315, R318, R319) -/

namespace Sys2Proof.Machine

/-! ### Pages of a controller -/

/-- The page of the memory controller, 0, and of its inline protection engine, 1. -/
def mcP (m p : Nat) : Page := ⟨if p = 0 then .mc else .ipe, m, 4 + m / 8, 0x30 + m % 8, p⟩

theorem pageOf_mc (m : Fin 16) {o : Nat} (ho : o < 4096) : pageOf (mc m.val o) = some (mcP m.val 0) := by
  rw [pageOf_eq_of_div (b := mc m.val 0) (by simp only [mc, mcPage, pageBase]; omega)]
  revert m; decide +kernel

theorem pageOf_ipe (m : Fin 16) {o : Nat} (ho : o < 4096) : pageOf (ipe m.val o) = some (mcP m.val 1) := by
  rw [pageOf_eq_of_div (b := ipe m.val 0) (by simp only [ipe, mcPage, pageBase]; omega)]
  revert m; decide +kernel

theorem mc_mod (m : Nat) {o : Nat} (ho : o < 4096) : mc m o % 4096 = o := by simp only [mc, mcPage, pageBase]; omega
theorem ipe_mod (m : Nat) {o : Nat} (ho : o < 4096) : ipe m o % 4096 = o := by simp only [ipe, mcPage, pageBase]; omega
theorem mc_inj {m k a b : Nat} (hm : m < 16) (hk : k < 16) (ha : a < 4096) (hb : b < 4096) (h : mc m a = mc k b) : m = k ∧ a = b := by
  simp only [mc, mcPage, pageBase, pageNo] at h; omega
theorem mc_ne_ipe {m k a b : Nat} (ha : a < 4096) (hb : b < 4096) : mc m a ≠ ipe k b := by
  simp only [mc, ipe, mcPage, pageBase, pageNo]; omega

section
variable {s : State} {i : Initiator} {m : Fin 16} {p : Page}

/-- A write of a register of the protection engine. -/
theorem act_ipe {o : Nat} (h : MayWrite s i (ipe m.val o) p) (ho : o < 4096) (w : W32) :
    act s (fun s => s.write4 i (ipe m.val o) w) = .next (s.writeReg (iniCode i) (s.partOf i) s.power.aon (mcP m.val 1) o w) := by
  have there := State.pageOf_of_pageAt h.there
  rw [pageOf_ipe m ho] at there
  obtain rfl := Option.some.inj there
  rw [act_write4 h, ipe_mod _ ho]

theorem exec_mcInit (h : MayWrite s i (mc m.val 0x44) p) (v : W32) : exec (.mcInit i m v) s = .next (s.writeMcCmd m.val (v ||| 1)) := by
  have there := State.pageOf_of_pageAt h.there
  rw [pageOf_mc m (by decide)] at there
  obtain rfl := Option.some.inj there
  have row : exec (.mcInit i m v) s = .next (s.writeReg (iniCode i) (s.partOf i) s.power.aon (mcP m.val 0) (mc m.val 0x44 % 4096) (v ||| 1)) :=
    act_write4 h _
  rw [row, mc_mod _ (by decide)]
  rfl

theorem exec_ipeOn (h : MayWrite s i (ipe m.val 0x40) p) (v : W32) : exec (.ipeOn i m v) s = .next (s.writeIpeCtl m.val (v ||| 1)) :=
  act_ipe h (by decide) _

/-- The rows of the key ranges (11 R306). -/
theorem ipe_keyRange (r : Fin 64) :
    ipeRows.find? (·.holds (0x200 + 8 * r.val)) = some { off := 0x200, num := 64, stride := 8, rw := 0x801FFFFF, sys := true }
      ∧ ipeRows.find? (·.holds (0x204 + 8 * r.val)) = some { off := 0x204, num := 64, stride := 8, rw := 0xFFDFFFFF, sys := true } := by
  revert r; decide +kernel

/-- A plain register of the protection engine takes the writable bits of its row. -/
theorem State.writeReg_ipe (s : State) (k : Nat) (part : PartId) (c : BitVec 48) (m : Nat) {o : Nat} {row : RegRow} (high : 0x200 ≤ o)
    (found : ipeRows.find? (·.holds o) = some row) (v : W32) :
    s.writeReg k part c (mcP m 1) o v = s.setReg (ipe m o) (maskedWrite row (s.locked (mcP m 1)) (s.reg (ipe m o)) v) := by
  have at_ : (mcP m 1).row o = some row := by rw [Page.row, if_neg (by omega)]; exact found
  have place : (mcP m 1).base + o = ipe m o := rfl
  have plain : s.plainWrite (mcP m 1) o v = s.setReg (ipe m o) (maskedWrite row (s.locked (mcP m 1)) (s.reg (ipe m o)) v) := by
    simp only [State.plainWrite, at_, place]
  have func : s.writeFunc k part c (mcP m 1) o v = s.plainWrite (mcP m 1) o v := by
    have on : o ≠ 0x40 := by omega
    have cmd : o ≠ 0x74 := by omega
    simp [State.writeFunc, mcP]
    omega
  unfold State.writeReg
  split
  · omega
  · omega
  · omega
  · rw [if_neg (by omega), func, plain]

/-- A register whose row has writable bits only. -/
theorem maskedWrite_rw {row : RegRow} (rwl : row.rwl = 0) (w1c : row.w1c = 0) (w1s : row.w1s = 0) (locked : Bool) (old v : W32) :
    maskedWrite row locked old v = (old &&& ~~~BitVec.ofNat 32 row.rw) ||| (v &&& BitVec.ofNat 32 row.rw) := by
  have all : ∀ x : W32, x &&& 4294967295#32 = x := fun x => BitVec.and_allOnes
  simp [maskedWrite, rwl, w1c, w1s, all]

/-- Key ranges take their writable bits (11 R306). -/
theorem keyRangeWrite_takes (r : Fin 64) (v : W32) :
    (MayWrite s i (ipe m.val (0x200 + 8 * r.val)) p → Takes s (.keyRangeWrite i m r false v) (ipe m.val (0x200 + 8 * r.val)) 0x801FFFFF v)
      ∧ (MayWrite s i (ipe m.val (0x204 + 8 * r.val)) p → Takes s (.keyRangeWrite i m r true v) (ipe m.val (0x204 + 8 * r.val)) 0xFFDFFFFF v) := by
  obtain ⟨lo, hi⟩ := ipe_keyRange r
  refine ⟨fun h => ?_, fun h => ?_⟩
  · have row : exec (.keyRangeWrite i m r false v) s = _ := act_ipe h (by omega) v
    unfold Takes
    rw [row, State.writeReg_ipe s _ _ _ _ (by omega) lo, maskedWrite_rw rfl rfl rfl]
    rfl
  · have row : exec (.keyRangeWrite i m r true v) s = act s (fun s => s.write4 i (ipe m.val (0x204 + 8 * r.val)) v) := by
      have place : 0x200 + 8 * r.val + 4 * b2n true = 0x204 + 8 * r.val := by show 0x200 + 8 * r.val + 4 = _; omega
      rw [← place]; rfl
    unfold Takes
    rw [row, act_ipe h (by omega) v, State.writeReg_ipe s _ _ _ _ (by omega) hi, maskedWrite_rw rfl rfl rfl]
    rfl

end

/-! ### Visible DRAM is established (11 R300) -/

/-- Every controller is trained under one configuration, every engine is active, and visible DRAM has not been established. -/
def State.allReady (s : State) : Bool := (List.range 16).all (fun m => s.trained m && s.ipeActive m) && s.sameCfg && !s.bit (mc 0 0x48) 3

/-- Visible DRAM shown by each controller of a list. -/
def State.showTop (s : State) (top : Nat) (l : List Nat) : State :=
  l.foldl (fun s m => (s.setNat (mc m 0x4C) (top / 67108864)).setBit (mc m 0x48) 3 true) s

theorem State.establish_eq (s : State) :
    s.establish = if s.allReady then ({ s with mem := { s.mem with vtop := 14 * s.capacity 0 } } : State).showTop (14 * s.capacity 0) (List.range 16) else s := rfl

/-- VTOP and bit 3 of STAT of some controllers change. -/
theorem State.showTop_spec (top : Nat) (l : List Nat) (hl : ∀ j ∈ l, j < 16) (s : State) :
    s.showTop top l = { s with regs := (s.showTop top l).regs }
      ∧ (∀ m k, m < 16 → k ≠ 3 → k < 32 → (s.showTop top l).bit (mc m 0x48) k = s.bit (mc m 0x48) k)
      ∧ ∀ m o, o < 4096 → (s.showTop top l).reg (ipe m o) = s.reg (ipe m o) := by
  induction l generalizing s with
  | nil => exact ⟨rfl, fun _ _ _ _ _ => rfl, fun _ _ _ => rfl⟩
  | cons j l ih =>
    obtain ⟨rest, stat, engine⟩ := ih (fun k hk => hl k (by simp [hk])) ((s.setNat (mc j 0x4C) (top / 67108864)).setBit (mc j 0x48) 3 true)
    have unfolded : s.showTop top (j :: l) = State.showTop ((s.setNat (mc j 0x4C) (top / 67108864)).setBit (mc j 0x48) 3 true) top l := rfl
    rw [unfolded]
    refine ⟨rest.trans rfl, fun m k hm hk h32 => ?_, fun m o ho => ?_⟩
    · have shown : (s.setNat (mc j 0x4C) (top / 67108864)).bit (mc m 0x48) k = s.bit (mc m 0x48) k :=
        State.bit_congr (State.reg_setReg_other _ _ _ _ (fun e => by have := (mc_inj hm (hl j (by simp)) (by decide) (by decide) e).2; omega)) k
      rw [stat m k hm hk h32, ← shown]
      by_cases e : mc m 0x48 = mc j 0x48
      · rw [e, State.bit_setBit _ _ _ _ _ (by decide), if_neg (by omega)]
      · exact State.bit_congr (State.reg_setReg_other _ _ _ _ e) k
    · rw [engine m o ho, State.reg_setBit, if_neg (fun e => mc_ne_ipe (by decide) ho e.symm), State.reg_setNat,
        if_neg (fun e => mc_ne_ipe (by decide) ho e.symm)]

/-- Establishing visible DRAM changes the top of DRAM and what shows it. -/
theorem State.establish_spec (s : State) :
    s.establish = { s with regs := s.establish.regs, mem := { s.mem with vtop := s.establish.mem.vtop } }
      ∧ (∀ m k, m < 16 → k ≠ 3 → k < 32 → s.establish.bit (mc m 0x48) k = s.bit (mc m 0x48) k)
      ∧ (∀ m o, o < 4096 → s.establish.reg (ipe m o) = s.reg (ipe m o))
      ∧ (s.allReady = true → s.establish.mem.vtop = 14 * s.capacity 0) := by
  rw [State.establish_eq]
  by_cases ready : s.allReady = true
  · rw [if_pos ready]
    obtain ⟨rest, stat, engine⟩ := State.showTop_spec (14 * s.capacity 0) (List.range 16) (fun j hj => List.mem_range.mp hj)
      { s with mem := { s.mem with vtop := 14 * s.capacity 0 } }
    refine ⟨?_, stat, engine, fun _ => ?_⟩
    · rw [rest]
    · rw [rest]
  · rw [if_neg ready]
    exact ⟨rfl, fun _ _ _ _ _ => rfl, fun _ _ _ => rfl, fun h => absurd h ready⟩

/-! ### TRAINING_DONE (11 R318) -/

/-- The controller trains no longer. -/
def State.trainingOver (s : State) (m : Nat) : State := { s with mem := { s.mem with training := s.mem.training.filter (· ≠ m) } }

theorem State.trainingOver_mem (s : State) (m : Nat) : m ∉ (s.trainingOver m).mem.training := by simp [State.trainingOver]

section
variable {s : State} {m : Nat} (up : s.mcUp m = true) (on : m ∈ s.mem.training)
include up on

/-- The controller's training is over. -/
theorem trainingDone_eq (a b : Bool) :
    trainingDone m a b s =
      if a && b then
        let u := (s.trainingOver m).setBit (mc m 0x48) 0 true
        if (List.range 16).all (fun j => u.trained j) && !u.sameCfg then (List.range 16).foldl (fun s j => s.raise (mc j 0) 3) u else u.establish
      else ((s.trainingOver m).setFld (mc m 0x48) 1 2 (b2n (!a) + 2 * b2n (!b))).raise (mc m 0) 2 := by
  unfold trainingDone
  rw [if_neg (by simp [up, on])]
  rfl

/-- Both channels trained: TRAINED. -/
theorem trainingDone_trained (hm : m < 16) : (trainingDone m true true s).trained m = true ∧ m ∉ (trainingDone m true true s).mem.training := by
  rw [trainingDone_eq up on]
  extract_lets u
  have done : u.bit (mc m 0x48) 0 = true := State.bit_setBit_same (s.trainingOver m) (mc m 0x48) 0 true (by decide)
  have out : m ∉ u.mem.training := by rw [State.setBit_mem]; exact s.trainingOver_mem m
  clear_value u
  rw [Bool.and_true, if_pos rfl]
  split
  · have stat : ∀ v : State, ((List.range 16).foldl (fun (s : State) j => s.raise (mc j 0) 3) v).reg (mc m 0x48) = State.reg v (mc m 0x48) :=
      foldl_keeps (fun s : State => s.reg (mc m 0x48)) _ (fun s j => State.reg_raise _ _ _ _ _ (by rw [mc_mod _ (by decide)]; decide)
        (by rw [mc_mod _ (by decide)]; decide)) _
    have mem : ∀ v : State, ((List.range 16).foldl (fun (s : State) j => s.raise (mc j 0) 3) v).mem = v.mem :=
      foldl_keeps State.mem _ (fun s j => by simp) _
    refine ⟨(State.bit_congr (stat u) 0).trans done, ?_⟩
    rw [mem]; exact out
  · obtain ⟨rest, bits, -, -⟩ := u.establish_spec
    refine ⟨(bits m 0 hm (by decide) (by decide)).trans done, ?_⟩
    rw [rest]; exact out

/-- A channel that failed: its bit, and the error. -/
theorem trainingDone_failed (hm : m < 16) {a b : Bool} (fail : (a && b) = false) :
    let t := trainingDone m a b s
    m ∉ t.mem.training ∧ t.bit (mc m 0x48) 1 = !a ∧ t.bit (mc m 0x48) 2 = !b ∧ t.bit (mc m 0x14) 2 = true ∧ t.mem.vtop = s.mem.vtop := by
  intro t
  have shown : t = _ := trainingDone_eq up on a b
  rw [fail] at shown
  simp only [Bool.false_eq_true, if_false] at shown
  generalize hu : State.setFld _ (mc m 0x48) 1 2 (b2n (!a) + 2 * b2n (!b)) = u at shown
  have stat : t.reg (mc m 0x48) = u.reg (mc m 0x48) := by
    rw [shown, State.reg_raise _ _ _ _ _ (by rw [mc_mod _ (by decide)]; decide) (by rw [mc_mod _ (by decide)]; decide)]
  have mem : t.mem = (s.trainingOver m).mem := by rw [shown, State.raise_mem, ← hu, State.setFld_mem]
  have bits : ∀ k, k < 2 → u.bit (mc m 0x48) (1 + k) = (b2n (!a) + 2 * b2n (!b)).testBit k := fun k hk => by
    rw [← hu, State.bit, State.setFld, State.reg_setReg_same, bitOf_putField _ _ _ _ _ (by decide), if_pos (by omega)]
    congr 1
    omega
  have raised := State.bit_raise (pageOf_mc ⟨m, hm⟩ (o := 0) (by decide)) rfl u 2 none (by decide)
  refine ⟨by rw [mem]; exact s.trainingOver_mem m, ?_, ?_, by rw [shown]; exact raised, by rw [mem]; rfl⟩
  · rw [State.bit_congr stat, bits 0 (by decide)]; cases a <;> cases b <;> rfl
  · rw [State.bit_congr stat, bits 1 (by decide)]; cases a <;> cases b <;> rfl

end

/-! ### TREE_INIT_DONE (11 R300, R312) -/

/-- The counters of an engine are 0 and it is ACTIVE; with the last of all, visible DRAM is established. -/
theorem treeInitDone_spec {s : State} {m : Nat} (up : s.mcUp m = true) (on : s.bit (ipe m 0x44) 1 = true) :
    let t := treeInitDone m s
    t.ipeActive m = true ∧ t.bit (ipe m 0x44) 1 = false ∧ (∀ c, c / 4194304 = m → SMap.get {} t.mem.ctrs c = {}) ∧ t.tree m = s.tree m + 1
      ∧ t.mem.dram = s.mem.dram
      ∧ ((∀ j, j < 16 → s.trained j = true ∧ (j ≠ m → s.ipeActive j = true) ∧ s.reg (mc j 0x40) = s.reg (mc 0 0x40)) → s.bit (mc 0 0x48) 3 = false →
          t.mem.vtop = 14 * 2147483648 * 2 ^ s.fld (mc 0 0x40) 4 2) := by
  intro t
  let mem : MemSt := { s.mem with
    ctrs := s.mem.ctrs.filter (fun c => c.1 / 4194304 ≠ m), ctrCache := SMap.set [] s.mem.ctrCache m []
    trees := SMap.set 0 s.mem.trees m (s.tree m + 1) }
  let u := (State.setBit { s with mem := mem } (ipe m 0x44) 1 false).setBit (ipe m 0x44) 0 true
  have shown : t = u.establish := by
    unfold t treeInitDone
    rw [if_neg (by simp [up, on])]
  obtain ⟨rest, -, engine, top⟩ := u.establish_spec
  have umem : u.mem = mem := rfl
  have others : ∀ a, a ≠ ipe m 0x44 → u.reg a = s.reg a := fun a ha => by
    unfold u
    rw [State.reg_setBit, if_neg ha, State.reg_setBit, if_neg ha]
    rfl
  have active : u.bit (ipe m 0x44) 0 = true := State.bit_setBit_same _ (ipe m 0x44) 0 true (by decide)
  have settled : u.bit (ipe m 0x44) 1 = false := by
    unfold u
    rw [State.bit_setBit _ _ _ _ _ (by decide), if_neg (by decide)]
    exact State.bit_setBit_same _ (ipe m 0x44) 1 false (by decide)
  clear_value u t
  subst shown
  have stat := engine m 0x44 (by decide)
  refine ⟨(State.bit_congr stat 0).trans active, (State.bit_congr stat 1).trans settled, fun c hc => ?_, ?_, by rw [rest, umem], fun all none_ => ?_⟩
  · rw [rest, umem]
    have gone := SMap.get_filter {} s.mem.ctrs (fun c => decide (c / 4194304 ≠ m)) c
    rwa [if_neg (by simp [hc])] at gone
  · rw [State.tree, rest, umem]
    show SMap.get 0 (SMap.set 0 s.mem.trees m (s.tree m + 1)) m = s.tree m + 1
    rw [SMap.get_set, if_pos rfl]
  · have kept : ∀ j o, o < 4096 → u.reg (mc j o) = s.reg (mc j o) := fun j o ho => others _ (mc_ne_ipe ho (by decide))
    have ready : u.allReady = true := by
      have trained : ∀ j, u.trained j = s.trained j := fun j => State.bit_congr (kept j 0x48 (by decide)) 0
      have act : ∀ j, j < 16 → u.ipeActive j = true := fun j hj => by
        by_cases e : j = m
        · rw [e]; exact active
        · refine (State.bit_congr (others _ (fun h => e ?_)) 0).trans ((all j hj).2.1 e)
          simp only [ipe, mcPage, pageBase, pageNo] at h; omega
      unfold State.allReady State.sameCfg
      simp only [Bool.and_eq_true, List.all_eq_true, List.mem_range, beq_iff_eq, Bool.not_eq_true']
      refine ⟨⟨fun j hj => ⟨(trained j).trans (all j hj).1, act j hj⟩, fun j hj => ?_⟩, (State.bit_congr (kept 0 0x48 (by decide)) 3).trans none_⟩
      rw [kept j 0x40 (by decide), kept 0 0x40 (by decide), (all j hj).2.2]
    rw [top ready, State.capacity, State.fld_congr (kept 0 0x40 (by decide)), ← Nat.mul_assoc]

/-! ### The statement -/

/-- Bring-up is as the statement gives it. -/
theorem memoryBringUp : Rules.MemoryBringUp := by
  intro s i m v g
  refine ⟨fun h => ?_, fun h => ⟨fun off key trained fit apart => ?_, fun bad => ?_, fun on key trained fit apart => ?_⟩, fun r => keyRangeWrite_takes r v,
    fun runs => ?_⟩
  · refine ⟨_, exec_mcInit h v, ?_⟩
    rw [State.writeMcCmd, if_pos (bitOf_one v)]
    exact ⟨rfl, mem_insertOnce _ _⟩
  · have good : (s.slotKey 0 = 0 || !s.trained m.val || !(s.sealRegions m.val).all (regionOk (s.capacity m.val)) || regionsOverlap (s.sealRegions m.val)) = false := by
      simp [key, trained, fit, apart]
    rw [exec_ipeOn h, State.writeIpeCtl, if_neg (by rw [bitOf_one]; decide)]
    simp only [good, off]
    rfl
  · have bad : (s.slotKey 0 = 0 || !s.trained m.val || !(s.sealRegions m.val).all (regionOk (s.capacity m.val)) || regionsOverlap (s.sealRegions m.val)) = true := by
      rcases bad with h | h <;> simp [h]
    rw [exec_ipeOn h, State.writeIpeCtl, if_neg (by rw [bitOf_one]; decide)]
    simp only [bad]
    rfl
  · have good : (s.slotKey 0 = 0 || !s.trained m.val || !(s.sealRegions m.val).all (regionOk (s.capacity m.val)) || regionsOverlap (s.sealRegions m.val)) = false := by
      simp [key, trained, fit, apart]
    rw [exec_ipeOn h, State.writeIpeCtl, if_neg (by rw [bitOf_one]; decide)]
    simp only [good, on]
    rfl
  have training : ∀ a b, exec (.trainingDone m a b) s = .next (trainingDone m.val a b s) := fun a b => act_runs s (trainingDone m.val a b) runs
  have tree : exec (.treeInitDone m) s = .next (treeInitDone m.val s) := act_runs s (treeInitDone m.val) runs
  have reenc : exec (.reencryptDone m) s = .next (reencryptDone m.val s) := act_runs s (reencryptDone m.val) runs
  have mr4 : ∀ k, exec (.mr4Read m k) s = .next (mr4Read m.val k s) := fun k => act_runs s (mr4Read m.val k) runs
  refine ⟨fun a b k down => ⟨?_, ?_, ?_⟩, fun a b off => ?_, fun up on => ⟨_, training true true, trainingDone_trained up on m.isLt⟩,
    fun a b up on fail => ⟨_, training a b, trainingDone_failed up on m.isLt fail⟩, fun off => ?_, fun up on => ⟨_, tree, treeInitDone_spec up on⟩,
    fun none_ => ?_, fun r first => ?_, fun k up calm => ?_, rfl⟩
  · rw [training, trainingDone, if_pos (by simp [down])]
  · rw [tree, treeInitDone, if_pos (by simp [down])]
  · rw [mr4, mr4Read, if_pos (by simp [down])]
  · rw [training, trainingDone, if_pos (by simp [off])]
  · rw [tree, treeInitDone, if_pos (by simp [off])]
  · have gone : s.mem.reenc.find? (fun r => r.mc = m.val) = none := List.find?_eq_none.mpr (by simpa using none_)
    rw [reenc, reencryptDone, gone]
  · refine ⟨_, reenc, ?_⟩
    unfold reencryptDone
    rw [first]
    refine ⟨rfl, ⟨rfl, fun a ha => State.reg_setReg_other _ _ _ _ (by simpa using ha)⟩, rfl, ?_⟩
    rw [State.bit_setBit_same _ _ _ _ (by decide)]
    simp
  · have still : s.force (mc m.val 0) 4 = s := State.force_of_unarmed (pageOf_mc m (by decide)) rfl s (by
      rw [State.bit, show mc m.val 0 + 0x1C = mc m.val 0x1C from rfl, calm]; exact bitOf_zero 32 4)
    refine ⟨fun low => ?_, fun high => ?_⟩
    · rw [mr4, mr4Read, if_neg (by simp [up]), still]
      simp only [low, if_true]
    · rw [mr4, mr4Read, if_neg (by simp [up]), still]
      simp only [Nat.not_lt.mpr high, if_false]

end Sys2Proof.Machine
end

section
/-! ## Accesses of a memory controller to its lines (11 R301-R317) -/

namespace Sys2Proof.Machine

/-! ### Lines of a memory -/

theorem Memory.readN_congr {m k : Memory} {a n : Nat} (h : ∀ b, a ≤ b → b < a + n → Memory.read m b = Memory.read k b) :
    Memory.readN m a n = Memory.readN k a n := by
  induction n generalizing a with
  | zero => rfl
  | succ n ih =>
    unfold Memory.readN
    rw [h a (by omega) (by omega), ih (fun b lo hi => h b (by omega) (by omega))]

/-- A line that another is written beside. -/
theorem lineData_setLine_other (m : Memory) {line j : Nat} (d : BitVec 512) (h : j ≠ line) : lineData (setLine m line d) j = lineData m j := by
  unfold lineData setLine
  refine congrArg (fun l => BitVec.ofNat 512 (leNat l)) (Memory.readN_congr (fun b lo hi => Memory.read_writeN_other _ _ _ _ ?_))
  rw [length_leBytes]
  omega

/-- A line of zeros. -/
theorem lineData_setLine_zero (m : Memory) (line : Nat) : lineData (setLine m line 0) line = 0 := by
  have read := Memory.readN_writeN m (64 * line) (leBytes 64 (0 : BitVec 512).toNat)
  rw [length_leBytes] at read
  unfold lineData setLine
  rw [read]
  decide +kernel

theorem mem_rangeLines {lo len j : Nat} : j ∈ rangeLines lo len ↔ lo / 64 ≤ j ∧ j < (lo + len + 63) / 64 := by
  unfold rangeLines
  rw [List.mem_map]
  refine ⟨?_, fun h => ⟨j - lo / 64, List.mem_range.mpr (by omega), by omega⟩⟩
  rintro ⟨k, hk, rfl⟩
  have := List.mem_range.mp hk
  omega

/-! ### Each page has lines of every controller (11 R301) -/

/-- The bits of an address above its page, as one of the controller's bits counts them. -/
def bitsAbove (q : Nat) (l : List Nat) : Nat := (l.filter (fun i => q.testBit (i - 12))).length

theorem xorBits_page (q g i : Nat) {l : List Nat} (hg : g < 16) (hi : i < 4) (hl : ∀ j ∈ l, 12 ≤ j) :
    xorBits (4096 * q + 256 * g) ((8 + i) :: l) = (b2n (g.testBit i) + bitsAbove q l) % 2 := by
  have low : (4096 * q + 256 * g).testBit (8 + i) = g.testBit i := by
    have := Nat.testBit_two_pow_mul_add q (b := 256 * g) (i := 12) (by omega) (8 + i)
    rw [show 4096 * q = 2 ^ 12 * q from rfl, this, if_pos (by omega), show 256 * g = 2 ^ 8 * g from rfl, Nat.testBit_two_pow_mul]
    simp
  have high : l.filter (fun j => (4096 * q + 256 * g).testBit j) = l.filter (fun j => q.testBit (j - 12)) := by
    refine List.filter_congr (fun j hj => ?_)
    have := Nat.testBit_two_pow_mul_add q (b := 256 * g) (i := 12) (by omega) j
    rw [show 4096 * q = 2 ^ 12 * q from rfl, this, if_neg (by have := hl j hj; omega)]
  unfold xorBits bitsAbove
  rw [List.filter_cons, low, high]
  cases g.testBit i
  · simp [b2n]
  · simp [b2n, Nat.add_comm]

/-- Whatever the bits above, one of the 16 groups of lines of a page is the controller's. -/
theorem group_of_controller : ∀ (m : Fin 16) (a b c d : Fin 2), ∃ g : Fin 16,
    (b2n (g.val.testBit 0) + a.val) % 2 + 2 * ((b2n (g.val.testBit 1) + b.val) % 2) + 4 * ((b2n (g.val.testBit 2) + c.val) % 2)
      + 8 * ((b2n (g.val.testBit 3) + d.val) % 2) = m.val := by decide +kernel

/-- A page of lines holds one of every controller. -/
theorem mcOf_page (q : Nat) (m : Fin 16) : ∃ g, g < 16 ∧ mcOf (4096 * q + 256 * g) = m.val := by
  let count := fun l => (⟨bitsAbove q l % 2, Nat.mod_lt _ (by decide)⟩ : Fin 2)
  obtain ⟨g, hg⟩ := group_of_controller m (count [12, 16, 20, 24, 28, 32, 36, 40]) (count [13, 17, 21, 25, 29, 33, 37, 41])
    (count [14, 18, 22, 26, 30, 34, 38]) (count [15, 19, 23, 27, 31, 35, 39])
  refine ⟨g.val, g.isLt, ?_⟩
  have bit : ∀ i l, i < 4 → (∀ j ∈ l, 12 ≤ j) → xorBits (4096 * q + 256 * g.val) ((8 + i) :: l) = (b2n (g.val.testBit i) + (count l).val) % 2 :=
    fun i l hi hl => by rw [xorBits_page q g.val i g.isLt hi hl]; simp only [count]; omega
  have b0 := bit 0 [12, 16, 20, 24, 28, 32, 36, 40] (by decide) (by decide)
  have b1 := bit 1 [13, 17, 21, 25, 29, 33, 37, 41] (by decide) (by decide)
  have b2 := bit 2 [14, 18, 22, 26, 30, 34, 38] (by decide) (by decide)
  have b3 := bit 3 [15, 19, 23, 27, 31, 35, 39] (by decide) (by decide)
  rw [← hg, ← b0, ← b1, ← b2, ← b3]
  rfl

/-- Among 128 lines in a row there is one of every controller. -/
theorem exists_line_of_controller (pos : Nat) (m : Fin 16) : ∃ k, k < 128 ∧ mcOf (64 * (pos + k)) = m.val := by
  obtain ⟨g, hg, line⟩ := mcOf_page (pos / 64 + 1) m
  refine ⟨64 * (pos / 64 + 1) + 4 * g - pos, by omega, ?_⟩
  rw [← line]
  congr 1
  omega

/-! ### What an access of a controller leaves alone -/

/-- From `s` to `t` a controller accessed lines in `L`: registers, errors, fires, packets held, and what the controller keeps changed, but no other line,
no region that is sealed, no top of DRAM, and no metering. -/
structure LinesOnly (m : Nat) (L : Nat → Prop) (s t : State) : Prop where
  rest : t = { s with
    fresh := t.fresh, regs := t.regs, err := t.err, ev := t.ev, net := t.net, frame := t.frame, mem := t.mem }
  metered : t.frame.metered = s.frame.metered
  vtop : t.mem.vtop = s.mem.vtop
  dram : ∀ j, ¬L j → lineData t.mem.dram j = lineData s.mem.dram j
  regions : ∀ a, a / 4096 ≠ mcPage m 2 0 / 4096 → 0x100 ≤ a % 4096 → a % 4096 < 0x110 → t.reg a = s.reg a

namespace LinesOnly

variable {m : Nat} {L : Nat → Prop} {s t u : State}

theorem refl (m : Nat) (L : Nat → Prop) (s : State) : LinesOnly m L s s := ⟨rfl, rfl, rfl, fun _ _ => rfl, fun _ _ _ _ => rfl⟩

theorem trans (h : LinesOnly m L s t) (k : LinesOnly m L t u) : LinesOnly m L s u :=
  ⟨by rw [k.rest, h.rest], k.metered.trans h.metered, k.vtop.trans h.vtop, fun j hj => (k.dram j hj).trans (h.dram j hj),
    fun a ha lo hi => (k.regions a ha lo hi).trans (h.regions a ha lo hi)⟩

theorem mono {M : Nat → Prop} (h : LinesOnly m L s t) (k : ∀ j, L j → M j) : LinesOnly m M s t :=
  ⟨h.rest, h.metered, h.vtop, fun j hj => h.dram j (fun hl => hj (k j hl)), h.regions⟩

theorem ite (c : Prop) [Decidable c] (ht : LinesOnly m L s t) (hu : LinesOnly m L s u) : LinesOnly m L s (if c then t else u) := by
  split <;> assumption

theorem foldl {α : Type} {f : State → α → State} {l : List α} (h : ∀ s, ∀ x ∈ l, LinesOnly m L s (f s x)) (s : State) :
    LinesOnly m L s (l.foldl f s) := by
  induction l generalizing s with
  | nil => exact refl m L s
  | cons x l ih => exact (h s x (by simp)).trans (ih (fun s y hy => h s y (by simp [hy])) _)

/-- Registers below the regions of the engine's page. -/
theorem setReg (s : State) {a : Nat} (v : W32) (h : a % 4096 < 0x100) : LinesOnly m L s (s.setReg a v) :=
  ⟨rfl, rfl, rfl, fun _ _ => rfl, fun b _ lo _ => State.reg_setReg_other _ _ _ _ (fun e => by rw [e] at lo; omega)⟩

/-- What leaves registers and lines alone. -/
theorem of_mem (h : t = { s with mem := t.mem }) (vtop : t.mem.vtop = s.mem.vtop) (dram : t.mem.dram = s.mem.dram) : LinesOnly m L s t :=
  ⟨by rw [h], by rw [h], vtop, fun _ _ => by rw [dram], fun _ _ _ _ => by rw [h]; rfl⟩

theorem of_onlyRegsErr {l : List Nat} (h : OnlyRegsErr s t l) (k : ∀ a ∈ l, a % 4096 < 0x100) : LinesOnly m L s t :=
  ⟨by rw [h.rest], by rw [h.rest], by rw [h.rest], fun _ _ => by rw [h.rest],
    fun a _ lo _ => h.others a (fun hl => by have := k a hl; omega)⟩

theorem detect (s : State) (p : Page) (bit addr : Nat) (part : Option PartId) (inj : Bool) : LinesOnly m L s (s.detect p bit addr part inj) := by
  have aligned := p.base_mod
  refine of_onlyRegsErr (OnlyRegsErr.detect s p bit addr part inj) (fun a ha => ?_)
  simp only [List.mem_cons, List.not_mem_nil, or_false] at ha
  omega

theorem raise (s : State) (base bit : Nat) (part : Option PartId) : LinesOnly m L s (s.raise base bit part) := by
  unfold State.raise
  split
  · exact refl m L s
  · exact detect s _ _ _ _ _

theorem force (s : State) (base bit : Nat) : LinesOnly m L s (s.force base bit) := by
  unfold State.force
  split
  · exact refl m L s
  · rename_i p _
    have aligned := p.base_mod
    exact ite _ ((detect s p _ _ _ _).trans (setReg _ _ (by omega))) (refl m L s)

theorem found (s : State) (base bit key : Nat) : LinesOnly m L s (s.found base bit key) := by
  unfold State.found
  split
  · exact refl m L s
  · rename_i p _
    have aligned := p.base_mod
    extract_lets s1 s2
    have detected : LinesOnly m L s s1 := detect s p bit _ none true
    have cleared : LinesOnly m L s1 s2 := setReg s1 _ (by omega)
    exact (detected.trans cleared).trans ⟨rfl, rfl, rfl, fun _ _ => rfl, fun _ _ _ _ => rfl⟩

theorem taint (s : State) (base bit key : Nat) : LinesOnly m L s (s.taint base bit key) := by
  unfold State.taint
  exact ite _ ⟨rfl, rfl, rfl, fun _ _ => rfl, fun _ _ _ _ => rfl⟩ (refl m L s)

/-- A regulator's decision on the controller's own page. -/
theorem of_regulates (h : Regulates (fun p => p = mcPage m 2 0 / 4096) s t) : LinesOnly m L s t :=
  ⟨by rw [h.rest], by rw [h.rest], by rw [h.rest], fun _ _ => by rw [h.rest], fun a ha _ _ => h.regs a ha⟩

theorem count_ipe (s : State) {o : Nat} (ho : o < 0x100) (n : Nat) : LinesOnly m L s (s.count (ipe m o) n) :=
  setReg s _ (by rw [ipe_mod _ (by omega)]; exact ho)
theorem count_mc (s : State) {o : Nat} (ho : o < 0x100) (n : Nat) : LinesOnly m L s (s.count (mc m o) n) :=
  setReg s _ (by rw [mc_mod _ (by omega)]; exact ho)

/-! #### Counters (11 R315) -/

theorem bumpMinor (s : State) (level block idx : Nat) : LinesOnly m L s (s.bumpMinor m level block idx) := by
  unfold State.bumpMinor
  extract_lets k b v b' mem s1
  have h1 : LinesOnly m L s s1 := of_mem rfl rfl rfl
  refine ite _ (h1.trans ?_) h1
  have h2 : LinesOnly m L s1 { s1 with mem := { s1.mem with reenc := s1.mem.reenc ++ [({ mc := m, level := level, block := block, idx := idx } : Reenc)] } } :=
    of_mem rfl rfl rfl
  exact (h2.trans (setReg _ _ (by rw [ipe_mod _ (by decide)]; decide))).trans (count_ipe _ (by decide) _)

theorem ctrTouch (s : State) (level block : Nat) (dirty : Bool) (fuel : Nat) : LinesOnly m L s (s.ctrTouch m level block dirty fuel) := by
  induction fuel generalizing s level block dirty with
  | zero => exact refl m L s
  | succ fuel ih =>
    unfold State.ctrTouch
    extract_lets key c mem s1 s2 c2 out mem2 s3
    split
    · exact of_mem rfl rfl rfl
    · have h1 : LinesOnly m L s s1 := count_ipe s (by decide) 1
      have h2 : LinesOnly m L s s2 := ite _ (h1.trans (ih _ _ _ _)) h1
      have h3 : LinesOnly m L s2 s3 := of_mem rfl rfl rfl
      refine (h2.trans h3).trans (foldl (fun u e _ => ite _ ?_ (refl m L u)) s3)
      exact ite _ ((bumpMinor u _ _ _).trans (ih _ _ _ _)) (bumpMinor u _ _ _)

theorem bumpCounter (s : State) (k : Nat) : LinesOnly m L s (s.bumpCounter m k) := (ctrTouch s _ _ _ _).trans (bumpMinor _ _ _ _)

theorem tagTouch (s : State) (line : Nat) : LinesOnly m L s (s.tagTouch m line) := by
  unfold State.tagTouch
  extract_lets t c s1 mem
  have h1 : LinesOnly m L s s1 := ite _ (refl m L s) (count_mc s (by decide) 1)
  exact h1.trans (of_mem rfl rfl rfl)

theorem setTag (s : State) (line : Nat) (t : LineTag) : LinesOnly m L s (s.setTag line t) := of_mem rfl rfl rfl

/-! #### Reads and writes (11 R308, R309) -/

theorem spoil (s : State) (line kind : Nat) : LinesOnly m L s (s.spoil line kind) := by
  unfold State.spoil
  split
  · exact setTag s _ _
  · exact refl m L s

theorem readError (s : State) (line base bit kind : Nat) : LinesOnly m L s (s.readError m line base bit kind) := by
  unfold State.readError
  extract_lets s1
  have h1 : LinesOnly m L s s1 := ite _ (found s _ _ _) (raise s _ _ _)
  refine ite _ h1 (h1.trans ?_)
  exact (setReg _ _ (by rw [ipe_mod _ (by decide)]; decide)).trans (setReg _ _ (by rw [ipe_mod _ (by decide)]; decide))

theorem failRead (s : State) (line kind : Nat) : LinesOnly m L s (s.failRead m line kind) :=
  (setReg s _ (by rw [ipe_mod _ (by decide)]; decide)).trans (setReg _ _ (by rw [ipe_mod _ (by decide)]; decide))

section
variable {line : Nat} (mine : L line)
include mine

/-- A line of the access is replaced. -/
theorem setLine (s : State) (d : BitVec 512) : LinesOnly m L s { s with mem := { s.mem with dram := Machine.setLine s.mem.dram line d } } :=
  ⟨rfl, rfl, rfl, fun _ hj => lineData_setLine_other _ _ (fun e => hj (e ▸ mine)), fun _ _ _ _ => rfl⟩

theorem boardActs (s : State) (x : BoardAct) : LinesOnly m L s (s.boardActs m line x) := by
  unfold State.boardActs
  split
  · exact refl m L s
  · exact setTag s _ _
  · split
    · exact refl m L s
    · exact spoil s _ _
    · exact setLine mine s _

omit mine in
theorem readTag (s : State) : LinesOnly m L s (s.readTag m line).2.2 := by
  unfold State.readTag
  extract_lets d i n s1 inSeal
  have h1 : LinesOnly m L s s1 := ⟨rfl, rfl, rfl, fun _ _ => rfl, fun _ _ _ _ => rfl⟩
  split
  · split
    · exact h1.trans (readError s1 line i 1 1)
    · split
      · exact h1.trans (readError s1 line i 4 4)
      · exact (h1.trans (count_ipe s1 (by decide) 1)).trans (readError (s1.count (ipe m 0x50)) line i 2 2)
  · split
    · exact refl m L s
    · split
      · exact readError s line i 4 4
      · split
        · exact ((count_ipe s (by decide) 1).trans (readError (s.count (ipe m 0x54)) line i 3 3)).trans (spoil _ line 3)
        · split
          · exact ((count_ipe s (by decide) 1).trans (readError (s.count (ipe m 0x50)) line i 2 2)).trans (spoil _ line 2)
          · exact refl m L s

theorem dramRead (s : State) (x : DramCheck) : LinesOnly m L s (s.dramRead m line x).2.2 := by
  unfold State.dramRead
  extract_lets i c s1 s2 s3 s4 s5 lost s6
  have h1 : LinesOnly m L s s1 := ((count_mc s (by decide) _).trans (force _ _ _)).trans (boardActs mine _ _)
  have h3 : LinesOnly m L s1 s3 := by
    refine (tagTouch s1 line : LinesOnly m L s1 s2).trans ?_
    unfold s3
    split
    · exact ctrTouch s2 _ _ _ _
    · exact refl m L s2
  have h4 : LinesOnly m L s s4 := (h1.trans h3).trans (ite _ (raise s3 _ _ _) (force s3 _ _))
  split
  · exact (h4.trans (ite _ (force s4 _ _) (raise s4 _ _ _) : LinesOnly m L s4 s5)).trans (failRead s5 _ _)
  · split
    · exact h4.trans ((readError s4 _ _ _ _).trans (spoil _ _ _))
    · exact (h4.trans (ite _ (readError s4 _ _ _ _) (refl m L s4) : LinesOnly m L s4 s6)).trans (readTag s6)

theorem dramStore (s : State) (k : Nat) (d : BitVec 512) (poison : Bool) : LinesOnly m L s (s.dramStore m line k d poison) := by
  unfold State.dramStore
  extract_lets s1 empty s2 ti s3 s4 s5 s6 slot s7 mem
  have h2 : LinesOnly m L s s2 := ((count_mc s (by decide) _).trans (force _ _ _) : LinesOnly m L s s1).trans (ite _ (raise s1 _ _ _) (refl m L s1))
  clear_value ti
  have h3 : LinesOnly m L s2 s3 := by
    unfold s3
    split
    · exact bumpCounter s2 _
    · exact refl m L s2
  have h5 : LinesOnly m L s3 s5 := (tagTouch s3 line : LinesOnly m L s3 s4).trans (((taint s4 _ _ _).trans (taint _ _ _ _)).trans (taint _ _ _ _))
  have h7 : LinesOnly m L s5 s7 := (ite _ (taint s5 _ _ _) (refl m L s5) : LinesOnly m L s5 s6).trans (setTag s6 _ _)
  exact (((h2.trans h3).trans h5).trans h7).trans (setLine mine s7 _)

theorem dramWrite (s : State) (d : BitVec 512) (poison : Bool) : LinesOnly m L s (s.dramWrite m line d poison) := dramStore mine s _ d poison

end

end LinesOnly

end Sys2Proof.Machine
end

section
/-! ## Sweeps of inline protection (11 R317, R323; 03 R59), and O47 -/

namespace Sys2Proof.Machine

@[simp] theorem State.sweep_setSweep (s : State) (m : Nat) (x : Option Sweep) : (s.setSweep m x).sweep m = x := SMap.get_set_same _ _ _ _

@[simp] theorem State.dram_setSweep (s : State) (m : Nat) (x : Option Sweep) : (s.setSweep m x).mem.dram = s.mem.dram := rfl
@[simp] theorem State.reg_setSweep (s : State) (m a : Nat) (x : Option Sweep) : (s.setSweep m x).reg a = s.reg a := rfl
@[simp] theorem State.fld_fire (s : State) (k a lo w : Nat) : (s.fire k).fld a lo w = s.fld a lo w := rfl
@[simp] theorem State.fld_setSweep (s : State) (m a lo w : Nat) (x : Option Sweep) : (s.setSweep m x).fld a lo w = s.fld a lo w := rfl

theorem LinesOnly.setSweep {m : Nat} {L : Nat → Prop} (s : State) (x : Option Sweep) : LinesOnly m L s (s.setSweep m x) := LinesOnly.of_mem rfl rfl rfl

theorem LinesOnly.swPlace {m : Nat} {L : Nat → Prop} (s : State) (w : Sweep) : LinesOnly m L s (s.swPlace m w) :=
  (LinesOnly.setReg s _ (by rw [ipe_mod _ (by decide)]; decide)).trans (LinesOnly.setReg _ _ (by rw [ipe_mod _ (by decide)]; decide))

/-! ### The next line (11 R301, R317) -/

section
variable {s : State} {m : Nat} {w : Sweep} {pos : Nat}

/-- The next line lies between the place and the end, and the controller holds it. -/
theorem State.swNext_some {line : Nat} (next : s.swNext m w pos = some line) :
    pos ≤ line ∧ line < w.stop.getD w.endLine ∧ s.serves m line = true := by
  unfold State.swNext at next
  split at next
  · rename_i k found
    split at next
    · obtain rfl := Option.some.inj next
      exact ⟨Nat.le_add_right _ _, by assumption, List.find?_some (p := fun k => s.serves m (pos + k)) found⟩
    · cases next
  · cases next

/-- A line that the controller holds is not passed over. -/
theorem State.swNext_le {j : Nat} (hm : m < 16) (after : pos ≤ j) (before : j < w.stop.getD w.endLine) (mine : s.serves m j = true) :
    ∃ line, s.swNext m w pos = some line ∧ line ≤ j := by
  obtain ⟨visible, own⟩ : s.isDram (64 * j) = true ∧ mcOf (64 * j) = m := by simpa [State.serves] using mine
  have below : ∀ l, l ≤ j → mcOf (64 * l) = m → s.serves m l = true := fun l hl e => by
    have top : 64 * j < s.mem.vtop := by simpa [State.isDram] using visible
    simp only [State.serves, State.isDram, Bool.and_eq_true, decide_eq_true_eq]
    exact ⟨by omega, e⟩
  have near : ∃ k, k < 128 ∧ pos + k ≤ j ∧ s.serves m (pos + k) = true := by
    by_cases far : j - pos < 128
    · exact ⟨j - pos, far, by omega, by rw [Nat.add_sub_cancel' after]; exact mine⟩
    · obtain ⟨k, hk, e⟩ := exists_line_of_controller pos ⟨m, hm⟩
      exact ⟨k, hk, by omega, below _ (by omega) e⟩
  obtain ⟨k, hk, hj, held⟩ := near
  cases first : firstWhere 128 (fun k => s.serves m (pos + k)) with
  | none => exact absurd held (by simpa using List.find?_eq_none.mp first k (List.mem_range.mpr hk))
  | some i =>
    obtain ⟨-, -, least⟩ := List.find?_range_eq_some.mp first
    have hi : i ≤ k := Nat.le_of_not_lt (fun lt => by simpa [held] using least k lt)
    refine ⟨pos + i, ?_, by omega⟩
    unfold State.swNext
    rw [first]
    exact if_pos (by omega)

end

/-! ### A sweep runs -/

/-- The regulator of a controller stands inside control space, on a page of its own. -/
theorem mcPage_regulator (m : Nat) : mcPage m 2 0 % 4096 = 0 := by simp only [mcPage, pageBase]; omega
theorem mcPage_inside {m : Nat} (hm : m < 16) : mcPage m 2 0 < 268435456 := by simp only [mcPage, pageBase, pageNo]; omega

section
variable {m : Nat} (hm : m < 16) {L : Nat → Prop}
include hm

theorem LinesOnly.chargeBytes (s : State) (p : PartId) (n : Nat) : LinesOnly m L s ((s.force (mcPage m 2 0) 0).charge (mcPage m 2 0) .bytes p.toNat n) :=
  (LinesOnly.force s _ _).trans (LinesOnly.of_regulates (Regulates.charge (P := fun p => p = mcPage m 2 0 / 4096) (mcPage_regulator m) (mcPage_inside hm) rfl _ _ _ p.isLt))

theorem Regulates.holdBytes (s : State) (p : PartId) : Regulates (fun n => n = mcPage m 2 0 / 4096) s (s.holdAt (mcPage m 2 0) .bytes p.toNat) :=
  Regulates.holdAt (P := fun n => n = mcPage m 2 0 / 4096) (mcPage_regulator m) (mcPage_inside hm) rfl _ _ p.isLt

end

/-- What a sweep latched at GO, and where an abort stops it, are those of another; its place and the line that it read may differ. -/
def Sweep.moved (w x : Sweep) : Prop := { x with pos := w.pos, got := w.got } = w

theorem Sweep.moved_at (w : Sweep) (pos : Nat) (got : Option (BitVec 512 × Bool)) : w.moved { w with pos := pos, got := got } := rfl

theorem Sweep.moved_trans {w y x : Sweep} (h : w.moved y) (k : y.moved x) : w.moved x := by
  unfold Sweep.moved at h k
  rw [← k] at h
  exact h

/-- A sweep writes a line: the line is counted, and POISONED tells that it was poisoned. -/
theorem LinesOnly.sweepWrite {m line : Nat} {L : Nat → Prop} (mine : L line) (s : State) (d : BitVec 512) (poison : Bool) :
    LinesOnly m L s (if poison then ((s.dramWrite m line d poison).count (ipe m 0x84)).setBit (ipe m 0x78) 4 true
      else (s.dramWrite m line d poison).count (ipe m 0x84)) := by
  have written : LinesOnly m L s ((s.dramWrite m line d poison).count (ipe m 0x84)) :=
    (LinesOnly.dramWrite mine s d poison).trans (LinesOnly.count_ipe _ (by decide) 1)
  exact LinesOnly.ite _ (written.trans (LinesOnly.setReg _ _ (by rw [ipe_mod m (o := 0x78) (by decide)]; decide))) written

/-- A run of a sweep touches lines from its place to its end only, and leaves what it latched at GO. -/
theorem State.swRun_spec {m : Nat} (hm : m < 16) (meets : Nat → DramCheck) (fuel : Nat) {s : State} {w : Sweep} (on : s.sweep m = some w) :
    LinesOnly m (fun j => w.pos ≤ j ∧ j < w.stop.getD w.endLine) s (s.swRun m meets fuel)
      ∧ ∃ x, (s.swRun m meets fuel).sweep m = some x ∧ w.moved x := by
  induction fuel generalizing s w with
  | zero => exact ⟨LinesOnly.refl m _ s, w, on, rfl⟩
  | succ fuel ih =>
    rw [State.swRun]
    simp only [on]
    split
    · exact ⟨LinesOnly.setSweep s _, _, State.sweep_setSweep _ _ _, rfl⟩
    · rename_i line next
      obtain ⟨after, before, -⟩ := State.swNext_some next
      split
      · exact ⟨LinesOnly.setSweep s _, _, State.sweep_setSweep _ _ _, rfl⟩
      · split
        · have held := Regulates.holdBytes hm (s.setSweep m (some { w with pos := line })) w.part
          refine ⟨(LinesOnly.setSweep s _).trans (LinesOnly.of_regulates held), { w with pos := line }, ?_, rfl⟩
          rw [State.sweep, held.mem]
          exact State.sweep_setSweep _ _ _
        · have charged : LinesOnly m (fun j => w.pos ≤ j ∧ j < w.stop.getD w.endLine) s _ := LinesOnly.chargeBytes hm s w.part 64
          generalize State.charge _ _ _ _ _ = u at charged ⊢
          have mine : w.pos ≤ line ∧ line < w.stop.getD w.endLine := ⟨after, before⟩
          have goes : ∀ (y : State) (pos : Nat) (got : Option (BitVec 512 × Bool)), w.pos ≤ pos →
              LinesOnly m (fun j => w.pos ≤ j ∧ j < w.stop.getD w.endLine) s y →
              LinesOnly m (fun j => w.pos ≤ j ∧ j < w.stop.getD w.endLine) s ((y.setSweep m (some { w with pos := pos, got := got })).swRun m meets fuel)
                ∧ ∃ x, ((y.setSweep m (some { w with pos := pos, got := got })).swRun m meets fuel).sweep m = some x ∧ w.moved x :=
            fun y pos got hpos hy => by
              obtain ⟨run, x, left, kept⟩ := ih (State.sweep_setSweep y m (some { w with pos := pos, got := got }))
              exact ⟨(hy.trans (LinesOnly.setSweep y _)).trans (run.mono (fun j hj => ⟨hpos.trans hj.1, hj.2⟩)), x, left,
                Sweep.moved_trans (w.moved_at pos got) kept⟩
          split
          · exact goes _ line _ after (charged.trans (LinesOnly.dramRead mine u (meets line)))
          · exact goes _ (line + 1) none (by omega) (charged.trans (LinesOnly.sweepWrite mine u _ _))

/-! ### A zeroing sweep that nothing holds -/

/-- Nothing holds the sweeps of the controller: its regulator is not metered, and no region is sealed. -/
def State.sweepsFree (s : State) (m : Nat) : Prop := s.isMetered (mcPage m 2 0) = false ∧ ∀ n, n < 4 → s.sealRegion m n = none

section
variable {m : Nat} {s t : State}

/-- Accesses of the controller leave its sweeps free. -/
theorem State.sweepsFree.after {L : Nat → Prop} (free : s.sweepsFree m) (h : LinesOnly m L s t) : t.sweepsFree m := by
  obtain ⟨metered, regions⟩ := free
  refine ⟨by unfold State.isMetered; rw [h.metered]; exact metered, fun n hn => ?_⟩
  have reg : t.reg (ipe m (0x100 + 4 * n)) = s.reg (ipe m (0x100 + 4 * n)) :=
    h.regions _ (by simp only [ipe, mcPage, pageBase, pageNo]; omega) (by rw [ipe_mod _ (by omega)]; omega) (by rw [ipe_mod _ (by omega)]; omega)
  rw [← regions n hn]
  unfold State.sealRegion State.bit State.fld
  simp only [reg]

theorem State.sweepsFree.treeIndex (free : s.sweepsFree m) (a : Nat) : s.treeIndex m a = none := by
  unfold State.treeIndex
  rw [List.findSome?_eq_none_iff]
  intro n hn
  rw [free.2 n (List.mem_range.mp hn)]

theorem State.sweepsFree.notHeld (free : s.sweepsFree m) (line : Nat) (p : Nat) :
    s.reencWaits m line = false ∧ s.exhausted (mcPage m 2 0) .bytes p = false := by
  refine ⟨?_, by unfold State.exhausted; rw [free.1]; rfl⟩
  unfold State.reencWaits
  rw [free.treeIndex]

end

/-- Zeros written to a line are zeros there. -/
theorem State.dramWrite_zero (s : State) (m line : Nat) (poison : Bool) : lineData (s.dramWrite m line 0 poison).mem.dram line = 0 := by
  unfold State.dramWrite State.dramStore
  extract_lets s1 empty s2 ti s3 s4 s5 s6 slot s7 mem
  show lineData (Machine.setLine s7.mem.dram line (if empty then 0 else 0)) line = 0
  rw [ite_self]
  exact lineData_setLine_zero _ _

/-- One step of a zeroing sweep that nothing holds. -/
theorem State.swRun_zero {s : State} {m : Nat} {w : Sweep} (meets : Nat → DramCheck) (n : Nat) (on : s.sweep m = some w) (op : w.op = 2) (got : w.got = none)
    (free : s.sweepsFree m) {line : Nat} (next : s.swNext m w w.pos = some line) :
    s.swRun m meets (n + 1) = State.swRun (State.setSweep
      ((((s.force (mcPage m 2 0) 0).charge (mcPage m 2 0) .bytes w.part.toNat 64).dramWrite m line 0 false).count (ipe m 0x84)) m
      (some { w with pos := line + 1, got := none })) m meets n := by
  obtain ⟨reenc, exhausted⟩ := free.notHeld line w.part.toNat
  rw [State.swRun]
  simp only [on, next, reenc, exhausted, got, op]
  rfl

/-- A zeroing sweep that nothing holds reaches its end, and leaves zeros in every line that its controller holds. -/
theorem State.swRun_zeroes {m : Nat} (hm : m < 16) (meets : Nat → DramCheck) (fuel : Nat) {s : State} {w : Sweep} (on : s.sweep m = some w) (op : w.op = 2)
    (got : w.got = none) (stop : w.stop = none) (free : s.sweepsFree m) (enough : w.endLine - w.pos < fuel) :
    (s.swRun m meets fuel).sweep m = some { w with pos := w.endLine }
      ∧ ∀ j, w.pos ≤ j → j < w.endLine → s.serves m j = true → lineData (s.swRun m meets fuel).mem.dram j = 0 := by
  induction fuel generalizing s w with
  | zero => omega
  | succ fuel ih =>
    cases next : s.swNext m w w.pos with
    | none =>
      have ends : s.swRun m meets (fuel + 1) = s.setSweep m (some { w with pos := w.endLine }) := by
        rw [State.swRun]
        simp only [on, next, stop]
        rfl
      rw [ends]
      refine ⟨State.sweep_setSweep _ _ _, fun j after before mine => ?_⟩
      obtain ⟨line, found, -⟩ := State.swNext_le (w := w) hm after (by rw [stop]; exact before) mine
      rw [next] at found
      cases found
    | some line =>
      obtain ⟨after, before, -⟩ := State.swNext_some next
      rw [stop] at before
      have before : line < w.endLine := before
      rw [State.swRun_zero meets fuel on op got free next]
      have charged : LinesOnly m (fun j => j = line) s ((s.force (mcPage m 2 0) 0).charge (mcPage m 2 0) .bytes w.part.toNat 64) :=
        LinesOnly.chargeBytes hm s w.part 64
      generalize State.charge _ _ _ _ _ = u at charged ⊢
      have zero := State.dramWrite_zero u m line false
      have written := charged.trans (LinesOnly.dramWrite (m := m) (L := fun j => j = line) rfl u 0 false)
      generalize u.dramWrite m line 0 false = v at zero written ⊢
      let y := (v.count (ipe m 0x84)).setSweep m (some { w with pos := line + 1, got := none })
      have stepped : LinesOnly m (fun j => j = line) s y := (written.trans (LinesOnly.count_ipe v (by decide) 1)).trans (LinesOnly.setSweep _ _)
      have lineZero : lineData y.mem.dram line = 0 := by simp only [y, State.dram_setSweep, State.count_mem]; exact zero
      have sw : y.sweep m = some { w with pos := line + 1, got := none } := State.sweep_setSweep _ _ _
      obtain ⟨left, zeros⟩ := ih sw op rfl stop (free.after stepped) (by show w.endLine - (line + 1) < fuel; omega)
      obtain ⟨run, -⟩ := State.swRun_spec hm meets fuel sw
      refine ⟨left.trans (by rw [got]; rfl), fun j hj end_ mine => ?_⟩
      rcases Nat.lt_trichotomy j line with lt | rfl | gt
      · obtain ⟨first, found, least⟩ := State.swNext_le (w := w) hm hj (by rw [stop]; exact end_) mine
        rw [next] at found
        obtain rfl := Option.some.inj found
        omega
      · exact (run.dram j (fun h => by have : j + 1 ≤ j := h.1; omega)).trans lineZero
      · refine zeros j gt end_ ?_
        unfold State.serves State.isDram at mine ⊢
        rw [stepped.vtop]
        exact mine

/-! ### SWEEP_DONE -/

/-- Where a run leaves a sweep: its place is shown, and at its end it is DONE or ABORTED, and its source fires. -/
def State.swSettle (s : State) (m : Nat) (w : Sweep) : State :=
  let s := s.swPlace m w
  if w.pos = w.stop.getD w.endLine then
    ((s.setNat (ipe m 0x78) (16 * s.fld (ipe m 0x78) 4 1 + (if w.abort then 4 else 2))).setSweep m none).fire (0x180 + m)
  else s

section
variable {s : State} {m : Nat} {w : Sweep} (meets : Nat → DramCheck) (on : s.sweep m = some w)
include on

theorem sweepDone_eq {u : State} {x : Sweep} (run : s.swRun m meets (2 * (w.endLine - w.pos) + 1) = u) (left : u.sweep m = some x) :
    sweepDone m meets s = u.swSettle m x := by
  unfold sweepDone
  simp only [on, run, left]
  rfl

end

theorem LinesOnly.swSettle {m : Nat} {L : Nat → Prop} (s : State) (w : Sweep) : LinesOnly m L s (s.swSettle m w) := by
  unfold State.swSettle
  extract_lets u
  have h : LinesOnly m L s u := LinesOnly.swPlace s w
  refine LinesOnly.ite _ ?_ h
  have shown : LinesOnly m L u (u.setNat (ipe m 0x78) (16 * u.fld (ipe m 0x78) 4 1 + (if w.abort then 4 else 2))) :=
    LinesOnly.setReg u _ (by rw [ipe_mod _ (by decide)]; decide)
  exact ((h.trans shown).trans (LinesOnly.setSweep _ none)).trans ⟨rfl, rfl, rfl, fun _ _ => rfl, fun _ _ _ _ => rfl⟩

theorem State.swPlace_only (s : State) (m : Nat) (w : Sweep) : OnlyRegs s (s.swPlace m w) [ipe m 0x7C, ipe m 0x80] :=
  (OnlyRegs.setReg s _ (by simp)).trans (OnlyRegs.setReg _ _ (by simp))

section
variable (s : State) (m : Nat) {w : Sweep}

/-- A sweep at its end is over. -/
theorem State.swSettle_ends (ends : w.pos = w.stop.getD w.endLine) :
    let t := s.swSettle m w
    t.sweep m = none ∧ .source (0x180 + m) ∈ t.ev.fires ∧ t.fld (ipe m 0x78) 0 4 = (if w.abort then 4 else 2) ∧ t.mem.dram = s.mem.dram := by
  intro t
  have rest := (s.swPlace_only m w).rest
  have shown : t = (((s.swPlace m w).setNat (ipe m 0x78) (16 * (s.swPlace m w).fld (ipe m 0x78) 4 1 + (if w.abort then 4 else 2))).setSweep m none).fire
      (0x180 + m) := by
    unfold t State.swSettle
    exact if_pos ends
  have kept : (s.swPlace m w).mem = s.mem := by rw [rest]
  generalize s.swPlace m w = u at shown kept
  clear_value t
  subst shown
  refine ⟨State.sweep_setSweep _ _ _, List.mem_append_right _ (List.mem_singleton_self _), ?_, ?_⟩
  · have bit : u.fld (ipe m 0x78) 4 1 < 2 := fieldOf_lt _ _ _
    rw [State.fld_fire, State.fld_setSweep, State.fld, State.reg_setNat, if_pos rfl, fieldOf, BitVec.toNat_ofNat, Nat.shiftRight_eq_div_pow]
    cases w.abort <;> simp
  · rw [State.fire_mem, State.dram_setSweep, State.setNat_mem, kept]

/-- A sweep before its end shows its place, and nothing else changes. -/
theorem State.swSettle_waits (before : w.pos ≠ w.stop.getD w.endLine) : s.swSettle m w = s.swPlace m w := if_neg before

end

section
variable {s : State} {m : Nat} {w : Sweep} (hm : m < 16) (meets : Nat → DramCheck) (on : s.sweep m = some w)
include hm on

/-- A sweep touches no line outside its range. -/
theorem sweepDone_range (from_ : w.lo / 64 ≤ w.pos) (upto : ∀ x, w.stop = some x → x ≤ w.endLine) :
    LinesOnly m (fun j => j ∈ rangeLines w.lo w.len) s (sweepDone m meets s) := by
  obtain ⟨run, x, left, -⟩ := State.swRun_spec hm meets (2 * (w.endLine - w.pos) + 1) on
  rw [sweepDone_eq meets on rfl left]
  refine (run.mono (fun j hj => mem_rangeLines.mpr ⟨from_.trans hj.1, Nat.lt_of_lt_of_le hj.2 ?_⟩)).trans (LinesOnly.swSettle _ x)
  cases h : w.stop with
  | none => exact Nat.le_refl _
  | some y => exact upto y h

omit hm in
/-- With no line left a sweep is over. -/
theorem sweepDone_ends (none_ : s.swNext m w w.pos = none) :
    let t := sweepDone m meets s
    t.sweep m = none ∧ .source (0x180 + m) ∈ t.ev.fires ∧ t.fld (ipe m 0x78) 0 4 = (if w.abort then 4 else 2) ∧ t.mem.dram = s.mem.dram := by
  intro t
  have run : s.swRun m meets (2 * (w.endLine - w.pos) + 1) = s.setSweep m (some { w with pos := w.stop.getD w.endLine }) := by
    rw [State.swRun]
    simp only [on, none_]
  have settled : t = _ := sweepDone_eq meets on run (State.sweep_setSweep _ _ _)
  rw [settled]
  exact State.swSettle_ends _ m rfl

/-- A sweep whose budget is used up waits before the next line (03 R59). -/
theorem sweepDone_waits {j : Nat} (next : s.swNext m w w.pos = some j) (spent : s.exhausted (mcPage m 2 0) .bytes w.part.toNat = true) :
    let t := sweepDone m meets s
    t.sweep m = some { w with pos := j } ∧ t.mem.dram = s.mem.dram ∧ (s.budget (mcPage m 2 0) .bytes w.part.toNat ≠ 0 → t.ev.fires = s.ev.fires) := by
  intro t
  let v := s.setSweep m (some { w with pos := j })
  have waits : ∃ u, s.swRun m meets (2 * (w.endLine - w.pos) + 1) = u ∧ u.mem = v.mem
      ∧ (s.budget (mcPage m 2 0) .bytes w.part.toNat ≠ 0 → u.ev = v.ev) := by
    rw [State.swRun]
    simp only [on, next, spent, if_true]
    split
    · exact ⟨v, rfl, rfl, fun _ => rfl⟩
    · refine ⟨_, rfl, (Regulates.holdBytes hm v w.part).mem, fun some_ => ?_⟩
      have budget : v.budget (mcPage m 2 0) .bytes w.part.toNat ≠ 0 := some_
      show (v.holdAt (mcPage m 2 0) .bytes w.part.toNat).ev = v.ev
      unfold State.holdAt
      simp only [budget]
      simp
  obtain ⟨u, run, mem, ev⟩ := waits
  have dram : u.mem.dram = s.mem.dram := by rw [mem]; rfl
  have left : u.sweep m = some { w with pos := j } := by
    rw [State.sweep, mem]; exact State.sweep_setSweep s m _
  have settled : t = u.swPlace m { w with pos := j } := (sweepDone_eq meets on run left).trans
    (State.swSettle_waits u m (Nat.ne_of_lt (State.swNext_some next).2.1))
  have rest := (u.swPlace_only m { w with pos := j }).rest
  clear_value t
  subst settled
  refine ⟨?_, ?_, fun some_ => ?_⟩
  · rw [State.sweep, rest]; exact left
  · rw [rest]; exact dram
  · rw [rest, ev some_]; rfl

/-- A zeroing sweep that nothing holds is done, and leaves zeros. -/
theorem sweepDone_zeroes (op : w.op = 2) (go : w.abort = false) (stop : w.stop = none) (got : w.got = none) (free : s.sweepsFree m) :
    let t := sweepDone m meets s
    t.sweep m = none ∧ .source (0x180 + m) ∈ t.ev.fires ∧ t.fld (ipe m 0x78) 0 4 = 2
      ∧ ∀ j ∈ rangeLines w.lo w.len, w.pos ≤ j → s.serves m j = true → lineData t.mem.dram j = 0 := by
  intro t
  obtain ⟨left, zeros⟩ := State.swRun_zeroes hm meets (2 * (w.endLine - w.pos) + 1) on op got stop free (by omega)
  generalize hu : s.swRun m meets (2 * (w.endLine - w.pos) + 1) = u at left zeros
  have settled : t = u.swSettle m { w with pos := w.endLine } := sweepDone_eq meets on hu left
  obtain ⟨none_, fired, state, dram⟩ := State.swSettle_ends u m (w := { w with pos := w.endLine }) (by rw [stop]; rfl)
  rw [settled]
  refine ⟨none_, fired, by rw [state, go]; rfl, fun j hj after mine => ?_⟩
  rw [dram]
  exact zeros j after (mem_rangeLines.mp hj).2 mine

end

/-! ### GO and ABORT (11 R317, R323) -/

section
variable {s : State} {i : Initiator} {m : Fin 16} {p : Page}

/-- A GO under the engine's operation is a write of GO. -/
theorem exec_swGo (h : MayWrite s i (ipe m.val 0x74) p) {op : Nat} (is : op = 1 ∨ op = 2) (on : s.fld (ipe m.val 0x70) 0 2 = op) (v : W32) :
    exec (if op = 1 then Instr.sweepRewrite i m v else .sweepZero i m v) s = .next (s.writeSwCmd m.val (putField v 0 2 1)) := by
  have row : exec (if op = 1 then Instr.sweepRewrite i m v else .sweepZero i m v) s = act s (fun s => s.swGo i m.val op v) := by
    rcases is with rfl | rfl <;> rfl
  have write : s.swGo i m.val op v = s.write4 i (ipe m.val 0x74) (putField v 0 2 1) := if_pos on
  have reached : act s (fun s => s.write4 i (ipe m.val 0x74) (putField v 0 2 1)) = .next (s.writeSwCmd m.val (putField v 0 2 1)) := act_ipe h (by decide) _
  rw [row, act_runs _ _ h.runs, write, ← reached, act_runs _ _ h.runs]

theorem exec_sweepAbort (h : MayWrite s i (ipe m.val 0x74) p) (v : W32) :
    exec (.sweepAbort i m v) s = .next (s.writeSwCmd m.val (putField v 0 2 2)) := act_ipe h (by decide) _

end

section
variable {s : State} {m : Nat} (v : W32)

theorem State.writeSwCmd_abort : s.writeSwCmd m (putField v 0 2 2) = s.swAbort m := by
  obtain ⟨go, abort⟩ := meCmd_bits v 2
  unfold State.writeSwCmd
  simp only [go, abort]
  rfl

theorem State.writeSwCmd_busy (busy : (s.sweep m).isSome = true) : s.writeSwCmd m (putField v 0 2 1) = s.raise (ipe m 0) 6 := by
  obtain ⟨go, abort⟩ := meCmd_bits v 1
  unfold State.writeSwCmd
  simp only [go, abort, busy]
  rfl

/-- A GO that is accepted starts the sweep, and SW_POS shows its next line. -/
theorem State.writeSwCmd_starts {lo len op : Nat} (idle : s.sweep m = none) (start : lo = (s.reg (ipe m 0x60)).toNat + 4294967296 * s.fld (ipe m 0x64) 0 10)
    (range : len = (s.reg (ipe m 0x68)).toNat + 4294967296 * s.fld (ipe m 0x6C) 0 10) (is : s.fld (ipe m 0x70) 0 2 = op) (rewrites : op = 1 ∨ op = 2)
    (some_ : len ≠ 0) (inside : lo + len ≤ 0x40000000000) (active : s.ipeActive m = true) :
    s.writeSwCmd m (putField v 0 2 1) = (((s.setNat (ipe m 0x78) 1).setNat (ipe m 0x84) 0).setSweep m (some
      { lo := lo, len := len, op := op, scope := false, part := BitVec.ofNat 6 (s.fld (ipe m 0x24) 0 6), abort := false, pos := lo / 64 })).swPlace m
      { lo := lo, len := len, op := op, scope := false, part := BitVec.ofNat 6 (s.fld (ipe m 0x24) 0 6), abort := false, pos := lo / 64 } := by
  obtain ⟨go, abort⟩ := meCmd_bits v 1
  have fits : decide (0x40000000000 < lo + len) = false := by simpa using inside
  have zero : decide (op = 0) = false := by rcases rewrites with rfl | rfl <;> rfl
  have three : decide (op = 3) = false := by rcases rewrites with rfl | rfl <;> rfl
  unfold State.writeSwCmd
  rw [← start, ← range, is]
  simp only [go, abort, idle, some_, active, fits, zero, three]
  rfl

/-- ABORT of a sweep that is not marked marks it, and it stops at or after its position. -/
theorem State.swAbort_marks {w : Sweep} (on : s.sweep m = some w) (unmarked : w.abort = false) :
    ∃ p, w.pos ≤ p ∧ s.swAbort m = ({ s with fresh := s.fresh + 1 }).setSweep m (some { w with abort := true, stop := some p }) := by
  refine ⟨w.pos + b2n w.got.isSome + Config.place s.fresh % (w.endLine - (w.pos + b2n w.got.isSome) + 1), by omega, ?_⟩
  simp [State.swAbort, on, unmarked]

end

/-- What a GO that is accepted leaves: the sweep, SW_STAT, SW_COUNT and SW_POS. -/
theorem swStarted_spec (s : State) {m : Nat} {w : Sweep} (stop : w.stop = none) :
    let t := (((s.setNat (ipe m 0x78) 1).setNat (ipe m 0x84) 0).setSweep m (some w)).swPlace m w
    t.sweep m = some w ∧ t.reg (ipe m 0x78) = 1 ∧ t.reg (ipe m 0x84) = 0
      ∧ (w.pos < w.endLine → s.serves m w.pos = true → t.reg (ipe m 0x7C) = BitVec.ofNat 32 (64 * w.pos))
      ∧ OnlyRegs { s with mem := t.mem } t [ipe m 0x78, ipe m 0x7C, ipe m 0x80, ipe m 0x84] ∧ t.mem = { s.mem with sw := t.mem.sw } := by
  intro t
  let u := ((s.setNat (ipe m 0x78) 1).setNat (ipe m 0x84) 0).setSweep m (some w)
  obtain ⟨rest, others⟩ := u.swPlace_only m w
  have apart : ∀ {a b : Nat}, a ≠ b → ipe m a ≠ ipe m b := fun h e => h (by simp only [ipe, mcPage] at e; omega)
  have kept : ∀ a, a ≠ ipe m 0x7C → a ≠ ipe m 0x80 → t.reg a = u.reg a := fun a h h' => others a (by simp [h, h'])
  have mem : t.mem = u.mem := by unfold t; rw [rest]
  refine ⟨?_, ?_, ?_, fun before mine => ?_, ⟨?_, fun a ha => ?_⟩, ?_⟩
  · rw [State.sweep, mem]; exact State.sweep_setSweep _ m (some w)
  · rw [kept _ (apart (by decide)) (apart (by decide))]
    rw [State.reg_setSweep, State.reg_setNat, if_neg (apart (by decide)), State.reg_setNat, if_pos rfl]
    rfl
  · rw [kept _ (apart (by decide)) (apart (by decide))]
    rw [State.reg_setSweep, State.reg_setNat, if_pos rfl]
    rfl
  · have first : firstWhere 128 (fun k => u.serves m (w.pos + k)) = some 0 := by
      refine List.find?_range_eq_some.mpr ⟨mine, by simp, fun j hj => by omega⟩
    have next : u.swNext m w w.pos = some w.pos := by
      unfold State.swNext
      rw [first]
      exact if_pos (by rw [stop]; exact before)
    unfold t State.swPlace
    rw [State.reg_setNat, if_neg (apart (by decide)), State.reg_setNat, if_pos rfl, next]
    rfl
  · unfold t
    rw [rest]
    rfl
  · simp only [List.mem_cons, List.not_mem_nil, or_false, not_or] at ha
    obtain ⟨h0, h1, h2, h3⟩ := ha
    rw [kept a h1 h2]
    rw [State.reg_setSweep, State.reg_setNat, if_neg h3, State.reg_setNat, if_neg h0]
    rfl
  · rw [mem]; rfl

/-- Sweeps of inline protection are as the statement gives them. -/
theorem protectionSweeps : Rules.ProtectionSweeps := by
  intro s m lo len
  refine ⟨fun i v g h => ⟨fun op is on => ⟨fun idle some_ inside active => ?_, fun busy => ?_⟩, fun w on unmarked => ?_, fun w on marked => ?_, fun idle => ?_⟩,
    fun runs l => ?_⟩
  · have starts := State.writeSwCmd_starts (m := m.val) v idle (show lo = _ from rfl) (show len = _ from rfl) on is some_ inside active
    obtain ⟨sweep, stat, count, place, only, mem⟩ := swStarted_spec s (m := m.val) (w :=
      { lo := lo, len := len, op := op, scope := false, part := BitVec.ofNat 6 (s.fld (ipe m.val 0x24) 0 6), abort := false, pos := lo / 64 }) rfl
    refine ⟨_, (exec_swGo h is on v).trans (congrArg _ starts), sweep, stat, count, fun mine => ?_, only, mem⟩
    rw [Nat.mul_comm]
    exact place (by show lo / 64 < (lo + len + 63) / 64; omega) mine
  · exact (exec_swGo h is on v).trans (congrArg _ (State.writeSwCmd_busy v busy))
  · obtain ⟨p, after, marks⟩ := State.swAbort_marks on unmarked
    exact ⟨p, after, by rw [exec_sweepAbort h, State.writeSwCmd_abort, marks]⟩
  · rw [exec_sweepAbort h, State.writeSwCmd_abort]
    simp [State.swAbort, on, marked]
  · rw [exec_sweepAbort h, State.writeSwCmd_abort]
    simp [State.swAbort, idle]
  obtain ⟨meets, row⟩ : ∃ meets, exec (.sweepDone ⟨m, l⟩) s = .next (sweepDone m.val meets s) := ⟨_, act_runs s (sweepDone m.val _) runs⟩
  refine ⟨fun idle => ?_, fun w on from_ upto => ?_⟩
  · rw [row]
    simp [sweepDone, State.swRun, idle]
  · have only := sweepDone_range m.isLt meets on from_ upto
    refine ⟨_, row, by rw [only.rest], by rw [only.rest], fun j hj => only.dram j hj, sweepDone_ends meets on, fun j => sweepDone_waits m.isLt meets on,
      fun op go stop got metered none_ => sweepDone_zeroes m.isLt meets on op go stop got ⟨metered, fun n hn => ?_⟩⟩
    exact List.filterMap_eq_nil_iff.mp none_ n (List.mem_range.mpr hn)

/-- Settles O47: bring-up and the sweeps of inline protection, one theorem each. -/
theorem memoryBringUpAndSweeps : Obligations.MemoryBringUpAndSweeps := ⟨memoryBringUp, protectionSweeps⟩

end Sys2Proof.Machine
end

section
/-! ## The operations of the transfer engines (13 R358, R360, R361), and O53 -/

namespace Sys2Proof.Machine

/-! ### What a piece leaves -/

/-- The row takes descriptors of operation `op` further, by the pieces `run`. -/
def RunsBy (row : Fin 10 → Nat → Instr) (op : Nat) (run : Nat → Desc → State → TeOut) : Prop :=
  ∀ (e : Fin 10) (j : Nat) (s : State), s.stalled = false → exec (row e j) s = .next (s.piece op run e.val j)

theorem copy_runsBy : RunsBy .copy 0x01 copyPiece := fun e j s => act_runs s (fun s => s.piece 0x01 copyPiece e.val j)
theorem fill_runsBy : RunsBy .fill 0x02 fillPiece := fun e j s => act_runs s (fun s => s.piece 0x02 fillPiece e.val j)
theorem aes_runsBy : RunsBy .aes 0x10 aesPiece := fun e j s => act_runs s (fun s => s.piece 0x10 aesPiece e.val j)
theorem hash_runsBy : RunsBy .hash 0x18 hashPiece := fun e j s => act_runs s (fun s => s.piece 0x18 hashPiece e.val j)
theorem ecdsaSign_runsBy : RunsBy .ecdsaSign 0x20 signOp := fun e j s => act_runs s (fun s => s.piece 0x20 signOp e.val j)
theorem ecdsaVerify_runsBy : RunsBy .ecdsaVerify 0x21 verifyOp := fun e j s => act_runs s (fun s => s.piece 0x21 verifyOp e.val j)
theorem mlkemKeygen_runsBy : RunsBy .mlkemKeygen 0x28 keygenOp := fun e j s => act_runs s (fun s => s.piece 0x28 keygenOp e.val j)
theorem mlkemEncaps_runsBy : RunsBy .mlkemEncaps 0x29 encapsOp := fun e j s => act_runs s (fun s => s.piece 0x29 encapsOp e.val j)
theorem mlkemDecaps_runsBy : RunsBy .mlkemDecaps 0x2A decapsOp := fun e j s => act_runs s (fun s => s.piece 0x2A decapsOp e.val j)
theorem txf_runsBy : RunsBy .txf 0x40 txfOp := fun e j s => act_runs s (fun s => s.piece 0x40 txfOp e.val j)
theorem rxb_runsBy : RunsBy .rxb 0x41 rxbOp := fun e j s => act_runs s (fun s => s.piece 0x41 rxbOp e.val j)

/-- Every row of an operation runs by some pieces. -/
theorem IsOperation.runsBy {x : (Fin 10 → Nat → Instr) × Nat} (h : IsOperation x) : ∃ run, RunsBy x.1 x.2 run := by
  simp only [IsOperation, List.mem_cons, List.not_mem_nil, or_false] at h
  obtain rfl | rfl | rfl | rfl | rfl | rfl | rfl | rfl | rfl | rfl | rfl := h
  exacts [⟨_, copy_runsBy⟩, ⟨_, fill_runsBy⟩, ⟨_, aes_runsBy⟩, ⟨_, hash_runsBy⟩, ⟨_, ecdsaSign_runsBy⟩, ⟨_, ecdsaVerify_runsBy⟩,
    ⟨_, mlkemKeygen_runsBy⟩, ⟨_, mlkemEncaps_runsBy⟩, ⟨_, mlkemDecaps_runsBy⟩, ⟨_, txf_runsBy⟩, ⟨_, rxb_runsBy⟩]

/-- What command `c` leaves of the block, when a piece of descriptor `d` in slot `j` of engine `e` gives the outcome. -/
def TeOut.Leaves (c : Instr) (s : State) (e : Fin 10) (j : Nat) (d : Desc) : TeOut → Prop
  | .held h => exec c s = .next (s.holdFor h)
  | .fail k t => SlotBecomes c s t e j { d with fin := some (k, 0) }
  | .ok d' t => SlotBecomes c s t e j d'

section
variable {row : Fin 10 → Nat → Instr} {op : Nat} {run : Nat → Desc → State → TeOut} (by_ : RunsBy row op run)
variable {s : State} {e : Fin 10} {j : Nat} {d : Desc}
include by_

/-- A descriptor that may be taken further is, by the piece of its operation. -/
theorem RunsBy.leaves (h : MayPiece s e j d op) : (run e.val d s).Leaves (row e j) s e j d := by
  have goes := by_ e j s h.runs
  have skip : (d.fin.isSome || decide (d.op ≠ op) || !s.teUp e.val) = false := by simp [h.isOp, h.left, h.up]
  unfold State.piece at goes
  rw [h.slot] at goes
  simp only [skip, h.budget, h.steady, Bool.false_and, Bool.false_eq_true, if_false] at goes
  cases out : run e.val d s with
  | held k => rw [out] at goes; exact goes
  | fail k t => rw [out] at goes; exact goes
  | ok d' t => rw [out] at goes; exact goes

/-- Of an empty slot, a row does nothing. -/
theorem RunsBy.empty (runs : s.stalled = false) (slot : (s.teSlots e.val)[j]? = none) : exec (row e j) s = .next s := by
  rw [by_ e j s runs, State.piece, slot]

/-- Of another operation's descriptor, of a finished one, and at an engine that is not up, a row does nothing. -/
theorem RunsBy.skips (runs : s.stalled = false) (slot : (s.teSlots e.val)[j]? = some d)
    (other : d.op ≠ op ∨ d.fin.isSome = true ∨ s.teUp e.val = false) : exec (row e j) s = .next s := by
  have skip : (d.fin.isSome || decide (d.op ≠ op) || !s.teUp e.val) = true := by
    obtain h | h | h := other <;> simp [h]
  rw [by_ e j s runs, State.piece, slot]
  exact congrArg _ (if_pos skip)

/-- With the partition's bytes spent, the descriptor is parked. -/
theorem RunsBy.parks (runs : s.stalled = false) (slot : (s.teSlots e.val)[j]? = some d) (isOp : d.op = op) (left : d.fin = none)
    (up : s.teUp e.val = true) (spent : s.teSpent e.val (s.vfPart d.vf) = true) (steady : s.vfResetting d.vf = false) :
    ∃ t, exec (row e j) s = .next t ∧ t.teSlots e.val = (s.teSlots e.val).eraseIdx j ∧ t.teParked e.val = s.teParked e.val ++ [d]
      ∧ t.mem = s.mem ∧ t.coh = s.coh := by
  have skip : (d.fin.isSome || decide (d.op ≠ op) || !s.teUp e.val) = false := by simp [isOp, left, up]
  have held := (Regulates.holdAt (rg := teRg) (P := fun _ => True) (by decide) (by decide) trivial s .bytes (s.vfPart d.vf).isLt).rest
  have goes := by_ e j s runs
  unfold State.piece at goes
  rw [slot] at goes
  simp only [skip, spent, steady, Bool.false_eq_true, if_false, if_true] at goes
  generalize s.holdAt teRg .bytes (s.vfPart d.vf).toNat = t at held goes
  refine ⟨_, goes, ?_, ?_, ?_, ?_⟩
  · rw [held]; exact SMap.get_set_same _ _ _ _
  · rw [held]; exact SMap.get_set_same _ _ _ _
  · rw [held]; rfl
  · rw [held]; rfl

end

/-! ### Gathered input and its output -/

section
variable {c : Instr} {s u : State} {e : Fin 10} {j : Nat} {d : Desc} {input : Nat} {compute : Desc → State → TeOut} {out : List Byte}

theorem gatherPiece_writes : gatherPiece e.val { d with out := some out } input compute u
    = onWrite (u.teWrite e.val d.vf (d.dst + d.wrote) ((out.drop d.wrote).take (min (out.length - d.wrote) (4096 - (d.dst + d.wrote) % 4096)))) (fun s =>
        let d' : Desc := { d with out := some out, wrote := d.wrote + min (out.length - d.wrote) (4096 - (d.dst + d.wrote) % 4096) }
        if d'.wrote < out.length then .ok { d' with done := if input = 0 then d'.wrote else d.done } s
        else .ok { d' with done := d.len, fin := some (0, 0) } s) := rfl

/-- The next piece of a gathered operation's output is as `PutsOut` says. -/
theorem putsOut_of_leaves (h : (gatherPiece e.val { d with out := some out } input compute u).Leaves c s e j d) : PutsOut c s u e j d input out := by
  rw [gatherPiece_writes, onWrite] at h
  refine ⟨fun k w err => ?_, fun y z w ok => ?_⟩
  · rw [err] at h
    exact h
  · rw [ok] at h
    dsimp only at h ⊢
    by_cases more : d.wrote + min (out.length - d.wrote) (4096 - (d.dst + d.wrote) % 4096) < out.length
    · rw [if_pos more] at h ⊢; exact h
    · rw [if_neg more] at h ⊢; exact h

/-- An output that stands in the descriptor is written further. -/
theorem putsOut_of_out (h : (gatherPiece e.val d input compute u).Leaves c s e j d) (some_ : d.out = some out) : PutsOut c s u e j d input out := by
  have same : { d with out := some out } = d := by rw [← some_]
  have writes : gatherPiece e.val d input compute u = gatherPiece e.val { d with out := some out } input compute u := by rw [same]
  rw [writes] at h
  exact putsOut_of_leaves h

theorem gatherPiece_compute (none_ : d.out = none) (all : input ≤ d.done) : gatherPiece e.val d input compute s = compute d s := by
  simp [gatherPiece, none_, Nat.not_lt.mpr all]

theorem gatherPiece_reads (none_ : d.out = none) (some_ : d.done < input) : gatherPiece e.val d input compute s
    = onRead (s.teRead e.val d.vf (d.src + d.done) (min (input - d.done) (4096 - (d.src + d.done) % 4096)))
        (fun x s => .ok { d with acc := d.acc ++ x, done := d.done + min (input - d.done) (4096 - (d.src + d.done) % 4096) } s) := by
  simp [gatherPiece, none_, some_, toPage]

end

/-- The row of a gathering operation runs by gathered pieces. -/
theorem Gathering.runsBy {d : Desc} {x : (Fin 10 → Nat → Instr) × Nat × Nat} (h : Gathering d x) :
    ∃ run, RunsBy x.1 x.2.1 run ∧ ∀ e s, ∃ compute, run e d s = gatherPiece e d x.2.2 compute s := by
  simp only [Gathering, List.mem_cons, List.not_mem_nil, or_false] at h
  obtain rfl | rfl | rfl | rfl | rfl | rfl := h
  exacts [⟨_, hash_runsBy, fun _ _ => ⟨_, rfl⟩⟩, ⟨_, ecdsaSign_runsBy, fun _ _ => ⟨_, rfl⟩⟩, ⟨_, ecdsaVerify_runsBy, fun _ _ => ⟨_, rfl⟩⟩,
    ⟨_, mlkemKeygen_runsBy, fun _ _ => ⟨_, rfl⟩⟩, ⟨_, mlkemEncaps_runsBy, fun _ _ => ⟨_, rfl⟩⟩, ⟨_, mlkemDecaps_runsBy, fun _ _ => ⟨_, rfl⟩⟩]

/-! ### The operations -/

section
variable {s : State} {e : Fin 10} {j : Nat} {d : Desc}

/-- A COPY whose ranges are equal or apart writes what it reads. -/
theorem copyPiece_apart (apart : d.src = d.dst ∨ d.src + d.len ≤ d.dst ∨ d.dst + d.len ≤ d.src) {n : Nat}
    (hn : n = min (d.len - d.done) (min (4096 - (d.src + d.done) % 4096) (4096 - (d.dst + d.done) % 4096))) {x : List Byte} {bad : Bool} {u : State}
    (reads : s.teRead e.val d.vf (d.src + d.done) n = (.ok x bad, u)) :
    copyPiece e.val d s = onWrite (u.teWrite e.val d.vf (d.dst + d.done) x bad) (fun s => .ok (d.copied n bad) s) := by
  have away : ¬(d.src ≠ d.dst ∧ d.src < d.dst + d.len ∧ d.dst < d.src + d.len) := by omega
  have ahead : ¬(d.src < d.dst ∧ d.dst < d.src + d.len) := by omega
  subst hn
  simp only [copyPiece, toPage, reads, Desc.overlapped, if_neg away, if_neg ahead, List.append_nil]

theorem Desc.copied_eq (d : Desc) (n : Nat) (bad : Bool) (left : d.fin = none) : d.copied n bad
    = { d with done := d.done + n, psn := d.psn || bad, fin := if d.len ≤ d.done + n then some (if d.psn || bad then 6 else 0, 0) else none } := by
  by_cases all : d.len ≤ d.done + n
  · rw [if_pos all]; exact if_pos all
  · rw [if_neg all, ← left]; exact if_neg all

theorem Desc.advance_eq (d : Desc) (n : Nat) (left : d.fin = none) :
    d.advance n = { d with done := d.done + n, fin := if d.len ≤ d.done + n then some (0, 0) else none } := by
  by_cases all : d.len ≤ d.done + n
  · rw [if_pos all]; exact if_pos all
  · rw [if_neg all, ← left]; exact if_neg all

/-- COPY (13 R358, R361, R364). -/
theorem copy_leaves (h : MayPiece s e j d 0x01) (apart : d.src = d.dst ∨ d.src + d.len ≤ d.dst ∨ d.dst + d.len ≤ d.src) :
    let a := d.src + d.done
    let b := d.dst + d.done
    let n := min (d.len - d.done) (min (4096 - a % 4096) (4096 - b % 4096))
    (∀ h u, s.teRead e.val d.vf a n = (.held h, u) → exec (.copy e j) s = .next (s.holdFor h))
    ∧ (∀ k u, s.teRead e.val d.vf a n = (.err k, u) → SlotBecomes (.copy e j) s u e j { d with fin := some (k, 0) })
    ∧ ∀ x bad u, s.teRead e.val d.vf a n = (.ok x bad, u) →
      (∀ k w, u.teWrite e.val d.vf b x bad = (.err k, w) → SlotBecomes (.copy e j) s w e j { d with fin := some (k, 0) })
      ∧ ∀ w y z, u.teWrite e.val d.vf b x bad = (.ok y z, w) → SlotBecomes (.copy e j) s w e j
          { d with done := d.done + n, psn := d.psn || bad, fin := if d.len ≤ d.done + n then some (if d.psn || bad then 6 else 0, 0) else none } := by
  intro a b n
  have leaves := copy_runsBy.leaves h
  refine ⟨fun k u held => ?_, fun k u err => ?_, fun x bad u ok => ?_⟩
  · simp only [copyPiece, toPage] at leaves
    rw [held] at leaves
    exact leaves
  · simp only [copyPiece, toPage] at leaves
    rw [err] at leaves
    exact leaves
  · rw [copyPiece_apart apart rfl ok] at leaves
    refine ⟨fun k w err => ?_, fun w y z done_ => ?_⟩
    · rw [onWrite, err] at leaves
      exact leaves
    · rw [onWrite, done_] at leaves
      rw [← Desc.copied_eq d n bad h.left]
      exact leaves

/-- FILL (13 R358). -/
theorem fill_leaves (h : MayPiece s e j d 0x02) :
    let b := d.dst + d.done
    let n := min (d.len - d.done) (4096 - b % 4096)
    ∃ x : List Byte, x.length = n ∧ (∀ k, k < n → x.getD k 0 = BitVec.ofNat 8 (d.aux / 256 ^ ((d.done + k) % 8)))
      ∧ (∀ h w, s.teWrite e.val d.vf b x = (.held h, w) → exec (.fill e j) s = .next (s.holdFor h))
      ∧ (∀ k w, s.teWrite e.val d.vf b x = (.err k, w) → SlotBecomes (.fill e j) s w e j { d with fin := some (k, 0) })
      ∧ ∀ w y z, s.teWrite e.val d.vf b x = (.ok y z, w) → SlotBecomes (.fill e j) s w e j
          { d with done := d.done + n, fin := if d.len ≤ d.done + n then some (0, 0) else none } := by
  intro b n
  have leaves := fill_runsBy.leaves h
  simp only [fillPiece, toPage, onWrite] at leaves
  refine ⟨(List.range n).map (fun i => BitVec.ofNat 8 (d.aux >>> (8 * ((d.done + i) % 8)))), by simp, fun k hk => ?_, fun k w held => ?_,
    fun k w err => ?_, fun w y z ok => ?_⟩
  · rw [List.getD_eq_getElem _ _ (by simpa using hk)]
    simp only [List.getElem_map, List.getElem_range, Nat.shiftRight_eq_div_pow, Nat.pow_mul, Nat.reducePow]
  · rw [held] at leaves
    exact leaves
  · rw [err] at leaves
    exact leaves
  · rw [ok] at leaves
    rw [← Desc.advance_eq d n h.left]
    exact leaves

/-- A gathered operation's input and output (13 R358, R361). -/
theorem gathering_leaves {x : (Fin 10 → Nat → Instr) × Nat × Nat} (is : Gathering d x) (h : MayPiece s e j d x.2.1) :
    (d.out = none → d.done < x.2.2 →
      let a := d.src + d.done
      let n := min (x.2.2 - d.done) (4096 - a % 4096)
      (∀ h u, s.teRead e.val d.vf a n = (.held h, u) → exec (x.1 e j) s = .next (s.holdFor h))
      ∧ (∀ k u, s.teRead e.val d.vf a n = (.err k, u) → SlotBecomes (x.1 e j) s u e j { d with fin := some (k, 0) })
      ∧ (∀ b u, s.teRead e.val d.vf a n = (.ok b true, u) → SlotBecomes (x.1 e j) s u e j { d with fin := some (6, 0) })
      ∧ ∀ b u, s.teRead e.val d.vf a n = (.ok b false, u) → SlotBecomes (x.1 e j) s u e j { d with acc := d.acc ++ b, done := d.done + n })
    ∧ ∀ o, d.out = some o → PutsOut (x.1 e j) s s e j d x.2.2 o := by
  obtain ⟨run, by_, gathers⟩ := Gathering.runsBy is
  obtain ⟨compute, shape⟩ := gathers e.val s
  have leaves := by_.leaves h
  rw [shape] at leaves
  refine ⟨fun none_ some_ => ?_, fun o some_ => putsOut_of_out leaves some_⟩
  rw [gatherPiece_reads none_ some_, onRead] at leaves
  refine ⟨fun k u held => ?_, fun k u err => ?_, fun b u bad => ?_, fun b u ok => ?_⟩
  · rw [held] at leaves; exact leaves
  · rw [err] at leaves; exact leaves
  · rw [bad] at leaves; exact leaves
  · rw [ok] at leaves; exact leaves

/-- A key in memory is read as a piece of its own (13 R358). -/
theorem withKey_leaves {c : Instr} {f : List Byte → State → TeOut} (none_ : d.key = none) (memory : refIsHandle d.keyRef = false)
    (leaves : (s.withKey e.val d f).Leaves c s e j d) :
    (∀ k u, s.teRead e.val d.vf d.keyRef d.keyLen = (.err k, u) → SlotBecomes c s u e j { d with fin := some (k, 0) })
      ∧ ∀ b u, s.teRead e.val d.vf d.keyRef d.keyLen = (.ok b false, u) → SlotBecomes c s u e j { d with key := some b } := by
  simp only [State.withKey, none_, memory, Bool.false_eq_true, if_false, onRead] at leaves
  refine ⟨fun k u err => ?_, fun b u ok => ?_⟩
  · rw [err] at leaves; exact leaves
  · rw [ok] at leaves; exact leaves

theorem withKey_some {key : List Byte} {f : List Byte → State → TeOut} (some_ : d.key = some key) : s.withKey e.val d f = f key s := by
  rw [State.withKey, some_]

/-- The rows that take a key read it (13 R358). -/
theorem keyed_leaves {x : Instr × Nat} (is : x = (Instr.ecdsaSign e j, 0x20) ∨ x = (Instr.mlkemDecaps e j, 0x2A) ∨ x = (Instr.aes e j, 0x10))
    (h : MayPiece s e j d x.2) (none_ : d.key = none) (noOut : d.out = none) (all : d.len ≤ d.done ∨ x.2 = 0x10) (digest_ : x.2 = 0x20 → 48 ≤ d.done)
    (memory : refIsHandle d.keyRef = false) :
    (∀ k u, s.teRead e.val d.vf d.keyRef d.keyLen = (.err k, u) → SlotBecomes x.1 s u e j { d with fin := some (k, 0) })
      ∧ ∀ b u, s.teRead e.val d.vf d.keyRef d.keyLen = (.ok b false, u) → SlotBecomes x.1 s u e j { d with key := some b } := by
  obtain rfl | rfl | rfl := is
  · have leaves := ecdsaSign_runsBy.leaves h
    rw [signOp, gatherPiece_compute noOut (digest_ rfl)] at leaves
    exact withKey_leaves none_ memory leaves
  · have leaves := mlkemDecaps_runsBy.leaves h
    rw [decapsOp, gatherPiece_compute noOut (all.resolve_right (show ¬(0x2A = 0x10) by decide))] at leaves
    exact withKey_leaves none_ memory leaves
  · have leaves := aes_runsBy.leaves h
    rw [aesPiece] at leaves
    exact withKey_leaves none_ memory leaves

/-- HASH gives the digest (13 R358). -/
theorem hash_leaves (h : MayPiece s e j d 0x18) (none_ : d.out = none) (all : d.len ≤ d.done) :
    PutsOut (.hash e j) s s e j d d.len (digest d.aux d.acc) := by
  have leaves := hash_runsBy.leaves h
  rw [hashPiece, gatherPiece_compute none_ all] at leaves
  exact putsOut_of_leaves leaves

/-- ECDSA_SIGN gives a signature with a nonce of the generator (13 R350, R358). -/
theorem ecdsaSign_leaves {key : List Byte} (h : MayPiece s e j d 0x20) (none_ : d.out = none) (all : 48 ≤ d.done) (some_ : d.key = some key)
    (pos : 0 < beNat key) (below : beNat key < p384N) :
    PutsOut (.ecdsaSign e j) s (s.random 112).2 e j d 48 (ecSign (beNat key) d.acc (s.random 112).1) := by
  have leaves := ecdsaSign_runsBy.leaves h
  have valid : ¬(beNat key = 0 ∨ p384N ≤ beNat key) := by
    rintro (zero | large)
    · exact absurd zero pos.ne'
    · exact absurd large below.not_ge
  rw [signOp, gatherPiece_compute none_ all, withKey_some some_] at leaves
  dsimp only at leaves
  rw [if_neg valid] at leaves
  exact putsOut_of_leaves leaves

/-- ECDSA_VERIFY leaves its RESULT (13 R358). -/
theorem ecdsaVerify_leaves (h : MayPiece s e j d 0x21) (none_ : d.out = none) (all : 144 ≤ d.done) {pub : List Byte} {u : State}
    (reads : s.teRead e.val d.vf d.aux 96 = (.ok pub false, u)) : SlotBecomes (.ecdsaVerify e j) s u e j
      { d with done := d.len, fin := some (0, if ecVerify pub (d.acc.take 48) (d.acc.drop 48) then 1 else 0) } := by
  have leaves := ecdsaVerify_runsBy.leaves h
  rw [verifyOp, gatherPiece_compute none_ all, onRead, reads] at leaves
  exact leaves

/-- MLKEM_KEYGEN gives the two keys (13 R358). -/
theorem mlkemKeygen_leaves (h : MayPiece s e j d 0x28) (none_ : d.out = none) :
    let k := kemKeys (kemSet d.set) ((s.random 64).1.take 32) ((s.random 64).1.drop 32)
    PutsOut (.mlkemKeygen e j) s (s.random 64).2 e j d 0 (k.1 ++ k.2) := by
  have leaves := mlkemKeygen_runsBy.leaves h
  rw [keygenOp, gatherPiece_compute none_ (Nat.zero_le _)] at leaves
  exact putsOut_of_leaves leaves

/-- MLKEM_ENCAPS gives ciphertext and shared secret (13 R358). -/
theorem mlkemEncaps_leaves (h : MayPiece s e j d 0x29) (none_ : d.out = none) (all : d.len ≤ d.done) (valid : kemKeyOk (kemSet d.set) d.acc = true) :
    PutsOut (.mlkemEncaps e j) s (s.random 32).2 e j d d.len (kemEncaps (kemSet d.set) d.acc (s.random 32).1) := by
  have leaves := mlkemEncaps_runsBy.leaves h
  rw [encapsOp, gatherPiece_compute none_ all] at leaves
  dsimp only at leaves
  rw [if_pos valid] at leaves
  exact putsOut_of_leaves leaves

/-- MLKEM_DECAPS gives the shared secret (13 R358). -/
theorem mlkemDecaps_leaves {dk : List Byte} (h : MayPiece s e j d 0x2A) (none_ : d.out = none) (all : d.len ≤ d.done) (some_ : d.key = some dk)
    (valid : kemDkOk (kemSet d.set) dk = true) : PutsOut (.mlkemDecaps e j) s s e j d d.len (kemDecaps (kemSet d.set) dk d.acc) := by
  have leaves := mlkemDecaps_runsBy.leaves h
  rw [decapsOp, gatherPiece_compute none_ all, withKey_some some_] at leaves
  dsimp only at leaves
  rw [if_pos valid] at leaves
  exact putsOut_of_leaves leaves

/-- TXF hands the frame to the switch (13 R369; 18 R493). -/
theorem txf_leaves (h : MayPiece s e j d 0x40) :
    (∀ h u, s.teRead e.val d.vf d.src d.len = (.held h, u) → exec (.txf e j) s = .next (s.holdFor h))
    ∧ (∀ k u, s.teRead e.val d.vf d.src d.len = (.err k, u) → SlotBecomes (.txf e j) s u e j { d with fin := some (k, 0) })
    ∧ ∀ x bad u, s.teRead e.val d.vf d.src d.len = (.ok x bad, u) →
        SlotBecomes (.txf e j) s (u.forward 8 (d.aux % 8) x bad) e j { d with done := d.len, fin := some (if bad then 6 else 0, 0) } := by
  have leaves := txf_runsBy.leaves h
  unfold txfOp at leaves
  refine ⟨fun k u held => ?_, fun k u err => ?_, fun x bad u ok => ?_⟩
  · rw [held] at leaves; exact leaves
  · rw [err] at leaves; exact leaves
  · rw [ok] at leaves; exact leaves

/-- RXB posts a buffer, and a frame that waits with it is delivered (13 R369). -/
theorem rxb_leaves (h : MayPiece s e j d 0x41) :
    (d.par = [] → SlotBecomes (.rxb e j) s s e j { d with posted := true })
    ∧ ∀ q r, d.par = q :: r → ∀ y z u, s.teWrite 9 d.vf d.dst (d.acc.take (min d.acc.length d.len)) = (.ok y z, u) →
        SlotBecomes (.rxb e j) s u e j
          { d with done := min d.acc.length d.len, fin := some (if d.len < d.acc.length then 0x0A else 0, BitVec.ofNat 32 (d.acc.length % 65536 + 65536 * q.toNat)) } := by
  have leaves := rxb_runsBy.leaves h
  refine ⟨fun empty => ?_, fun q r waits y z u ok => ?_⟩
  · have posts : rxbOp e.val d s = .ok { d with posted := true } s := by
      unfold rxbOp
      split
      · next waits => rw [empty] at waits; cases waits
      · rfl
    rw [posts] at leaves
    exact leaves
  · simp only [rxbOp, waits, deliverFrame, ok] at leaves
    rw [← waits] at leaves
    exact leaves

end

/-! ### AES -/

section
variable {s : State} {e : Fin 10} {j : Nat} {d : Desc} {key : List Byte}

theorem aesOut_stream {b pay : List Byte} (mode : aesMode b = 1 ∨ aesMode b = 2) : aesOut b key pay
    = if aesMode b = 1 then ctrCrypt 16 (aesKeys key) (sliceAt b 16 16) pay else gcmCrypt (aesKeys key) (sliceAt b 16 12) pay := by
  obtain h | h := mode <;> simp [aesOut, h]

theorem aesReady_stream {b : List Byte} (mode : aesMode b = 1 ∨ aesMode b = 2) (n : Nat) : aesReady b n = n :=
  if_neg (by omega)

/-- The write back of CTR and of a GCM encryption. -/
theorem aesBack_stream (mode : aesMode d.par = 1 ∨ aesMode d.par = 2) (back : aesMode d.par = 1 ∨ aesDec d.par = false) : aesBack d key
    = some (if aesMode d.par = 1 then 16 else 32,
        if aesMode d.par = 1 then ctrBlock 16 (sliceAt d.par 16 16) (((d.acc.drop (aesAad d.par)).length + 15) / 16)
        else gcmTag (aesKeys key) (sliceAt d.par 16 12) (d.acc.take (aesAad d.par)) (gcmCrypt (aesKeys key) (sliceAt d.par 16 12) (d.acc.drop (aesAad d.par)))) := by
  by_cases ctr : aesMode d.par = 1
  · simp [aesBack, ctr]
  · have gcm := mode.resolve_left ctr
    simp [aesBack, gcm, back.resolve_left ctr, aesOut_stream mode]

/-- A GCM decryption writes nothing back. -/
theorem aesBack_open (gcm : aesMode d.par = 2) (dec : aesDec d.par = true) : aesBack d key = none := by simp [aesBack, gcm, dec]

/-- A GCM decryption ends with status 0, or with AUTH where the tag differs (13 R360). -/
theorem aesEnded_open (gcm : aesMode d.par = 2) : aesEnded d key = { d with
    done := d.len,
    fin := some (if gcmTag (aesKeys key) (sliceAt d.par 16 12) (d.acc.take (aesAad d.par)) (d.acc.drop (aesAad d.par)) = sliceAt d.par 32 16 then 0 else 8, 0) } := by
  unfold aesEnded
  by_cases same : gcmTag (aesKeys key) (sliceAt d.par 16 12) (d.acc.take (aesAad d.par)) (d.acc.drop (aesAad d.par)) = sliceAt d.par 32 16
  · simp [gcm, same, Desc.ended]
  · simp [gcm, same]

/-- After its last piece, an AES operation ends. -/
theorem aesPiece_end (some_ : d.key = some key) (all : d.len ≤ d.done) : aesPiece e.val d s = aesFinish e.val d key s := by
  rw [aesPiece, withKey_some some_, ← some_]
  exact if_pos all

/-- A piece of the payload of a stream mode is read, and as much output written (13 R360, R361). -/
theorem aesPiece_payload (some_ : d.key = some key) (mode : aesMode d.par = 1 ∨ aesMode d.par = 2) (past : aesAad d.par ≤ d.done) (more : d.done < d.len)
    {n : Nat} (hn : n = min (d.len - d.done) (min (4096 - (d.src + d.done) % 4096) (4096 - (d.dst + (d.done - aesAad d.par)) % 4096)))
    {x : List Byte} {u : State} (reads : s.teRead e.val d.vf (d.src + d.done) n = (.ok x false, u)) :
    let p := d.done - aesAad d.par
    let next : Desc := { d with acc := d.acc ++ x, done := d.done + n }
    aesPiece e.val d s
      = onWrite (u.teWrite e.val d.vf (d.dst + p) (((aesOut d.par key ((d.acc ++ x).drop (aesAad d.par))).take (p + n)).drop p))
          (fun s => if next.done < d.len || (aesBack next key).isSome then .ok next s else .ok (aesEnded next key) s) := by
  intro p next
  have pos : p < p + n := by omega
  have outside : decide (d.done < aesAad d.par) = false := decide_eq_false (by omega)
  rw [aesPiece, withKey_some some_, ← some_]
  refine (if_neg (show ¬d.len ≤ d.done by omega)).trans ?_
  rw [outside]
  simp only [Bool.false_eq_true, if_false, toPage]
  rw [← hn, onRead, reads]
  simp only [Bool.false_eq_true, if_false, aesReady_stream mode]
  rw [if_neg (by omega), Nat.max_self]
  exact if_pos pos

/-- A piece of the payload: as much output is written as was read, and a GCM decryption ends with its last piece (13 R360, R361). -/
theorem aes_payload (h : MayPiece s e j d 0x10) (some_ : d.key = some key) (mode : aesMode d.par = 1 ∨ aesMode d.par = 2) (past : aesAad d.par ≤ d.done)
    (more : d.done < d.len) {n : Nat}
    (hn : n = min (d.len - d.done) (min (4096 - (d.src + d.done) % 4096) (4096 - (d.dst + (d.done - aesAad d.par)) % 4096)))
    {x y : List Byte} {z : Bool} {u w : State} (reads : s.teRead e.val d.vf (d.src + d.done) n = (.ok x false, u))
    (writes : u.teWrite e.val d.vf (d.dst + (d.done - aesAad d.par))
      (((aesOut d.par key ((d.acc ++ x).drop (aesAad d.par))).take (d.done - aesAad d.par + n)).drop (d.done - aesAad d.par)) = (.ok y z, w)) :
    let next : Desc := { d with acc := d.acc ++ x, done := d.done + n }
    (next.done < d.len ∨ aesMode d.par = 1 ∨ aesDec d.par = false → SlotBecomes (.aes e j) s w e j next)
      ∧ (d.len ≤ next.done → aesMode d.par = 2 → aesDec d.par = true → SlotBecomes (.aes e j) s w e j (aesEnded next key)) := by
  intro next
  have leaves := aes_runsBy.leaves h
  rw [aesPiece_payload some_ mode past more hn reads, onWrite, writes] at leaves
  dsimp only at leaves
  refine ⟨fun goesOn => ?_, fun all gcm dec => ?_⟩
  · have on : (decide (d.done + n < d.len) || (aesBack next key).isSome) = true := by
      obtain before | back := goesOn
      · rw [decide_eq_true before, Bool.true_or]
      · rw [aesBack_stream (d := next) mode back, Option.isSome_some, Bool.or_true]
    rw [if_pos on] at leaves
    exact leaves
  · have off : ¬(decide (d.done + n < d.len) || (aesBack next key).isSome) = true := by
      rw [aesBack_open (d := next) gcm dec, decide_eq_false (Nat.not_lt.mpr all)]
      decide
    rw [if_neg off] at leaves
    exact leaves

/-- The write back that ends a stream mode (13 R360). -/
theorem aes_writeBack (h : MayPiece s e j d 0x10) (some_ : d.key = some key) (all : d.len ≤ d.done) {o : Nat} {l y : List Byte} {z : Bool} {w : State} (is : aesBack d key = some (o, l))
    (writes : s.teWrite e.val d.vf (d.aux + o) l = (.ok y z, w)) : SlotBecomes (.aes e j) s w e j { d with done := d.len, fin := some (0, 0) } := by
  have leaves := aes_runsBy.leaves h
  simp only [aesPiece_end some_ all, aesFinish, is, onWrite, writes] at leaves
  exact leaves

/-- AES in its stream modes, counter mode and GCM (13 R360, R361). -/
theorem aes_leaves (h : MayPiece s e j d 0x10) (some_ : d.key = some key) (mode : aesMode d.par = 1 ∨ aesMode d.par = 2) :
    let aad := aesAad d.par
    let a := d.src + d.done
    let p := d.done - aad
    let n := min (d.len - d.done) (min (4096 - a % 4096) (4096 - (d.dst + p) % 4096))
    let ks := aesKeys key
    let tag := gcmTag ks (sliceAt d.par 16 12) (d.acc.take aad)
    (aad ≤ d.done → d.done < d.len → ∀ x u, s.teRead e.val d.vf a n = (.ok x false, u) →
      let pay := (d.acc ++ x).drop aad
      let out := if aesMode d.par = 1 then ctrCrypt 16 ks (sliceAt d.par 16 16) pay else gcmCrypt ks (sliceAt d.par 16 12) pay
      ∀ y z w, u.teWrite e.val d.vf (d.dst + p) ((out.take (p + n)).drop p) = (.ok y z, w) →
        let next : Desc := { d with acc := d.acc ++ x, done := d.done + n }
        (next.done < d.len ∨ aesMode d.par = 1 ∨ aesDec d.par = false → SlotBecomes (.aes e j) s w e j next)
        ∧ (d.len ≤ next.done → aesMode d.par = 2 → aesDec d.par = true → SlotBecomes (.aes e j) s w e j
            { next with done := d.len, fin := some (if gcmTag ks (sliceAt d.par 16 12) ((d.acc ++ x).take aad) pay = sliceAt d.par 32 16 then 0 else 8, 0) }))
    ∧ (d.len ≤ d.done → aesMode d.par = 1 ∨ aesDec d.par = false →
        ∀ y z w, s.teWrite e.val d.vf (d.aux + (if aesMode d.par = 1 then 16 else 32))
            (if aesMode d.par = 1 then ctrBlock 16 (sliceAt d.par 16 16) (((d.acc.drop aad).length + 15) / 16)
              else tag (gcmCrypt ks (sliceAt d.par 16 12) (d.acc.drop aad))) = (.ok y z, w) →
          SlotBecomes (.aes e j) s w e j { d with done := d.len, fin := some (0, 0) }) := by
  intro aad a p n ks tag
  refine ⟨fun past more x u reads => ?_, fun all back y z w writes => aes_writeBack h some_ all (aesBack_stream mode back) writes⟩
  intro pay out y z w writes next
  have stream : aesOut d.par key pay = out := aesOut_stream mode
  rw [← stream] at writes
  obtain ⟨goesOn, ends⟩ := aes_payload h some_ mode past more rfl reads writes
  refine ⟨goesOn, fun all gcm dec => ?_⟩
  have ended := ends all gcm dec
  rw [aesEnded_open (d := next) gcm] at ended
  exact ended

end

/-- Settles O53: by the outcome of each operation's next piece, which the slot takes over. -/
theorem engineOperations : Obligations.EngineOperations := by
  refine ⟨fun x is s e j runs => ?_, fun s e j d => copy_leaves, fun s e j d => fill_leaves, fun s e j d x => gathering_leaves,
    fun s e j d x => keyed_leaves, fun s e j d => hash_leaves, fun s e j d key => aes_leaves, fun s e j d key => ecdsaSign_leaves,
    fun s e j d h none_ all pub u => ecdsaVerify_leaves h none_ all, fun s e j d => mlkemKeygen_leaves, fun s e j d => mlkemEncaps_leaves,
    fun s e j d dk => mlkemDecaps_leaves, fun s e j d => txf_leaves, fun s e j d => rxb_leaves⟩
  obtain ⟨run, by_⟩ := IsOperation.runsBy is
  exact ⟨by_.empty runs, fun d slot => ⟨by_.skips runs slot, by_.parks runs slot⟩⟩

end Sys2Proof.Machine
end

section
/-! ## Regulators decide on packets (03 R57-R60), and a router's drain ends (10 R279) -/

namespace Sys2Proof.Machine

/-! ### What a report and an exhaustion leave alone -/

theorem Page.base_le {a : Nat} {p : Page} (there : pageOf a = some p) : p.base ≤ a := by
  rw [pageOf_base there]; omega

/-- A report changes no register above those of its page's errors. -/
theorem State.reg_raise_above (s : State) {rg a : Nat} (bit : Nat) (part : Option PartId) (above : rg + 0x20 < a) :
    (s.raise rg bit part).reg a = s.reg a := by
  unfold State.raise
  split
  · rfl
  · next p there =>
      have low := Page.base_le there
      exact (OnlyRegsErr.detect s p _ _ _ _).others a (by simp only [List.mem_cons, List.not_mem_nil, or_false, not_or]; omega)

theorem State.reg_force_above (s : State) {rg a : Nat} (bit : Nat) (above : rg + 0x20 < a) : (s.force rg bit).reg a = s.reg a := by
  unfold State.force
  split
  · rfl
  · next p there =>
      have low := Page.base_le there
      split
      · rw [State.reg_setBit, if_neg (by omega)]
        exact (OnlyRegsErr.detect s p _ _ _ _).others a (by simp only [List.mem_cons, List.not_mem_nil, or_false, not_or]; omega)
      · rfl

@[simp] theorem State.force_mem (s : State) (b k : Nat) : (s.force b k).mem = s.mem := by rw [State.force_rest]

section
variable {s : State} {rg p : Nat} {m : Meter}

/-- An exhaustion leaves packets, memory and cores alone. -/
theorem State.exhaust_apart : (s.exhaust rg m p).net = s.net ∧ (s.exhaust rg m p).mem = s.mem ∧ (s.exhaust rg m p).cores = s.cores := by
  unfold State.exhaust
  extract_lets e x s1 s2 s3
  have first : s1.net = s.net ∧ s1.mem = s.mem ∧ s1.cores = s.cores := by unfold s1; split <;> exact ⟨rfl, rfl, rfl⟩
  have third : s3.net = s1.net ∧ s3.mem = s1.mem ∧ s3.cores = s1.cores := ⟨rfl, rfl, rfl⟩
  obtain ⟨net, mem, cores⟩ := first
  obtain ⟨net', mem', cores'⟩ := third
  clear_value s3
  simp only [State.fire_net, State.fire_mem, State.fire_cores, State.raise_net, State.raise_mem, State.raise_cores, net, mem, cores, net', mem', cores',
    and_self]

/-- An exhaustion leaves the used counts alone. -/
theorem State.exhaust_used (n : Meter) (hp : p < 64) : (s.exhaust rg m p).reg (rg + n.usedOff + 4 * p) = s.reg (rg + n.usedOff + 4 * p) := by
  have off : 0x700 ≤ n.usedOff ∧ n.usedOff ≤ 0x900 := by cases n <;> decide
  unfold State.exhaust
  extract_lets e x s1 s2 s3
  have apart : rg + n.usedOff + 4 * p ≠ x := by unfold x; omega
  have apart' : rg + n.usedOff + 4 * p ≠ e := by unfold e; omega
  refine (State.reg_raise_above s3 0 none (by omega)).trans ?_
  unfold s3 s2
  rw [State.reg_setBit, if_neg apart, State.reg_setBit, if_neg apart']
  unfold s1
  split
  · rfl
  · exact (State.reg_setFld _ _ _ _ _ _).trans (if_neg apart)

/-- A charge adds to the used count, and leaves packets, memory and cores alone (03 R57). -/
theorem State.charge_spec (s : State) (rg : Nat) (m : Meter) (n : Nat) (hp : p < 64) :
    ((s.charge rg m p n).reg (rg + m.usedOff + 4 * p)).toNat = min 0xFFFFFFFF ((s.reg (rg + m.usedOff + 4 * p)).toNat + n)
      ∧ (s.charge rg m p n).net = s.net ∧ (s.charge rg m p n).mem = s.mem ∧ (s.charge rg m p n).cores = s.cores := by
  unfold State.charge
  extract_lets was a t
  have used : (t.reg a).toNat = min 0xFFFFFFFF ((s.reg a).toNat + n) := by
    unfold t
    rw [State.reg_setNat, if_pos rfl, BitVec.toNat_ofNat, Nat.mod_eq_of_lt (by omega)]
  have apart : t.net = s.net ∧ t.mem = s.mem ∧ t.cores = s.cores := ⟨rfl, rfl, rfl⟩
  clear_value t
  split
  · obtain ⟨net, mem, cores⟩ := t.exhaust_apart (rg := rg) (m := m) (p := p)
    exact ⟨by rw [State.exhaust_used m hp]; exact used, by rw [net, apart.1], by rw [mem, apart.2.1], by rw [cores, apart.2.2]⟩
  · exact ⟨used, apart⟩

/-- What a regulator does of a request that it holds leaves packets and the used counts alone (03 R59). -/
theorem State.holdAt_spec (s : State) (rg : Nat) (m : Meter) (hp : p < 64) :
    (s.holdAt rg m p).net = s.net ∧ (s.holdAt rg m p).reg (rg + m.usedOff + 4 * p) = s.reg (rg + m.usedOff + 4 * p) := by
  unfold State.holdAt
  dsimp only
  split
  · refine ⟨State.exhaust_apart.1, ?_⟩
    rw [State.exhaust_used m hp]
    rfl
  · exact ⟨rfl, rfl⟩

end

/-! ### REGULATOR_GRANT (03 R57-R59) -/

section
variable {s : State} {j : Nat} {f : Flight} {rg : Nat} (there : s.net.flights[j]? = some f) (waits : f.wait = some rg)
include there waits

/-- A regulator's decision on the packet of a flight that waits there. -/
theorem State.grant_eq (off : routerKind f.rtr ≠ .bench) : s.grant j =
    if s.overtakes j f then s
    else if s.exhausted rg (if isByteRg rg then .bytes else pktMeter f.pkt) f.pkt.part.toNat && holdable (if isByteRg rg then .bytes else pktMeter f.pkt) f.pkt then
      (s.setFlight j { f with held := true }).holdAt rg (if isByteRg rg then .bytes else pktMeter f.pkt) f.pkt.part.toNat
    else ((s.force rg 0).setFlight j { f with wait := none, held := false }).charge rg (if isByteRg rg then .bytes else pktMeter f.pkt) f.pkt.part.toNat
      (if isByteRg rg then 64 else pktFlits f.pkt) := by
  simp only [State.grant, there, waits, if_neg off]

/-- A packet that passes is charged and goes on (03 R57). -/
theorem State.grant_passes (off : routerKind f.rtr ≠ .bench) (first : s.overtakes j f = false) {m : Meter} {n : Nat}
    (meter : (if isByteRg rg then Meter.bytes else pktMeter f.pkt) = m) (flits : (if isByteRg rg then 64 else pktFlits f.pkt) = n)
    (passes : s.exhausted rg m f.pkt.part.toNat = false ∨ holdable m f.pkt = false) :
    (s.grant j).net.flights = listSet s.net.flights j { f with wait := none, held := false }
      ∧ ((s.grant j).reg (rg + m.usedOff + 4 * f.pkt.part.toNat)).toNat = min 0xFFFFFFFF ((s.reg (rg + m.usedOff + 4 * f.pkt.part.toNat)).toNat + n)
      ∧ (s.grant j).mem = s.mem ∧ (s.grant j).cores = s.cores := by
  have off' : 0x400 ≤ m.usedOff := by cases m <;> decide
  have go : (s.exhausted rg m f.pkt.part.toNat && holdable m f.pkt) = false := by
    obtain h | h := passes <;> simp [h]
  have decided := State.grant_eq there waits off
  rw [meter, flits, first, go] at decided
  simp only [Bool.false_eq_true, if_false] at decided
  obtain ⟨used, net, mem, cores⟩ := ((s.force rg 0).setFlight j { f with wait := none, held := false }).charge_spec rg m n f.pkt.part.isLt
  rw [decided]
  refine ⟨?_, ?_, ?_, ?_⟩
  · rw [net]
    show listSet (s.force rg 0).net.flights j _ = _
    rw [State.force_net]
  · rw [used]
    show min _ (((s.force rg 0).reg _).toNat + n) = _
    rw [State.reg_force_above s 0 (by omega)]
  · rw [mem]
    exact State.force_mem s rg 0
  · rw [cores]
    exact State.force_cores s rg 0

/-- An exhausted meter holds the packet (03 R59). -/
theorem State.grant_holds (off : routerKind f.rtr ≠ .bench) (first : s.overtakes j f = false) {m : Meter}
    (meter : (if isByteRg rg then Meter.bytes else pktMeter f.pkt) = m) (spent : s.exhausted rg m f.pkt.part.toNat = true) (holds : holdable m f.pkt = true) :
    (s.grant j).net.flights = listSet s.net.flights j { f with held := true }
      ∧ (s.grant j).reg (rg + m.usedOff + 4 * f.pkt.part.toNat) = s.reg (rg + m.usedOff + 4 * f.pkt.part.toNat) := by
  have decided := State.grant_eq there waits off
  rw [meter, first, spent, holds] at decided
  obtain ⟨net, used⟩ := (s.setFlight j { f with held := true }).holdAt_spec rg m f.pkt.part.isLt
  rw [decided]
  exact ⟨congrArg NetSt.flights net, used⟩

end

theorem exec_regulatorGrant {s : State} (runs : s.stalled = false) (j : Nat) : exec (.regulatorGrant j) s = .next (s.grant j) :=
  act_runs s (fun s => s.grant j) runs

theorem pktFlits_eq (k : Packet) : pktFlits k = if k.op ∈ [(0x08 : BitVec 8), 0x09, 0x18, 0x1A, 0x20, 0x24] then 2 else 1 := by
  unfold pktFlits
  simp only [List.contains_iff_mem]
  rfl

/-! ### DRAIN_CLEAR (10 R279) -/

/-- A packet of the old epoch that stands at router `r`, granted by its bench's regulator. -/
def State.oldFlight (s : State) (r : Nat) (f : Flight) : Prop :=
  f.rtr = r ∧ f.out = false ∧ f.pkt.epoch ≠ s.epoch r ∧ ¬(f.wait.isSome = true ∧ routerKind r = .bench)

/-- No flit of the old epoch is at a router when no packet of it stands there. -/
theorem State.oldFlits_eq_zero (s : State) (r : Nat) : s.oldFlits r = 0 ↔ ∀ f ∈ s.net.flights, ¬s.oldFlight r f := by
  have flits : ∀ k : Packet, 0 < pktFlits k := fun k => by rw [pktFlits_eq]; split <;> decide
  have sum : ∀ (l : List Flight) (n : Nat), l.foldl (fun n f =>
      if f.rtr = r && !f.out && f.pkt.epoch != s.epoch r && !(f.wait.isSome && routerKind r = .bench) then n + pktFlits f.pkt else n) n = 0
        ↔ n = 0 ∧ ∀ f ∈ l, ¬s.oldFlight r f := by
    intro l
    induction l with
    | nil => simp
    | cons f l ih =>
      intro n
      have old : (f.rtr = r && !f.out && f.pkt.epoch != s.epoch r && !(f.wait.isSome && routerKind r = .bench)) = true ↔ s.oldFlight r f := by
        simp only [State.oldFlight, Bool.and_eq_true, decide_eq_true_eq, Bool.not_eq_true', Bool.and_eq_false_iff, bne_iff_ne, decide_eq_false_iff_not,
          Bool.not_eq_true, not_and_or, and_assoc]
      have some_ := flits f.pkt
      rw [List.foldl_cons, ih, List.forall_mem_cons]
      by_cases h : s.oldFlight r f
      · rw [if_pos (old.mpr h)]
        exact ⟨fun ⟨zero, _⟩ => by omega, fun ⟨_, none_, _⟩ => absurd h none_⟩
      · rw [if_neg (fun c => h (old.mp c))]
        simp [h]
  exact (sum s.net.flights 0).trans (by simp)

theorem exec_drainClear {s : State} (runs : s.stalled = false) (r : Fin 82) :
    exec (.drainClear r) s = .next (if s.oldFlits r.val = 0 then s.setBit (routerPage r.val 0x44) 1 false else s) :=
  act_runs s (fun s => if s.oldFlits r.val = 0 then s.setBit (routerPage r.val 0x44) 1 false else s) runs

end Sys2Proof.Machine
end

section
/-! ## A router switches packets (10 R272-R277), and O39 -/

namespace Sys2Proof.Machine

/-! ### Which packet is meant -/

section
variable {s : State} {r : Nat} {k : Packet} {e : FlitError}

/-- No packet of the model is meant: nothing happens. -/
theorem packetSwitch_absent (absent : ∀ f ∈ s.net.flights, f.pkt ≠ k) : packetSwitch r k e s = s := by
  have none_ : s.net.flights.findIdx? (fun f => f.pkt = k && f.rtr = r && f.wait.isNone && !f.out) = none :=
    List.findIdx?_eq_none_iff.mpr fun f hf => by simp [absent f hf]
  unfold packetSwitch
  rw [none_]
  exact ite_self _

/-- The packet that is meant, the first in flight that stands at the router. -/
theorem packetSwitch_found (on : s.enabled (routerPage r 0) = true) {j : Nat} {f : Flight}
    (found : s.net.flights.findIdx? (fun f => f.pkt = k && f.rtr = r && f.wait.isNone && !f.out) = some j) (there : s.net.flights[j]? = some f) :
    packetSwitch r k e s = if s.firstOf j f then s.switch r j f e else s := by
  unfold packetSwitch
  rw [on, found]
  simp only [there, Bool.not_true, Bool.false_eq_true, if_false]

/-- A packet behind an earlier one of its buffer stays (10 R276). -/
theorem packetSwitch_behind {pre post : List Flight} {f : Flight} (flights : s.net.flights = pre ++ f :: post) (rtr : f.rtr = r) (wait : f.wait = none)
    (out : f.out = false) (first : ∀ g ∈ pre, g.pkt ≠ f.pkt)
    (behind : ∃ g ∈ pre, g.wait = none ∧ g.rtr = f.rtr ∧ g.port = f.port ∧ g.out = false ∧ bufferOf g.pkt = bufferOf f.pkt) :
    packetSwitch r f.pkt e s = s := by
  by_cases on : s.enabled (routerPage r 0) = true
  · have none_ : pre.findIdx? (fun g => g.pkt = f.pkt && g.rtr = r && g.wait.isNone && !g.out) = none :=
      List.findIdx?_eq_none_iff.mpr fun g hg => by simp [first g hg]
    have found : s.net.flights.findIdx? (fun g => g.pkt = f.pkt && g.rtr = r && g.wait.isNone && !g.out) = some pre.length := by
      rw [flights, List.findIdx?_append, none_]
      simp [rtr, wait, out, List.findIdx?_cons]
    have there : s.net.flights[pre.length]? = some f := by rw [flights]; simp
    obtain ⟨g, hg, gwait, grtr, gport, gout, gbuf⟩ := behind
    have second : s.firstOf pre.length f = false := by
      rw [State.firstOf, flights, List.take_left, Bool.not_eq_false', List.any_eq_true]
      exact ⟨g, hg, by simp [gwait, sameBuffer, grtr, gport, gout, gbuf, out]⟩
    rw [packetSwitch_found on found there, second]
    rfl
  · unfold packetSwitch
    exact if_pos (by simpa using on)

end

/-! ### The arbiter's choice (10 R274) -/

theorem roundRobin_mem {last : Nat} {l : List (Nat × Flight)} {x : Nat × Flight} (chosen : roundRobin last l = some x) : x ∈ l := by
  have general : ∀ (l : List (Nat × Flight)) (b : Option (Nat × Flight)), l.foldl
      (fun (b : Option (Nat × Flight)) x => match b with
        | none => some x
        | some y => if (x.2.port + 7 - last) % 8 < (y.2.port + 7 - last) % 8 then some x else some y) b = some x → x ∈ l ∨ b = some x := by
    intro l
    induction l with
    | nil => exact fun b h => .inr h
    | cons y l ih =>
      intro b h
      obtain mem | same := ih _ h
      · exact .inl (List.mem_cons_of_mem y mem)
      · cases b with
        | none => exact .inl (Option.some.inj same ▸ List.mem_cons_self)
        | some z =>
          dsimp only at same
          split at same
          · exact .inl (Option.some.inj same ▸ List.mem_cons_self)
          · exact .inr same
  exact (general l none chosen).resolve_right (by simp)

theorem State.mem_rivals {s : State} {r o i : Nat} {g : Flight} (h : (i, g) ∈ s.rivals r o) : s.net.flights[i]? = some g := by
  obtain ⟨mem, -⟩ := List.mem_filter.mp h
  obtain ⟨⟨g', i'⟩, at_, same⟩ := List.mem_map.mp mem
  obtain ⟨rfl, rfl⟩ := Prod.mk.inj same
  exact List.mk_mem_zipIdx_iff_getElem?.mp at_

/-- While an urgent packet is ready for the port, an urgent one is chosen. -/
theorem State.chosen_urgent {s : State} {r o : Nat} (urgent : ∃ x ∈ s.rivals r o, x.2.pkt.vc = 3) {i : Nat} {a : Arbiter}
    (chosen : s.chosen r o = some (i, a)) : ∃ g, s.net.flights[i]? = some g ∧ g.pkt.vc = 3 := by
  obtain ⟨x, hx, vc⟩ := urgent
  have want : (!((s.rivals r o).filter (fun x => x.2.pkt.vc.val = 3)).isEmpty) = true := by
    rw [Bool.not_eq_true', List.isEmpty_eq_false_iff_exists_mem]
    exact ⟨x, List.mem_filter.mpr ⟨hx, by simp [vc]⟩⟩
  simp only [State.chosen, arbitrate, want, if_true] at chosen
  split at chosen
  · exact absurd chosen (by simp)
  · next j g robin =>
      obtain ⟨rfl, -⟩ := Prod.mk.inj (Option.some.inj chosen)
      obtain ⟨rival, three⟩ := List.mem_filter.mp (roundRobin_mem robin)
      exact ⟨g, State.mem_rivals rival, Fin.ext (by simpa using three)⟩

/-- A packet of another channel stays while an urgent one is ready for its port (10 R274). -/
theorem packetSwitch_urgent {s : State} {r : Nat} {k : Packet} {e : FlitError} (other : k.vc ≠ 3) (goes : s.strayed r k = false)
    (lets : s.fenced (s.intoDomains r k) = false) (urgent : ∃ x ∈ s.rivals r (s.outPort r k), x.2.pkt.vc = 3) : packetSwitch r k e s = s := by
  unfold packetSwitch
  split
  · rfl
  split
  · next j found =>
      split
      · next f there =>
          have meant : f.pkt = k := by
            obtain ⟨hj, is, -⟩ := List.findIdx?_eq_some_iff_getElem.mp found
            rw [List.getElem?_eq_getElem hj] at there
            obtain rfl := Option.some.inj there
            simp only [Bool.and_eq_true, decide_eq_true_eq] at is
            exact is.1.1.1
          subst meant
          split
          · unfold State.switch
            simp only [goes, lets, Bool.or_false, Bool.false_eq_true, if_false]
            split
            · rfl
            · next i a chosen =>
                obtain ⟨g, at_, three⟩ := State.chosen_urgent urgent chosen
                exact if_pos fun same => other (by rw [same, there] at at_; rw [Option.some.inj at_]; exact three)
          · rfl
      · rfl
  · rfl

/-- The rotation gives every channel but the urgent one a slot, from wherever it goes on. -/
theorem rotation_complete (slot : Nat) {c : Nat} (hc : c < 3) : ∃ n < 8, rotation.getD ((slot + n) % 8) 0 = c := by
  have table : ∀ m : Fin 8, ∀ c : Fin 3, ∃ n < 8, rotation.getD ((m.val + n) % 8) 0 = c.val := by decide
  obtain ⟨n, hn, at_⟩ := table ⟨slot % 8, Nat.mod_lt _ (by decide)⟩ ⟨c, hc⟩
  exact ⟨n, hn, by rwa [Nat.mod_add_mod] at at_⟩

/-- With one channel that has a header ready, the arbiter comes to it, after the second flits that are under way. -/
theorem arbitrate_one {want : Nat → Bool} {c : Nat} (one : ∀ x, want x = true ↔ x = c) (hc : c < 4) {fuel : Nat} :
    ∀ {slot : Nat} {bodies : List Nat}, bodies.length < fuel → ∃ y, arbitrate want fuel slot bodies = some (c, y) := by
  induction fuel with
  | zero => intro slot bodies h; omega
  | succ fuel ih =>
    intro slot bodies few
    unfold arbitrate
    by_cases urgent : want 3 = true
    · rw [if_pos urgent]
      exact ⟨_, by rw [(one 3).mp urgent]⟩
    · rw [if_neg urgent]
      have below : c < 3 := by
        have : c ≠ 3 := fun h => urgent ((one 3).mpr h.symm)
        omega
      split
      · next none_ =>
          obtain ⟨n, hn, at_⟩ := rotation_complete slot below
          have mem : c ∈ (List.range 8).map (fun k => rotation.getD ((slot + k) % 8) 0) := List.mem_map.mpr ⟨n, List.mem_range.mpr hn, at_⟩
          exact absurd (Bool.or_eq_true_iff.mpr (.inr ((one c).mpr rfl))) (List.find?_eq_none.mp none_ c mem)
      · next x found =>
          by_cases under : bodies.contains x = true
          · rw [if_pos under]
            refine ih ?_
            have := List.length_erase_of_mem (List.contains_iff_mem.mp under)
            have := List.length_pos_of_mem (List.contains_iff_mem.mp under)
            omega
          · have is := List.find?_some found
            rw [if_neg under]
            rw [Bool.or_eq_true] at is
            exact ⟨_, by rw [(one x).mp (is.resolve_left under)]⟩

/-! ### What a router finds in the flits (10 R272) -/

section
variable {s : State} {r : Fin 82} {k : Packet} (calm : s.reg (routerPage r.val 0x1C) = 0)
include calm

theorem State.force_router_calm (bit : Nat) : s.force (routerPage r.val 0) bit = s := by
  obtain ⟨p, there, -, -, base⟩ := pageOf_routerPage r.isLt (o := 0) (by decide)
  refine State.force_of_unarmed there base s ?_
  rw [routerPage_add, State.bit, calm]
  exact bitOf_zero (n := 32) bit

theorem State.linkCheck_none : s.linkCheck r.val k .none = (some k, s) := by
  simp [State.linkCheck, State.force_router_calm calm, routerPage_add, State.bit, calm, bitOf_zero]

theorem State.linkCheck_header : s.linkCheck r.val k .header = (none, s) := by
  simp [State.linkCheck, State.force_router_calm calm]

theorem State.linkCheck_second (two : pktFlits k = 2) : s.linkCheck r.val k .second = (some { k with poison := true }, s.raise (routerPage r.val 0) 4) := by
  simp [State.linkCheck, State.force_router_calm calm, two]

theorem State.linkCheck_corrected : s.linkCheck r.val k .corrected = (some k, s.raise (routerPage r.val 0) 3) := by
  have kept : (s.raise (routerPage r.val 0) 3).reg (routerPage r.val 0x1C) = s.reg (routerPage r.val 0x1C) :=
    State.reg_raise s _ _ _ none (by rw [routerPage_mod]; decide) (by rw [routerPage_mod]; decide)
  simp [State.linkCheck, routerPage_add, State.bit, kept, calm, bitOf_zero]

end

/-- A probe without a filter sees no packet (10 R291). -/
theorem State.probe_off {s : State} {r : Nat} (off : ∀ j, j < 4 → s.bit (probePage r (0x60 + 0x20 * j)) 0 = false) (k : Packet) : s.probe r k = s := by
  have none_ : (List.range 4).filter (fun j => s.filterHit r j k) = [] :=
    List.filter_eq_nil_iff.mpr fun j hj => by
      rw [State.filterHit, off j (List.mem_range.mp hj)]
      simp
  unfold State.probe
  rw [none_]
  rfl

/-! ### One packet in flight -/

/-- `f` is the only packet in flight, at router `r`, where nothing stands in the way of `k`, its packet. -/
structure LoneFlight (s : State) (r : Fin 82) (k : Packet) (f : Flight) : Prop where
  flights : s.net.flights = [f]
  pkt : f.pkt = k
  rtr : f.rtr = r.val
  wait : f.wait = none
  out : f.out = false
  on : s.enabled (routerPage r.val 0) = true
  calm : s.reg (routerPage r.val 0x1C) = 0
  listed : opListed k.op = true
  blind : ∀ j, j < 4 → s.bit (probePage r.val (0x60 + 0x20 * j)) 0 = false
  bodies : (s.arbiter r.val (s.outPort r.val k)).bodies.length < 4
  lets : isResponse k = true ∨ s.closing (s.intoDomains r.val k) = false
  free : ∀ q, s.crossingHeld r.val q = false ∧ s.crossingHeld q r.val = false
  unfenced : s.fenced (s.intoDomains r.val k) = false

theorem State.flights_moveFlight_lone {s : State} {f g : Flight} (one : s.net.flights = [f]) : (s.moveFlight 0 g).net.flights = [g] := by
  simp only [State.moveFlight, one]
  rfl

theorem State.firstOf_zero (s : State) (f : Flight) : s.firstOf 0 f = true := by simp [State.firstOf]

namespace LoneFlight

variable {s : State} {r : Fin 82} {k : Packet} {f : Flight} (h : LoneFlight s r k f)
include h

theorem switches (e : FlitError) : packetSwitch r.val k e s = s.switch r.val 0 f e := by
  have found : s.net.flights.findIdx? (fun f => f.pkt = k && f.rtr = r.val && f.wait.isNone && !f.out) = some 0 := by
    rw [h.flights]
    simp [List.findIdx?_cons, h.pkt, h.rtr, h.wait, h.out]
  rw [packetSwitch_found h.on found (by rw [h.flights]; rfl), State.firstOf_zero]
  rfl

/-- The packet finds room where it goes. -/
theorem ready : s.ready r.val f = true := by
  have lets : (isResponse k || !s.closing (s.intoDomains r.val k)) = true := by
    obtain l | l := h.lets <;> simp [l]
  unfold State.ready
  rw [h.pkt]
  refine Bool.and_eq_true_iff.mpr ⟨Bool.and_eq_true_iff.mpr ⟨?_, lets⟩, ?_⟩
  · rw [Bool.not_eq_true']
    split
    · exact (h.free _).2
    · rfl
  · split
    · next q next =>
        have flits : pktFlits k ≤ 2 := by rw [pktFlits_eq]; split <;> decide
        have stands : s.inBuffer q (entryPort r.val q) (bufferOf k) ≤ pktFlits k := by
          rw [State.inBuffer, h.flights, List.foldl_cons, List.foldl_nil, h.pkt]
          split <;> omega
        have size : 4 ≤ bufferSize r.val q := by unfold bufferSize; split <;> omega
        rw [(h.free q).1, Bool.not_false, Bool.true_and]
        exact decide_eq_true (by omega)
    · rw [h.flights]
      simp [h.out]

/-- The packet is the one that its port takes. -/
theorem chosen : ∃ a, s.chosen r.val (s.outPort r.val k) = some (0, a) := by
  have rivals : s.rivals r.val (s.outPort r.val k) = [(0, f)] := by
    simp [State.rivals, h.flights, h.rtr, h.out, h.wait, h.pkt, State.firstOf_zero, h.ready]
  have one : ∀ x, (!((s.rivals r.val (s.outPort r.val k)).filter (fun y => y.2.pkt.vc.val = x)).isEmpty) = true ↔ x = k.vc.val := by
    intro x
    rw [rivals]
    by_cases same : k.vc.val = x
    · simp [h.pkt, same]
    · simp [h.pkt, same, Ne.symm same]
  obtain ⟨⟨slot, rest⟩, takes⟩ := arbitrate_one one k.vc.isLt (slot := (s.arbiter r.val (s.outPort r.val k)).slot) h.bodies
  unfold State.chosen
  dsimp only
  rw [takes]
  simp only [rivals, List.filter_cons, h.pkt, decide_true, if_true, List.filter_nil, roundRobin, List.foldl_cons, List.foldl_nil]
  exact ⟨_, rfl⟩

/-- The flight is taken by its port, or as one that the router discards. -/
theorem taken : ∃ a, (if s.strayed r.val k || s.fenced (s.intoDomains r.val k) then some (0, s.arbiter r.val (s.outPort r.val k))
    else s.chosen r.val (s.outPort r.val k)) = some (0, a) := by
  obtain ⟨a, takes⟩ := h.chosen
  rw [h.unfenced, Bool.or_false, takes]
  split
  · exact ⟨_, rfl⟩
  · exact ⟨a, rfl⟩

/-- A packet whose header is lost is discarded (10 R272). -/
theorem discards_header : packetSwitch r.val k .header s = (s.dropFlight 0).hopDrop r.val := by
  obtain ⟨a, takes⟩ := h.taken
  rw [h.switches]
  unfold State.switch
  rw [h.pkt]
  dsimp only
  rw [takes]
  simp only [ne_eq, not_true, if_false, State.force_router_calm h.calm, State.linkCheck_header h.calm]

/-- A packet that strays is discarded (10 R276). -/
theorem discards_strayed (strays : s.strayed r.val k = true) : packetSwitch r.val k .none s = (s.dropFlight 0).hopDrop r.val := by
  obtain ⟨a, takes⟩ := h.taken
  rw [h.switches]
  unfold State.switch
  rw [h.pkt]
  dsimp only
  rw [takes]
  simp only [ne_eq, not_true, if_false, State.force_router_calm h.calm, State.linkCheck_none h.calm, h.listed, Bool.not_true,
    Bool.false_eq_true, State.probe_off h.blind, strays, if_true]

/-- A packet in whose flits the router finds nothing that stops it goes on, as it is found. -/
theorem passes {e : FlitError} {p : Packet} {t : State} (found : s.linkCheck r.val k e = (some p, t)) (listed : opListed p.op = true)
    (blind : ∀ j, j < 4 → t.bit (probePage r.val (0x60 + 0x20 * j)) 0 = false) (goes : t.strayed r.val p = false)
    (unfenced : t.fenced (t.intoDomains r.val p) = false) :
    ∃ arb, packetSwitch r.val k e s = State.passOn { t with net := { t.net with arb := arb } } r.val 0 { f with pkt := p } := by
  obtain ⟨a, takes⟩ := h.taken
  rw [h.switches]
  unfold State.switch
  rw [h.pkt]
  dsimp only
  rw [takes]
  simp only [ne_eq, not_true, if_false, State.force_router_calm h.calm, found, listed, Bool.not_true, Bool.false_eq_true,
    State.probe_off blind, goes, unfenced]
  exact ⟨_, rfl⟩

end LoneFlight

/-! ### At its destination (10 R277) -/

theorem State.strayed_here {s : State} {r : Nat} {k : Packet} (here : k.dst.toNat = r) (listed : opListed k.op = true) : s.strayed r k = false := by
  simp [State.strayed, here, listed]

/-- After 15 hops a packet that is not at its destination strays. -/
theorem State.strayed_worn {s : State} {r : Nat} {k : Packet} (away : k.dst.toNat ≠ r) (worn : k.hops = 15) : s.strayed r k = true := by
  simp [State.strayed, away, worn]

theorem State.passOn_here {s : State} {r j : Nat} {f : Flight} (here : f.pkt.dst.toNat = r) : s.passOn r j f
    = s.moveFlight j { f with rtr := r, port := f.pkt.dstp.val, out := true, wait := portRg r f.pkt.dstp.val } := by
  simp only [State.passOn, State.nextRouter, here, if_true]

theorem State.intoDomains_here {s : State} {r : Nat} {k : Packet} (here : k.dst.toNat = r) : s.intoDomains r k = endpointDomains r k.dstp.val :=
  if_pos here

theorem endpointDomains_lt {r port d : Nat} (h : d ∈ endpointDomains r port) : d < 296 := by
  unfold endpointDomains at h
  split_ifs at h <;> simp at h <;> omega

/-- A report opens and closes no fence. -/
theorem State.fenced_raise (s : State) (b k r port : Nat) : (s.raise b k).fenced (endpointDomains r port) = s.fenced (endpointDomains r port) := by
  have same : ∀ d ∈ endpointDomains r port, (s.raise b k).domUp d = s.domUp d := fun d hd => by
    have small := endpointDomains_lt hd
    have kept : (s.raise b k).reg (dstat d) = s.reg (dstat d) := State.reg_raise s b k _ none (by rw [dstat_eq]; omega) (by rw [dstat_eq]; omega)
    rw [State.domUp, State.domUp, State.domState_congr kept]
  unfold State.fenced
  rw [Bool.eq_iff_iff]
  simp only [Bool.and_eq_true, List.all_eq_true]
  exact and_congr_right fun _ => forall₂_congr fun d hd => by rw [same d hd]

namespace LoneFlight

variable {s : State} {r : Fin 82} {k : Packet} {f : Flight} (h : LoneFlight s r k f)
include h

/-- At its destination a packet leaves for its port. -/
theorem leaves (here : k.dst.toNat = r.val) : ∃ t g, packetSwitch r.val k .none s = t
    ∧ t.net.flights = [g] ∧ g.out = true ∧ g.pkt = k ∧ g.port = k.dstp.val ∧ t.regs = s.regs := by
  obtain ⟨arb, goes⟩ := h.passes (State.linkCheck_none h.calm) h.listed h.blind (State.strayed_here here h.listed) h.unfenced
  rw [State.passOn_here here] at goes
  exact ⟨_, _, goes, State.flights_moveFlight_lone h.flights, rfl, rfl, rfl, rfl⟩

/-- With an error that the router reports as bit `n`, a packet leaves for its port as it is found. -/
theorem leaves_reported (here : k.dst.toNat = r.val) {e : FlitError} {n : Nat} (hn : n < 32) {p : Packet}
    (found : s.linkCheck r.val k e = (some p, s.raise (routerPage r.val 0) n)) (op : p.op = k.op) (dst : p.dst = k.dst) (dstp : p.dstp = k.dstp) :
    ∃ t g, packetSwitch r.val k e s = t ∧ t.net.flights = [g] ∧ g.pkt = p ∧ t.bit (routerPage r.val 0x14) n = true := by
  have listed : opListed p.op = true := by rw [op]; exact h.listed
  have at_ : p.dst.toNat = r.val := by rw [dst]; exact here
  have blind : ∀ j, j < 4 → (s.raise (routerPage r.val 0) n).bit (probePage r.val (0x60 + 0x20 * j)) 0 = false := fun j hj => by
    have mod : probePage r.val (0x60 + 0x20 * j) % 4096 = 0x60 + 0x20 * j := by
      rw [probePage, Nat.add_assoc, routerPage_add, routerPage_mod]
      omega
    rw [State.bit_congr (State.reg_raise s _ _ _ none (by omega) (by omega))]
    exact h.blind j hj
  have unfenced : (s.raise (routerPage r.val 0) n).fenced ((s.raise (routerPage r.val 0) n).intoDomains r.val p) = false := by
    have open_ := h.unfenced
    rw [State.intoDomains_here here] at open_
    rw [State.intoDomains_here at_, dstp, State.fenced_raise]
    exact open_
  obtain ⟨arb, goes⟩ := h.passes found listed blind (State.strayed_here at_ listed) unfenced
  rw [State.passOn_here at_] at goes
  have one : (s.raise (routerPage r.val 0) n).net.flights = [f] := by rw [State.raise_net, h.flights]
  obtain ⟨g, there, -, -, base⟩ := pageOf_routerPage r.isLt (o := 0) (by decide)
  have raised := State.bit_raise there base s n none hn
  rw [routerPage_add] at raised
  exact ⟨_, _, goes, State.flights_moveFlight_lone one, rfl, raised⟩

/-- Elsewhere it goes to the next router, one hop further. -/
theorem goesOn (away : k.dst.toNat ≠ r.val) (few : k.hops ≠ 15) {q : Nat} (next : neighbour r.val (s.outPort r.val k) = some q) :
    ∃ t g, packetSwitch r.val k .none s = t ∧ t.net.flights = [g] ∧ g.rtr = q ∧ g.pkt = { k with hops := k.hops + 1 } ∧ g.out = false ∧ t.regs = s.regs := by
  have nextRouter : s.nextRouter r.val k = some q := (if_neg away).trans next
  have goes : s.strayed r.val k = false := by simp [State.strayed, h.listed, few, nextRouter]
  obtain ⟨arb, passes⟩ := h.passes (State.linkCheck_none h.calm) h.listed h.blind goes h.unfenced
  have nextRouter' : ({ s with net := { s.net with arb := arb } } : State).nextRouter r.val k = some q := nextRouter
  simp only [State.passOn, nextRouter'] at passes
  exact ⟨_, _, passes, State.flights_moveFlight_lone h.flights, rfl, rfl, h.out, rfl⟩

end LoneFlight

/-! ### PACKET_SWITCH -/

theorem exec_packetSwitch {s : State} (runs : s.stalled = false) (r : Fin 82) (k : Packet) (e : FlitError) :
    exec (.packetSwitch r ⟨k, e⟩) s = .next (switchPacket r.val k e s) :=
  act_runs s (fun s => switchPacket r.val k e s) runs

/-- With no packet lost, home has nothing to go on with. -/
theorem switchPacket_kept {s t : State} {r : Nat} {k : Packet} {e : FlitError} (is : packetSwitch r k e s = t)
    (kept : s.net.flights.length ≤ t.net.flights.length) : switchPacket r k e s = t := by
  unfold switchPacket
  rw [is]
  exact if_neg (by simp [Nat.not_lt.mpr kept])

/-- A packet that carries no line is lost and no more. -/
theorem switchPacket_lost {s t : State} {r : Nat} {k : Packet} {e : FlitError} (is : packetSwitch r k e s = t) (data : k.op ≠ 0x20) (back : k.op ≠ 0x08) :
    switchPacket r k e s = t := by
  unfold switchPacket
  rw [is]
  have plain : (decide (k.op = opData) || decide (k.op = opWrBk)) = false := by
    rw [decide_eq_false (show k.op ≠ opData from data), decide_eq_false (show k.op ≠ opWrBk from back)]
    rfl
  exact if_neg (by rw [plain, Bool.and_false]; decide)

/-- What a switched lone packet leaves, as the row leaves it. -/
theorem exec_packetSwitch_lone {s t : State} {r : Fin 82} {k : Packet} {e : FlitError} {f g : Flight} (runs : s.stalled = false)
    (one : s.net.flights = [f]) (is : packetSwitch r.val k e s = t) (one' : t.net.flights = [g]) : exec (.packetSwitch r ⟨k, e⟩) s = .next t :=
  (exec_packetSwitch runs r k e).trans (congrArg _ (switchPacket_kept is (by rw [one, one']; exact le_rfl)))

/-- Packets pass regulators as the statement says. -/
theorem regulatorGrant_rules {s : State} (runs : s.stalled = false) {j : Nat} {f : Flight} {rg : Nat} (there : s.net.flights[j]? = some f)
    (waits : f.wait = some rg) (off : routerKind f.rtr ≠ .bench) :
    let m := if f.pkt.vc = 3 then Meter.urg else .bulk
    let p := f.pkt.part.toNat
    let granted := listSet s.net.flights j { f with wait := none, held := false }
    (s.overtakes j f = true → exec (.regulatorGrant j) s = .next s)
    ∧ (s.overtakes j f = false → isByteRg rg = false →
        let a := rg + m.usedOff + 4 * p
        (s.exhausted rg m p = false → ∃ t, exec (.regulatorGrant j) s = .next t ∧ t.net.flights = granted
            ∧ (t.reg a).toNat = min 0xFFFFFFFF ((s.reg a).toNat + (if f.pkt.op ∈ [(0x08 : BitVec 8), 0x09, 0x18, 0x1A, 0x20, 0x24] then 2 else 1))
            ∧ t.mem = s.mem ∧ t.cores = s.cores)
        ∧ (s.exhausted rg m p = true → f.pkt.vc = 3 ∨ f.pkt.vc = 0 → ∃ t, exec (.regulatorGrant j) s = .next t
            ∧ t.net.flights = listSet s.net.flights j { f with held := true } ∧ t.reg a = s.reg a))
    ∧ (s.overtakes j f = false → isByteRg rg = true →
        let a := rg + Meter.bytes.usedOff + 4 * p
        s.exhausted rg .bytes p = false ∨ (f.pkt.op = 0x08 ∧ f.pkt.inl = 0) → ∃ t, exec (.regulatorGrant j) s = .next t
          ∧ t.net.flights = granted ∧ (t.reg a).toNat = min 0xFFFFFFFF ((s.reg a).toNat + 64) ∧ t.cores = s.cores) := by
  intro m p granted
  refine ⟨fun behind => ?_, fun first flits => ?_, fun first bytes => ?_⟩
  · rw [exec_regulatorGrant runs, State.grant_eq there waits off, behind]
    rfl
  · have meter : (if isByteRg rg then Meter.bytes else pktMeter f.pkt) = m := by rw [flits]; rfl
    have count : (if isByteRg rg then 64 else pktFlits f.pkt) = if f.pkt.op ∈ [(0x08 : BitVec 8), 0x09, 0x18, 0x1A, 0x20, 0x24] then 2 else 1 := by
      rw [flits]; exact pktFlits_eq f.pkt
    refine ⟨fun left => ⟨_, exec_regulatorGrant runs j, State.grant_passes there waits off first meter count (.inl left)⟩,
      fun spent channel => ⟨_, exec_regulatorGrant runs j, State.grant_holds there waits off first meter spent ?_⟩⟩
    have noBytes : m ≠ .bytes := by unfold m; split <;> decide
    obtain c | c := channel <;> simp [holdable, c, noBytes]
  · intro a passes
    have meter : (if isByteRg rg then Meter.bytes else pktMeter f.pkt) = .bytes := by rw [bytes]; rfl
    have count : (if isByteRg rg then 64 else pktFlits f.pkt) = 64 := by rw [bytes]; rfl
    obtain ⟨flights, used, -, cores⟩ := State.grant_passes there waits off first meter count
      (passes.imp_right fun ⟨op, inl⟩ => by simp [holdable, op, inl, opWrBk])
    exact ⟨_, exec_regulatorGrant runs j, flights, used, cores⟩

/-- Settles O39: by the decision of a regulator on one packet, the fold that counts old flits, and the arbiter's choice. -/
theorem fabricRules : Obligations.FabricRules := by
  intro s runs
  refine ⟨fun j f rg there waits _ off => regulatorGrant_rules runs there waits off, fun j none_ => ?_, fun r => ⟨fun fresh => ?_, fun old => ?_⟩,
    fun r k e absent => ?_, fun r e pre f post flights rtr wait out first behind => ?_, fun r k e other goes lets urgent => ?_,
    fun r k f flights pkt rtr wait out on calm listed blind bodies lets free unfenced => ?_⟩
  · rw [exec_regulatorGrant runs, State.grant, none_]
  · rw [exec_drainClear runs, if_pos ((s.oldFlits_eq_zero r.val).mpr fun f hf ⟨rtr, out, epoch, granted⟩ => (fresh f hf rtr out).elim epoch granted)]
  · obtain ⟨f, hf, rtr, out, epoch, wait⟩ := old
    rw [exec_drainClear runs, if_neg fun zero => (s.oldFlits_eq_zero r.val).mp zero f hf ⟨rtr, out, epoch, by simp [wait]⟩]
  · exact (exec_packetSwitch runs r k e).trans (congrArg _ (switchPacket_kept (packetSwitch_absent absent) le_rfl))
  · exact (exec_packetSwitch runs r f.pkt e).trans (congrArg _ (switchPacket_kept (packetSwitch_behind flights rtr wait out first behind) le_rfl))
  · exact (exec_packetSwitch runs r k e).trans (congrArg _ (switchPacket_kept (packetSwitch_urgent other goes lets urgent) le_rfl))
  · intro gone
    have h : LoneFlight s r k f := ⟨flights, pkt, rtr, wait, out, on, calm, listed, blind, bodies, lets, free, unfenced⟩
    have drop : (s.dropFlight 0).hopDrop r.val = gone := by
      unfold State.dropFlight gone
      rw [flights]
      rfl
    refine ⟨fun here => ⟨?_, fun data back => ?_, fun two => ?_, ?_⟩, fun away worn data back => ?_, fun away few q next => ?_⟩
    · obtain ⟨t, g, is, one, rest⟩ := h.leaves here
      exact ⟨t, g, exec_packetSwitch_lone runs flights is one, one, rest⟩
    · exact (exec_packetSwitch runs r k _).trans (congrArg _ (switchPacket_lost (h.discards_header.trans drop) data back))
    · have flits : pktFlits k = 2 := (pktFlits_eq k).trans (if_pos two)
      obtain ⟨t, g, is, one, rest⟩ := h.leaves_reported here (by decide) (State.linkCheck_second calm flits) rfl rfl rfl
      exact ⟨t, g, exec_packetSwitch_lone runs flights is one, one, rest⟩
    · obtain ⟨t, g, is, one, rest⟩ := h.leaves_reported here (by decide) (State.linkCheck_corrected calm) rfl rfl rfl
      exact ⟨t, g, exec_packetSwitch_lone runs flights is one, one, rest⟩
    · exact (exec_packetSwitch runs r k _).trans (congrArg _ (switchPacket_lost ((h.discards_strayed (State.strayed_worn away worn)).trans drop) data back))
    · obtain ⟨t, g, is, one, rest⟩ := h.goesOn away few next
      exact ⟨t, g, exec_packetSwitch_lone runs flights is one, one, rest⟩

end Sys2Proof.Machine
end

section
/-! ## Encoding and decoding (04 R78-R92; 16 R434-R437), O7 and O8 -/

namespace Sys2Proof.Machine

/-! ### Little-endian numbers (00 R3) -/

theorem leNat_lt (l : List Byte) : leNat l < 2 ^ (8 * l.length) := by
  induction l with
  | nil => simp [leNat]
  | cons x l ih =>
    have hx := x.isLt
    simp only [leNat, List.length_cons, Nat.mul_add, Nat.pow_add] at ih ⊢
    omega

/-- The bytes of the number that a list of bytes spells are that list. -/
theorem leBytes_leNat (l : List Byte) : leBytes l.length (leNat l) = l := by
  induction l with
  | nil => rfl
  | cons x l ih =>
    have hx := x.isLt
    have low : (x.toNat + 256 * leNat l) % 256 = x.toNat := by omega
    have high : (x.toNat + 256 * leNat l) / 256 = leNat l := by omega
    simp [leNat, leBytes, low, high, ih]

theorem sextNat_emod (x w : Nat) : (sextNat x w % (2 ^ w : Nat)).toNat = x % 2 ^ w := by
  have hx : x % 2 ^ w < 2 ^ w := Nat.mod_lt _ (Nat.two_pow_pos w)
  have e : sextNat x w % (2 ^ w : Nat) = ((x % 2 ^ w : Nat) : Int) := by
    unfold sextNat
    simp only
    split
    · exact_mod_cast Nat.mod_mod _ _
    · rw [Int.sub_emod_right]; exact_mod_cast Nat.mod_mod _ _
  rw [e]; rfl

/-! ### Prefixes (04 R79-R81) -/

/-- The values that a byte among the prefixes can leave in each class. -/
structure Pfx.InRange (p : Pfx) : Prop where
  size : ∀ z ∈ p.size, z < 3
  vec : ∀ z ∈ p.vec, z < 4
  ord : ∀ z ∈ p.ord, z < 4
  hint : ∀ z ∈ p.hint, z < 2
  ext : ∀ z ∈ p.ext, z < 128

/-- The byte of one class, if it is there. -/
def pfxByte (base : Nat) (o : Option Nat) : List Byte := (o.map (fun z => BitVec.ofNat 8 (base + z))).toList

theorem Pfx.bytes_eq (p : Pfx) : p.bytes = pfxByte 0x60 p.size ++ pfxByte 0x64 p.vec ++ pfxByte 0x68 p.ord ++ pfxByte 0x6C p.hint ++ pfxByte 0x80 p.ext := rfl

@[simp] theorem pfxByte_none (base : Nat) : pfxByte base none = [] := rfl
@[simp] theorem pfxByte_some (base z : Nat) : pfxByte base (some z) = [BitVec.ofNat 8 (base + z)] := rfl

theorem pfxClass_range (x : Nat) :
    (pfxClass x = 1 ↔ 0x60 ≤ x ∧ x < 0x64) ∧ (pfxClass x = 2 ↔ 0x64 ≤ x ∧ x < 0x68) ∧ (pfxClass x = 3 ↔ 0x68 ≤ x ∧ x < 0x6C)
      ∧ (pfxClass x = 4 ↔ x = 0x6C ∨ x = 0x6D) ∧ (pfxClass x = 5 ↔ 0x80 ≤ x) ∧ pfxClass x ≤ 5 := by
  unfold pfxClass
  split_ifs <;> simp <;> omega

/-- A byte taken in is one more byte of the prefixes, in range. -/
theorem Pfx.add_spec (p : Pfx) (b : Byte) (cls : pfxClass b.toNat ≠ 0) (new : p.has (pfxClass b.toNat) = false) (ok : b.toNat ≠ 0x63) :
    (p.add (pfxClass b.toNat) b.toNat).bytes.Perm (p.bytes ++ [b]) ∧ (p.InRange → (p.add (pfxClass b.toNat) b.toNat).InRange) := by
  have hb := b.isLt
  obtain ⟨c1, c2, c3, c4, c5, le⟩ := pfxClass_range b.toNat
  have byte : ∀ base z, base + z = b.toNat → pfxByte base (some z) = [b] := fun base z hz => by
    rw [pfxByte_some, hz, BitVec.ofNat_toNat, BitVec.setWidth_eq]
  simp only [Pfx.bytes_eq, List.perm_iff_count, List.count_append]
  generalize pfxClass b.toNat = k at *
  obtain rfl | rfl | rfl | rfl | rfl : k = 1 ∨ k = 2 ∨ k = 3 ∨ k = 4 ∨ k = 5 := by omega
  · have r := c1.mp rfl
    have e : p.size = none := by simpa [Pfx.has] using new
    exact ⟨fun a => by simp only [Pfx.add, e, pfxByte_none, byte 0x60 (b.toNat % 4) (by omega), List.count_nil]; omega,
      fun h => { h with size := by rintro z ⟨⟩; omega }⟩
  · have r := c2.mp rfl
    have e : p.vec = none := by simpa [Pfx.has] using new
    exact ⟨fun a => by simp only [Pfx.add, e, pfxByte_none, byte 0x64 (b.toNat % 4) (by omega), List.count_nil]; omega,
      fun h => { h with vec := by rintro z ⟨⟩; omega }⟩
  · have r := c3.mp rfl
    have e : p.ord = none := by simpa [Pfx.has] using new
    exact ⟨fun a => by simp only [Pfx.add, e, pfxByte_none, byte 0x68 (b.toNat % 4) (by omega), List.count_nil]; omega,
      fun h => { h with ord := by rintro z ⟨⟩; omega }⟩
  · have r := c4.mp rfl
    have e : p.hint = none := by simpa [Pfx.has] using new
    exact ⟨fun a => by simp only [Pfx.add, e, pfxByte_none, byte 0x6C (b.toNat % 2) (by omega), List.count_nil]; omega,
      fun h => { h with hint := by rintro z ⟨⟩; omega }⟩
  · have r := c5.mp rfl
    have e : p.ext = none := by simpa [Pfx.has] using new
    exact ⟨fun a => by simp only [Pfx.add, e, pfxByte_none, byte 0x80 (b.toNat % 128) (by omega), List.count_nil]; omega,
      fun h => { h with ext := by rintro z ⟨⟩; omega }⟩

/-- What the prefixes of an instruction are once they have been read: the bytes `pre`, and after them `post`, which begins with none. -/
theorem readPfx_ok (l : List Byte) (n : Nat) (p : Pfx) {q : Pfx} {m : Nat} {rest : List Nat} (h : readPfx (l.map BitVec.toNat) n p = .ok (q, m, rest)) :
    ∃ pre b post, l = pre ++ b :: post ∧ rest = b.toNat :: post.map BitVec.toNat ∧ pfxClass b.toNat = 0 ∧ m = n + pre.length
      ∧ q.bytes.Perm (p.bytes ++ pre) ∧ (p.InRange → q.InRange) ∧ (n ≤ 4 → m ≤ 4) := by
  induction l generalizing n p with
  | nil => exact absurd h (by simp [readPfx])
  | cons b l ih =>
    simp only [List.map_cons, readPfx] at h
    split_ifs at h with none_ twice after odd
    · obtain ⟨rfl, rfl, rfl⟩ : p = q ∧ n = m ∧ b.toNat :: l.map BitVec.toNat = rest := by simpa using h
      exact ⟨[], b, l, rfl, rfl, none_, rfl, by simp, id, id⟩
    · obtain ⟨pre, c, post, rfl, hrest, hc, rfl, perm, range, few⟩ := ih _ _ h
      obtain ⟨new, room⟩ := not_or.mp twice
      obtain ⟨added, inRange⟩ := p.add_spec b none_ (by simpa using new) odd
      refine ⟨b :: pre, c, post, rfl, hrest, hc, by simp; omega, ?_, range ∘ inRange, fun _ => few (by omega)⟩
      exact perm.trans ((added.append_right pre).trans (by simp))

/-- Reading the byte of one class, where it is there and may stand, records it. -/
theorem readPfx_pfxByte (o : Option Nat) (base n : Nat) {cls : Nat} {p q : Pfx} (tail : List Nat) (room : n + o.toList.length ≤ 4)
    (empty : o = none → q = p)
    (full : ∀ z ∈ o, base + z < 256 ∧ base + z ≠ 0x63 ∧ pfxClass (base + z) = cls ∧ cls ≠ 0 ∧ p.has cls = false ∧ p.ext = none ∧ p.add cls (base + z) = q) :
    readPfx ((pfxByte base o).map BitVec.toNat ++ tail) n p = readPfx tail (n + o.toList.length) q := by
  cases o with
  | none => rw [empty rfl]; rfl
  | some z =>
    obtain ⟨byte, odd, is, some_, new, last, added⟩ := full z rfl
    have low : (BitVec.ofNat 8 (base + z)).toNat = base + z := Nat.mod_eq_of_lt byte
    simp only [Option.toList_some, List.length_singleton] at room
    simp only [pfxByte_some, List.map_cons, List.map_nil, List.cons_append, List.nil_append, readPfx, low, is, some_, if_false, new, last, added, odd]
    rw [if_neg (by simp; omega)]
    simp

/-- The bytes of prefixes, in the order of their classes, read as those prefixes. -/
theorem readPfx_bytes (p : Pfx) (range : p.InRange) (few : p.bytes.length ≤ 4) {x : Nat} (tail : List Nat) (stop : pfxClass x = 0) :
    readPfx (p.bytes.map BitVec.toNat ++ x :: tail) 0 {} = .ok (p, p.bytes.length, x :: tail) := by
  have len : ∀ base o, (pfxByte base o).length = o.toList.length := fun base o => by cases o <;> rfl
  obtain ⟨size, vec, ord, hint, ext⟩ := p
  obtain ⟨hs, hv, ho, hh, he⟩ := range
  simp only [Pfx.bytes_eq, List.length_append, len] at few ⊢
  simp only [List.map_append, List.append_assoc]
  rw [readPfx_pfxByte size 0x60 0 (cls := 1) (q := { size := size }) _ (by omega) (by rintro rfl; rfl) (fun z hz => ?_),
    readPfx_pfxByte vec 0x64 _ (cls := 2) (q := { size := size, vec := vec }) _ (by omega) (by rintro rfl; rfl) (fun z hz => ?_),
    readPfx_pfxByte ord 0x68 _ (cls := 3) (q := { size := size, vec := vec, ord := ord }) _ (by omega) (by rintro rfl; rfl) (fun z hz => ?_),
    readPfx_pfxByte hint 0x6C _ (cls := 4) (q := { size := size, vec := vec, ord := ord, hint := hint }) _ (by omega) (by rintro rfl; rfl) (fun z hz => ?_),
    readPfx_pfxByte ext 0x80 _ (cls := 5) (q := { size := size, vec := vec, ord := ord, hint := hint, ext := ext }) _ (by omega) (by rintro rfl; rfl) (fun z hz => ?_)]
  · simp [readPfx, stop]
  all_goals
    cases hz
    simp only [Option.mem_def, Option.some.injEq, forall_eq'] at hs hv ho hh he
    refine ⟨by omega, by omega, ?_, by decide, rfl, rfl, by simp [Pfx.add]; omega⟩
    unfold pfxClass; split_ifs <;> omega

/-! ### Operand byte, displacement and immediate (04 R83-R85) -/

/-- The bytes of an instruction after its opcode. -/
def Insn.tail (i : Insn) (f : Form) : List Byte :=
  (if f.hasOperand then [BitVec.ofNat 8 (16 * (i.a % 16) + i.b % 16)] else [])
    ++ leBytes (f.immLen i.opc) (i.imm % (2 ^ (8 * f.immLen i.opc) : Nat)).toNat

theorem ozEncode_eq (i : Insn) : ozEncode i = i.pfx.bytes ++ mapBytes i.map ++ [BitVec.ofNat 8 i.opc] ++ i.tail (formOf i.map i.opc) := by
  simp [ozEncode, Insn.tail]

theorem Form.tailLen_eq (f : Form) (opc : Nat) : f.tailLen opc = (if f.hasOperand then 1 else 0) + f.immLen opc := by
  cases f <;> simp [Form.tailLen, Form.hasOperand, Form.immLen]

theorem foldr_toNat (l : List Byte) : (l.map BitVec.toNat).foldr (fun x acc => x + 256 * acc) 0 = leNat l := by
  induction l with
  | nil => rfl
  | cons b l ih => simp [leNat, ih]

/-- The bytes of a displacement or immediate that has been read. -/
theorem leBytes_readSigned (k : Nat) (l : List Byte) (h : k ≤ l.length) :
    leBytes k (readSigned k (l.map BitVec.toNat) % (2 ^ (8 * k) : Nat)).toNat = l.take k := by
  unfold readSigned
  split
  · rename_i h0; subst h0; simp [leBytes]
  · have lt := leNat_lt (l.take k)
    have back := leBytes_leNat (l.take k)
    rw [List.length_take, Nat.min_eq_left h] at lt back
    rw [← List.map_take, foldr_toNat, sextNat_emod, Nat.mod_eq_of_lt lt, back]

theorem readSigned_take (k : Nat) (xs : List Nat) : readSigned k (xs.take k) = readSigned k xs := by
  simp [readSigned, List.take_take]

/-- The two halves of the operand byte with their extension bits. -/
theorem operand_halves (b : Byte) (x y : Nat) : BitVec.ofNat 8 (16 * ((b.toNat / 16 + 16 * x) % 16) + (b.toNat % 16 + 16 * y) % 16) = b := by
  have hb := b.isLt
  rw [show 16 * ((b.toNat / 16 + 16 * x) % 16) + (b.toNat % 16 + 16 * y) % 16 = b.toNat by omega, BitVec.ofNat_toNat, BitVec.setWidth_eq]

/-- The instruction that its prefixes, opcode, operand byte and immediate make. -/
def insnOf (p : Pfx) (map opc n : Nat) (f : Form) (op : OzOp) (operand : Nat) (imm : Int) : Insn :=
  { op := op, map := map, opc := opc, pfx := p, a := operand / 16 + 16 * (p.ext.getD 0 / 64), b := operand % 16 + 16 * (p.ext.getD 0 / 32 % 2)
    c := if p.ext.isSome then p.ext.getD 0 % 32 else if f = .mem then 0 else operand / 16 + 16 * (p.ext.getD 0 / 64)
    scale := if f = .mem then opc / 4 % 4 else 0, imm := imm
    hasImm := match f with | .rrImm _ => true | _ => false
    flags := map = 1 && decide (0x40 ≤ opc) && decide (opc ≤ 0x53), len := n + f.tailLen opc }

/-- What the decoder makes of an operand byte and an immediate, the latter with too few bytes if `few`. -/
def decodeFields (p : Pfx) (map opc n : Nat) (f : Form) (op : OzOp) (operand : Nat) (imm : Int) (few : Bool) : Decoded :=
  match subOp map opc (operand / 16 + 16 * (p.ext.getD 0 / 64)) (operand % 16 + 16 * (p.ext.getD 0 / 32 % 2)) op with
  | none => .ill 1
  | some op' =>
    let i := insnOf p map opc n f op' operand imm
    if mustBeZero i (usesOf map opc op') f then .ill 5
    else if badRegs i then .ill 7
    else if few then .short
    else if immZero i then .ill 5
    else if badValue i then .ill 7
    else .ok i

theorem decodeTail_eq (p : Pfx) (map opc n : Nat) (f : Form) (op : OzOp) (xs : List Nat) : decodeTail p map opc n f op xs =
    if f.hasOperand && xs.isEmpty then .short
    else decodeFields p map opc n f op (if f.hasOperand then xs.headD 0 else 0)
      (readSigned (f.immLen opc) (if f.hasOperand then xs.drop 1 else xs)) (decide (xs.length < f.tailLen opc)) := by
  unfold decodeTail decodeFields
  simp only [decide_eq_true_eq]
  cases f <;> rfl

/-- An instruction is what its fields make, and nothing in them raises ILL. -/
theorem decodeFields_ok {p : Pfx} {map opc n : Nat} {f : Form} {op : OzOp} {operand : Nat} {imm : Int} {few : Bool} {i : Insn}
    (h : decodeFields p map opc n f op operand imm few = .ok i) :
    few = false ∧ badRegs i = false ∧ badValue i = false ∧ ∃ op', i = insnOf p map opc n f op' operand imm := by
  unfold decodeFields at h
  split at h
  · cases h
  · rename_i op' _
    simp only at h
    split_ifs at h with zero regs short cond value
    obtain rfl := Decoded.ok.inj h
    exact ⟨by simpa using short, by simpa using regs, by simpa using value, op', rfl⟩

/-- What decoding the bytes after an opcode to an instruction says of it: the fields that were given, its length, that it holds those
bytes, and that no later byte matters (04 R535). -/
theorem decodeTail_ok {p : Pfx} {map opc n : Nat} {f : Form} {op : OzOp} {l : List Byte} {i : Insn}
    (h : decodeTail p map opc n f op (l.map BitVec.toNat) = .ok i) :
    (i.pfx = p ∧ i.map = map ∧ i.opc = opc ∧ badRegs i = false ∧ badValue i = false) ∧ i.len = n + f.tailLen opc ∧ f.tailLen opc ≤ l.length
      ∧ i.tail f = l.take (f.tailLen opc) ∧ decodeTail p map opc n f op ((l.take (f.tailLen opc)).map BitVec.toNat) = .ok i := by
  have size := f.tailLen_eq opc
  rw [decodeTail_eq] at h ⊢
  cases operand : f.hasOperand
  · simp only [operand, Bool.false_and, Bool.false_eq_true, if_false, Nat.zero_add] at h size ⊢
    obtain ⟨few, regs, value, op', rfl⟩ := decodeFields_ok h
    have enough : f.tailLen opc ≤ l.length := by simpa using few
    refine ⟨⟨rfl, rfl, rfl, regs, value⟩, rfl, enough, ?_, ?_⟩
    · simp only [Insn.tail, insnOf, operand, Bool.false_eq_true, if_false, List.nil_append]
      rw [leBytes_readSigned _ _ (by omega), size]
    · rw [List.map_take, size, readSigned_take, ← h]
      refine congrArg (decodeFields p map opc n f op _ _) ?_
      simp [size]
  · simp only [operand, Bool.true_and, if_true] at h size ⊢
    obtain _ | ⟨b, l⟩ := l
    · exact absurd h (by simp)
    simp only [List.map_cons, List.isEmpty_cons, Bool.false_eq_true, if_false, List.headD_cons, List.drop_one, List.tail_cons] at h
    obtain ⟨few, regs, value, op', rfl⟩ := decodeFields_ok h
    have enough : f.tailLen opc ≤ (b :: l).length := by simpa using few
    have enough' : f.immLen opc ≤ l.length := by rw [size, List.length_cons] at enough; omega
    refine ⟨⟨rfl, rfl, rfl, regs, value⟩, rfl, enough, ?_, ?_⟩
    · simp only [Insn.tail, insnOf, operand, if_true, operand_halves]
      rw [leBytes_readSigned _ _ enough', size, Nat.add_comm, List.take_succ_cons]; rfl
    · rw [size, Nat.add_comm, List.take_succ_cons, List.map_cons, List.map_take, ← h, List.isEmpty_cons, if_neg (by simp), List.headD_cons,
        List.drop_one, List.tail_cons, readSigned_take]
      refine congrArg (decodeFields p map opc n f op _ _) ?_
      simp [size, Nat.add_comm 1]

/-! ### Whole instructions -/

/-- The row of an opcode in its map (04 R89-R92). -/
def mapRow (m x : Nat) : Option (Form × OzOp) := if m = 0 then map0 x else if m = 1 then map1 x else map2 x

theorem decodeOpcode_ok {p : Pfx} {map opc n : Nat} {l : List Byte} {i : Insn}
    (h : decodeOpcode p map opc n (mapRow map opc) (l.map BitVec.toNat) = .ok i) :
    (i.pfx = p ∧ i.map = map ∧ i.opc = opc ∧ badRegs i = false ∧ badValue i = false) ∧ ∃ k, i.len = n + k ∧ k ≤ l.length
      ∧ i.tail (formOf map opc) = l.take k ∧ decodeOpcode p map opc n (mapRow map opc) ((l.take k).map BitVec.toNat) = .ok i := by
  unfold decodeOpcode at h ⊢
  split at h
  · cases h
  · rename_i f op row
    split_ifs at h with accepted
    have form : formOf map opc = f := by unfold formOf; unfold mapRow at row; rw [row]
    obtain ⟨fields, len, enough, tail, again⟩ := decodeTail_ok h
    exact ⟨fields, _, len, enough, form ▸ tail, by simp only [accepted, if_true]; exact again⟩

/-- An opcode byte of a map as it stands after the prefixes: one of map 0 is none of the prefixes and no escape (04 R78, R79). -/
def Opens (m : Nat) (b : Byte) : Prop := m = 0 ∧ pfxClass b.toNat = 0 ∧ b.toNat ≠ 0x6F ∧ b.toNat ≠ 0x6E ∨ m = 1 ∨ m = 2

/-- Decoding after prefixes that have been read. -/
theorem ozDecode_of_readPfx {b : List Byte} {p : Pfx} {n m : Nat} {o : Byte} {l : List Byte} (opens : Opens m o)
    (h : readPfx (b.map BitVec.toNat) 0 {} = .ok (p, n, (mapBytes m ++ o :: l).map BitVec.toNat)) :
    ozDecode b = decodeOpcode p m o.toNat (n + (mapBytes m).length + 1) (mapRow m o.toNat) (l.map BitVec.toNat) := by
  unfold ozDecode
  rw [h]
  rcases opens with ⟨rfl, -, h1, h2⟩ | rfl | rfl
  · simp [mapBytes, h1, h2, mapRow]
  · simp [mapBytes, mapRow]
  · simp [mapBytes, mapRow]

/-- Prefixes that do not read are no instruction. -/
theorem readPfx_error (xs : List Nat) (n : Nat) (p : Pfx) {d : Decoded} (h : readPfx xs n p = .error d) (i : Insn) : d ≠ .ok i := by
  induction xs generalizing n p with
  | nil => cases h; simp
  | cons x xs ih =>
    unfold readPfx at h
    split_ifs at h
    · cases h; simp
    · cases h; simp
    · cases h; simp
    · exact ih _ _ h

/-- What decoded is prefixes, perhaps an escape, an opcode and what follows it. -/
theorem ozDecode_ok {b : List Byte} {i : Insn} (h : ozDecode b = .ok i) :
    ∃ p pre m o l, b = pre ++ mapBytes m ++ o :: l ∧ Opens m o ∧ p.InRange ∧ p.bytes.Perm pre ∧ pre.length ≤ 4
      ∧ decodeOpcode p m o.toNat (pre.length + (mapBytes m).length + 1) (mapRow m o.toNat) (l.map BitVec.toNat) = .ok i := by
  obtain ⟨⟨p, n, rest⟩, read⟩ : ∃ q, readPfx (b.map BitVec.toNat) 0 {} = .ok q := by
    cases read : readPfx (b.map BitVec.toNat) 0 {} with
    | error d => exact absurd (by unfold ozDecode at h; rwa [read] at h) (readPfx_error _ _ _ read i)
    | ok q => exact ⟨q, rfl⟩
  obtain ⟨pre, x, post, rfl, rfl, stop, rfl, perm, range, few⟩ := readPfx_ok b 0 {} read
  have inRange : p.InRange := range ⟨by simp, by simp, by simp, by simp, by simp⟩
  have perm : p.bytes.Perm pre := perm
  have few : pre.length ≤ 4 := by simpa using few
  suffices ∃ m o l, x :: post = mapBytes m ++ o :: l ∧ Opens m o by
    obtain ⟨m, o, l, split, opens⟩ := this
    refine ⟨p, pre, m, o, l, by rw [split, List.append_assoc], opens, inRange, perm, few, ?_⟩
    rw [← List.map_cons, split] at read
    rw [split, ozDecode_of_readPfx opens read] at h
    simpa using h
  have byte : ∀ k, x.toNat = k → x = BitVec.ofNat 8 k := fun k hk => by rw [← hk, BitVec.ofNat_toNat, BitVec.setWidth_eq]
  have next : x.toNat = 0x6F ∨ x.toNat = 0x6E → post ≠ [] := by
    unfold ozDecode at h
    rw [read] at h
    rintro (e | e) rfl <;> simp [e] at h
  by_cases one : x.toNat = 0x6F
  · obtain ⟨o, l, rfl⟩ := List.exists_cons_of_ne_nil (next (.inl one))
    exact ⟨1, o, l, by rw [byte _ one]; rfl, .inr (.inl rfl)⟩
  by_cases two : x.toNat = 0x6E
  · obtain ⟨o, l, rfl⟩ := List.exists_cons_of_ne_nil (next (.inr two))
    exact ⟨2, o, l, by rw [byte _ two]; rfl, .inr (.inr rfl)⟩
  · exact ⟨0, x, post, rfl, .inl ⟨rfl, stop, one, two⟩⟩

/-- The encoding of what decoded: its prefixes in the order of their classes, and then the bytes that were decoded. -/
theorem ozEncodingRoundTrip : Rules.OzEncodingRoundTrip := by
  intro b i h
  obtain ⟨p, pre, m, o, l, rfl, opens, range, perm, few, tail⟩ := ozDecode_ok h
  obtain ⟨⟨hp, hm, ho, -⟩, k, len, enough, bytes, again⟩ := decodeOpcode_ok tail
  have enc : ozEncode i = p.bytes ++ (mapBytes m ++ o :: l.take k) := by
    rw [ozEncode_eq, hp, hm, ho, bytes, BitVec.ofNat_toNat, BitVec.setWidth_eq]
    simp
  have count := perm.length_eq
  constructor
  · rw [enc, ozDecode_of_readPfx (p := p) (n := p.bytes.length) opens, count]
    · exact again
    · obtain ⟨x, rest, starts, stop⟩ : ∃ x rest, (mapBytes m ++ o :: l.take k).map BitVec.toNat = x :: rest ∧ pfxClass x = 0 := by
        rcases opens with ⟨rfl, stop, -⟩ | rfl | rfl
        · exact ⟨_, _, rfl, stop⟩
        · exact ⟨_, _, rfl, rfl⟩
        · exact ⟨_, _, rfl, rfl⟩
      rw [List.map_append, starts, readPfx_bytes p range (by omega) rest stop]
  · rw [enc, len, List.append_assoc, show pre.length + (mapBytes m).length + 1 + k = pre.length + ((mapBytes m).length + (k + 1)) by omega,
      List.take_length_add_append, List.take_length_add_append, List.take_succ_cons]
    exact perm.append_right _

/-! ### Lintos instructions (16 R434-R437) -/

/-- The bytes that give a width, a bank and LONG. -/
def stlWidthBytes (w : Nat) : List Byte := if w = 8 then [0xF0] else if w = 16 then [0xF1] else []

def stlBankBytes (bank : Option Byte) : List Byte := bank.elim [] fun k => [0xF2, k]

def stlLongBytes (long : Bool) : List Byte := if long then [0xF3] else []

/-- The bytes of prefixes in the order width, bank, LONG. -/
def StlPfx.bytes (p : StlPfx) : List Byte := stlWidthBytes p.w ++ stlBankBytes p.bank ++ stlLongBytes p.long

theorem stlEncode_eq (i : StlInsn) : stlEncode i = stlWidthBytes i.w ++ stlBankBytes i.bank ++ stlLongBytes i.long ++ BitVec.ofNat 8 i.op ::
    leBytes (stlOperands i.op i.long) i.imm := by
  obtain ⟨op, w, bank, long, imm, len⟩ := i
  cases bank <;> simp [stlEncode, stlWidthBytes, stlBankBytes, stlLongBytes]

/-- The widths that prefixes can leave. -/
def StlPfx.InRange (p : StlPfx) : Prop := p.w = 0 ∨ p.w = 8 ∨ p.w = 16

/-- The instruction of an opcode, after its prefixes, whose operand bytes are `l`. -/
def stlInsnOf (p : StlPfx) (n : Nat) (o : Byte) (l : List Byte) : StlInsn :=
  ⟨o.toNat, if p.w = 0 then 32 else p.w, p.bank, p.long, leNat l, n + 1 + l.length⟩

/-- An opcode that accepts its prefixes, with its operand bytes after it, decodes. -/
theorem stlDecodeFrom_opcode (p : StlPfx) (n fuel : Nat) (o : Byte) (l : List Byte) (accepts : stlAccepts o.toNat p = true)
    (len : l.length = stlOperands o.toNat p.long) : stlDecodeFrom (o :: l) p n (fuel + 1) = .ok (stlInsnOf p n o l) := by
  have low : o.toNat ≤ 0x8D := by simp only [stlAccepts, Bool.and_eq_true, decide_eq_true_eq] at accepts; tauto
  unfold stlDecodeFrom
  split
  · contradiction
  rename_i head
  obtain ⟨rfl, rfl⟩ := List.cons.inj head
  split
  iterate 4 · omega
  simp [accepts, ← len, stlInsnOf]

/-- `b` is, after the prefixes `p` in `n` bytes, further prefixes, an opcode that accepts them all and its operand bytes, which make `i`. -/
def StlReads (b : List Byte) (p : StlPfx) (n : Nat) (i : StlInsn) : Prop :=
  ∃ q pre o l rest, b = pre ++ o :: l ++ rest ∧ q.InRange ∧ q.bytes.Perm (p.bytes ++ pre) ∧ stlAccepts o.toNat q = true
    ∧ l.length = stlOperands o.toNat q.long ∧ i = stlInsnOf q (n + pre.length) o l

theorem StlReads.prefixed {p p' : StlPfx} {n : Nat} {x rest : List Byte} {i : StlInsn} (taken : p'.bytes.Perm (p.bytes ++ x))
    (h : StlReads rest p' (n + x.length) i) : StlReads (x ++ rest) p n i := by
  obtain ⟨q, pre, o, l, rest, rfl, hq, perm, accepts, len, rfl⟩ := h
  refine ⟨q, x ++ pre, o, l, rest, by simp, hq, ?_, accepts, len, by rw [List.length_append, Nat.add_assoc]⟩
  exact perm.trans ((taken.append_right pre).trans (by simp))

theorem stlDecodeFrom_ok (fuel : Nat) (b : List Byte) (p : StlPfx) (n : Nat) (range : p.InRange) {i : StlInsn} (h : stlDecodeFrom b p n fuel = .ok i) :
    StlReads b p n i := by
  induction fuel generalizing b p n with
  | zero => simp [stlDecodeFrom] at h
  | succ fuel ih =>
    have byte : ∀ {b : Byte} {k : Nat}, b.toNat = k → b = BitVec.ofNat 8 k := fun hk => by rw [← hk, BitVec.ofNat_toNat, BitVec.setWidth_eq]
    unfold stlDecodeFrom at h
    split at h
    · cases h
    rename_i b rest
    split at h
    · rename_i hb
      split_ifs at h with w
      exact StlReads.prefixed (x := [b]) (by simp only [StlPfx.bytes, not_not.mp w, byte hb]; exact List.perm_append_comm (l₁ := [_]))
        (ih _ _ _ (.inr (.inl rfl)) h)
    · rename_i hb
      split_ifs at h with w
      exact StlReads.prefixed (x := [b]) (by simp only [StlPfx.bytes, not_not.mp w, byte hb]; exact List.perm_append_comm (l₁ := [_]))
        (ih _ _ _ (.inr (.inr rfl)) h)
    · rename_i hb
      split_ifs at h with twice
      split at h
      · cases h
      · rename_i k rest
        have none_ : p.bank = none := by simpa using twice
        exact StlReads.prefixed (p' := { p with bank := some k }) (x := [b, k])
          (by simp only [StlPfx.bytes, none_, byte hb, List.append_assoc]; exact List.perm_append_comm.append_left _) (ih _ _ _ range h)
    · rename_i hb
      split_ifs at h with twice
      have new : p.long = false := by simpa using twice
      exact StlReads.prefixed (p' := { p with long := true }) (x := [b])
        (by simp [StlPfx.bytes, stlLongBytes, new, byte hb]) (ih _ _ _ range h)
    · simp only at h
      split at h
      · cases h
      rename_i refuses
      split at h
      · cases h
      rename_i few
      obtain rfl := StlDec.ok.inj h
      have enough : stlOperands b.toNat p.long ≤ rest.length := not_lt.mp few
      exact ⟨p, [], b, rest.take (stlOperands b.toNat p.long), rest.drop (stlOperands b.toNat p.long), by simp, range, by simp, by simpa using refuses,
        List.length_take_of_le enough, by simp [stlInsnOf, List.length_take_of_le enough]⟩

/-- The encoding of a decoded instruction is its prefixes' bytes, its opcode and its operand bytes. -/
theorem stlEncode_stlInsnOf (q : StlPfx) (n : Nat) (o : Byte) (l : List Byte) (range : q.InRange) (len : l.length = stlOperands o.toNat q.long) :
    stlEncode (stlInsnOf q n o l) = q.bytes ++ o :: l := by
  have back := leBytes_leNat l
  rw [stlEncode_eq]
  rcases range with w | w | w <;> simp [stlInsnOf, StlPfx.bytes, stlWidthBytes, w, ← len, back]

/-- Prefixes in the order width, bank, LONG decode to themselves. -/
theorem stlDecode_bytes (q : StlPfx) (range : q.InRange) (o : Byte) (l : List Byte) (accepts : stlAccepts o.toNat q = true)
    (len : l.length = stlOperands o.toNat q.long) : stlDecode (q.bytes ++ o :: l) = .ok (stlInsnOf q q.bytes.length o l) := by
  obtain ⟨w, bank, long⟩ := q
  have after : ∀ n fuel, stlDecodeFrom (stlLongBytes long ++ o :: l) ⟨w, bank, false⟩ n (fuel + 2)
      = .ok (stlInsnOf ⟨w, bank, long⟩ (n + (stlLongBytes long).length) o l) := fun n fuel => by
    cases long
    · exact stlDecodeFrom_opcode _ n (fuel + 1) o l accepts len
    · exact stlDecodeFrom_opcode _ (n + 1) fuel o l accepts len
  have bank_ : ∀ n fuel, stlDecodeFrom (stlBankBytes bank ++ (stlLongBytes long ++ o :: l)) ⟨w, none, false⟩ n (fuel + 3)
      = .ok (stlInsnOf ⟨w, bank, long⟩ (n + (stlBankBytes bank).length + (stlLongBytes long).length) o l) := fun n fuel => by
    cases bank
    · exact after n (fuel + 1)
    · exact after (n + 2) fuel
  simp only [StlPfx.bytes, List.append_assoc, List.length_append]
  rcases range with rfl | rfl | rfl
  · exact (bank_ 0 2).trans (by simp [stlWidthBytes])
  · exact (bank_ 1 1).trans (by simp [stlWidthBytes, Nat.add_assoc])
  · exact (bank_ 1 1).trans (by simp [stlWidthBytes, Nat.add_assoc])

theorem stlEncodingRoundTrip : Rules.StlEncodingRoundTrip := by
  intro b i h
  obtain ⟨q, pre, o, l, rest, rfl, range, perm, accepts, len, rfl⟩ := stlDecodeFrom_ok 5 b {} 0 (.inl rfl) h
  have perm : q.bytes.Perm pre := perm
  rw [stlEncode_stlInsnOf q _ o l range len]
  constructor
  · rw [stlDecode_bytes q range o l accepts len, perm.length_eq, Nat.zero_add]
  · have whole : (stlInsnOf q (0 + pre.length) o l).len = (pre ++ o :: l).length := by simp [stlInsnOf]; omega
    rw [whole, List.take_left]
    exact perm.append_right _

/-- Settles O7: both decoders keep every byte, and read the canonical order of the prefixes back. -/
theorem encodingRoundTrip : Obligations.EncodingRoundTrip := ⟨ozEncodingRoundTrip, stlEncodingRoundTrip⟩

/-- Settles O8, by decoding each word. -/
theorem specWordsDecode : Obligations.SpecWordsDecode := by
  refine ⟨⟨_, rfl, ?_⟩, ⟨_, rfl, ?_⟩, ⟨_, rfl, rfl⟩, ⟨_, rfl, rfl⟩, rfl, ⟨_, rfl, ?_⟩, ⟨_, rfl, ?_⟩⟩ <;> decide

end Sys2Proof.Machine
end

section
/-! ## RETI (04 R112; 12 R343, R346), O21 -/

namespace Sys2Proof.Machine

/-- A core at S whose saved state returns to U, with bit 8 set in EPC_S; level 0 of the events, whose target is U, is pending and enabled. -/
def chainsToU : Core :=
  let c := (((({} : Core).setSys 0x4000 0x3F0).setSys 0x8009 0).setSys 0x4100 1).setSys 0x4110 1
  { c with level := 1, queue := (List.range 8).map (fun k => ⟨blockOf c.pc + BitVec.ofNat 64 (16 * k), false⟩) }

/-- Core 0 of a block whose first domains run, released and ready. -/
def chainsToUState : State :=
  ((([0, 1, 192, 216].foldl (fun s d => s.setNat (dstat d) 3) State.reset).setNat (corePage 0 0x10) 3).setNat (rts 0x44) 1).setCore 0 chainsToU

/-- The encoding of RETI. -/
def retiBytes : List Byte := [0x6F, 0x74]

/-- What it decodes to. -/
def retiInsn : Insn := { op := .reti, map := 1, opc := 0x74, len := 2 }

theorem issues_chainsToU : Issues chainsToUState 0 retiBytes retiInsn (chainsToUState.fetchFor 0 retiInsn).2 where
  runs := by decide
  may := by decide
  calm := by decide
  room := by decide
  single := by decide
  spells := by decide
  fetched := by decide

/-- Refutes O21: a chained entry whose target is U writes EPC and ESTAT "of U", which are STATUS, and clears its EV_EN, bit 8, which EPC_S holds. -/
theorem not_returns : ¬ Obligations.Returns := by
  rintro ⟨-, chained⟩
  obtain ⟨t, ht, -, epc, -⟩ := chained chainsToUState _ 0 retiBytes retiInsn 0 issues_chainsToU rfl (by decide) (by decide) (by decide)
  have kept : (match exec (.reti 0 retiBytes) chainsToUState with | .next t => (t.core 0).sysReg 0 | _ => 0) = 752 := by decide
  rw [ht] at kept
  exact absurd (kept.symm.trans epc) (by decide)

end Sys2Proof.Machine
end

section
/-! ## Instructions that carry more than their own core with them -/

namespace Sys2Proof.Machine

/-- `v` is `u` with core `n` as `c`, but for the log of a bound core, which an instruction may already have written (09 R252, R253). -/
structure Leaves (u v : State) (n : Nat) (c : Core) : Prop where
  rest : v = { u with cores := v.cores, net := { u.net with flights := v.net.flights } }
  self : v.core n = { c with bunk := (v.core n).bunk }
  pair : (v.core n).bunk.bound = (u.core n).bunk.bound ∧ (v.core n).bunk.shadow = (u.core n).bunk.shadow
  others : ∀ m, m ≠ n → v.core m = u.core m
  alone : (u.core n).bunk.bound = false → v.net = u.net ∧ (v.core n).bunk = (u.core n).bunk

theorem Leaves.refl (u : State) (n : Nat) : Leaves u u n (u.core n) := ⟨rfl, rfl, ⟨rfl, rfl⟩, fun _ _ => rfl, fun _ => ⟨rfl, rfl⟩⟩

/-- The core is written as a whole, its log apart. -/
theorem Leaves.setCore (u : State) (n : Nat) {c : Core} (hb : c.bunk = (u.core n).bunk) : Leaves u (u.setCore n c) n c :=
  ⟨rfl, by simp, by simp [hb], fun m hm => by rw [State.core_setCore, if_neg hm], fun _ => ⟨rfl, by simp [hb]⟩⟩

/-- A function of the core that neither reads nor writes its log. -/
def IgnoresBunk (f : Core → Core) : Prop := ∀ c b, f { c with bunk := b } = { f c with bunk := b }

theorem IgnoresBunk.bunk {f : Core → Core} (h : IgnoresBunk f) (c : Core) : (f c).bunk = c.bunk := by
  have := congrArg Core.bunk (h c c.bunk)
  exact this

theorem Leaves.updCore {u v : State} {n : Nat} {c : Core} (h : Leaves u v n c) {f : Core → Core} (hf : IgnoresBunk f) :
    Leaves u (v.updCore n f) n (f c) := by
  have self : (v.updCore n f).core n = { f c with bunk := (v.core n).bunk } := by rw [State.core_updCore_same, h.self, hf]
  refine ⟨by rw [State.updCore, h.rest]; rfl, by rw [self], by rw [self]; exact h.pair, fun m hm => ?_, fun hu => ?_⟩
  · rw [State.core_updCore, if_neg hm, h.others m hm]
  · rw [self]; exact h.alone hu

/-- A step of the log after it. -/
theorem Leaves.log {u v w : State} {n : Nat} {c : Core} (h : Leaves u v n c) (hw : BunkOnly n v w) (unbound : (v.core n).bunk.bound = false → w = v) :
    Leaves u w n c := by
  refine ⟨by rw [hw.rest, h.rest], by rw [hw.self, h.self], ⟨hw.pair.1.trans h.pair.1, hw.pair.2.trans h.pair.2⟩,
    fun m hm => (hw.others m hm).trans (h.others m hm), fun hu => ?_⟩
  rw [unbound (h.pair.1.trans hu)]
  exact h.alone hu

theorem Leaves.logRec {u v : State} {n : Nat} {c : Core} (h : Leaves u v n c) (ctl : Bool) (l : List W64) : Leaves u (v.logRec n ctl l) n c :=
  h.log (BunkOnly.logRec n v ctl l) (State.logRec_unbound v n ctl l)

theorem Leaves.isShadow {u v : State} {n : Nat} {c : Core} (h : Leaves u v n c) : (v.core n).isShadow = (u.core n).isShadow := by
  simp [Core.isShadow, h.pair]

/-- Registers, memory and the rest of the block are as before. -/
theorem Leaves.reg {u v : State} {n : Nat} {c : Core} (h : Leaves u v n c) (a : Nat) : v.reg a = u.reg a := State.reg_congr (by rw [h.rest]) a

theorem IgnoresBunk.settled : IgnoresBunk Core.settled := fun _ _ => rfl
theorem IgnoresBunk.setPc (q : W64) : IgnoresBunk (fun c => { c with pc := q }) := fun _ _ => rfl

theorem IgnoresBunk.loopBack (q : W64) : IgnoresBunk (fun c => c.loopBack q) := by
  intro c b
  show (if bitOf (c.sysReg 0) 8 && q == c.sysReg 4 then _ else _ : Core) = { c.loopBack q with bunk := b }
  unfold Core.loopBack
  split
  · show (if c.sysReg 2 - 1 = 0 then _ else _ : Core) = { (if c.sysReg 2 - 1 = 0 then _ else _ : Core) with bunk := b }
    split <;> rfl
  · rfl

/-- What retires after an instruction has left the core as `c` is `f` of that, and the rest of the block stays. -/
theorem Leaves.retireBy {u v : State} {n : Fin 192} {c : Core} (h : Leaves u v n.val c) {f : Core → Core} (hf : IgnoresBunk f) :
    (v.retireBy n.val f).core n.val = { (f c).settled with bunk := ((v.retireBy n.val f).core n.val).bunk } ∧ Rest u (v.retireBy n.val f) n := by
  obtain ⟨core, r⟩ := State.retireBy_rest v n f (hf.bunk _)
  refine ⟨?_, ?_⟩
  · rw [core, h.self, hf]; rfl
  have rest := h.rest
  exact
    { mem := by rw [r.mem, rest], coh := by rw [r.coh, rest], stools := by rw [r.stools, rest], clock := by rw [r.clock, rest]
      frame := by rw [r.frame, rest], ev := by rw [r.ev, rest], err := by rw [r.err, rest], otp := by rw [r.otp, rest], rot := by rw [r.rot, rest]
      te := by rw [r.te, rest], port := by rw [r.port, rest], soft := by rw [r.soft, rest], pending := by rw [r.pending, rest]
      fresh := by rw [r.fresh, rest], power := by rw [r.power, rest], net := by rw [r.net, rest]
      others := fun m hm => (r.others m hm).trans (h.others m hm)
      regs := fun a h1 h2 => (r.regs a h1 h2).trans (h.reg a)
      count := by rw [r.count]; unfold State.reg64; rw [h.reg, h.reg]
      alone := fun hu => by
        have bound := h.pair.1.trans hu
        rw [(r.alone bound).1, (r.alone bound).2]
        exact h.alone hu }

theorem State.isShadow_retireBy (v : State) (n : Nat) {f : Core → Core} (hf : IgnoresBunk f) :
    ((v.retireBy n f).core n).isShadow = (v.core n).isShadow := by
  unfold State.retireBy
  rw [(BunkOnly.bunkRetire n _).isShadow]
  show (State.core (State.useLast _ _) _).isShadow = _
  rw [State.core_useLast, State.core_updCore_same, Core.isShadow, Core.settled_bunk, hf.bunk, ← Core.isShadow]

section
variable {u v : State} {n : Fin 192} {c : Core} (h : Leaves u v n.val c) (single : (u.core n.val).isShadow = false)
include h single

theorem Leaves.retireInsn_eq {f : Core → Core} (hf : IgnoresBunk f) : v.retireInsn n.val f = v.retireBy n.val f :=
  State.retireInsn_single v n.val f (by rw [State.isShadow_retireBy v n.val hf, h.isShadow, single])

theorem Leaves.retires (q : W64) : Retires u (v.retireInsn n.val (fun c => c.loopBack q)) n c q := by
  rw [h.retireInsn_eq single (.loopBack q)]; exact h.retireBy (.loopBack q)

theorem Leaves.jumps (q : W64) : Jumps u (v.retireInsn n.val (fun c => { c with pc := q })) n c q := by
  rw [h.retireInsn_eq single (.setPc q)]; exact h.retireBy (.setPc q)

end

/-! ### What a row makes of its effect -/

section
variable {s u v : State} {n : Fin 192} {b : List Byte} {i : Insn} {is : Insn → Bool} {f : Sem}
variable (h : Issues s n b i u) (hi : is i = true)
include h hi

theorem Issues.next {c : Core} (e : f n.val i (seqOf u n i) u = .next v) (hv : Leaves u v n.val c) :
    ∃ t, s.issue n.val b is f = .next t ∧ Retires u t n c (seqOf u n i) := by
  refine ⟨_, State.issue_of_issues h is hi f, ?_⟩
  show Retires u (u.carry n.val (seqOf u n i) (f n.val i (seqOf u n i) u)) n c _
  rw [e]
  exact hv.retires h.single' _

/-- An instruction that changed more than its core retires from the state `w` that it made. -/
theorem Issues.next_from {w : State} {c : Core} (e : f n.val i (seqOf u n i) u = .next v) (hv : Leaves w v n.val c)
    (single : (w.core n.val).isShadow = false) : ∃ t, s.issue n.val b is f = .next t ∧ Retires w t n c (seqOf u n i) := by
  refine ⟨_, State.issue_of_issues h is hi f, ?_⟩
  show Retires w (u.carry n.val (seqOf u n i) (f n.val i (seqOf u n i) u)) n c _
  rw [e]
  exact hv.retires single _

theorem Issues.hold {c : Core} (e : f n.val i (seqOf u n i) u = .hold v) (hv : Leaves u v n.val c) :
    ∃ t, s.issue n.val b is f = .next t ∧ Jumps u t n c (seqOf u n i) := by
  refine ⟨_, State.issue_of_issues h is hi f, ?_⟩
  show Jumps u (u.carry n.val (seqOf u n i) (f n.val i (seqOf u n i) u)) n c _
  rw [e]
  exact hv.jumps h.single' _

theorem Issues.wait (e : f n.val i (seqOf u n i) u = .wait v) : s.issue n.val b is f = .next v := by
  rw [State.issue_of_issues h is hi f]
  show Host.Outcome.next (u.carry n.val (seqOf u n i) (f n.val i (seqOf u n i) u)) = _
  rw [e]; rfl

theorem Issues.done (e : f n.val i (seqOf u n i) u = .done v) : s.issue n.val b is f = .next v := by
  rw [State.issue_of_issues h is hi f]
  show Host.Outcome.next (u.carry n.val (seqOf u n i) (f n.val i (seqOf u n i) u)) = _
  rw [e]; rfl

theorem Issues.trap {x : Exc} (e : f n.val i (seqOf u n i) u = .trap v x) : s.issue n.val b is f = .next (v.raiseExc n.val x) := by
  rw [State.issue_of_issues h is hi f]
  show Host.Outcome.next (u.carry n.val (seqOf u n i) (f n.val i (seqOf u n i) u)) = _
  rw [e, State.carry, h.single']; rfl

theorem Issues.call {x : Exc} (e : f n.val i (seqOf u n i) u = .call v x) :
    s.issue n.val b is f = .next ((v.retireBy n.val (fun c => c.loopBack (seqOf u n i))).raiseExc n.val x) := by
  rw [State.issue_of_issues h is hi f]
  show Host.Outcome.next (u.carry n.val (seqOf u n i) (f n.val i (seqOf u n i) u)) = _
  rw [e, State.carry, h.single']; rfl

end

end Sys2Proof.Machine
end

section
/-! ## Exceptions of a core (04 R99-R105) -/

namespace Sys2Proof.Machine

/-! ### The entry of a core -/

/-- The level's registers lie apart, and apart from STATUS. -/
theorem lvlReg_inj {t j k : Nat} : lvlReg t j = lvlReg t k ↔ j = k := by unfold lvlReg; omega

theorem Core.sysReg_congr {c d : Core} (h : d.sys = c.sys) (r : Nat) : d.sysReg r = c.sysReg r := by unfold Core.sysReg; rw [h]

/-- The system registers that an entry writes: those of the level, FAR2_H of a stage 2 fault, and LA in STATUS (04 R102). -/
def Core.entryRegs (c : Core) (t : Nat) (ret cause far : W64) (far2 : Option W64) : Core :=
  let d := (((c.setSys (lvlReg t 0) ret).setSys (lvlReg t 1) (estatOf c.status c.level.val)).setSys (lvlReg t 2) cause).setSys (lvlReg t 3) far
  (far2.elim d (d.setSys 0x8007)).setSys 0 (putBit c.status 8 false)

theorem Core.enter_eq (c : Core) (t : Nat) (ret cause far : W64) (far2 : Option W64) (off : Nat) : c.enter t ret cause far far2 off =
    { (c.entryRegs t ret cause far far2).settled.redirect with
      level := Fin.ofNat 4 t, pc := (c.entryRegs t ret cause far far2).sysReg (lvlReg t 4) + BitVec.ofNat 64 off, vec := true } := by
  cases far2 <;> rfl

theorem Core.sysReg_entryRegs (c : Core) (t : Nat) (ret cause far : W64) (far2 : Option W64) (r : Nat) :
    (c.entryRegs t ret cause far far2).sysReg r =
      if r = 0 then putBit c.status 8 false else if r = 0x8007 ∧ far2.isSome then far2.getD 0 else if r = lvlReg t 3 then far
      else if r = lvlReg t 2 then cause else if r = lvlReg t 1 then estatOf c.status c.level.val else if r = lvlReg t 0 then ret else c.sysReg r := by
  cases far2 <;> simp [Core.entryRegs, Core.sysReg_setSys]

theorem Core.sysReg_enter (c : Core) (t : Nat) (ret cause far : W64) (far2 : Option W64) (off r : Nat) :
    (c.enter t ret cause far far2 off).sysReg r = (c.entryRegs t ret cause far far2).sysReg r :=
  Core.sysReg_congr (congrArg Core.sys (c.enter_eq t ret cause far far2 off)) r

/-- The registers of the level that is entered (04 R102). -/
theorem Core.sysReg_entryRegs_level (c : Core) {t k : Nat} (ret cause far : W64) (far2 : Option W64) (ht : 1 ≤ t) (hk : k < 4) :
    (c.entryRegs t ret cause far far2).sysReg (0x4000 * t + k) =
      if k = 3 then far else if k = 2 then cause else if k = 1 then estatOf c.status c.level.val else ret := by
  have place : ∀ j, (0x4000 * t + k = lvlReg t j) ↔ k = j := fun j => lvlReg_inj (t := t) (j := k) (k := j)
  rw [Core.sysReg_entryRegs, if_neg (by omega), if_neg (fun both => absurd both.1 (by omega))]
  simp only [place]
  interval_cases k <;> rfl

theorem Core.enter_pc (c : Core) (t : Nat) (ret cause far : W64) (far2 : Option W64) (off : Nat) (ht : 1 ≤ t) (h4 : t ≤ 3) :
    (c.enter t ret cause far far2 off).pc = c.sysReg (0x4000 * t + 4) + BitVec.ofNat 64 off := by
  have apart : lvlReg t 4 ≠ 0 ∧ lvlReg t 4 ≠ 0x8007 := by unfold lvlReg; omega
  rw [Core.enter_eq]
  simp [Core.sysReg_entryRegs, lvlReg_inj, apart] <;> rfl

@[simp] theorem Core.enter_level (c : Core) (t : Nat) (ret cause far : W64) (far2 : Option W64) (off : Nat) :
    (c.enter t ret cause far far2 off).level = Fin.ofNat 4 t := rfl

theorem Core.enter_gs (c : Core) (t : Nat) (ret cause far : W64) (far2 : Option W64) (off : Nat) :
    (c.enter t ret cause far far2 off).g = c.g ∧ (c.enter t ret cause far far2 off).f = c.f ∧ (c.enter t ret cause far far2 off).sb = c.sb
      ∧ (c.enter t ret cause far far2 off).bunk = c.bunk := by
  rw [Core.enter_eq]
  cases far2 <;> simp [Core.entryRegs, Core.redirect]

/-- The fields of ESTAT: the level that was left, and the low half of STATUS. -/
theorem estatOf_fields (status : W64) (level : Fin 4) :
    fieldOf (estatOf status level.val) 0 2 = level.val ∧ fieldOf (estatOf status level.val) 16 16 = fieldOf status 0 16 := by
  have lt := fieldOf_lt status 0 16
  have := level.isLt
  unfold estatOf
  generalize fieldOf status 0 16 = x at *
  unfold fieldOf
  simp only [BitVec.toNat_ofNat, Nat.shiftRight_eq_div_pow]
  norm_num
  omega

/-- Core `d` has the registers, the level and the PC of core `c`. -/
structure SameRegs (c d : Core) : Prop where
  g : d.g = c.g
  f : d.f = c.f
  sys : d.sys = c.sys
  pc : d.pc = c.pc
  level : d.level = c.level
  sb : d.sb = c.sb

/-- An entry without FAR2_H is one in the sense of the statements; logs and PL_CTL aside. -/
theorem Core.entered_enter {c d : Core} {t : Nat} {ret cause far : W64} {off : Nat} (ht : 1 ≤ t) (h4 : t ≤ 3)
    (h : SameRegs (c.enter t ret cause far none off) d) : Entered c d t ret cause far off := by
  obtain ⟨g, f, sys, pc, level, sb⟩ := h
  obtain ⟨gs, fs, sbs, -⟩ := c.enter_gs t ret cause far none off
  obtain ⟨ppl, saved⟩ := estatOf_fields c.status c.level
  have reg := fun r => (Core.sysReg_congr sys r).trans (c.sysReg_enter t ret cause far none off r)
  have place : ∀ k, k < 4 → d.sysReg (0x4000 * t + k) = _ := fun k hk => (reg _).trans (c.sysReg_entryRegs_level ret cause far none ht hk)
  have status : d.sysReg 0 = putBit c.status 8 false := by rw [reg, Core.sysReg_entryRegs, if_pos rfl]
  exact
    { epc := place 0 (by omega)
      ppl := by rw [place 1 (by omega)]; exact ppl
      saved := by rw [place 1 (by omega)]; exact saved
      cause := place 2 (by omega)
      far := place 3 (by omega)
      la := by rw [status, bitOf_putBit_same _ _ _ (by omega)]
      status := fun k hk => by rw [status, bitOf_putBit _ _ _ _ (by omega), if_neg hk]; rfl
      level := by rw [level, Core.enter_level, Fin.val_ofNat, Nat.mod_eq_of_lt (by omega)]
      pc := by rw [pc, Core.enter_pc _ _ _ _ _ _ _ ht h4]
      others := fun r h0 h1 h2 h3 h4 => by rw [reg, Core.sysReg_entryRegs]; simp [lvlReg, h0, h1, h2, h3, h4]
      gs := g.trans gs
      fs := f.trans fs
      sb := sb.trans sbs }

theorem State.core_force (s : State) (b k m : Nat) : (s.force b k).core m = s.core m := by rw [State.force_rest]; rfl

theorem State.core_raise (s : State) (b k m : Nat) (q : Option PartId) : (s.raise b k q).core m = s.core m :=
  State.core_congr (State.raise_cores s b k q) m

/-! ### What an exception leaves alone outside its core -/

end Sys2Proof.Machine

open Sys2Proof Sys2Proof.Machine

theorem EntryFrame.refl (u : State) (n : Fin 192) : EntryFrame u u n := ⟨rfl, rfl, rfl, rfl, rfl, rfl, rfl, fun _ _ => rfl⟩

theorem EntryFrame.trans {u v w : State} {n : Fin 192} (h : EntryFrame u v n) (k : EntryFrame v w n) : EntryFrame u w n :=
  ⟨k.mem.trans h.mem, k.coh.trans h.coh, k.stools.trans h.stools, k.clock.trans h.clock, k.frame.trans h.frame, k.otp.trans h.otp,
    k.pending.trans h.pending, fun m hm => (k.others m hm).trans (h.others m hm)⟩

theorem EntryFrame.updCore (u : State) (n : Fin 192) (f : Core → Core) : EntryFrame u (u.updCore n.val f) n :=
  ⟨rfl, rfl, rfl, rfl, rfl, rfl, rfl, fun m hm => by rw [State.core_updCore, if_neg hm]⟩

theorem EntryFrame.setCore (u : State) (n : Fin 192) (c : Core) : EntryFrame u (u.setCore n.val c) n :=
  ⟨rfl, rfl, rfl, rfl, rfl, rfl, rfl, fun m hm => by rw [State.core_setCore, if_neg hm]⟩

theorem EntryFrame.log {u v : State} {n : Fin 192} (h : BunkOnly n.val u v) : EntryFrame u v n := by
  refine ⟨?_, ?_, ?_, ?_, ?_, ?_, ?_, h.others⟩ <;> rw [h.rest]

theorem EntryFrame.force (u : State) (n : Fin 192) (b k : Nat) : EntryFrame u (u.force b k) n := by
  refine ⟨?_, ?_, ?_, ?_, ?_, ?_, ?_, fun m _ => State.core_force u b k m⟩ <;> rw [State.force_rest]

theorem EntryFrame.raise (u : State) (n : Fin 192) (b k : Nat) (q : Option PartId) : EntryFrame u (u.raise b k q) n := by
  refine ⟨?_, ?_, ?_, ?_, ?_, ?_, ?_, fun m _ => State.core_raise u b k m q⟩ <;> rw [State.raise_rest]

theorem Sys2Proof.Machine.Rest.entryFrame {u v : State} {n : Fin 192} (h : Rest u v n) : EntryFrame u v n :=
  ⟨h.mem, h.coh, h.stools, h.clock, h.frame, h.otp, h.pending, h.others⟩

namespace Sys2Proof.Machine

/-! ### Synchronous exceptions -/

/-- The log of a synchronous entry: the snapshot that is due, or a record. -/
theorem State.enterSync_spec (s : State) (n : Fin 192) (t : Nat) (ret cause far : W64) (far2 : Option W64) :
    EntryFrame s (s.enterSync n.val t ret cause far far2) n
      ∧ SameRegs ((s.core n.val).enter t ret cause far far2 (syncOff t (s.core n.val).level.val)) ((s.enterSync n.val t ret cause far far2).core n.val) := by
  unfold State.enterSync
  extract_lets v cur w b
  have forced : v.core n.val = s.core n.val := State.core_force s _ _ _
  have same : cur = (s.core n.val).level.val := congrArg (fun c : Core => c.level.val) forced
  have wcore : w.core n.val = { (s.core n.val).enter t ret cause far far2 (syncOff t (s.core n.val).level.val) with pl := (w.core n.val).pl } := by
    simp only [w, State.applyPl, State.core_updCore_same, forced, same] <;> rfl
  have frame : EntryFrame s w n := ((EntryFrame.force s n _ _).trans (EntryFrame.updCore v n _)).trans (EntryFrame.updCore _ n _)
  have logged : ∀ x, BunkOnly n.val w x → EntryFrame s x n
      ∧ SameRegs ((s.core n.val).enter t ret cause far far2 (syncOff t (s.core n.val).level.val)) (x.core n.val) := fun x hx =>
    ⟨frame.trans (.log hx), by rw [hx.self, wcore]; exact ⟨rfl, rfl, rfl, rfl, rfl, rfl⟩⟩
  split
  · exact logged _ (BunkOnly.sendSnapshot n.val w)
  · exact logged _ (BunkOnly.logRec n.val w _ _)

theorem max_level_le (k : Nat) (hk : k ≤ 3) (l : Fin 4) : max k l.val ≤ 3 := by omega

/-- An exception that is no double fault enters the greater of its level and the current one (04 R100). -/
theorem State.raiseExc_spec {s : State} {n : Fin 192} {x : Exc} (vec : (s.core n.val).vec = false) (h1 : 1 ≤ x.level) (h3 : x.level ≤ 3)
    (plain : x.far2 = none) : EntryFrame s (s.raiseExc n.val x) n
      ∧ Entered (s.core n.val) ((s.raiseExc n.val x).core n.val) (max x.level (s.core n.val).level.val) (s.core n.val).pc x.word x.far
          (syncOff (max x.level (s.core n.val).level.val) (s.core n.val).level.val) := by
  unfold State.raiseExc
  extract_lets c cur
  have vec : c.vec = false := vec
  rw [vec, if_neg (by simp), plain]
  obtain ⟨frame, regs⟩ := s.enterSync_spec n (max x.level cur) c.pc x.word x.far none
  exact ⟨frame, Core.entered_enter (le_max_of_le_left h1) (max_level_le _ h3 _) regs⟩

/-- An exception in the window of an entry below M is a double fault, one level up (04 R105). -/
theorem State.raiseExc_double {s : State} {n : Fin 192} {x : Exc} (vec : (s.core n.val).vec = true) (below : (s.core n.val).level ≠ 3) (plain : x.far = 0) :
    Entered (s.core n.val) ((s.raiseExc n.val x).core n.val) ((s.core n.val).level.val + 1) (s.core n.val).pc
      (BitVec.ofNat 64 (0x0B + 4294967296 * (x.code % 65536))) 0 0x80 := by
  unfold State.raiseExc
  extract_lets c cur d
  have vec : c.vec = true := vec
  have low : cur ≤ 2 := by
    have not3 : cur ≠ 3 := fun h => below (Fin.ext h)
    have lt4 : cur < 4 := (s.core n.val).level.isLt
    omega
  rw [vec, if_pos rfl, if_neg (by omega)]
  obtain ⟨-, regs⟩ := s.enterSync_spec n (cur + 1) c.pc d.word d.far none
  have off : syncOff (cur + 1) (s.core n.val).level.val = 0x80 := if_neg (Nat.succ_ne_self _)
  have far : d.far = 0 := plain
  have word : d.word = BitVec.ofNat 64 (0x0B + 4294967296 * (x.code % 65536)) := by simp [Exc.word, d, b2n]
  rw [far, word] at regs ⊢
  rw [off] at regs
  exact Core.entered_enter (by omega) (by omega) regs

/-- At M the core stops, and says so (04 R105). -/
theorem State.raiseExc_dead {s : State} {n : Fin 192} {x : Exc} (vec : (s.core n.val).vec = true) (top : (s.core n.val).level = 3) :
    s.raiseExc n.val x = (s.updCore n.val (fun c => { c with run := .dead })).raise (corePage n.val 0) 3 := by
  unfold State.raiseExc
  simp only [vec, top, if_true] <;> rfl

end Sys2Proof.Machine
end

section
/-! ## Registers, flags and conditions (04 R70, R72, R94), O9 -/

namespace Sys2Proof.Machine

/-- Register 0 is wired; the others are a file. -/
theorem registerZeroRule : Rules.RegisterZeroRule := fun c k j v =>
  ⟨rfl, rfl, fun hk => by rw [Core.gr_setG]; simp [hk], fun hj => by rw [Core.gr_setG]; simp [hj], by rw [Core.setG_frame], by rw [Core.setG_frame]⟩

theorem flagsLeaveStatus : Rules.FlagsLeaveStatus := by
  intro x f
  have bit : ∀ k, bitOf (putNzcv x f) k = if k < 4 then (b2n f.c + 2 * b2n f.v + 4 * b2n f.z + 8 * b2n f.n).testBit k else bitOf x k := fun k => by
    rw [putNzcv, bitOf_putField _ _ _ _ _ (by omega)]; simp
  have code : ∀ n z c v : Bool, let x := b2n c + 2 * b2n v + 4 * b2n z + 8 * b2n n
      x.testBit 0 = c ∧ x.testBit 1 = v ∧ x.testBit 2 = z ∧ x.testBit 3 = n := by decide
  simp only [bit]
  obtain ⟨c, v, z, n⟩ := code f.n f.z f.c f.v
  exact ⟨c, v, z, n, fun k hk => if_neg (by omega)⟩

theorem conditionTable : Rules.ConditionTable := fun f =>
  ⟨rfl, rfl, rfl, rfl, rfl, rfl, rfl, rfl, fun k hk => by interval_cases k <;> rfl⟩

/-- Settles O9. -/
theorem registersFlagsConditions : Obligations.RegistersFlagsConditions :=
  ⟨registerZeroRule, flagsLeaveStatus, conditionTable, fun _ _ _ _ _ h => h.via⟩

end Sys2Proof.Machine
end

section
/-! ## System calls, double faults and illegal bytes (04 R99-R107, R535), O13 and O14 -/

namespace Sys2Proof.Machine

/-! ### An instruction that raises an exception -/

theorem Issues.traps {s u v : State} {n : Fin 192} {b : List Byte} {i : Insn} {is : Insn → Bool} {f : Sem} {x : Exc} (h : Issues s n b i u)
    (hi : is i = true) (e : f n.val i (seqOf u n i) u = .trap v x) (vec : (v.core n.val).vec = false) (h1 : 1 ≤ x.level) (h3 : x.level ≤ 3)
    (plain : x.far2 = none) :
    ∃ t, s.issue n.val b is f = .next t ∧ EntryFrame v t n
      ∧ Entered (v.core n.val) (t.core n.val) (max x.level (v.core n.val).level.val) (v.core n.val).pc x.word x.far
          (syncOff (max x.level (v.core n.val).level.val) (v.core n.val).level.val) :=
  ⟨_, h.trap hi e, State.raiseExc_spec vec h1 h3 plain⟩

/-- PRIV below M is taken one level up (04 R99). -/
theorem privExc_below {l : Nat} (h : l ≤ 2) (info : Nat) : privExc l info = { code := 2, level := l + 1, info := info } := if_neg (by omega)

/-- PRIV below M, entered. -/
theorem State.raiseExc_priv {v : State} {n : Fin 192} {info : Nat} (below : (v.core n.val).level.val ≤ 2) (vec : (v.core n.val).vec = false) :
    EntryFrame v (v.raiseExc n.val (privExc (v.core n.val).level.val info)) n
      ∧ Entered (v.core n.val) ((v.raiseExc n.val (privExc (v.core n.val).level.val info)).core n.val) ((v.core n.val).level.val + 1)
          (v.core n.val).pc (BitVec.ofNat 64 (2 + 4294967296 * (info % 65536))) 0 0x80 := by
  rw [privExc_below below]
  obtain ⟨frame, entered⟩ := State.raiseExc_spec (x := { code := 2, level := (v.core n.val).level.val + 1, info := info }) vec (by simp)
    (Nat.succ_le_succ below) rfl
  have up : max ((v.core n.val).level.val + 1) (v.core n.val).level.val = (v.core n.val).level.val + 1 := by omega
  have off : syncOff ((v.core n.val).level.val + 1) (v.core n.val).level.val = 0x80 := if_neg (Nat.succ_ne_self _)
  have word : Exc.word { code := 2, level := (v.core n.val).level.val + 1, info := info } = BitVec.ofNat 64 (2 + 4294967296 * (info % 65536)) := by
    simp [Exc.word, b2n]
  simp only [up, off, word] at entered
  exact ⟨frame, entered⟩

theorem Issues.traps_priv {s u v : State} {n : Fin 192} {b : List Byte} {i : Insn} {is : Insn → Bool} {f : Sem} {info : Nat} (h : Issues s n b i u)
    (hi : is i = true) (below : (v.core n.val).level.val ≤ 2)
    (e : f n.val i (seqOf u n i) u = .trap v (privExc (v.core n.val).level.val info)) (vec : (v.core n.val).vec = false) :
    ∃ t, s.issue n.val b is f = .next t ∧ EntryFrame v t n
      ∧ Entered (v.core n.val) (t.core n.val) ((v.core n.val).level.val + 1) (v.core n.val).pc (BitVec.ofNat 64 (2 + 4294967296 * (info % 65536))) 0 0x80 :=
  ⟨_, h.trap hi e, State.raiseExc_priv below vec⟩

/-- ILL enters the greater of S and the current level (04 R99, R100). -/
theorem State.raiseExc_ill {v : State} {n : Fin 192} (k : Nat) (vec : (v.core n.val).vec = false) :
    EntryFrame v (v.raiseExc n.val (ill k)) n
      ∧ Entered (v.core n.val) ((v.raiseExc n.val (ill k)).core n.val) (max 1 (v.core n.val).level.val) (v.core n.val).pc
          (BitVec.ofNat 64 (1 + 256 * k)) 0 (syncOff (max 1 (v.core n.val).level.val) (v.core n.val).level.val) := by
  have word : (ill k).word = BitVec.ofNat 64 (1 + 256 * k) := by simp [Exc.word, ill, b2n]
  obtain ⟨frame, entered⟩ := State.raiseExc_spec (x := ill k) vec (by simp [ill]) (by simp [ill]) rfl
  rw [word] at entered
  exact ⟨frame, entered⟩

/-! ### System calls -/

theorem Insn.sysImm_lt (i : Insn) : i.sysImm < 65536 := by
  show (i.imm % ((2 ^ 16 : Nat) : Int)).toNat < 65536
  have := Int.emod_lt_of_pos i.imm (show (0 : Int) < ((2 ^ 16 : Nat) : Int) by norm_num)
  have := Int.emod_nonneg i.imm (show ((2 ^ 16 : Nat) : Int) ≠ 0 by norm_num)
  norm_num at *
  omega

theorem Core.loopBack_level (c : Core) (q : W64) : (c.loopBack q).level = c.level := by
  unfold Core.loopBack; split
  · simp only; split <;> rfl
  · rfl

theorem Entered.of_same {c c' d : Core} {t : Nat} {epc cause far : W64} {off : Nat} (same : SameRegs c c') (h : Entered c' d t epc cause far off) :
    Entered c d t epc cause far off := by
  have reg := fun r => Core.sysReg_congr same.sys r
  exact
    { epc := h.epc, ppl := same.level ▸ h.ppl, saved := reg 0 ▸ h.saved, cause := h.cause, far := h.far, la := h.la
      status := fun k hk => reg 0 ▸ h.status k hk, level := h.level, pc := reg _ ▸ h.pc
      others := fun r h0 h1 h2 h3 h4 => (h.others r h0 h1 h2 h3 h4).trans (reg r)
      gs := h.gs.trans same.g, fs := h.fs.trans same.f, sb := h.sb.trans same.sb }

/-- A system call that does not trap retires and enters its level (04 R99, R107). -/
theorem Issues.syscall {s u : State} {n : Fin 192} {b : List Byte} {i : Insn} {is : Insn → Bool} {code level : Nat} (h : Issues s n b i u)
    (hi : is i = true) (may : ¬(code ≠ 5 ∧ (u.core n.val).level.val = 0)) (h1 : 1 ≤ level) (h3 : level ≤ 3) :
    let after := (u.core n.val).loopBack (seqOf u n i)
    ∃ t, s.issue n.val b is (syscSem code level) = .next t ∧ EntryFrame u t n
      ∧ Entered after (t.core n.val) (max level (u.core n.val).level.val) after.pc (BitVec.ofNat 64 (code + 4294967296 * i.immAt 16)) 0
          (syncOff (max level (u.core n.val).level.val) (u.core n.val).level.val) := by
  intro after
  have e : syscSem code level n.val i (seqOf u n i) u = .call u { code := code, level := level, info := i.sysImm } := if_neg may
  obtain ⟨core, rest⟩ := (Leaves.refl u n.val).retireBy (IgnoresBunk.loopBack (seqOf u n i))
  generalize hv : u.retireBy n.val (fun c => c.loopBack (seqOf u n i)) = v at core rest
  have same : SameRegs after (v.core n.val) := by rw [core]; exact ⟨rfl, rfl, rfl, rfl, rfl, rfl⟩
  have vec : (v.core n.val).vec = false := by rw [core]; rfl
  obtain ⟨frame, entered⟩ := State.raiseExc_spec (x := { code := code, level := level, info := i.sysImm }) vec h1 h3 rfl
  have word : Exc.word { code := code, level := level, info := i.sysImm } = BitVec.ofNat 64 (code + 4294967296 * i.immAt 16) := by
    have small : i.immAt 16 < 65536 := i.sysImm_lt
    simp [Exc.word, b2n, Insn.sysImm, Nat.mod_eq_of_lt small]
  have lv : (v.core n.val).level = (u.core n.val).level := same.level.trans (Core.loopBack_level _ _)
  rw [word, lv, same.pc] at entered
  exact ⟨_, by rw [h.call hi e, hv], rest.entryFrame.trans frame, Entered.of_same same entered⟩

theorem cause_add (code info : Nat) : BitVec.ofNat 64 (code + info) = BitVec.ofNat 64 code + BitVec.ofNat 64 info := BitVec.ofNat_add _ _

theorem systemCallsEnter : Rules.SystemCallsEnter := by
  intro s u n b i h c lv after info
  have call : ∀ (x : Instr) (op : OzOp) (code level : Nat), exec x s = s.issue n.val b (fun i => i.op = op) (syscSem code level) → i.op = op →
      ¬(code ≠ 5 ∧ lv = 0) → 1 ≤ level → level ≤ 3 → ∃ t, exec x s = .next t ∧ EntryFrame u t n
        ∧ Entered after (t.core n.val) (max level lv) after.pc (BitVec.ofNat 64 code + info) 0 (syncOff (max level lv) lv) := by
    intro x op code level hx ho may h1 h3
    rw [hx, ← cause_add]
    exact h.syscall (by simp [ho]) may h1 h3
  refine ⟨fun ho => call _ .svc 5 1 rfl ho (by simp) (by simp) (by simp), fun ho hl => call _ .hvc 6 2 rfl ho (by omega) (by simp) (by simp),
    fun ho hl => ?_, fun ho vec => ?_⟩
  · have top : max 3 lv = 3 := max_eq_left (by have := c.level.isLt; omega)
    have := call (.mvc n b) .mvc 7 3 rfl ho (by omega) (by simp) (by simp)
    rwa [top] at this
  · exact h.traps (is := fun i => i.op = .brk) (f := fun _ _ _ s => .trap s { code := 8 }) (by simp [ho]) rfl vec (by simp) (by simp) rfl

theorem systemCallsAtUser : Rules.SystemCallsAtUser := by
  intro s u n b i h user vec
  have call : ∀ (x : Instr) (op : OzOp) (code level : Nat), exec x s = s.issue n.val b (fun i => i.op = op) (syscSem code level) → i.op = op → code ≠ 5 →
      ∃ t, exec x s = .next t ∧ Entered (u.core n.val) (t.core n.val) 1 (u.core n.val).pc 2 0 0x80 := by
    intro x op code level hx ho other
    have lv : (u.core n.val).level.val = 0 := congrArg Fin.val user
    have e : syscSem code level n.val i (seqOf u n i) u = .trap u (privExc (u.core n.val).level.val 0) := if_pos ⟨other, lv⟩
    obtain ⟨t, ht, -, entered⟩ := h.traps_priv (is := fun i => i.op = op) (by simp [ho]) (by omega) e vec
    rw [lv] at entered
    exact ⟨t, hx ▸ ht, entered⟩
  exact ⟨fun ho => call _ .hvc 6 2 rfl ho (by simp), fun ho => call _ .mvc 7 3 rfl ho (by simp)⟩

/-- Settles O13. -/
theorem systemCalls : Obligations.SystemCalls := ⟨systemCallsEnter, systemCallsAtUser⟩

/-! ### Double faults -/

theorem doubleFaults : Rules.DoubleFaults := by
  intro s u n b i h ho vec c
  have trap : exec (.brk n b) s = .next (u.raiseExc n.val { code := 8 }) :=
    h.trap (is := fun i => i.op = .brk) (f := fun _ _ _ s => .trap s { code := 8 }) (by simp [ho]) rfl
  refine ⟨fun below => ⟨_, trap, State.raiseExc_double vec below rfl⟩, fun top => ⟨_, trap, ?_, ?_, ?_⟩⟩
  · rw [State.raiseExc_dead vec top, State.core_raise, State.core_updCore_same]
  · rw [State.raiseExc_dead vec top, State.raise_mem]; rfl
  · rw [State.raiseExc_dead vec top]
    exact State.bit_raise (pageOf_corePage n (by omega)) rfl _ 3 none (by omega)

/-! ### Bytes that spell no instruction -/

/-- Every row answers bytes that spell no instruction alike (04 R535). -/
theorem State.issue_ill {s u : State} {n : Fin 192} {b : List Byte} {k : Nat} (ill_ : ozDecode b = .ill k) (runs : s.stalled = false)
    (may : s.mayIssue n.val = true) (calm : (s.core n.val).mustEnter = false) (room : s.stalledPrimary n.val = false)
    (single : (s.core n.val).isShadow = false) (fetched : s.fetchInsn n.val (examined b) = (.ok, u)) (is : Insn → Bool) (f : Sem) :
    s.issue n.val b is f = .next (u.raiseExc n.val (ill k)) := by
  unfold State.issue
  rw [State.readyShadow_single s n.val single]
  have gate : (s.core n.val).logGate false = .go := by simp [Core.logGate, single]
  simp [runs, may, calm, room, ill_, gate, fetched, State.carry, single]

/-- The row issues the instruction that its bytes spell. -/
def IssuesBytes (x : (Fin 192 → List Byte → Instr) × OzOp) : Prop :=
  ∃ f : Sem, ∀ (n : Fin 192) (b : List Byte) (s : State), exec (x.1 n b) s = s.issue n.val b (fun i => i.op = x.2) f

/-- The first half of the rows, row by row. -/
theorem issuesBytes_first : ∀ x ∈ ozRows.take 56, IssuesBytes x := by
  unfold ozRows
  simp only [List.take_succ_cons, List.take_zero]
  repeat' refine List.forall_mem_cons.mpr ⟨⟨_, fun _ _ _ => rfl⟩, ?_⟩
  exact List.forall_mem_nil _

theorem issuesBytes_rest : ∀ x ∈ ozRows.drop 56, IssuesBytes x := by
  unfold ozRows
  simp only [List.drop_succ_cons, List.drop_zero]
  repeat' refine List.forall_mem_cons.mpr ⟨⟨_, fun _ _ _ => rfl⟩, ?_⟩
  exact List.forall_mem_nil _

theorem issuesBytes {x : (Fin 192 → List Byte → Instr) × OzOp} (hx : x ∈ ozRows) : IssuesBytes x := by
  rw [← List.take_append_drop 56 ozRows, List.mem_append] at hx
  exact hx.elim (issuesBytes_first x) (issuesBytes_rest x)

theorem illegalBytesRaiseIll : Rules.IllegalBytesRaiseIll := by
  intro x hx s u n b k ill_ runs may calm room single fetched vec c lv
  obtain ⟨f, hf⟩ := issuesBytes hx
  rw [hf, State.issue_ill ill_ runs may calm room single fetched]
  exact ⟨_, rfl, State.raiseExc_ill k vec⟩

/-- Settles O14. -/
theorem doubleFaultsAndIllegalBytes : Obligations.DoubleFaultsAndIllegalBytes := ⟨doubleFaults, illegalBytesRaiseIll⟩

end Sys2Proof.Machine
end

section
/-! ## Branches and the loop-back (04 R89, R94, R106, R107), O12 -/

namespace Sys2Proof.Machine

/-- Core `c` with what belongs to the front end, to predictions and to the log as in `d`. -/
def Core.withFront (c d : Core) : Core :=
  { c with pred := d.pred, rstack := d.rstack, bunk := d.bunk, queue := d.queue, fetchWait := d.fetchWait, stuck := d.stuck, ext := d.ext, given := d.given }

/-- A function of the core that neither reads nor writes any of that. -/
def IgnoresFront (f : Core → Core) : Prop := ∀ c d, f (c.withFront d) = (f c).withFront d

/-- A function that writes nothing else, and not the log. -/
structure FrontOnly (f : Core → Core) : Prop where
  front : ∀ d, f d = d.withFront (f d)
  bunk : ∀ d, (f d).bunk = d.bunk

/-- `w` is `u` with core `n` as `c`, its front end, predictions and log and the counters of branches aside. -/
structure Strays (u w : State) (n : Fin 192) (c : Core) : Prop where
  core : w.core n.val = c.withFront (w.core n.val)
  shadow : (w.core n.val).isShadow = (u.core n.val).isShadow
  mem : w.mem = u.mem
  coh : w.coh = u.coh
  stools : w.stools = u.stools
  clock : w.clock = u.clock
  others : ∀ m, m ≠ n.val → w.core m = u.core m
  regs : ∀ a, a < corePage n.val 0x110 ∨ corePage n.val 0x120 ≤ a → w.reg a = u.reg a

theorem Strays.refl (u : State) (n : Fin 192) : Strays u u n (u.core n.val) := ⟨rfl, rfl, rfl, rfl, rfl, rfl, fun _ _ => rfl, fun _ _ => rfl⟩

section
variable {u w : State} {n : Fin 192} {c : Core} (h : Strays u w n c)
include h

/-- The core is written again: `c'` with a front end. -/
theorem Strays.write {f : Core → Core} {c' : Core} (hf : f (w.core n.val) = c'.withFront (f (w.core n.val)))
    (hb : (f (w.core n.val)).bunk = (w.core n.val).bunk) : Strays u (w.updCore n.val f) n c' := by
  refine ⟨?_, ?_, h.mem, h.coh, h.stools, h.clock, fun m hm => ?_, h.regs⟩
  · rw [State.core_updCore_same, ← hf]
  · rw [State.core_updCore_same, ← h.shadow, Core.isShadow, hb]; rfl
  · rw [State.core_updCore, if_neg hm, h.others m hm]

theorem Strays.front {f : Core → Core} (hf : FrontOnly f) : Strays u (w.updCore n.val f) n c :=
  h.write (by rw [hf.front, h.core]; rfl) (hf.bunk _)

theorem Strays.count {o : Nat} (low : 0x110 ≤ o) (high : o < 0x120) : Strays u (w.count (corePage n.val o)) n c :=
  ⟨h.core, h.shadow, h.mem, h.coh, h.stools, h.clock, h.others, fun a ha =>
    (State.reg_setReg_other _ _ _ _ (by simp only [corePage] at ha ⊢; omega)).trans (h.regs a ha)⟩

theorem Strays.log {x : State} (hx : BunkOnly n.val w x) : Strays u x n c := by
  refine ⟨by rw [hx.self, h.core]; rfl, hx.isShadow.trans h.shadow, ?_, ?_, ?_, ?_, fun m hm => (hx.others m hm).trans (h.others m hm),
    fun a ha => (State.reg_congr (by rw [hx.rest]) a).trans (h.regs a ha)⟩ <;> rw [hx.rest]
  exacts [h.mem, h.coh, h.stools, h.clock]

/-- A branch retires from there: `f` says where execution goes on. -/
theorem Strays.retires {f : Core → Core} (hf : IgnoresFront f) (hb : IgnoresBunk f) (single : (u.core n.val).isShadow = false) :
    Strays u (w.retireInsn n.val f) n (f c).settled := by
  rw [State.retireInsn_single w n.val f (by rw [State.isShadow_retireBy w n.val hb, h.shadow, single])]
  obtain ⟨core, rest⟩ := State.retireBy_rest w n f (hb.bunk _)
  refine ⟨by rw [core, h.core, hf]; rfl, (State.isShadow_retireBy w n.val hb).trans h.shadow, rest.mem.trans h.mem, rest.coh.trans h.coh,
    rest.stools.trans h.stools, rest.clock.trans h.clock, fun m hm => (rest.others m hm).trans (h.others m hm), fun a ha => ?_⟩
  rw [rest.regs a (by simp only [corePage] at ha ⊢; omega) (by simp only [corePage] at ha ⊢; omega), h.regs a ha]

end

theorem IgnoresFront.setPc (q : W64) : IgnoresFront (fun c => { c with pc := q }) := fun _ _ => rfl

theorem IgnoresFront.loopBack (q : W64) : IgnoresFront (fun c => c.loopBack q) := by
  intro c d
  show (if bitOf (c.sysReg 0) 8 && q == c.sysReg 4 then _ else _ : Core) = (c.loopBack q).withFront d
  unfold Core.loopBack
  split
  · show (if c.sysReg 2 - 1 = 0 then _ else _ : Core) = Core.withFront (if c.sysReg 2 - 1 = 0 then _ else _) d
    split <;> rfl
  · rfl

theorem FrontOnly.redirect : FrontOnly Core.redirect := ⟨fun _ => rfl, fun _ => rfl⟩

theorem FrontOnly.pushReturn (a : W64) : FrontOnly (fun c => c.pushReturn a) := by
  constructor <;> intro d <;> simp only [Core.pushReturn] <;> split <;> rfl

/-! ### What the branches do beside their own effect -/

section
variable {u w : State} {n : Fin 192} {c : Core} (h : Strays u w n c)
include h

theorem Strays.branchSig (l : List Byte) : Strays u (w.branchSig n.val l) n c := by
  unfold State.branchSig
  split
  · exact h.log (BunkOnly.updBunk n.val w _ fun _ => ⟨rfl, rfl⟩)
  · exact h

theorem Strays.mispredict : Strays u (w.mispredict n.val) n c := (h.count (by omega) (by omega)).front .redirect

theorem Strays.condBranch (taken : Bool) : Strays u (w.condBranch n.val taken) n c := by
  unfold State.condBranch
  extract_lets d used predicted w1 w2 w3
  have h1 : Strays u w1 n c := h.count (by omega) (by omega)
  have h2 : Strays u w2 n c := by
    simp only [w2]; split
    · exact h1
    · exact h1.mispredict
  have h3 : Strays u w3 n c := by
    simp only [w3]; split
    · exact h2.front ⟨fun _ => rfl, fun _ => rfl⟩
    · exact h2
  exact h3.branchSig _

theorem Strays.popReturn (t : W64) : Strays u (w.popReturn n.val t) n c := by
  unfold State.popReturn
  extract_lets d
  split
  · exact h
  · split
    · exact h
    · rename_i rest _
      have popped := h.front (f := fun c => { c with rstack := rest }) ⟨fun _ => rfl, fun _ => rfl⟩
      extract_lets v
      split
      · exact popped
      · exact popped.mispredict

end

/-! ### A branch goes where it says -/

section
variable {s u w : State} {n : Fin 192} {b : List Byte} {i : Insn} {is : Insn → Bool} {f : Sem} {c : Core}
variable (h : Issues s n b i u) (hi : is i = true) (hw : Strays u w n c)
include h hi hw

theorem Issues.jumps {target : W64} (e : f n.val i (seqOf u n i) u = .jump w target) :
    ∃ t, s.issue n.val b is f = .next t ∧ Goes u t n i c true target := by
  refine ⟨_, State.issue_of_issues h is hi f, ?_⟩
  show Goes u (u.carry n.val (seqOf u n i) (f n.val i (seqOf u n i) u)) n i c true target
  rw [e]
  have r := hw.retires (.setPc target) (.setPc target) h.single'
  exact ⟨fun _ => r.core, fun no => absurd no (by simp), r.mem, r.coh, r.stools, r.clock, r.others, r.regs⟩

/-- An instruction that makes no loop-back goes on at the next address like a branch to it. -/
theorem Issues.stays (e : f n.val i (seqOf u n i) u = .hold w) :
    ∃ t, s.issue n.val b is f = .next t ∧ Goes u t n i c true (seqOf u n i) := by
  refine ⟨_, State.issue_of_issues h is hi f, ?_⟩
  show Goes u (u.carry n.val (seqOf u n i) (f n.val i (seqOf u n i) u)) n i c true (seqOf u n i)
  rw [e]
  have r := hw.retires (.setPc (seqOf u n i)) (.setPc (seqOf u n i)) h.single'
  exact ⟨fun _ => r.core, fun no => absurd no (by simp), r.mem, r.coh, r.stools, r.clock, r.others, r.regs⟩

theorem Issues.branches {taken : Bool} {target : W64} (e : f n.val i (seqOf u n i) u = branchTo taken target w) :
    ∃ t, s.issue n.val b is f = .next t ∧ Goes u t n i c taken target := by
  cases taken with
  | true => exact h.jumps hi hw e
  | false =>
    refine ⟨_, State.issue_of_issues h is hi f, ?_⟩
    show Goes u (u.carry n.val (seqOf u n i) (f n.val i (seqOf u n i) u)) n i c false target
    rw [e]
    have r := hw.retires (.loopBack (seqOf u n i)) (.loopBack (seqOf u n i)) h.single'
    exact ⟨fun yes => absurd yes (by simp), fun _ => r.core, r.mem, r.coh, r.stools, r.clock, r.others, r.regs⟩

end

/-- A call writes its next address, and may push it. -/
theorem Core.link_front (c : Core) (push : Prop) [Decidable push] (k : Nat) (q : W64) :
    (if push then (c.setG k q).pushReturn q else c.setG k q) = (c.setG k q).withFront (if push then (c.setG k q).pushReturn q else c.setG k q) := by
  split
  · exact (FrontOnly.pushReturn q).front _
  · rfl

theorem Core.link_bunk (c : Core) (push : Prop) [Decidable push] (k : Nat) (q : W64) :
    (if push then (c.setG k q).pushReturn q else c.setG k q).bunk = c.bunk := by
  have kept : (c.setG k q).bunk = c.bunk := by rw [Core.setG_frame]
  split
  · exact ((FrontOnly.pushReturn q).bunk _).trans kept
  · exact kept

/-- The loop registers and LA as LOOP writes them (04 R106). -/
def Core.setLoop (start stop k : W64) (c : Core) : Core :=
  (((c.setSys 3 start).setSys 4 stop).setSys 2 k).setSys 0 (putBit c.status 8 (decide (k ≠ 0)))

theorem branches : Rules.Branches := by
  intro s u n b i h c q d
  have refl := Strays.refl u n
  refine ⟨fun ho => ?_, fun ho => ?_, fun ho => ?_, fun ho => ?_, fun ho => ?_, fun ho => ?_, fun ho => ?_, fun ho => ?_, fun ho => ?_⟩
  · by_cases always : i.b % 16 = 7
    · rw [always]
      exact h.jumps (is := fun i => i.op = .bc) (f := bcSem) (by simp [ho]) refl (if_pos always)
    · exact h.branches (is := fun i => i.op = .bc) (f := bcSem) (by simp [ho]) (refl.condBranch _) (if_neg always)
  · exact h.jumps (is := fun i => i.op = .b) (f := fun _ i seq s => .jump s (i.dest seq)) (by simp [ho]) refl rfl
  · exact h.jumps (is := fun i => i.op = .bl) (f := blSem) (by simp [ho]) (refl.write (c.link_front True 27 q) (c.link_bunk True 27 q)) rfl
  · exact h.jumps (is := fun i => i.op = .jr) (f := jrSem) (by simp [ho]) (refl.branchSig _) rfl
  · exact h.jumps (is := fun i => i.op = .jlr) (f := jlrSem) (by simp [ho])
      ((refl.write (c.link_front (i.a = 27) i.a q) (c.link_bunk (i.a = 27) i.a q)).branchSig _) rfl
  · exact h.jumps (is := fun i => i.op = .ret) (f := retSem) (by simp [ho]) ((refl.popReturn _).branchSig _) rfl
  · exact h.branches (is := fun i => i.op = .cbz) (f := cbSem true) (by simp [ho]) (refl.condBranch _) (by simp [cbSem, Insn.dest] <;> rfl)
  · exact h.branches (is := fun i => i.op = .cbnz) (f := cbSem false) (by simp [ho]) (refl.condBranch _) (by simp [cbSem, Insn.dest] <;> rfl)
  · have w := refl.write (f := Core.setLoop q d (c.gr i.a)) (c' := c.setLoop q d (c.gr i.a)) rfl rfl
    by_cases none_ : c.gr i.a = 0
    · rw [if_pos none_]
      exact h.jumps (is := fun i => i.op = .loop) (f := loopSem) (by simp [ho]) w (if_pos none_)
    · rw [if_neg none_]
      exact h.stays (is := fun i => i.op = .loop) (f := loopSem) (by simp [ho]) w (if_neg none_)

/-! ### The loop-back -/

theorem loopBackRule : Rules.LoopBackRule := by
  intro c q
  refine ⟨fun la lend more => ?_, fun la lend last => ?_, fun out => ?_⟩
  · have left : c.sysReg 2 - 1 ≠ 0 := fun h => more (by rw [sub_eq_zero] at h; exact h)
    rw [Core.loopBack, if_pos (by simp [la, lend]), if_neg left]
  · have e : c.loopBack q = { (c.setSys 2 0).setSys 0 (putBit (c.sysReg 0) 8 false) with pc := q } := by
      simp [Core.loopBack, la, lend, last]
    have reg : ∀ r, (c.loopBack q).sysReg r = if r = 0 then putBit (c.sysReg 0) 8 false else if r = 2 then 0 else c.sysReg r := fun r => by
      rw [e]
      show (Core.setSys _ _ _).sysReg r = _
      rw [Core.sysReg_setSys, Core.sysReg_setSys]
    refine ⟨by rw [e], by rw [reg]; rfl, ?_, fun k hk => ?_, fun r h0 h2 => by rw [reg, if_neg h0, if_neg h2], by rw [e]; rfl, by rw [e]; rfl⟩
    · rw [reg, if_pos rfl, bitOf_putBit_same _ _ _ (by omega)]
    · rw [reg, if_pos rfl, bitOf_putBit _ _ _ _ (by omega), if_neg hk]
  · rw [Core.loopBack, if_neg]
    simp only [Bool.and_eq_true, beq_iff_eq, not_and]
    intro la e
    exact out.elim (fun no => by simp [la] at no) (fun no => no e.symm)

/-- Settles O12. -/
theorem branchesAndLoops : Obligations.BranchesAndLoops := ⟨branches, loopBackRule⟩

end Sys2Proof.Machine
end

section
/-! ## Interrupt entry (04 R104; 12 R341, R343), O50 -/

namespace Sys2Proof.Machine

/-- The deliverable level that is entered is the highest (12 R341). -/
theorem Core.highest_eq {c : Core} {lv k : Nat} {free : Option Nat} (hk : k < 4) (ready : c.deliverable lv free k = true)
    (above : ∀ j, k < j → j < 4 → ¬c.deliverable lv free j = true) : c.highest lv free = some k := by
  unfold Core.highest
  interval_cases k <;> simp [ready, above 1, above 2, above 3]

theorem Core.highest_none {c : Core} {lv : Nat} {free : Option Nat} (idle : ∀ k, k < 4 → ¬c.deliverable lv free k = true) : c.highest lv free = none := by
  simp [Core.highest, idle 0, idle 1, idle 2, idle 3]

/-- The core that a full entry leaves (12 R343). -/
theorem Core.enterInt_fresh {c : Core} (k : Nat) (fresh : c.entered = none) : c.enterInt k =
    { (c.enter (c.target k) c.pc (intCause k) 0 none (intOffset k)).setHold (c.target k) true with entered := some (Fin.ofNat 4 k) } := by
  unfold Core.enterInt
  rw [fresh]

/-- An interrupt entry writes the hold of its level beside what an entry writes. -/
theorem Core.sysReg_enterInt {c : Core} (k : Nat) (fresh : c.entered = none) (r : Nat) :
    (c.enterInt k).sysReg r = if r = 0x8101 then putBit (c.sysReg 0x8101) (c.target k) true
      else (c.enter (c.target k) c.pc (intCause k) 0 none (intOffset k)).sysReg r := by
  have target : c.target k < 4 := fieldOf_lt _ _ _
  have hold : (c.enter (c.target k) c.pc (intCause k) 0 none (intOffset k)).sysReg 0x8101 = c.sysReg 0x8101 := by
    rw [Core.sysReg_enter, Core.sysReg_entryRegs]
    have apart : ∀ j, j < 4 → (0x8101 : Nat) ≠ lvlReg (c.target k) j := fun j hj => by unfold lvlReg; omega
    simp [apart]
  rw [Core.enterInt_fresh k fresh]
  show (Core.setSys _ _ _).sysReg r = _
  rw [Core.sysReg_setSys, hold]

/-- What an interrupt entry leaves outside its core, and the core. -/
theorem State.enterInt_spec (s : State) (n : Fin 192) (k : Nat) :
    EntryFrame s (s.enterInt n.val k) n ∧ SameRegs ((s.core n.val).enterInt k) ((s.enterInt n.val k).core n.val) := by
  unfold State.enterInt
  extract_lets v
  have forced : v.core n.val = s.core n.val := State.core_force s _ _ _
  have logged := BunkOnly.logRec n.val ((v.updCore n.val (fun c => c.enterInt k)).applyPl n.val) true
    [ctlSlot 1 (((v.updCore n.val (fun c => c.enterInt k)).applyPl n.val).core n.val).bunk.brpos (281474976710656 * k)]
  refine ⟨(((EntryFrame.force s n _ _).trans (.updCore v n _)).trans (.updCore _ n _)).trans (.log logged), ?_⟩
  show SameRegs _ (State.core (State.logRec _ _ _ _) _)
  rw [logged.self, State.applyPl, State.core_updCore_same, State.core_updCore_same, forced]
  exact ⟨rfl, rfl, rfl, rfl, rfl, rfl⟩

theorem interruptEntry_enters : Obligations.InterruptEntry := by
  intro s n runs boundary idle fresh unarmed c ready
  have exec_ : exec (.interruptEntry n) s = .next ((s.core n.val).nextInt.elim s (s.enterInt n.val)) := by
    show act s (Sys2Proof.Machine.interruptEntry n.val) = _
    rw [act_runs _ _ runs, Sys2Proof.Machine.interruptEntry]
    simp only [boundary, idle, Bool.not_true, Bool.or_self, Bool.false_eq_true, if_false]
    cases (s.core n.val).nextInt <;> rfl
  have next : (s.core n.val).nextInt = c.highest c.level.val none := by rw [Core.nextInt, fresh]
  refine ⟨fun k hk rdy above target => ?_, fun none_ => ?_⟩
  · intro T
    rw [exec_, next, Core.highest_eq hk rdy above]
    obtain ⟨frame, same⟩ := s.enterInt_spec n k
    generalize ht : s.enterInt n.val k = t at frame same
    have T4 : T < 4 := fieldOf_lt _ _ _
    have T1 : 1 ≤ T := by omega
    have ent : Entered c (c.enter T c.pc (intCause k) 0 none (intOffset k)) T c.pc (intCause k) 0 (intOffset k) :=
      Core.entered_enter T1 (by omega) ⟨rfl, rfl, rfl, rfl, rfl, rfl⟩
    have reg : ∀ r, r ≠ 0x8101 → (t.core n.val).sysReg r = (c.enter T c.pc (intCause k) 0 none (intOffset k)).sysReg r := fun r hr => by
      rw [Core.sysReg_congr same.sys, Core.sysReg_enterInt k fresh, if_neg hr]
    have fields := Core.enterInt_fresh k fresh
    refine ⟨t, by rw [Option.elim_some, ht], frame, ?_, ?_, ?_, ?_, ?_, ?_, ?_, ?_, ?_, ?_, ?_, ?_, ?_⟩
    · rw [same.level, fields]; exact ent.level
    · rw [reg _ (by omega), ent.epc]
    · rw [reg _ (by omega), ent.ppl]
    · rw [reg _ (by omega), ent.saved]
    · rw [reg _ (by omega), ent.cause]; rfl
    · rw [reg _ (by omega), ent.far]
    · rw [Core.sysReg_congr same.sys, Core.sysReg_enterInt k fresh, if_pos rfl, bitOf_putBit_same _ _ _ (show c.target k < 64 by omega)]
    · rw [reg _ (by omega), ent.la]
    · intro r h0 h1 h2 h3 h4 h5
      rw [reg r h1, ent.others r h0 h2 h3 h4 h5]
    · rw [same.pc, fields]; exact ent.pc
    · rw [same.g, fields]; exact ent.gs
    · rw [same.f, fields]; exact ent.fs
    · rw [same.sb, fields]; exact ent.sb
  · rw [exec_, next, Core.highest_none none_, Option.elim_none]

end Sys2Proof.Machine

/-- Settles O50. -/
theorem interruptEntry : Obligations.InterruptEntry := Sys2Proof.Machine.interruptEntry_enters

end

section
/-! ## Vector integer instructions (04 R92, R93; 05 R134), O17 -/

namespace Sys2Proof.Machine

/-! ### What decoded -/

/-- What decoding leaves of an instruction: a byte for its opcode, and no forbidden value (04 R93, R97). -/
theorem ozDecode_fields {b : List Byte} {i : Insn} (h : ozDecode b = .ok i) : i.opc < 256 ∧ badValue i = false ∧ i.pfx.InRange := by
  obtain ⟨p, pre, m, o, l, -, -, range, -, -, tail⟩ := ozDecode_ok h
  obtain ⟨⟨hp, -, ho, -, value⟩, -⟩ := decodeOpcode_ok tail
  exact ⟨ho ▸ o.isLt, value, hp ▸ range⟩

/-! ### Lanes -/

/-- The width of a lane divides the register. -/
def LaneWidth (e : Nat) : Prop := 0 < e ∧ 128 / e * e = 128

theorem foldr_lane (e : Nat) (xs : List Nat) (k : Nat) (hk : k < xs.length) :
    xs.foldr (fun v acc => v % 2 ^ e + 2 ^ e * acc) 0 / 2 ^ (e * k) % 2 ^ e = xs.getD k 0 % 2 ^ e := by
  have pos : 0 < 2 ^ e := Nat.two_pow_pos e
  induction xs generalizing k with
  | nil => exact absurd hk (Nat.not_lt_zero k)
  | cons x xs ih =>
    cases k with
    | zero => simp
    | succ k =>
      have shift : (x % 2 ^ e + 2 ^ e * xs.foldr (fun v acc => v % 2 ^ e + 2 ^ e * acc) 0) / 2 ^ e = xs.foldr (fun v acc => v % 2 ^ e + 2 ^ e * acc) 0 := by
        rw [Nat.add_mul_div_left _ _ pos, Nat.div_eq_of_lt (Nat.mod_lt _ pos), Nat.zero_add]
      rw [List.foldr_cons, Nat.mul_succ, Nat.add_comm (e * k), Nat.pow_add, ← Nat.div_div_eq_div_mul, shift, ih k (by simpa using hk), List.getD_cons_succ]

theorem lane_fits {e k : Nat} (he : LaneWidth e) (hk : k < 128 / e) : e * k + e ≤ 128 := by
  have := Nat.mul_le_mul_right e (Nat.succ_le_of_lt hk)
  have := he.2
  have := Nat.mul_comm e k
  have := Nat.succ_mul k e
  omega

/-- Lane `k` of joined lanes is the `k`th of them. -/
theorem laneOf_joinLanes {e k : Nat} (he : LaneWidth e) {xs : List Nat} (len : xs.length = 128 / e) (hk : k < 128 / e) :
    laneOf e (joinLanes e xs) k = xs.getD k 0 % 2 ^ e := by
  have fits := lane_fits he hk
  rw [← foldr_lane e xs k (len ▸ hk), laneOf, joinLanes, BitVec.toNat_ofNat]
  generalize xs.foldr (fun v acc => v % 2 ^ e + 2 ^ e * acc) 0 = x
  apply Nat.eq_of_testBit_eq
  intro j
  simp only [Nat.testBit_mod_two_pow, Nat.testBit_div_two_pow]
  by_cases hj : j < e
  · have : j + e * k < 128 := by omega
    simp [this]
  · simp [hj]

theorem laneOf_lt (e : Nat) (x : W128) (k : Nat) : laneOf e x k < 2 ^ e := Nat.mod_lt _ (Nat.two_pow_pos e)

theorem lanesOf_eq (e : Nat) (x : W128) : lanesOf e x = (List.range (128 / e)).map (laneOf e x) := rfl

theorem length_lanesOf (e : Nat) (x : W128) : (lanesOf e x).length = 128 / e := by simp [lanesOf_eq]

theorem getD_map_range (f : Nat → Nat) {m k : Nat} (hk : k < m) : ((List.range m).map f).getD k 0 = f k := by
  simp [List.getD_eq_getElem?_getD, hk]

/-- Lane `k` by its number; beyond the last there is nothing. -/
theorem getD_lanesOf {e : Nat} (he : LaneWidth e) (x : W128) (k : Nat) : (lanesOf e x).getD k 0 = laneOf e x k := by
  by_cases hk : k < 128 / e
  · exact getD_map_range _ hk
  · have beyond : 128 ≤ e * k := by
      have := Nat.mul_le_mul_right e (Nat.le_of_not_lt hk)
      rw [he.2, Nat.mul_comm] at this
      exact this
    have zero : x.toNat / 2 ^ (e * k) = 0 := Nat.div_eq_of_lt (x.isLt.trans_le (Nat.pow_le_pow_right (by omega) beyond))
    rw [List.getD_eq_default _ _ (by rw [length_lanesOf]; omega), laneOf, zero, Nat.zero_mod]

theorem zipWith_lanesOf (f : Nat → Nat → Nat) (e : Nat) (x y : W128) :
    List.zipWith f (lanesOf e x) (lanesOf e y) = (List.range (128 / e)).map (fun k => f (laneOf e x k) (laneOf e y k)) := by
  rw [lanesOf_eq, lanesOf_eq, List.zipWith_map, List.zipWith_self]

/-- A lane-wise operation acts on lane `k` alone. -/
theorem laneOf_laneMap2 {e k : Nat} (he : LaneWidth e) (f : Nat → Nat → Nat) (c b : W128) (hk : k < 128 / e) :
    laneOf e (laneMap2 e f c b) k = f (laneOf e c k) (laneOf e b k) % 2 ^ e := by
  rw [laneMap2, zipWith_lanesOf, laneOf_joinLanes he (by simp) hk, getD_map_range _ hk]

theorem laneWidth_pow {z : Nat} (h : z < 4) : LaneWidth (8 * 2 ^ z) := by
  interval_cases z <;> exact ⟨by decide, by decide⟩

/-- The lane widths of decoded instructions. -/
theorem Insn.laneWidth {i : Insn} (range : i.pfx.InRange) : LaneWidth i.laneW := by
  have z : i.pfx.vec.getD 3 < 4 := by
    cases h : i.pfx.vec with
    | none => simp
    | some z => exact range.vec z h
  exact laneWidth_pow z

/-! ### The rows -/

/-- A row that computes on the core's registers alone, carried out by its semantics. -/
theorem vecRow {s u : State} {n : Fin 192} {b : List Byte} {i : Insn} {op : OzOp} {f : Nat → Nat → Nat → Nat} (h : Issues s n b i u) (ho : i.op = op) :
    ∃ t v, regRow n b op (vecSem f) s = .next t ∧ Retires u t n ((u.core n.val).setF i.a v) (seqOf u n i)
      ∧ ∀ k, k < 128 / i.laneW →
        laneOf i.laneW v k = f i.laneW (laneOf i.laneW ((u.core n.val).fr i.c) k) (laneOf i.laneW ((u.core n.val).fr i.b) k) % 2 ^ i.laneW := by
  obtain ⟨t, ht, retires⟩ := regRow_retires h ho (f := vecSem f) rfl (Core.setF_bunk _ _ _)
  exact ⟨t, _, ht, retires, fun k hk => laneOf_laneMap2 (Insn.laneWidth (ozDecode_fields h.spells).2.2) _ _ _ hk⟩

/-- The lane operation of a row gives, modulo its width, what the table says. -/
def LaneRule (f g : Nat → Nat → Nat → Nat) : Prop := ∀ e c b, 0 < e → c < 2 ^ e → b < 2 ^ e → f e c b % 2 ^ e = g e c b

theorem laneRule_bits {f : Nat → Nat → Nat → Nat} (h : ∀ e c b, c < 2 ^ e → b < 2 ^ e → f e c b < 2 ^ e) : LaneRule f f :=
  fun e c b _ hc hb => Nat.mod_eq_of_lt (h e c b hc hb)

theorem sextNat_of_lt {x w : Nat} (h : x < 2 ^ w) : sextNat x w = if x < 2 ^ (w - 1) then (x : Int) else (x : Int) - (2 ^ w : Nat) := by
  simp only [sextNat, Nat.mod_eq_of_lt h]

theorem laneRule_shl : LaneRule (fun e c b => (shlRes e c b).val) (fun e c b => c * 2 ^ b % 2 ^ e) := by
  intro e c b _ hc hb
  simp only [shlRes]
  split
  · rename_i big
    have : 2 ^ e ∣ c * 2 ^ b := (Nat.pow_dvd_pow 2 big.le).mul_left c
    simp [resOf, Nat.mod_eq_zero_of_dvd this]
  · simp [resOf]

theorem laneRule_shr : LaneRule (fun e c b => (shrRes e c b).val) (fun _ c b => c / 2 ^ b) := by
  intro e c b _ hc hb
  simp only [shrRes]
  split
  · rename_i big
    have : c < 2 ^ b := hc.trans_le (Nat.pow_le_pow_right (by omega) big.le)
    simp [resOf, Nat.div_eq_of_lt this]
  · simp only [resOf]
    exact Nat.mod_eq_of_lt ((Nat.div_le_self _ _).trans_lt hc)

/-- The sign of a value is its top bit. -/
theorem testBit_sign {x w : Nat} (hw : 0 < w) (h : x < 2 ^ w) : x.testBit (w - 1) = decide (2 ^ (w - 1) ≤ x) := by
  rw [Nat.testBit_eq_decide_div_mod_eq]
  have double : 2 ^ w = 2 * 2 ^ (w - 1) := by rw [← Nat.pow_succ']; congr 1; omega
  have small : x / 2 ^ (w - 1) < 2 := Nat.div_lt_of_lt_mul (by rw [Nat.mul_comm]; omega)
  have one : 1 ≤ x / 2 ^ (w - 1) ↔ 2 ^ (w - 1) ≤ x := by rw [Nat.le_div_iff_mul_le (Nat.two_pow_pos _), Nat.one_mul]
  generalize x / 2 ^ (w - 1) = q at small one
  simp only [decide_eq_decide, ← one]
  omega

/-- Division of a negative number by a power of 2 rounds toward negative (05 R120). -/
theorem sextNat_div {c b e : Nat} (hb : b ≤ e) (neg : 2 ^ (e - 1) ≤ c) (hc : c < 2 ^ e) :
    (sextNat c e / (2 ^ b : Nat) % (2 ^ e : Nat)).toNat = c / 2 ^ b + (2 ^ e - 2 ^ (e - b)) := by
  have split : 2 ^ e = 2 ^ b * 2 ^ (e - b) := by rw [← Nat.pow_add]; congr 1; omega
  have quot : (sextNat c e / (2 ^ b : Nat) : Int) = ((c / 2 ^ b : Nat) : Int) - (2 ^ (e - b) : Nat) := by
    rw [sextNat_of_lt hc, if_neg (by omega), split, Nat.cast_mul, Int.sub_mul_ediv_left _ _ (by positivity), Int.natCast_ediv]
  have small : c / 2 ^ b < 2 ^ (e - b) := Nat.div_lt_of_lt_mul (split ▸ hc)
  have le : 2 ^ (e - b) ≤ 2 ^ e := Nat.pow_le_pow_right (by omega) (by omega)
  rw [quot]
  generalize c / 2 ^ b = q at small ⊢
  generalize 2 ^ (e - b) = t at small le ⊢
  generalize 2 ^ e = p at le ⊢
  have wrap : ((q : Int) - (t : Nat)) % (p : Nat) = (q : Int) - t + p := by
    rw [← Int.add_emod_right, Int.emod_eq_of_lt (by omega) (by omega)]
  rw [wrap]
  omega

/-- The sign bits that an arithmetic shift brings in. -/
theorem or_fill {c b e : Nat} (hb : b ≤ e) (hc : c < 2 ^ e) : (c / 2 ^ b ||| (2 ^ e - 1 - (2 ^ e - 1) / 2 ^ b)) = c / 2 ^ b + (2 ^ e - 2 ^ (e - b)) := by
  have split : 2 ^ e = 2 ^ (e - b) * 2 ^ b := by rw [← Nat.pow_add]; congr 1; omega
  have small : c / 2 ^ b < 2 ^ (e - b) := Nat.div_lt_of_lt_mul (by rw [Nat.mul_comm, ← split]; exact hc)
  have ones : (2 ^ e - 1) / 2 ^ b = 2 ^ (e - b) - 1 := by
    have pos := Nat.two_pow_pos b
    have pos' := Nat.two_pow_pos (e - b)
    rw [Nat.div_eq_iff pos, split, Nat.sub_mul, Nat.one_mul]
    have : 2 ^ b ≤ 2 ^ (e - b) * 2 ^ b := Nat.le_mul_of_pos_left _ pos'
    omega
  have fill : 2 ^ e - 1 - (2 ^ e - 1) / 2 ^ b = 2 ^ (e - b) * (2 ^ b - 1) := by
    have pos' := Nat.two_pow_pos (e - b)
    rw [ones, Nat.mul_sub, ← split, Nat.mul_one]
    omega
  rw [fill, Nat.or_comm, ← Nat.two_pow_add_eq_or_of_lt small, Nat.mul_sub, ← split, Nat.mul_one, Nat.add_comm]

theorem toNat_emod_lt (x : Int) (e : Nat) : (x % (2 ^ e : Nat)).toNat < 2 ^ e := by
  have pos : (0 : Int) < (2 ^ e : Nat) := by positivity
  have := Int.emod_lt_of_pos x pos
  have := Int.emod_nonneg x pos.ne'
  omega

theorem laneRule_sar : LaneRule (fun e c b => (sarRes e c b).val) (fun e c b => (sextNat c e / (2 ^ b : Nat) % (2 ^ e : Nat)).toNat) := by
  intro e c b he hc hb
  suffices val : (sarRes e c b).val = (sextNat c e / (2 ^ b : Nat) % (2 ^ e : Nat)).toNat by
    exact (congrArg (· % 2 ^ e) val).trans (Nat.mod_eq_of_lt (toNat_emod_lt _ _))
  simp only [sarRes, testBit_sign he hc, decide_eq_true_eq]
  by_cases neg : 2 ^ (e - 1) ≤ c
  · rw [if_pos neg]
    split
    · rename_i long
      have wide : 2 ^ e ≤ 2 ^ b := Nat.pow_le_pow_right (by omega) long
      have quot : (sextNat c e / (2 ^ b : Nat) : Int) = -1 := by
        rw [sextNat_of_lt hc, if_neg (by omega), Int.ediv_eq_iff_of_pos (by positivity)]
        omega
      have ones : (-1 : Int) % (2 ^ e : Nat) = (2 ^ e : Nat) - 1 := by
        rw [← Int.add_emod_right, Int.emod_eq_of_lt (by have := Nat.two_pow_pos e; omega) (by omega)]
        omega
      rw [quot, ones]
      simp only [resOf]
      omega
    · exact (or_fill (by omega) hc).trans (sextNat_div (by omega) neg hc).symm
  · have quot : (sextNat c e / (2 ^ b : Nat) % (2 ^ e : Nat)).toNat = c / 2 ^ b := by
      rw [sextNat_of_lt hc, if_pos (not_le.mp neg), ← Int.natCast_ediv, ← Int.natCast_emod, Int.toNat_natCast,
        Nat.mod_eq_of_lt ((Nat.div_le_self _ _).trans_lt hc)]
    rw [if_neg neg, quot]
    split
    · rename_i long
      exact (Nat.div_eq_of_lt (hc.trans_le (Nat.pow_le_pow_right (by omega) long))).symm
    · simp [resOf]

theorem laneRule_minMax (signed isMax : Bool) : LaneRule (fun e c b => laneMinMax e signed isMax c b) (fun e c b => laneMinMax e signed isMax c b) :=
  laneRule_bits fun e c b hc hb => by simp only [laneMinMax]; split <;> split <;> assumption

/-- Signed values at a width are in the order of their sign-extended selves: equal only when the same. -/
theorem sextNat_inj {x y w : Nat} (hx : x < 2 ^ w) (hy : y < 2 ^ w) (h : sextNat x w = sextNat y w) : x = y := by
  rw [sextNat_of_lt hx, sextNat_of_lt hy] at h
  split at h <;> split at h <;> omega

theorem LaneRule.congr {f g g' : Nat → Nat → Nat → Nat} (h : LaneRule f g) (e : ∀ e c b, c < 2 ^ e → b < 2 ^ e → g e c b = g' e c b) : LaneRule f g' :=
  fun w c b hw hc hb => (h w c b hw hc hb).trans (e w c b hc hb)

theorem laneMask_lt (e : Nat) (p : Bool) : laneMask e p < 2 ^ e := by
  have := Nat.two_pow_pos e
  unfold laneMask
  split <;> omega

theorem laneRule_mask (p : Nat → Nat → Nat → Bool) : LaneRule (fun e c b => laneMask e (p e c b)) (fun e c b => if p e c b then 2 ^ e - 1 else 0) :=
  fun e _ _ _ _ _ => Nat.mod_eq_of_lt (laneMask_lt e _)

/-- Every row of the table: its command carries out a lane operation that gives what the table says. -/
theorem vecRows_sem : ∀ x ∈ vecRows, ∃ f, LaneRule f x.2.2 ∧ ∀ (n : Fin 192) (b : List Byte) (s : State), exec (x.1 n b) s = regRow n b x.2.1 (vecSem f) s := by
  unfold vecRows
  simp only [List.forall_mem_cons]
  refine ⟨⟨_, fun _ _ _ _ _ _ => rfl, fun _ _ _ => rfl⟩, ⟨_, fun _ _ _ _ _ _ => rfl, fun _ _ _ => rfl⟩, ⟨_, fun _ _ _ _ _ _ => rfl, fun _ _ _ => rfl⟩,
    ⟨_, laneRule_bits fun e c b hc _ => Nat.and_le_left.trans_lt hc, fun _ _ _ => rfl⟩,
    ⟨_, laneRule_bits fun e c b hc hb => Nat.or_lt_two_pow hc hb, fun _ _ _ => rfl⟩,
    ⟨_, laneRule_bits fun e c b hc hb => Nat.xor_lt_two_pow hc hb, fun _ _ _ => rfl⟩,
    ⟨_, laneRule_bits fun e c b hc _ => Nat.and_le_left.trans_lt hc, fun _ _ _ => rfl⟩,
    ⟨_, laneRule_shl, fun _ _ _ => rfl⟩, ⟨_, laneRule_shr, fun _ _ _ => rfl⟩, ⟨_, laneRule_sar, fun _ _ _ => rfl⟩,
    ⟨_, (laneRule_minMax true false).congr ?_, fun _ _ _ => rfl⟩, ⟨_, (laneRule_minMax true true).congr ?_, fun _ _ _ => rfl⟩,
    ⟨_, (laneRule_minMax false false).congr ?_, fun _ _ _ => rfl⟩, ⟨_, (laneRule_minMax false true).congr ?_, fun _ _ _ => rfl⟩,
    ⟨_, (laneRule_mask fun _ c b => c == b).congr ?_, fun _ _ _ => rfl⟩, List.forall_mem_nil _⟩
  all_goals intro e c b hc hb
  · have inj := sextNat_inj hc hb
    simp only [laneMinMax]
    grind
  · have inj := sextNat_inj hc hb
    simp only [laneMinMax]
    grind
  · simp only [laneMinMax]
    grind
  · simp only [laneMinMax]
    grind
  · simp only [beq_iff_eq]

theorem vectorLanes : Rules.VectorLanes := by
  intro x hx s u n b i h ho c
  obtain ⟨f, rule, row⟩ := vecRows_sem x hx
  obtain ⟨t, v, ht, retires, lanes⟩ := vecRow (f := f) h ho
  have width := (Insn.laneWidth (ozDecode_fields h.spells).2.2).1
  exact ⟨t, v, row n b s ▸ ht, retires, fun k hk => (lanes k hk).trans (rule _ _ _ width (laneOf_lt _ _ _) (laneOf_lt _ _ _))⟩

theorem vectorGreater : Rules.VectorGreater := by
  intro s u n b i h ho c
  obtain ⟨t, v, ht, retires, lanes⟩ := vecRow (f := fun e c b => laneMask e (decide (sextNat b e < sextNat c e))) h ho
  refine ⟨t, v, ht, retires, fun k hk => (lanes k hk).trans ?_⟩
  rw [Nat.mod_eq_of_lt (laneMask_lt _ _)]
  simp only [laneMask, decide_eq_true_eq] <;> rfl

/-! ### Moves of lanes -/

theorem length_listSet {α : Type} (l : List α) (k : Nat) (v : α) : (listSet l k v).length = l.length := by
  induction l generalizing k with
  | nil => rfl
  | cons x xs ih => cases k <;> simp [listSet, ih]

theorem getD_listSet (l : List Nat) (k j v : Nat) (hj : j < l.length) : (listSet l k v).getD j 0 = if j = k then v else l.getD j 0 := by
  induction l generalizing k j with
  | nil => exact absurd hj (Nat.not_lt_zero j)
  | cons x xs ih =>
    cases k with
    | zero => cases j <;> simp [listSet]
    | succ k =>
      cases j with
      | zero => simp [listSet]
      | succ j => simpa [listSet] using ih k j (by simpa using hj)

theorem vectorMoves : Rules.VectorMoves := by
  intro s u n b i h c e
  have width : LaneWidth e := Insn.laneWidth (ozDecode_fields h.spells).2.2
  have bunk : ∀ v, (c.setG i.a v).bunk = c.bunk := fun v => by rw [Core.setG_frame]
  refine ⟨fun ho => ?_, fun ho => ?_, fun ho => ?_⟩
  · obtain ⟨t, ht, retires⟩ := regRow_retires h ho (f := vdupSem) rfl (Core.setF_bunk _ _ _)
    refine ⟨t, _, ht, retires, fun k hk => ?_⟩
    rw [laneOf_joinLanes width (by simp [e]) hk, getD_map_range _ hk, getD_lanesOf width, Nat.mod_eq_of_lt (laneOf_lt _ _ _)]
  · obtain ⟨t, ht, retires⟩ := regRow_retires h ho (f := vextSem) rfl (bunk _)
    rw [getD_lanesOf width] at retires
    exact ⟨t, ht, retires⟩
  · obtain ⟨t, ht, retires⟩ := regRow_retires h ho (f := vinsSem) rfl (Core.setF_bunk _ _ _)
    refine ⟨t, _, ht, retires, fun k hk => ?_⟩
    rw [laneOf_joinLanes width (by rw [length_listSet, length_lanesOf]) hk, getD_listSet _ _ _ _ (by rw [length_lanesOf]; exact hk), getD_lanesOf width]
    split
    · exact Nat.mod_mod _ _
    · exact Nat.mod_eq_of_lt (laneOf_lt _ _ _)

/-- Settles O17. -/
theorem vectorInstructions : Obligations.VectorInstructions := ⟨vectorLanes, vectorGreater, vectorMoves⟩

end Sys2Proof.Machine
end

section
/-! ## Floating-point instructions (04 R71, R92, R93; 05 R135-R149), O16 and a part of O15 -/

namespace Sys2Proof.Machine

/-! ### Register instructions that trap -/

/-- A register instruction that raises an exception of the default level. -/
theorem regRow_traps {s u : State} {n : Fin 192} {b : List Byte} {i : Insn} {op : OzOp} {f : Insn → W64 → Core → CEff} {x : Exc}
    (h : Issues s n b i u) (ho : i.op = op) (hf : f i (seqOf u n i) (u.core n.val) = .error x) (vec : (u.core n.val).vec = false) (h1 : 1 ≤ x.level)
    (h3 : x.level ≤ 3) (plain : x.far2 = none) :
    ∃ t, regRow n b op f s = .next t ∧ EntryFrame u t n
      ∧ Entered (u.core n.val) (t.core n.val) (max x.level (u.core n.val).level.val) (u.core n.val).pc x.word x.far
          (syncOff (max x.level (u.core n.val).level.val) (u.core n.val).level.val) :=
  h.traps (f := regSem f) (by simp [ho]) (by simp only [regSem, hf]) vec h1 h3 plain

/-! ### Lanes of results -/

theorem Fmt.lane_zero (t : Fmt) (x : W128) : x.toNat / 2 ^ (t.width * 0) % 2 ^ t.width = x.toNat % 2 ^ t.width := by simp

theorem Insn.laneFmt_cases {i : Insn} {t : Fmt} (h : i.laneFmt = some t) : t = f32 ∨ t = f64 := by
  unfold Insn.laneFmt at h
  split at h
  · exact .inl (Option.some.inj h).symm
  · exact .inr (Option.some.inj h).symm
  · cases h

theorem Fmt.laneWidth {t : Fmt} (h : t = f32 ∨ t = f64) : LaneWidth t.width := by
  rcases h with rfl | rfl
  · exact laneWidth_pow (z := 2) (by omega)
  · exact laneWidth_pow (z := 3) (by omega)

/-- The results of the lanes, by their numbers. -/
theorem laneResults_eq (t : Fmt) (md : FMode) (o : FpOp) (a b c : W128) :
    laneResults t md o (lanesOf t.width a) (lanesOf t.width b) (lanesOf t.width c)
      = (List.range (128 / t.width)).map (fun k => t.run md o (laneOf t.width a k) (laneOf t.width b k) (laneOf t.width c k)) := by
  rw [laneResults, lanesOf_eq, lanesOf_eq, lanesOf_eq, List.zip_map', List.zipWith_map, List.zipWith_self]

/-- A bit of flags gathered over a list: it was gathered, or there before. -/
theorem testBit_foldl_or {α : Type} (g : α → Nat) (l : List α) (x j : Nat) :
    (l.foldl (fun x r => x ||| g r) x).testBit j = (x.testBit j || l.any (fun r => (g r).testBit j)) := by
  induction l generalizing x with
  | nil => simp
  | cons r l ih => rw [List.foldl_cons, ih, Nat.testBit_or, List.any_cons, Bool.or_assoc]

/-! ### The arithmetic rows -/

theorem fpRows_sem : ∀ x ∈ fpRows, ∀ (n : Fin 192) (b : List Byte) (s : State), exec (x.1 n b) s = regRow n b x.2.1 (fpSem x.2.2) s := by
  unfold fpRows
  repeat' refine List.forall_mem_cons.mpr ⟨fun _ _ _ => rfl, ?_⟩
  exact List.forall_mem_nil _

theorem Core.stick_setF_bunk (c : Core) (k fl : Nat) (v : W128) : ((c.setF k v).stick fl).bunk = c.bunk := rfl

/-- The assist exception of a decoded instruction (04 R99). -/
theorem word_fpa {i : Insn} (small : i.opc < 256) : (fpa i).word = BitVec.ofNat 64 (4 + 4294967296 * i.opc) := by
  simp [fpa, Exc.word, b2n, Nat.mod_eq_of_lt (show i.opc < 65536 by omega)]

theorem fpResults : Rules.FpResults := by
  intro x hx s u n b i h ho c md lane
  rw [fpRows_sem x hx n b s]
  have scalar : i.laneFmt = none → fpSem x.2.2 i (seqOf u n i) c
      = if (lane i.fmt 0).fpa then .error (fpa i) else .ok ((c.setF i.a (BitVec.ofNat 128 (lane i.fmt 0).bits)).stick (lane i.fmt 0).flags) := fun none_ => by
    simp only [fpSem, none_, lane, Fmt.lane_zero] <;> rfl
  have lanes : ∀ t', i.laneFmt = some t' → fpSem x.2.2 i (seqOf u n i) c
      = (let rs := (List.range (128 / t'.width)).map (lane t')
         if rs.any (fun r => r.fpa) then .error (fpa i)
         else .ok ((c.setF i.a (joinLanes t'.width (rs.map (fun r => r.bits)))).stick (rs.foldl (fun x r => x ||| r.flags) 0))) := fun t' some_ => by
    simp only [fpSem, some_, laneResults_eq] <;> rfl
  refine ⟨fun none_ fine => ?_, fun t' some_ fine => ?_, fun some_ vec => ?_⟩
  · exact regRow_retires (f := fpSem x.2.2) h ho ((scalar none_).trans (if_neg (by rw [fine]; simp))) (Core.stick_setF_bunk _ _ _ _)
  · have calm : ((List.range (128 / t'.width)).map (lane t')).any (fun r => r.fpa) = false := by
      simpa [List.any_eq_false] using fine
    obtain ⟨t, ht, retires⟩ := regRow_retires (f := fpSem x.2.2) h ho ((lanes t' some_).trans (if_neg (by rw [calm]; simp))) (Core.stick_setF_bunk _ _ _ _)
    refine ⟨t, _, _, ht, retires, fun k hk => ?_, fun j => ?_⟩
    · refine (laneOf_joinLanes (Fmt.laneWidth (Insn.laneFmt_cases some_)) (by simp) hk).trans ?_
      rw [List.map_map, getD_map_range _ hk]; rfl
    · simp [testBit_foldl_or]
  · obtain ⟨t, ht, -, entered⟩ := regRow_traps (f := fpSem x.2.2) (x := fpa i) h ho (by
      obtain ⟨k, hk, assist⟩ := some_
      cases form : i.laneFmt with
      | none =>
        rw [form] at hk assist
        obtain rfl : k = 0 := Nat.lt_one_iff.mp hk
        exact (scalar form).trans (if_pos assist)
      | some t' =>
        rw [form] at hk assist
        refine (lanes t' form).trans (if_pos ?_)
        exact List.any_eq_true.mpr ⟨_, List.mem_map.mpr ⟨k, List.mem_range.mpr hk, rfl⟩, assist⟩) vec (by simp [fpa]) (by simp [fpa]) rfl
    rw [word_fpa (ozDecode_fields h.spells).1] at entered
    exact ⟨t, ht, entered⟩

/-! ### Compares -/

/-- How many lanes an instruction of a format compares. -/
def Insn.cmpLanes (i : Insn) : List Nat := List.range (if i.laneFmt = none then 1 else 128 / (i.laneFmt.getD i.fmt).width)

/-- FCMP compares lane by lane, and a scalar is one lane. -/
theorem fcmpSem_eq (i : Insn) (q : W64) (c : Core) : fcmpSem i q c =
    (let t := i.laneFmt.getD i.fmt
     let rs := i.cmpLanes.map (fun k => t.cmp c.fpMode (laneOf t.width (c.fr i.b) k) (laneOf t.width (c.fr i.c) k))
     if rs.any (fun r => r.2.2) then .error (fpa i)
     else .ok ((putFlags (cmpFlags (rs.map (fun r => r.1))) c).stick (rs.foldl (fun x r => x ||| r.2.1) 0))) := by
  have lanes : ∀ x : W128, (if i.laneFmt.isSome then lanesOf (i.laneFmt.getD i.fmt).width x else [x.toNat % 2 ^ (i.laneFmt.getD i.fmt).width])
      = i.cmpLanes.map (laneOf (i.laneFmt.getD i.fmt).width x) := fun x => by
    cases form : i.laneFmt with
    | none => simp [Insn.cmpLanes, form, laneOf]
    | some t => simp [Insn.cmpLanes, form, lanesOf_eq]
  simp only [fcmpSem, lanes, List.zipWith_map, List.zipWith_self]

theorem fpCompare : Rules.FpCompare := by
  intro s u n b i h ho c t' r ks fine
  have calm : (ks.map r).any (fun r => r.2.2) = false := by
    rw [List.any_map, List.any_eq_false]
    intro k hk
    simpa using List.all_eq_true.mp fine k hk
  obtain ⟨t, ht, retires⟩ := regRow_retires (f := fcmpSem) h ho ((fcmpSem_eq i _ c).trans (if_neg (by rw [Bool.not_eq_true]; exact calm))) rfl
  refine ⟨t, (ks.map r).foldl (fun x r => x ||| r.2.1) 0, ht, ?_, fun j => ?_⟩
  · have flags : cmpFlags ((ks.map r).map (fun r => r.1)) = ⟨ks.any (fun k => (r k).1 = .less), ks.all (fun k => (r k).1 = .equal),
        ks.all (fun k => (r k).1 ≠ .less), ks.any (fun k => (r k).1 = .unordered)⟩ := by
      simp [cmpFlags, List.any_map, List.all_map, Function.comp_def, List.not_any_eq_all_not]
    rw [← flags]
    exact retires
  · rw [testBit_foldl_or, List.any_map]
    simp [Function.comp_def]

/-! ### Conversions and moves -/

theorem Insn.fmt_cases (i : Insn) : i.fmt = f32 ∨ i.fmt = f64 := by
  unfold Insn.fmt
  split
  · exact .inl rfl
  · exact .inr rfl

/-- Only a tiny result asks for the assist (05 R141). -/
theorem Fmt.round_fpa {t : Fmt} {md : FMode} {s : Bool} {m : Nat} {e : Int} {sticky : Bool} (big : 1 - (t.bias : Int) ≤ e + bitLen m - 1) :
    (t.round md s m e sticky).fpa = false := by
  unfold Fmt.round
  extract_lets p len sh keep0 rem e0 keep1 keep ex lead nx up
  have le : e0 ≤ ex := by simp only [ex]; split <;> omega
  split
  · rfl
  · rw [if_neg]
    simp only [lead, e0, p, len] at le ⊢
    omega

/-- No integer is tiny. -/
theorem Fmt.ofInt64_fpa {t : Fmt} (ht : t = f32 ∨ t = f64) (md : FMode) (v : Int) : (t.ofInt64 md v).fpa = false := by
  unfold Fmt.ofInt64
  split
  · rfl
  · have bias : 2 ≤ t.bias := by rcases ht with rfl | rfl <;> decide
    exact Fmt.round_fpa (by omega)

theorem fpConversions : Rules.FpConversions := by
  intro s u n b i h c x cv sc fi
  have setG : ∀ k v, (c.setG k v).bunk = c.bunk := fun k v => by rw [Core.setG_frame]
  refine ⟨fun ho fine => ?_, fun ho => ?_, fun ho fine => ?_, fun ho opc => ?_, fun ho opc => ?_⟩
  · exact regRow_retires h ho (f := fcvtSem) (if_neg (by simp only [Bool.not_eq_true]; exact fine)) (Core.stick_setF_bunk _ _ _ _)
  · exact regRow_retires h ho (f := scvtfSem) (if_neg (by rw [Bool.not_eq_true]; exact Fmt.ofInt64_fpa i.fmt_cases _ _)) (Core.stick_setF_bunk _ _ _ _)
  · exact regRow_retires h ho (f := fcvtzsSem) (if_neg (by simp only [Bool.not_eq_true]; exact fine)) (setG _ _)
  · exact regRow_retires h ho (f := fmvSem) (if_pos opc) rfl
  · exact regRow_retires h ho (f := fmvSem) (if_neg (by omega)) (setG _ _)

/-- Settles O16. -/
theorem fpCompareAndConvert : Obligations.FpCompareAndConvert := ⟨fpCompare, fpConversions⟩

end Sys2Proof.Machine
end

section
/-! ## Rounding (05 R135, R136), O15 -/

namespace Sys2Proof.Machine

/-! ### What each mode of FPCTL.RM asks of a rounded value -/

/-- `y`, a multiple `k` of the unit `U`, is `x` rounded under a mode to one of its two neighbours (04 R73; 05 R135). -/
structure RoundedTo (rm : Nat) (s : Bool) (x y U : Rat) (k : Nat) : Prop where
  even : rm = 0 → 2 * |x - y| ≤ U ∧ (2 * |x - y| = U → k % 2 = 0)
  zero : rm = 1 → y ≤ x ∧ x < y + U
  down : rm = 2 → if s then x ≤ y ∧ y < x + U else y ≤ x ∧ x < y + U
  up : rm = 3 → if s then y ≤ x ∧ x < y + U else x ≤ y ∧ y < x + U
  away : rm = 4 → 2 * |x - y| ≤ U ∧ (2 * |x - y| = U → x < y)

/-- A value that is a multiple of the unit stays. -/
theorem RoundedTo.exact (rm : Nat) (s : Bool) (x : Rat) {U : Rat} (k : Nat) (hU : 0 < U) : RoundedTo rm s x x U k := by
  constructor <;> intro _
  · simp [hU.le, hU.ne]
  · simp [hU]
  · split <;> simp [hU]
  · split <;> simp [hU]
  · simp [hU.le, hU.ne]

/-- Rounding that carries into the next binade has the greater unit, and an even multiple of it. -/
theorem RoundedTo.carry {rm : Nat} {s : Bool} {x y U : Rat} {k k' : Nat} (hU : 0 < U) (h : RoundedTo rm s x y U k) (even : k' % 2 = 0) :
    RoundedTo rm s x y (2 * U) k' where
  even hr := ⟨by linarith [(h.even hr).1], fun _ => even⟩
  zero hr := ⟨(h.zero hr).1, by linarith [(h.zero hr).2]⟩
  down hr := by have := h.down hr; split <;> simp_all <;> linarith
  up hr := by have := h.up hr; split <;> simp_all <;> linarith
  away hr := ⟨by linarith [(h.away hr).1], fun e => by linarith [(h.away hr).1]⟩

/-- The half of a unit decides, in the modes to the nearest. -/
theorem roundsUp_even {s : Bool} {a rem sh : Nat} (hsh : 0 < sh) :
    roundsUp 0 s a rem sh false = true ↔ 2 ^ (sh - 1) < rem ∨ rem = 2 ^ (sh - 1) ∧ a % 2 = 1 := by
  simp [roundsUp, hsh]

theorem roundsUp_away {s : Bool} {a rem sh : Nat} (hsh : 0 < sh) : roundsUp 4 s a rem sh false = true ↔ 2 ^ (sh - 1) ≤ rem := by
  simp [roundsUp, hsh]

theorem roundsUp_down {s : Bool} {a rem sh : Nat} : roundsUp 2 s a rem sh false = true ↔ s = true ∧ rem ≠ 0 := by
  simp [roundsUp]

theorem roundsUp_up {s : Bool} {a rem sh : Nat} : roundsUp 3 s a rem sh false = true ↔ s = false ∧ rem ≠ 0 := by
  simp [roundsUp]

/-- A number of `K` and `r` more, where `r` is less than the unit `K`: the neighbour above. -/
theorem RoundedTo.above {rm : Nat} {s : Bool} {a : Nat} {K r : Rat} (hr : 0 < r) (hK : r < K) (even : rm = 0 → K ≤ 2 * r ∧ (2 * r = K → a % 2 = 1))
    (zero : rm ≠ 1) (down : rm = 2 → s = true) (up : rm = 3 → s = false) (away : rm = 4 → K ≤ 2 * r) :
    RoundedTo rm s (a * K + r) ((a + 1 : Nat) * K) K (a + 1) := by
  have diff : |(a * K + r) - (a + 1 : Nat) * K| = K - r := by
    rw [abs_of_nonpos] <;> push_cast <;> linarith
  constructor <;> intro h
  · rw [diff]
    exact ⟨by linarith [(even h).1], fun e => by have := (even h).2 (by linarith); omega⟩
  · exact absurd h zero
  · rw [if_pos (down h)]
    push_cast
    constructor <;> linarith
  · rw [if_neg (by simp [up h])]
    push_cast
    constructor <;> linarith
  · rw [diff]
    push_cast
    exact ⟨by linarith [away h], fun _ => by linarith⟩

/-- The neighbour below. -/
theorem RoundedTo.below {rm : Nat} {s : Bool} {a : Nat} {K r : Rat} (hr : 0 ≤ r) (hK : r < K) (even : rm = 0 → 2 * r ≤ K ∧ (2 * r = K → a % 2 = 0))
    (down : rm = 2 → s = true → r = 0) (up : rm = 3 → s = false → r = 0) (away : rm = 4 → 2 * r < K) :
    RoundedTo rm s (a * K + r) (a * K) K a := by
  have diff : |(a * K + r) - a * K| = r := by rw [add_sub_cancel_left, abs_of_nonneg hr]
  constructor <;> intro h
  · rw [diff]; exact even h
  · constructor <;> linarith
  · split
    · rw [down h ‹_›]; constructor <;> linarith
    · constructor <;> linarith
  · split
    · constructor <;> linarith
    · rename_i plus
      rw [up h (by simpa using plus)]; constructor <;> linarith
  · rw [diff]; exact ⟨(away h).le, fun e => by linarith [away h]⟩

/-- Dropping the low `sh` bits of a number, and adding one unit where `roundsUp` says so, rounds it. -/
theorem roundedTo_roundsUp (rm : Nat) (s : Bool) (a rem sh : Nat) {w : Rat} (hw : 0 < w) (hsh : 0 < sh) (hrem : rem < 2 ^ sh) (hrm : rm ≤ 4) :
    RoundedTo rm s (a * ((2 ^ sh : Nat) * w) + rem * w)
      (((if roundsUp rm s a rem sh false then a + 1 else a) : Nat) * ((2 ^ sh : Nat) * w)) ((2 ^ sh : Nat) * w)
      (if roundsUp rm s a rem sh false then a + 1 else a) := by
  have unit : (2 ^ sh : Nat) = 2 * 2 ^ (sh - 1) := by rw [← Nat.pow_succ']; congr 1; omega
  have half : ((2 ^ sh : Nat) : Rat) * w = 2 * ((2 ^ (sh - 1) : Nat) * w) := by rw [unit]; push_cast; ring
  have le : ∀ i j : Nat, (i : Rat) * w ≤ j * w ↔ i ≤ j := fun i j => by rw [mul_le_mul_iff_left₀ hw, Nat.cast_le]
  have lt : ∀ i j : Nat, (i : Rat) * w < j * w ↔ i < j := fun i j => by rw [mul_lt_mul_iff_left₀ hw, Nat.cast_lt]
  have eq : ∀ i j : Nat, (i : Rat) * w = j * w ↔ i = j := fun i j => by rw [mul_left_inj' hw.ne', Nat.cast_inj]
  have less := (lt rem (2 ^ sh)).mpr hrem
  have pos := Nat.two_pow_pos (sh - 1)
  by_cases b : roundsUp rm s a rem sh false = true
  · rw [if_pos b]
    have some_ : 0 < (rem : Rat) * w := by
      have : rem ≠ 0 := by
        rintro rfl
        interval_cases rm
        · rw [roundsUp_even hsh] at b; omega
        · simp [roundsUp] at b
        · rw [roundsUp_down] at b; exact b.2 rfl
        · rw [roundsUp_up] at b; exact b.2 rfl
        · rw [roundsUp_away hsh] at b; omega
      positivity
    refine .above some_ less ?_ ?_ ?_ ?_ ?_
    · rintro rfl
      rw [roundsUp_even hsh] at b
      have := (le (2 ^ (sh - 1)) rem).mpr (by omega)
      refine ⟨by linarith, fun e => ?_⟩
      have := (eq rem (2 ^ (sh - 1))).mp (by linarith)
      omega
    · rintro rfl; simp [roundsUp] at b
    · rintro rfl; exact (roundsUp_down.mp b).1
    · rintro rfl; exact (roundsUp_up.mp b).1
    · rintro rfl
      have := (le _ _).mpr ((roundsUp_away hsh).mp b)
      linarith
  · rw [if_neg b]
    refine .below (by positivity) less ?_ ?_ ?_ ?_
    · rintro rfl
      rw [roundsUp_even hsh] at b
      have := (le rem (2 ^ (sh - 1))).mpr (by omega)
      refine ⟨by linarith, fun e => ?_⟩
      have := (eq rem (2 ^ (sh - 1))).mp (by linarith)
      omega
    · rintro rfl down
      have : rem = 0 := by simpa [roundsUp_down, down] using b
      simp [this]
    · rintro rfl up
      have : rem = 0 := by simpa [roundsUp_up, up] using b
      simp [this]
    · rintro rfl
      rw [roundsUp_away hsh] at b
      have := (lt rem (2 ^ (sh - 1))).mpr (by omega)
      linarith

/-! ### The bits of a number -/

theorem bitLen_bounds {m : Nat} (hm : m ≠ 0) : 2 ^ (bitLen m - 1) ≤ m ∧ m < 2 ^ bitLen m := by
  simp only [bitLen, hm, if_false, Nat.add_sub_cancel]
  exact ⟨Nat.log2_self_le hm, Nat.lt_log2_self⟩

/-- The value of a normal number of a format. -/
theorem Fmt.decode_normal {t : Fmt} {s : Bool} {E F : Nat} (hE : 0 < E) (hE' : E < 2 ^ t.ew - 1) (hF : F < 2 ^ t.mw) :
    t.decode (t.sign s + E * 2 ^ t.mw + F) = .fin s (2 ^ t.mw + F) ((E : Int) - t.bias - t.mw) := by
  have pos := Nat.two_pow_pos t.mw
  have pow : 2 ^ (t.ew + t.mw) = 2 ^ t.ew * 2 ^ t.mw := Nat.pow_add _ _ _
  have sign : t.sign s = (if s then 2 ^ t.ew else 0) * 2 ^ t.mw := by unfold Fmt.sign; split <;> simp [pow]
  have word : t.sign s + E * 2 ^ t.mw + F = F + 2 ^ t.mw * ((if s then 2 ^ t.ew else 0) + E) := by rw [sign]; ring
  have frac : (t.sign s + E * 2 ^ t.mw + F) % 2 ^ t.mw = F := by rw [word, Nat.add_mul_mod_self_left, Nat.mod_eq_of_lt hF]
  have high : (t.sign s + E * 2 ^ t.mw + F) / 2 ^ t.mw = (if s then 2 ^ t.ew else 0) + E := by
    rw [word, Nat.add_mul_div_left _ _ pos, Nat.div_eq_of_lt hF, Nat.zero_add]
  have expo : ((if s then 2 ^ t.ew else 0) + E) % 2 ^ t.ew = E := by
    split
    · rw [Nat.add_mod_left, Nat.mod_eq_of_lt (by omega)]
    · rw [Nat.zero_add, Nat.mod_eq_of_lt (by omega)]
  have top : (t.sign s + E * 2 ^ t.mw + F) / 2 ^ (t.ew + t.mw) = if s then 1 else 0 := by
    have posE := Nat.two_pow_pos t.ew
    rw [pow, Nat.mul_comm (2 ^ t.ew), ← Nat.div_div_eq_div_mul, high]
    split
    · rw [Nat.add_div_left _ posE, Nat.div_eq_of_lt (by omega)]
    · rw [Nat.zero_add, Nat.div_eq_of_lt (by omega)]
  unfold Fmt.decode
  simp only [frac, high, expo, top]
  rw [if_neg (by omega), if_neg (by omega)]
  cases s <;> simp

/-! ### The rounding of a magnitude -/

theorem mag_add (m : Nat) (e : Int) (k : Nat) : mag m (e + k) = mag (m * 2 ^ k) e := by
  unfold mag
  rw [zpow_add₀ (by norm_num), zpow_natCast]
  push_cast
  ring

theorem mag_pos (e : Int) : 0 < mag 1 e := by unfold mag; positivity

theorem mag_succ (k : Nat) (q : Int) : mag (k + 1) q = mag k q + mag 1 q := by unfold mag; push_cast; ring


theorem mag_inj {m k : Nat} {e : Int} : mag m e = mag k e ↔ m = k := by
  unfold mag
  rw [mul_left_inj' (by positivity), Nat.cast_inj]

theorem roundsUp_zero (rm : Nat) (s : Bool) (keep sh : Nat) : roundsUp rm s keep 0 sh false = false := by
  have pos := Nat.two_pow_pos (sh - 1)
  unfold roundsUp
  split <;> simp
  omega

/-- The significand of `p = mw + 1` bits that a magnitude is rounded to, and its exponent: a magnitude with more bits. -/
structure SignificandOf (t : Fmt) (rm : Nat) (s : Bool) (m : Nat) (e : Int) (k : Nat) (q : Int) (exact : Prop) : Prop where
  low : 2 ^ t.mw ≤ k
  high : k < 2 ^ (t.mw + 1)
  exact : exact ↔ mag m e = mag k q
  rounded : RoundedTo rm s (mag m e) (mag k q) (mag 1 q) k

theorem significandOf_short {t : Fmt} (rm : Nat) (s : Bool) {m : Nat} (e : Int) (hm : m ≠ 0) (short : bitLen m ≤ t.mw + 1) :
    SignificandOf t rm s m e (m * 2 ^ (t.mw + 1 - bitLen m)) (e + bitLen m - (t.mw + 1 : Nat)) True := by
  obtain ⟨low, high⟩ := bitLen_bounds hm
  have value : mag m e = mag (m * 2 ^ (t.mw + 1 - bitLen m)) (e + bitLen m - (t.mw + 1 : Nat)) := by
    rw [← mag_add]; congr 1; omega
  have some_ : 1 ≤ bitLen m := by simp [bitLen, hm]
  refine ⟨?_, ?_, by simp [value], by rw [value]; exact .exact rm s _ _ (mag_pos _)⟩
  · calc 2 ^ t.mw = 2 ^ (bitLen m - 1) * 2 ^ (t.mw + 1 - bitLen m) := by rw [← Nat.pow_add]; congr 1; omega
      _ ≤ _ := Nat.mul_le_mul_right _ low
  · calc m * 2 ^ (t.mw + 1 - bitLen m) < 2 ^ bitLen m * 2 ^ (t.mw + 1 - bitLen m) := Nat.mul_lt_mul_of_pos_right high (Nat.two_pow_pos _)
      _ = 2 ^ (t.mw + 1) := by rw [← Nat.pow_add]; congr 1; omega

/-- The magnitude without its low `sh` bits, one unit more where it is rounded up: a significand, or the power of 2 above all. -/
theorem kept_bounds {p m sh : Nat} (hm : m ≠ 0) (hp : 0 < p) (len : bitLen m = p + sh) : 2 ^ (p - 1) ≤ m / 2 ^ sh ∧ m / 2 ^ sh < 2 ^ p := by
  obtain ⟨low, high⟩ := bitLen_bounds hm
  rw [len] at low high
  constructor
  · rw [Nat.le_div_iff_mul_le (Nat.two_pow_pos _), ← Nat.pow_add]
    exact (Nat.pow_le_pow_right (by omega) (by omega)).trans low
  · rw [Nat.div_lt_iff_lt_mul (Nat.two_pow_pos _), ← Nat.pow_add]
    exact high

theorem significandOf_long {t : Fmt} (ht : 1 ≤ t.mw) {rm : Nat} (hrm : rm ≤ 4) (s : Bool) {m sh : Nat} (e : Int) (hm : m ≠ 0) (hsh : 0 < sh)
    (len : bitLen m = t.mw + 1 + sh) :
    let keep1 := if roundsUp rm s (m / 2 ^ sh) (m % 2 ^ sh) sh false then m / 2 ^ sh + 1 else m / 2 ^ sh
    SignificandOf t rm s m e (if keep1 = 2 ^ (t.mw + 1) then 2 ^ t.mw else keep1) (if keep1 = 2 ^ (t.mw + 1) then e + sh + 1 else e + sh) (m % 2 ^ sh = 0) := by
  intro keep1
  obtain ⟨low, high⟩ := kept_bounds hm (by omega) len
  have split : mag m e = (m / 2 ^ sh : Nat) * ((2 ^ sh : Nat) * mag 1 e) + (m % 2 ^ sh : Nat) * mag 1 e := by
    conv_lhs => rw [← Nat.div_add_mod' m (2 ^ sh)]
    unfold mag
    push_cast
    ring
  have unit : mag 1 (e + sh) = (2 ^ sh : Nat) * mag 1 e := by rw [mag_add]; unfold mag; push_cast; ring
  have scale : ∀ k : Nat, mag k (e + sh) = k * ((2 ^ sh : Nat) * mag 1 e) := fun k => by rw [← unit]; unfold mag; push_cast; ring
  have rounded : RoundedTo rm s (mag m e) (mag keep1 (e + sh)) (mag 1 (e + sh)) keep1 := by
    rw [split, scale, unit]
    exact roundedTo_roundsUp rm s _ _ sh (mag_pos e) hsh (Nat.mod_lt _ (Nat.two_pow_pos _)) hrm
  have exact_ : m % 2 ^ sh = 0 ↔ mag m e = mag keep1 (e + sh) := by
    rw [mag_add, mag_inj]
    constructor
    · intro h
      have plain : keep1 = m / 2 ^ sh := by simp only [keep1, h, roundsUp_zero, Bool.false_eq_true, if_false]
      rw [plain, Nat.div_mul_cancel (Nat.dvd_of_mod_eq_zero h)]
    · intro h
      rw [h, Nat.mul_mod_left]
  have range : m / 2 ^ sh ≤ keep1 ∧ keep1 ≤ m / 2 ^ sh + 1 := by simp only [keep1]; split <;> omega
  by_cases full : keep1 = 2 ^ (t.mw + 1)
  · have carried : mag (2 ^ t.mw) (e + sh + 1) = mag keep1 (e + sh) := by
      rw [full, Nat.pow_succ]; exact_mod_cast mag_add (2 ^ t.mw) (e + sh) 1
    have double : mag 1 (e + sh + 1) = 2 * mag 1 (e + sh) := by
      have := mag_add 1 (e + sh) 1
      rw [Nat.one_mul] at this
      push_cast at this
      rw [this]; unfold mag; push_cast; ring
    have even : 2 ^ t.mw % 2 = 0 := by
      obtain ⟨w, hw⟩ := Nat.exists_eq_add_of_le' ht
      rw [hw, Nat.pow_succ, Nat.mul_mod_left]
    rw [if_pos full, if_pos full]
    have pos := Nat.two_pow_pos t.mw
    refine ⟨le_rfl, by rw [Nat.pow_succ]; omega, by rw [exact_, ← carried], ?_⟩
    have := rounded.carry (k' := 2 ^ t.mw) (mag_pos _) even
    rw [← double, ← carried] at this
    exact_mod_cast this
  · rw [if_neg full, if_neg full]
    exact ⟨low.trans range.1, by omega, exact_, rounded⟩

/-- The result of a significand and its exponent: overflow, a tiny result, or the number itself (05 R139, R141). -/
def Fmt.pack (t : Fmt) (md : FMode) (s : Bool) (k : Nat) (q : Int) (inexact : Bool) : FRes :=
  if q + t.mw > t.bias then
    { bits := if (match md.rm with | 0 => true | 1 => false | 2 => s | 3 => !s | _ => true) then t.inf s else t.maxFin s, flags := flagOF ||| flagNX }
  else if q + t.mw < 1 - (t.bias : Int) then { bits := t.sign s, flags := flagUF ||| flagNX, fpa := true }
  else { bits := t.sign s + (q + t.mw + t.bias).toNat * 2 ^ t.mw + (k - 2 ^ t.mw), flags := if inexact then flagNX else 0 }

theorem Fmt.round_short {t : Fmt} (md : FMode) (s : Bool) {m : Nat} (e : Int) (hm : m ≠ 0) (short : bitLen m ≤ t.mw + 1) :
    t.round md s m e false = t.pack md s (m * 2 ^ (t.mw + 1 - bitLen m)) (e + bitLen m - (t.mw + 1 : Nat)) false := by
  have high := (significandOf_short md.rm s e hm short (t := t)).high
  have none_ : bitLen m - (t.mw + 1) = 0 := by omega
  unfold Fmt.round
  simp only [short, if_true, none_, roundsUp_zero, Bool.false_eq_true, if_false, high.ne] <;> rfl

theorem Fmt.round_long {t : Fmt} (md : FMode) (s : Bool) {m sh : Nat} (e : Int) (hsh : 0 < sh) (len : bitLen m = t.mw + 1 + sh) :
    let keep1 := if roundsUp md.rm s (m / 2 ^ sh) (m % 2 ^ sh) sh false then m / 2 ^ sh + 1 else m / 2 ^ sh
    t.round md s m e false = t.pack md s (if keep1 = 2 ^ (t.mw + 1) then 2 ^ t.mw else keep1)
      (if keep1 = 2 ^ (t.mw + 1) then e + sh + 1 else e + sh) (m % 2 ^ sh != 0) := by
  intro keep1
  have shift : bitLen m - (t.mw + 1) = sh := by omega
  have long : ¬bitLen m ≤ t.mw + 1 := by omega
  have expo : e + (bitLen m : Int) - (t.mw + 1 : Nat) = e + sh := by omega
  unfold Fmt.round
  simp only [long, if_false, shift, expo, Nat.add_sub_cancel]
  unfold Fmt.pack
  simp only [Bool.or_false] <;> rfl

/-- A result with no flag but NX is the number of its significand. -/
theorem Fmt.pack_normal {t : Fmt} (ew : 1 ≤ t.ew) {md : FMode} {s : Bool} {m k : Nat} {e q : Int} {inexact : Bool}
    (sig : SignificandOf t md.rm s m e k q (inexact = false)) (h : (t.pack md s k q inexact).flags = 0 ∨ (t.pack md s k q inexact).flags = flagNX) :
    t.decode (t.pack md s k q inexact).bits = .fin s k q ∧ ((t.pack md s k q inexact).flags = 0 ↔ mag m e = mag k q) := by
  obtain ⟨low, high, exact_, -⟩ := sig
  unfold Fmt.pack at h ⊢
  split at h
  · exact absurd h (show ¬(flagOF ||| flagNX = 0 ∨ flagOF ||| flagNX = flagNX) by decide)
  rename_i fits
  split at h
  · exact absurd h (show ¬(flagUF ||| flagNX = 0 ∨ flagUF ||| flagNX = flagNX) by decide)
  rename_i normal
  rw [if_neg fits, if_neg normal]
  have bias : t.bias = 2 ^ (t.ew - 1) - 1 := rfl
  have top : 2 ^ t.ew = 2 * 2 ^ (t.ew - 1) := by rw [← Nat.pow_succ']; congr 1; omega
  have pos := Nat.two_pow_pos (t.ew - 1)
  have frac : k - 2 ^ t.mw < 2 ^ t.mw := by rw [Nat.pow_succ] at high; omega
  refine ⟨?_, ?_⟩
  · rw [Fmt.decode_normal (by omega) (by omega) frac]
    congr 1 <;> omega
  · rw [← exact_]
    cases inexact <;> simp [flagNX]

theorem roundingIsRight : Rules.RoundingIsRight := by
  intro t md s m e ht hrm hm r flags
  have widths : 1 ≤ t.ew ∧ 1 ≤ t.mw := by rcases ht with rfl | rfl <;> decide
  obtain ⟨k, q, inexact, packed, sig⟩ : ∃ k q inexact, r = t.pack md s k q inexact ∧ SignificandOf t md.rm s m e k q (inexact = false) := by
    by_cases short : bitLen m ≤ t.mw + 1
    · have sig := significandOf_short md.rm s e hm short
      exact ⟨_, _, false, Fmt.round_short md s e hm short, { sig with exact := by simpa using sig.exact }⟩
    · obtain ⟨sh, len⟩ := Nat.exists_eq_add_of_le (Nat.le_of_not_le short)
      have sig := significandOf_long widths.2 hrm s e hm (by omega) len
      exact ⟨_, _, _, Fmt.round_long md s e (by omega) len, { sig with exact := by simpa using sig.exact }⟩
  rw [packed] at flags ⊢
  obtain ⟨decoded, nx⟩ := Fmt.pack_normal widths.1 sig flags
  have succ := mag_succ k q
  obtain ⟨even, zero, down, up, away⟩ := sig.rounded
  refine ⟨k, q, decoded, sig.low, sig.high, nx, even, ?_, ?_, ?_, away⟩
  · rw [succ]; exact zero
  · rw [succ]; exact down
  · rw [succ]; exact up

/-- Settles O15. -/
theorem fpArithmetic : Obligations.FpArithmetic := ⟨roundingIsRight, fpResults⟩

end Sys2Proof.Machine
end

section
/-! ## System registers (04 R75, R99-R107; 12 R333-R343), O18 -/

namespace Sys2Proof.Machine

/-! ### Reads into a register -/

theorem Core.setG_bunk_eq (c : Core) (k : Nat) (v : W64) : (c.setG k v).bunk = c.bunk := by rw [Core.setG_frame]

theorem IgnoresBunk.setG (k : Nat) (v : W64) : IgnoresBunk (fun c => c.setG k v) := by
  intro c b
  simp only [Core.setG]
  split <;> rfl

section
variable {s u : State} {n : Fin 192} {b : List Byte} {i : Insn} {op : OzOp} {f : Nat → Insn → State → Except Exc W64}
variable (h : Issues s n b i u) (ho : i.op = op)
include h ho

/-- A read that does not trap writes its value to A, and a primary logs it (09 R253). -/
theorem Issues.reads {v : W64} (hf : f n.val i u = .ok v) :
    ∃ t, ozRow n b op (readSem f) s = .next t ∧ Retires u t n ((u.core n.val).setG i.a v) (seqOf u n i) :=
  h.next (v := (u.updCore n.val (fun c => c.setG i.a v)).logRec n.val false [v]) (f := readSem f) (by simp [ho])
    (by simp [readSem, hf, h.single']) (((Leaves.refl u n.val).updCore (.setG i.a v)).logRec false [v])

/-- A read that traps. -/
theorem Issues.read_traps {x : Exc} (hf : f n.val i u = .error x) (vec : (u.core n.val).vec = false) (h1 : 1 ≤ x.level) (h3 : x.level ≤ 3)
    (plain : x.far2 = none) :
    ∃ t, ozRow n b op (readSem f) s = .next t ∧ EntryFrame u t n
      ∧ Entered (u.core n.val) (t.core n.val) (max x.level (u.core n.val).level.val) (u.core n.val).pc x.word x.far
          (syncOff (max x.level (u.core n.val).level.val) (u.core n.val).level.val) :=
  h.traps (f := readSem f) (by simp [ho]) (by simp [readSem, hf]) vec h1 h3 plain

end

/-! ### MFS and MTS -/

theorem Core.sysGate_ok {c : Core} {k : Nat} {a : SysAcc} (listed : sysAcc k = some a) (level : k / 16384 ≤ c.level.val) : c.sysGate k = .ok a := by
  simp [Core.sysGate, listed, Nat.not_lt.mpr level]

theorem systemRegisterReads : Rules.SystemRegisterReads := by
  intro s u n b i a h ho c listed level free
  have gate : (u.core n.val).sysGate i.sysNo = .ok a := Core.sysGate_ok listed level
  refine ⟨h.reads (f := mfsValue) ho ?_, fun wo => ?_, fun other plain => ?_⟩
  · have away : (u.core n.val).routedAway i.sysNo = false := free
    simp [mfsValue, gate, away] <;> rfl
  · subst wo
    simp [Core.sysValue, listed]
  · cases a with
    | wo => exact absurd rfl other
    | ro => simp [Core.sysValue, listed, plain]
    | rw => simp [Core.sysValue, listed, plain]

theorem Core.writeSys_bunk (c : Core) (k : Nat) (v : W64) : (c.writeSys k v).bunk = c.bunk := by
  unfold Core.writeSys
  extract_lets j
  split
  · split
    · unfold Core.claim; split <;> rfl
    · split
      · rfl
      · split
        · unfold Core.pend; simp only; split_ifs <;> rfl
        · rfl
  · split_ifs <;> rfl

/-- A permitted MTS writes its register (04 R75). -/
theorem Core.mts_ok {c : Core} {k : Nat} {v : W64} {a : SysAcc} (listed : sysAcc k = some a) (writes : a ≠ .ro) (level : k / 16384 ≤ c.level.val)
    (permitted : sysForbidden k v = false) (free : c.mtsPriv k v = false) : c.mts k v = .ok (c.writeSys k v) := by
  have acc : sysAcc k ≠ some .ro := by rw [listed]; simpa using writes
  simp [Core.mts, acc, permitted, Core.sysGate_ok listed level, free]

/-- The registers whose MTS makes no loop-back (04 R107). -/
def LoopRegister (k : Nat) : Prop := k = 0 ∨ k = 2 ∨ k = 3 ∨ k = 4

section
variable {s u : State} {n : Fin 192} {b : List Byte} {i : Insn} {is : Insn → Bool} {d : Core} (h : Issues s n b i u) (hi : is i = true)
variable (hd : (u.core n.val).mts i.sysNo ((u.core n.val).gr i.a) = .ok d) (hb : d.bunk = (u.core n.val).bunk)
include h hi hd hb

theorem Issues.mts_holds (loops : LoopRegister i.sysNo) : ∃ t, s.issue n.val b is mtsSem = .next t ∧ Jumps u t n d (seqOf u n i) :=
  h.hold hi (by simp only [mtsSem, hd]; exact if_pos loops) (Leaves.setCore u n.val hb)

theorem Issues.mts_retires (other : ¬LoopRegister i.sysNo) : ∃ t, s.issue n.val b is mtsSem = .next t ∧ Retires u t n d (seqOf u n i) :=
  h.next hi (by simp only [mtsSem, hd]; exact if_neg other) (Leaves.setCore u n.val hb)

end

theorem systemRegisterWrites : Rules.SystemRegisterWrites := by
  intro s u n b i a h ho c v d listed writes level permitted free
  have ok : c.mts i.sysNo v = .ok d := Core.mts_ok listed writes level permitted free
  refine ⟨fun loops => h.mts_holds (by simp [ho]) ok (Core.writeSys_bunk c _ _) loops,
    fun other => h.mts_retires (by simp [ho]) ok (Core.writeSys_bunk c _ _) other, fun plain other => ?_⟩
  simp only [d, Core.writeSys, plain, if_neg other]
  split <;> rfl

/-! ### MFS and MTS that may not be made -/

theorem Insn.sysNo_lt (i : Insn) : i.sysNo < 65536 := i.sysImm_lt

/-- MFS and MTS trap alike where their checks say so. -/
theorem Issues.sys_traps {s u : State} {n : Fin 192} {b : List Byte} {i : Insn} (h : Issues s n b i u) {x : Instr}
    (hx : x = .mfs n b ∧ i.op = .mfs ∨ x = .mts n b ∧ i.op = .mts) {e : Exc} (mfs : i.op = .mfs → mfsValue n.val i u = .error e)
    (mts : i.op = .mts → (u.core n.val).mts i.sysNo ((u.core n.val).gr i.a) = .error e) : exec x s = .next (u.raiseExc n.val e) := by
  rcases hx with ⟨rfl, ho⟩ | ⟨rfl, ho⟩
  · exact h.trap (is := fun i => i.op = .mfs) (f := readSem mfsValue) (by simp [ho]) (by simp [readSem, mfs ho])
  · exact h.trap (is := fun i => i.op = .mts) (f := mtsSem) (by simp [ho]) (by simp only [mtsSem, mts ho])

theorem mfsValue_gate {u : State} {n : Nat} {i : Insn} {e : Exc} (gate : (u.core n).sysGate i.sysNo = .error e) : mfsValue n i u = .error e := by
  simp only [mfsValue, gate]

theorem systemRegisterExceptions : Rules.SystemRegisterExceptions := by
  intro s u n b i h vec c lv up con legal x hx
  refine ⟨fun below hlegal => ?_, fun level unlisted => ?_, fun hmts ro => ?_, fun a hmts listed writes forbidden => ?_⟩
  · have gate : c.sysGate i.sysNo = .error (privExc lv i.sysNo) := if_pos below
    have small := i.sysNo_lt
    have priv := State.raiseExc_priv (v := u) (info := i.sysNo) (show lv ≤ 2 by omega) vec
    rw [Nat.mod_eq_of_lt small] at priv
    refine ⟨_, h.sys_traps hx (fun _ => mfsValue_gate gate) (fun hmts => ?_), priv⟩
    obtain ⟨notRo, permitted⟩ := hlegal hmts
    rw [Core.mts, if_neg notRo, if_neg (by simpa using permitted), show (u.core n.val).sysGate i.sysNo = _ from gate]
  · have gate : c.sysGate i.sysNo = .error (ill 9) := by rw [Core.sysGate, if_neg (not_lt.mpr level), unlisted]
    refine ⟨_, h.sys_traps hx (fun _ => mfsValue_gate gate) (fun _ => ?_), State.raiseExc_ill 9 vec⟩
    rw [Core.mts, if_neg (by simp [unlisted]), if_neg (by simp [unlisted]), show (u.core n.val).sysGate i.sysNo = _ from gate]
  · refine ⟨_, h.sys_traps hx (fun hmfs => ?_) (fun _ => if_pos ro), State.raiseExc_ill 8 vec⟩
    rw [hmfs] at hmts
    cases hmts
  · refine ⟨_, h.sys_traps hx (fun hmfs => ?_) (fun _ => ?_), State.raiseExc_ill 7 vec⟩
    · rw [hmfs] at hmts
      cases hmts
    · rw [Core.mts, if_neg (by rw [listed]; simpa using writes), if_pos]
      simp only [listed, Option.isSome_some, Bool.true_and]
      exact forbidden

/-! ### The event registers -/

/-- The register of an event level by its offset (12 R333). -/
theorem evLevel_eq {k o : Nat} (hk : k < 4) (ho : o < 64) : evLevel (0x4100 + 64 * k + o) = some k := by
  rw [evLevel, if_pos (by omega)]
  congr 1
  omega

theorem sysAcc_event {k o : Nat} (hk : k < 4) (ho : 49 ≤ o ∧ o < 52) : sysAcc (0x4100 + 64 * k + o) = some .wo := by
  have off : (0x4100 + 64 * k + o) % 64 = o := by omega
  simp only [sysAcc, off]
  repeat rw [if_neg (by omega)]
  rw [if_pos (by omega)]
  repeat rw [if_neg (by omega)]
  rw [if_pos (by omega)]

theorem Core.evBit_setEvBit_same (c : Core) (arr : Nat → Nat → Nat) (k j : Nat) (v : Bool) : (c.setEvBit arr k j v).evBit arr k j = v := by
  rw [Core.evBit, Core.setEvBit, Core.sysReg_setSys, if_pos rfl, bitOf_putBit_same _ _ _ (Nat.mod_lt _ (by omega))]

theorem Core.sysReg_setEvBit_other (c : Core) (arr : Nat → Nat → Nat) (k j : Nat) (v : Bool) {r : Nat} (h : r ≠ arr k (j / 64)) :
    (c.setEvBit arr k j v).sysReg r = c.sysReg r := by
  rw [Core.setEvBit, Core.sysReg_setSys, if_neg h]

/-- PEND and ACT of one level are different words. -/
theorem evPend_ne_evAct (k w : Nat) : evPend k w ≠ evAct k w := by
  unfold evPend evAct
  omega

theorem Core.evBit_clearHeld (c : Core) (k j : Nat) (arr : Nat → Nat → Nat) (l b : Nat) : (c.clearHeld k j).evBit arr l b = c.evBit arr l b := rfl

theorem Core.claim_pending {c : Core} {k j : Nat} (pending : c.evBit evPend k j = true) :
    (c.claim k j).evBit evPend k j = false ∧ (c.claim k j).evBit evAct k j = true := by
  have e : c.claim k j = ((c.setEvBit evPend k j false).setEvBit evAct k j true).clearHeld k j := if_pos pending
  rw [e, Core.evBit_clearHeld, Core.evBit_clearHeld, Core.evBit_setEvBit_same]
  refine ⟨?_, rfl⟩
  rw [Core.evBit, Core.sysReg_setEvBit_other _ _ _ _ _ (evPend_ne_evAct k _)]
  exact Core.evBit_setEvBit_same _ _ _ _ _

theorem Core.claim_frame (c : Core) (k j : Nat) : (∀ r, r ≠ evPend k (j / 64) → r ≠ evAct k (j / 64) → (c.claim k j).sysReg r = c.sysReg r)
    ∧ (c.claim k j).g = c.g ∧ (c.claim k j).f = c.f := by
  unfold Core.claim
  split
  · exact ⟨fun r h1 h2 => (Core.sysReg_setEvBit_other _ _ _ _ _ h2).trans (Core.sysReg_setEvBit_other _ _ _ _ _ h1), rfl, rfl⟩
  · exact ⟨fun _ _ _ => rfl, rfl, rfl⟩

/-- A pending bit that is set changes PEND alone among the registers. -/
theorem Core.pend_frame (c : Core) (k j : Nat) : (∀ r, r ≠ evPend k (j / 64) → (c.pend k j 0).sysReg r = c.sysReg r)
    ∧ (c.pend k j 0).g = c.g ∧ (c.pend k j 0).f = c.f :=
  ⟨fun _ h => Core.sysReg_setEvBit_other c evPend k j true h, rfl, rfl⟩

theorem eventRegisterWrites : Rules.EventRegisterWrites := by
  intro s u n b i h ho c v q ok
  /- An MTS to one group of registers retires with the register written. -/
  have writes : ∀ (a : SysAcc) (is : Insn → Bool), is i = true → sysAcc i.sysNo = some a → a ≠ .ro → ¬LoopRegister i.sysNo → ok →
      ∃ t, s.issue n.val b is mtsSem = .next t ∧ Retires u t n (c.writeSys i.sysNo v) q := fun a is hi listed other plain ⟨level, permitted, free⟩ =>
    h.mts_retires hi (Core.mts_ok listed other level permitted free) (Core.writeSys_bunk _ _ _) plain
  refine ⟨fun k j hk hv hj hok => ?_, fun hok reg => ?_, fun hok reg => ?_⟩
  · have index : v.toNat % 1024 = j := by rw [hv, BitVec.toNat_ofNat]; omega
    have event : ∀ o, 49 ≤ o → o < 52 → i.sysNo = 0x4100 + 64 * k + o → ∀ is : Insn → Bool, is i = true →
        ∃ t, s.issue n.val b is mtsSem = .next t ∧ Retires u t n (c.writeSys i.sysNo v) q := fun o low high reg is hi =>
      writes .wo is hi (by rw [reg]; exact sysAcc_event hk ⟨low, high⟩) (by decide) (by unfold LoopRegister; omega) hok
    have written : ∀ o, o < 64 → i.sysNo = 0x4100 + 64 * k + o → c.writeSys i.sysNo v
        = if o = 49 then c.claim k j else if o = 50 then c.endOf k j else if o = 51 then c.pend k j 0 else c.setSys i.sysNo v := fun o ho reg => by
      have off : i.sysNo % 64 = o := by omega
      have level : evLevel i.sysNo = some k := by rw [reg]; exact evLevel_eq hk ho
      simp only [Core.writeSys, level, off, index]
    refine ⟨fun reg => ?_, fun reg => ?_, fun reg => ?_⟩
    · obtain ⟨t, ht, retires⟩ := event 49 (by omega) (by omega) reg (fun i => i.op = .mts && ((evLevel i.sysNo).isSome && i.sysNo % 64 = 49)) (by
        simp [ho, reg, evLevel_eq hk (show 49 < 64 by omega)]; omega)
      rw [written 49 (by omega) reg] at retires
      obtain ⟨others, g, f⟩ := Core.claim_frame c k j
      exact ⟨t, c.claim k j, ht, retires, Core.claim_pending, fun idle => if_neg (by simp [idle]), others, g, f⟩
    · obtain ⟨t, ht, retires⟩ := event 50 (by omega) (by omega) reg (fun i => i.op = .mts && ((evLevel i.sysNo).isSome && i.sysNo % 64 = 50)) (by
        simp [ho, reg, evLevel_eq hk (show 50 < 64 by omega)]; omega)
      rw [written 50 (by omega) reg] at retires
      exact ⟨t, c.endOf k j, ht, retires, Core.evBit_setEvBit_same _ _ _ _ _, fun r hr => Core.sysReg_setEvBit_other _ _ _ _ _ hr, rfl, rfl⟩
    · obtain ⟨t, ht, retires⟩ := event 51 (by omega) (by omega) reg (fun i => i.op = .mts && ((evLevel i.sysNo).isSome && i.sysNo % 64 = 51)) (by
        simp [ho, reg, evLevel_eq hk (show 51 < 64 by omega)]; omega)
      rw [written 51 (by omega) reg] at retires
      obtain ⟨others, g, f⟩ := Core.pend_frame c k j
      exact ⟨t, c.pend k j 0, ht, retires, Core.evBit_pend c k j, others, g, f⟩
  · have written : c.writeSys i.sysNo v = c.setSys 0x8101 (putBit (c.sysReg 0x8101) c.level.val false) := by rw [reg]; rfl
    rw [← written]
    exact writes .wo (fun i => i.op = .mts && i.sysNo = 0x4201) (by simp [ho, reg]) (by rw [reg]; decide) (by decide) (by unfold LoopRegister; omega) hok
  · have written : c.writeSys i.sysNo v = c.setSys 0x8101 v := by rw [reg]; rfl
    rw [← written]
    exact writes .rw (fun i => i.op = .mts && i.sysNo = 0x8101) (by simp [ho, reg]) (by rw [reg]; decide) (by decide) (by unfold LoopRegister; omega) hok

/-- Settles O18. -/
theorem systemRegisters : Obligations.SystemRegisters :=
  ⟨systemRegisterReads, systemRegisterWrites, systemRegisterExceptions, eventRegisterWrites⟩

end Sys2Proof.Machine
end

section
/-! ## Reads of the block (04 R97, R114, R115), O19 -/

namespace Sys2Proof.Machine

theorem readsOfTheBlock1 : Rules.ReadsOfTheBlock1 := by
  intro s u n b i h c q ft free
  refine ⟨fun ho high => ?_, fun ho low plain => ?_, fun ho hfree => ?_, fun ho hfree => ?_, fun ho some_ => ?_⟩
  · exact h.reads (f := rdfeatValue) ho (if_pos high)
  · refine h.reads (f := rdfeatValue) ho ?_
    exact (if_neg (show ¬2 ≤ c.level.val by omega)).trans (if_neg (by rw [Bool.not_eq_true]; exact plain))
  · refine h.reads (f := rdtimeValue) ho ?_
    simp only [rdtimeValue, show (u.core n.val).timeTrap = none from hfree]
  · obtain ⟨t, ht, retires⟩ := h.reads (f := rdfrmValue) ho (v := BitVec.ofNat 64 ((u.reg (frr (n.val / 48) 0x40)).toNat * 4294967296
        + min 0xFFFFFFFF (u.time - u.tickInstant (n.val / 48)))) (by simp only [rdfrmValue, show (u.core n.val).timeTrap = none from hfree])
    have word := (u.reg (frr (n.val / 48) 0x40)).isLt
    refine ⟨t, _, ht, retires, ?_, ?_⟩
    · simp only [fieldOf, BitVec.toNat_ofNat, Nat.shiftRight_eq_div_pow]
      omega
    · simp only [fieldOf, BitVec.toNat_ofNat, Nat.shiftRight_eq_div_pow]
      omega
  · refine h.reads (f := rdwinValue) ho (if_neg ?_)
    intro user
    have : c.level.val = 0 := congrArg Fin.val user
    omega

/-- Where RDTIME and RDFRM trap, both raise what `timeTrap` says (04 R114). -/
theorem Issues.time_traps {s u : State} {n : Fin 192} {b : List Byte} {i : Insn} (h : Issues s n b i u) {x : Instr}
    (hx : x = .rdtime n b ∧ i.op = .rdtime ∨ x = .rdfrm n b ∧ i.op = .rdfrm) {e : Exc} (he : (u.core n.val).timeTrap = some e) :
    exec x s = .next (u.raiseExc n.val e) := by
  rcases hx with ⟨rfl, ho⟩ | ⟨rfl, ho⟩
  · exact h.trap (is := fun i => i.op = .rdtime) (f := readSem rdtimeValue) (by simp [ho]) (by simp [readSem, rdtimeValue, he])
  · exact h.trap (is := fun i => i.op = .rdfrm) (f := readSem rdfrmValue) (by simp [ho]) (by simp [readSem, rdfrmValue, he])

theorem readsTrap : Rules.ReadsTrap := by
  intro s u n b i h vec c lv x hx
  refine ⟨fun user utd => ?_, fun low other ttd => ?_⟩
  · have trap : c.timeTrap = some (trapExc 1 0) := if_pos ⟨Fin.ext user, utd⟩
    obtain ⟨-, entered⟩ := State.raiseExc_spec (x := trapExc 1 0) vec (by decide) (by decide) rfl
    have top : max (trapExc 1 0).level c.level.val = 1 := by rw [show c.level.val = 0 from user]; rfl
    have off : syncOff 1 c.level.val = 0x80 := if_neg (by rw [show c.level.val = 0 from user]; decide)
    rw [top, off] at entered
    exact ⟨_, h.time_traps hx trap, entered⟩
  · have trap : c.timeTrap = some (trapExc 2 3) :=
      (if_neg (fun both => other ⟨congrArg Fin.val both.1, both.2⟩)).trans (if_pos ⟨low, ttd⟩)
    obtain ⟨-, entered⟩ := State.raiseExc_spec (x := trapExc 2 3) vec (by decide) (by decide) rfl
    have top : max (trapExc 2 3).level c.level.val = 2 := max_eq_left (show c.level.val ≤ 2 by omega)
    have off : syncOff 2 c.level.val = 0x80 := if_neg (by omega)
    rw [top, off] at entered
    exact ⟨_, h.time_traps hx trap, entered⟩

/-- Settles O19. -/
theorem readsOfTheBlock : Obligations.ReadsOfTheBlock := ⟨readsOfTheBlock1, readsTrap⟩

end Sys2Proof.Machine
end

section
/-! ## Fences, waiting and the partition switch (04 R108-R116; 12 R340, R342), O20 -/

namespace Sys2Proof.Machine

theorem Core.not_below {c : Core} {k : Nat} (h : k ≤ c.level.val) : c.below k = false := decide_eq_false (not_lt.mpr h)

/-! ### Fences -/

/-- A fence with every earlier store performed and no device read outstanding is free to go on (04 R108). -/
theorem fenceSem_next (k : Nat) {n : Nat} {i : Insn} {q : W64} {u : State} (drained : (u.core n).sb = []) (quiet : (u.core n).ext.all (·.fetch) = true) :
    fenceSem k n i q u = .next u := by
  have none_ : (u.core n).ext.any (!·.fetch) = false := by rw [List.any_eq_not_all_not]; simpa using quiet
  simp [fenceSem, Core.drained, drained, none_]

theorem fenceSem_wait {k : Nat} (full : k = 0 ∨ k = 2) {n : Nat} {i : Insn} {q : W64} {u : State} (busy : (u.core n).sb ≠ []) :
    fenceSem k n i q u = .wait u := by
  simp [fenceSem, full, Core.drained, busy]

theorem fencesRetire : Rules.FencesRetire := by
  intro s u n b i h c
  have is : ∀ k, i.op = .fence → i.byte = k → (fun i : Insn => i.op = .fence && decide (i.byte = k)) i = true := fun k ho hk => by simp [ho, hk]
  refine ⟨fun x hx ho hk drained quiet => ?_, fun ho hk busy => ?_, fun ho hk busy => ?_, fun ho level none_ => ?_, fun ho level some_ => ?_⟩
  · have row : exec (x.1 n b) s = fenceRow n b x.2 s := by
      unfold fenceRows at hx
      simp only [List.mem_cons, List.not_mem_nil, or_false] at hx
      rcases hx with rfl | rfl | rfl | rfl | rfl <;> rfl
    rw [row]
    exact h.next (f := fenceSem x.2) (is _ ho hk) (fenceSem_next _ drained quiet) (Leaves.refl u n.val)
  · exact h.wait (f := fenceSem 0) (is _ ho hk) (fenceSem_wait (.inl rfl) busy)
  · exact h.wait (f := fenceSem 2) (is _ ho hk) (fenceSem_wait (.inr rfl) busy)
  · have some_ : (u.core n.val).below 1 = false := Core.not_below level
    exact h.next (is := fun i => i.op = .tlbsync) (f := tlbsyncSem) (by simp [ho])
      (by simp [tlbsyncSem, some_, show (u.core n.val).tlbis = [] from none_]) (Leaves.refl u n.val)
  · have above : (u.core n.val).below 1 = false := Core.not_below level
    exact h.wait (is := fun i => i.op = .tlbsync) (f := tlbsyncSem) (by simp [ho])
      (by simp [tlbsyncSem, above, h.single', show (u.core n.val).tlbis ≠ [] from some_])

/-! ### WAIT -/

/-- A core that may issue has not halted with its pair. -/
theorem Issues.halted {s u : State} {n : Fin 192} {b : List Byte} {i : Insn} (h : Issues s n b i u) : (u.core n.val).bunk.halted = false := by
  have may := h.may
  simp only [State.mayIssue, State.atBoundary, Bool.and_eq_true, Bool.not_eq_true'] at may
  rw [Core.arch_bunk (h.via.cores n.val)]
  tauto

/-- The core while it waits, and once its WAIT completes. -/
theorem Core.loopBack_run (c : Core) (r : RunState) (q : W64) : ({ c with run := r } : Core).loopBack q = { c.loopBack q with run := r } := by
  show (if bitOf (c.sysReg 0) 8 && q == c.sysReg 4 then _ else _ : Core) = { c.loopBack q with run := r }
  unfold Core.loopBack
  split
  · show (if c.sysReg 2 - 1 = 0 then _ else _ : Core) = { (if c.sysReg 2 - 1 = 0 then _ else _ : Core) with run := r }
    split <;> rfl
  · rfl

theorem EntryFrame_useLast (u : State) (n : Fin 192) : EntryFrame u (u.useLast n.val) n := by
  refine ⟨?_, ?_, ?_, ?_, ?_, ?_, ?_, fun m _ => State.core_useLast u n.val m⟩ <;> rw [State.useLast_eq]

/-- The core when its WAIT has completed: on at the next instruction (04 R107, R111). -/
def Core.waited (q : W64) (c : Core) : Core := { (c.loopBack q).settled with run := .ready }

theorem IgnoresBunk.waited (q : W64) : IgnoresBunk (Core.waited q) := fun c b =>
  congrArg (fun d : Core => ({ d.settled with run := .ready } : Core)) (IgnoresBunk.loopBack q c b)

theorem Core.waited_of_waiting (c : Core) (r : RunState) (q : W64) : ({ c with run := r } : Core).waited q = c.waited q :=
  (congrArg (fun d : Core => ({ d.settled with run := .ready } : Core)) (Core.loopBack_run c r q)).trans rfl

theorem State.completeWait_spec (v : State) (n : Fin 192) (q : W64) :
    EntryFrame v (v.completeWait n.val q) n
      ∧ (v.completeWait n.val q).core n.val = { (v.core n.val).waited q with bunk := ((v.completeWait n.val q).core n.val).bunk } := by
  have h1 := BunkOnly.logRec n.val v true [ctlSlot 5 (v.core n.val).bunk.brpos 0]
  generalize hw : v.logRec n.val true [ctlSlot 5 (v.core n.val).bunk.brpos 0] = w at h1
  have ends : v.completeWait n.val q = ((w.updCore n.val (Core.waited q)).retired n.val).bunkRetire n.val := by rw [← hw]; rfl
  have h2 := BunkOnly.bunkRetire n.val ((w.updCore n.val (Core.waited q)).retired n.val)
  have retired : EntryFrame (w.updCore n.val (Core.waited q)) ((w.updCore n.val (Core.waited q)).retired n.val) n :=
    ⟨rfl, rfl, rfl, rfl, rfl, rfl, rfl, fun _ _ => rfl⟩
  have core : ((w.updCore n.val (Core.waited q)).retired n.val).core n.val = (w.core n.val).waited q := State.core_updCore_same w n.val _
  rw [ends]
  refine ⟨(((EntryFrame.log h1).trans (.updCore w n _)).trans retired).trans (.log h2), ?_⟩
  rw [h2.self, core, h1.self, IgnoresBunk.waited]

/-- Is the condition of a WAIT met (04 R111)? -/
def Core.waitDue (c : Core) (time : Nat) (stop : Option W64) : Prop := c.wakeReady = true ∨ ∃ t ∈ stop, t.toNat ≤ time

section
variable {v : State} {n : Nat} {q : W64} {stop : Option W64} (waits : (v.core n).run = .waiting stop q)
include waits

theorem State.endWait_idle (idle : ¬(v.core n).waitDue v.time stop) : v.endWait n = v := by
  obtain ⟨asleep, early⟩ := not_or.mp idle
  unfold State.endWait
  rw [waits]
  cases stop <;> simp_all

theorem State.endWait_due (single : (v.core n).isShadow = false) (going : (v.core n).bunk.halted = false) (due : (v.core n).waitDue v.time stop) :
    v.endWait n = v.completeWait n q := by
  have alone : ((v.core n).bunk.bound && (v.core n).bunk.shadow) = false := single
  unfold State.endWait
  rw [waits]
  simp only [alone, going]
  rcases due with wake | ⟨t, rfl, late⟩
  · simp [wake]
  · simp [late]

end

theorem waitRule : Rules.WaitRule := by
  intro s u n b i h ho c q c' stop due level free drained
  have above : (u.core n.val).below 1 = false := Core.not_below level
  generalize hv : (u.updCore n.val (fun c => { c with run := .waiting stop q, held := [] })).useLast n.val = v
  have core : v.core n.val = { c' with run := .waiting stop q } := by rw [← hv, State.core_useLast, State.core_updCore_same]
  have frame : EntryFrame u v n := by rw [← hv]; exact (EntryFrame.updCore u n _).trans (EntryFrame_useLast _ n)
  have time : v.time = u.time := by rw [← hv, State.time, State.useLast_eq]; rfl
  have exec_ : exec (.wait n b) s = .next (v.endWait n.val) := by
    refine h.done (is := fun i => i.op = .wait) (f := waitSem) (by simp [ho]) ?_
    have trapped : ¬((u.core n.val).level = 1 ∧ bitOf ((u.core n.val).sysReg 0x8006) 2 = true) := fun both => free ⟨congrArg Fin.val both.1, both.2⟩
    have empty : (u.core n.val).drained = true := by simp [Core.drained, show (u.core n.val).sb = [] from drained]
    simp only [waitSem, above, Bool.false_eq_true, if_false, trapped, empty, Bool.not_true, h.single']
    rw [← hv]
  have same : due ↔ (v.core n.val).waitDue v.time stop := by
    have wake : (v.core n.val).wakeReady = c'.wakeReady := by rw [core]; rfl
    rw [Core.waitDue, wake, time]
    by_cases plain : i.a = 0 <;> simp [due, stop, plain]
  have waits : (v.core n.val).run = .waiting stop q := by rw [core]
  refine ⟨fun yes => ?_, fun no => ?_⟩
  · obtain ⟨after, waited⟩ := State.completeWait_spec v n q
    rw [exec_, State.endWait_due waits (by rw [core]; exact h.single') (by rw [core]; exact h.halted) (same.mp yes)]
    refine ⟨_, rfl, frame.trans after, ?_⟩
    rw [waited, core, Core.waited_of_waiting]
    rfl
  · rw [exec_, State.endWait_idle waits (mt same.mpr no)]
    refine ⟨v, rfl, frame, core, ?_⟩
    simp [State.mayIssue, State.atBoundary, waits]

/-! ### PSWITCH -/

/-- A loop-back writes STATUS and LCNT alone. -/
theorem Core.sysReg_loopBack (c : Core) (q : W64) {r : Nat} (h0 : r ≠ 0) (h2 : r ≠ 2) : (c.loopBack q).sysReg r = c.sysReg r := by
  unfold Core.loopBack
  extract_lets k
  split
  · split
    · show (Core.setSys _ _ _).sysReg r = _
      rw [Core.sysReg_setSys, if_neg h0, Core.sysReg_setSys, if_neg h2]
    · show (Core.setSys _ _ _).sysReg r = _
      rw [Core.sysReg_setSys, if_neg h2]
  · rfl

theorem fieldOf_high (v : W64) : fieldOf v 6 58 = v.toNat / 64 := by
  have := v.isLt
  simp only [fieldOf, Nat.shiftRight_eq_div_pow]
  norm_num
  omega

theorem partitionSwitch : Rules.PartitionSwitch := by
  intro s u n b i h ho c v
  have isOp : (fun i : Insn => decide (i.op = .pswitch)) i = true := by simp [ho]
  refine ⟨fun small level drained => ?_, fun big vec => ?_, fun small level vec => ?_⟩
  · have low : fieldOf ((u.core n.val).gr i.a) 6 58 = 0 := by rw [fieldOf_high]; exact Nat.div_eq_of_lt small
    have above : (u.core n.val).below 2 = false := Core.not_below level
    have empty : (u.core n.val).drained = true := by simp [Core.drained, show (u.core n.val).sb = [] from drained]
    have leaves : Leaves u ((u.updCore n.val (fun c => c.setSys 0x8008 v)).applyPl n.val) n.val
        { c.setSys 0x8008 v with pl := u.reg (corePage n.val 0x100) } :=
      ((Leaves.refl u n.val).updCore (f := fun c => c.setSys 0x8008 v) (fun _ _ => rfl)).updCore
        (f := fun c => { c with pl := (u.updCore n.val (fun c => c.setSys 0x8008 v)).reg (corePage n.val 0x100) }) (fun _ _ => rfl)
    obtain ⟨t, ht, retires⟩ := h.next (is := fun i => i.op = .pswitch) (f := pswitchSem) isOp (by simp [pswitchSem, low, above, empty] <;> rfl) leaves
    refine ⟨t, ht, retires, ?_⟩
    have part : (t.core n.val).sysReg 0x8008 = v := by
      rw [retires.1]
      exact (Core.sysReg_loopBack _ _ (by omega) (by omega)).trans (by
        show (c.setSys 0x8008 v).sysReg 0x8008 = v
        rw [Core.sysReg_setSys, if_pos rfl])
    rw [Core.part, part, BitVec.toNat_ofNat, Nat.mod_eq_of_lt small]
  · have high : fieldOf ((u.core n.val).gr i.a) 6 58 ≠ 0 := by rw [fieldOf_high]; show v.toNat / 64 ≠ 0; omega
    exact ⟨_, h.trap (is := fun i => i.op = .pswitch) (f := pswitchSem) isOp (if_pos high), State.raiseExc_ill 7 vec⟩
  · have low : ¬fieldOf ((u.core n.val).gr i.a) 6 58 ≠ 0 := by rw [fieldOf_high, Nat.div_eq_of_lt small]; simp
    have below : (u.core n.val).below 2 = true := decide_eq_true (show c.level.val < 2 by omega)
    exact ⟨_, h.trap (is := fun i => i.op = .pswitch) (f := pswitchSem) isOp ((if_neg low).trans (if_pos below)), State.raiseExc_priv (info := 0) (show c.level.val ≤ 2 by omega) vec⟩

/-- Settles O20. -/
theorem fencesAndWaits : Obligations.FencesAndWaits := ⟨fencesRetire, waitRule, partitionSwitch⟩

end Sys2Proof.Machine
end

section
/-! ## TLB maintenance (04 R109, R110; 07 R212-R214), O22 -/

namespace Sys2Proof.Machine

/-! ### What is in flight stays in flight -/

/-- Every packet in flight in `s` is in flight in `t`. -/
def State.Sends (s t : State) : Prop := s.net.flights ⊆ t.net.flights

theorem State.Sends.refl (s : State) : s.Sends s := List.Subset.refl _
theorem State.Sends.trans {s t u : State} (h : s.Sends t) (k : t.Sends u) : s.Sends u := List.Subset.trans h k
theorem State.Sends.send (s : State) (r port : Nat) (p : Packet) : s.Sends (s.send r port p) := List.subset_append_left _ _
theorem State.Sends.updBunk (s : State) (n : Nat) (f : Bunk → Bunk) : s.Sends (s.updBunk n f) := List.Subset.refl _

theorem State.Sends.drainLog (n : Nat) (l : List LogLine) (s : State) : s.Sends (s.drainLog n l) := by
  induction l generalizing s with
  | nil => exact .updBunk s n _
  | cons x l ih =>
    unfold State.drainLog
    extract_lets c
    split
    · exact .updBunk s n _
    · exact ((Sends.send s _ _ _).trans (.updBunk _ n _)).trans (ih _)

theorem State.Sends.sendLine (s : State) (n : Nat) (l : LogLine) : s.Sends (s.sendLine n l) := (Sends.updBunk s n _).trans (.drainLog n _ _)

theorem State.Sends.flushLog (s : State) (n : Nat) : s.Sends (s.flushLog n) := by
  unfold State.flushLog
  simp only
  split
  · exact .refl s
  · exact (Sends.sendLine s n _).trans (.updBunk _ n _)

theorem State.Sends.logRec (s : State) (n : Nat) (ctl : Bool) (l : List W64) : s.Sends (s.logRec n ctl l) := by
  unfold State.logRec
  extract_lets b s1 s2
  split
  · exact .refl s
  · have h1 : s.Sends s1 := by
      simp only [s1]; split
      · exact .flushLog s n
      · exact .refl s
    have h2 : s.Sends s2 := h1.trans (.updBunk s1 n _)
    split
    · exact h2.trans (.flushLog s2 n)
    · exact h2

theorem State.Sends.logSigs (s : State) (n a b : Nat) : s.Sends (s.logSigs n a b) := by
  unfold State.logSigs
  simp only
  split
  · exact .refl s
  · exact (Sends.logRec s n _ _).trans (.updBunk _ n _)

theorem State.Sends.sendLines (n : Nat) (g : State → List W64 → LogLine) (l : List (List W64)) (s : State) :
    s.Sends (l.foldl (fun s x => s.sendLine n (g s x)) s) := by
  induction l generalizing s with
  | nil => exact .refl s
  | cons x l ih => exact (Sends.sendLine s n _).trans (ih _)

theorem State.Sends.sendSnapshot (s : State) (n : Nat) : s.Sends (s.sendSnapshot n) := by
  unfold State.sendSnapshot
  extract_lets s1
  have h1 : s.Sends s1 := .updBunk s n _
  split
  · exact h1
  · exact h1.trans (.sendLines n _ _ _)

theorem State.Sends.bunkRetire (s : State) (n : Nat) : s.Sends (s.bunkRetire n) := by
  unfold State.bunkRetire
  simp only
  split
  · exact .refl s
  · split
    · exact .sendSnapshot s n
    · have h1 : s.Sends (s.updBunk n (fun b => { b with brpos := b.brpos + 1 })) := .updBunk s n _
      split
      · exact h1.trans (.logSigs _ n _ _)
      · exact h1

theorem State.Sends.retireBy (s : State) (n : Nat) (f : Core → Core) : s.Sends (s.retireBy n f) := by
  have before : s.Sends (((s.updCore n (fun c => (f c).settled)).useLast n).retired n) := by
    rw [State.useLast_eq]; exact List.Subset.refl _
  exact before.trans (.bunkRetire _ n)

/-! ### Sending a TLBI -/

/-- A request that sets out: a packet more in flight and outstanding; of the rest, registers and error reports at most change. -/
theorem State.request_spec (s : State) (r port : Nat) (p : Packet) : ∃ f : Flight,
    (s.request r port p).net.flights = s.net.flights ++ [f] ∧ f.pkt.op = p.op ∧ f.pkt.dst = p.dst ∧ f.pkt.inl = p.inl
      ∧ (s.request r port p).cores = s.cores ∧ (s.request r port p).mem = s.mem ∧ (s.request r port p).coh = s.coh := by
  unfold State.request
  rw [State.force_rest]
  exact ⟨_, rfl, rfl, rfl, rfl, rfl, rfl, rfl⟩

/-- One step of the sending: the request to the bench at router `r`, and its tag. -/
def tlbiStep (n : Nat) (t : TlbiOp) (acc : List Nat × State) (r : Nat) : List Nat × State :=
  (acc.1 ++ [acc.2.net.tag.toNat],
    acc.2.request (benchRouter n) 0 { op := opTlbi, part := (acc.2.core n).part, dst := BitVec.ofNat 7 r, dstp := 0, inl := tlbiInline t })

theorem State.sendTlbi_eq (s : State) (n : Nat) (t : TlbiOp) : s.sendTlbi n t = benchRouters.foldl (tlbiStep n t) ([], s) := rfl

/-- The requests to the benches at routers `l`: a tag for each, a packet for each, and no other effect on cores, memory and caches. -/
theorem tlbiSteps (n : Nat) (t : TlbiOp) (l : List Nat) (acc : List Nat × State) :
    let r := l.foldl (tlbiStep n t) acc
    r.1.length = acc.1.length + l.length ∧ r.2.cores = acc.2.cores ∧ r.2.mem = acc.2.mem ∧ r.2.coh = acc.2.coh ∧ acc.2.Sends r.2
      ∧ ∀ x ∈ l, ∃ f ∈ r.2.net.flights, f.pkt.op = opTlbi ∧ f.pkt.dst = BitVec.ofNat 7 x ∧ f.pkt.inl = tlbiInline t := by
  induction l generalizing acc with
  | nil => exact ⟨rfl, rfl, rfl, rfl, .refl _, by simp⟩
  | cons x l ih =>
    obtain ⟨f, flights, op, dst, inl, cores, mem, coh⟩ := State.request_spec acc.2 (benchRouter n) 0
      { op := opTlbi, part := (acc.2.core n).part, dst := BitVec.ofNat 7 x, dstp := 0, inl := tlbiInline t }
    obtain ⟨tags, cores', mem', coh', sends, each⟩ := ih (tlbiStep n t acc x)
    have first : acc.2.net.flights ++ [f] ⊆ (l.foldl (tlbiStep n t) (tlbiStep n t acc x)).2.net.flights := flights ▸ sends
    refine ⟨?_, cores'.trans cores, mem'.trans mem, coh'.trans coh, List.Subset.trans (List.subset_append_left _ _) first, fun y hy => ?_⟩
    · rw [List.foldl_cons, tags]; simp [tlbiStep]; omega
    · rcases List.mem_cons.mp hy with rfl | hy
      · exact ⟨f, first (by simp), op, dst, inl⟩
      · exact each y hy

theorem mem_benchRouters {b : Nat} (h : b < 24) : 8 * (b / 6) + b % 6 ∈ benchRouters := List.mem_map.mpr ⟨b, List.mem_range.mpr h, rfl⟩

/-- What INLINE carries comes back (assumption log 15). -/
theorem tlbiOf_inline {t : TlbiOp} (small : t.scope < 8) {k : Packet} (h : k.inl = tlbiInline t) : tlbiOf k = t := by
  obtain ⟨scope, hreg, vmid, a⟩ := t
  have small : scope < 8 := small
  have flag : b2n hreg ≤ 1 := by cases hreg <;> simp [b2n]
  have v := vmid.isLt
  have w := a.isLt
  have word : k.inl.toNat = scope + 8 * b2n hreg + 16 * vmid.toNat + 18446744073709551616 * a.toNat := by
    rw [h, tlbiInline, BitVec.toNat_ofNat]
    exact Nat.mod_eq_of_lt (by dsimp only; omega)
  have bit : (scope + 8 * b2n hreg + 16 * vmid.toNat + 18446744073709551616 * a.toNat).testBit 3 = hreg := by
    rw [Nat.testBit_eq_decide_div_mod_eq]
    cases hreg <;> simp only [b2n] <;> norm_num <;> omega
  simp only [tlbiOf, word, bit, natField, Nat.shiftRight_eq_div_pow, TlbiOp.mk.injEq, true_and]
  refine ⟨by omega, BitVec.eq_of_toNat_eq ?_, BitVec.eq_of_toNat_eq ?_⟩ <;> rw [BitVec.toNat_ofNat] <;> omega

theorem Issues.next_sends {s u v : State} {n : Fin 192} {b : List Byte} {i : Insn} {is : Insn → Bool} {f : Sem} (h : Issues s n b i u)
    (hi : is i = true) (e : f n.val i (seqOf u n i) u = .next v) (single : (v.core n.val).isShadow = false) :
    ∃ t, s.issue n.val b is f = .next t ∧ Retires v t n (v.core n.val) (seqOf u n i) ∧ v.Sends t := by
  refine ⟨_, State.issue_of_issues h is hi f, ?_⟩
  show Retires v (u.carry n.val (seqOf u n i) (f n.val i (seqOf u n i) u)) n _ _ ∧ v.Sends (u.carry n.val (seqOf u n i) (f n.val i (seqOf u n i) u))
  rw [e, State.carry, (Leaves.refl v n.val).retireInsn_eq single (.loopBack _)]
  exact ⟨(Leaves.refl v n.val).retireBy (.loopBack _), .retireBy v n.val _⟩

theorem Core.loopBack_tlbis (c : Core) (q : W64) : (c.loopBack q).tlbis = c.tlbis := by
  unfold Core.loopBack; split
  · simp only; split <;> rfl
  · rfl

theorem tlbiSends : Rules.TlbiSends := by
  intro x hx s u n b i h ho hk c level untrapped drained room
  have row : exec (x.1 n b) s = tlbiRow n b x.2 s ∧ x.2 < 8 := by
    unfold tlbiRows at hx
    simp only [List.mem_cons, List.not_mem_nil, or_false] at hx
    rcases hx with rfl | rfl | rfl | rfl | rfl | rfl | rfl <;> exact ⟨rfl, by decide⟩
  obtain ⟨row, small⟩ := row
  let op : TlbiOp := ⟨x.2, decide (x.2 ≤ 3) && decide (2 ≤ c.level.val) && !bitOf (c.sysReg 0x8013) 2,
    BitVec.ofNat 16 (fieldOf (c.sysReg 0x8010) 48 16), c.gr i.a⟩
  obtain ⟨tags, cores, mem, coh, -, each⟩ := tlbiSteps n.val op benchRouters ([], u)
  rw [← State.sendTlbi_eq] at tags cores mem coh each
  generalize hr : u.sendTlbi n.val op = r at tags cores mem coh each
  let v := r.2.updCore n.val (fun c => { c with tlbis := c.tlbis ++ [r.1] })
  have e : tlbiSem n.val i (seqOf u n i) u = .next v := by
    have above : (u.core n.val).below (if x.2 ≤ 3 then 1 else 2) = false := Core.not_below level
    have untrapped : ¬((u.core n.val).level = 1 ∧ bitOf ((u.core n.val).sysReg 0x8006) 4 = true) := fun both => untrapped ⟨congrArg Fin.val both.1, both.2⟩
    have free : (!(u.core n.val).drained || decide (16 ≤ (u.core n.val).tlbis.length)) = false := by
      simp [Core.drained, show (u.core n.val).sb = [] from drained, show (u.core n.val).tlbis.length < 16 from room]
    simp only [tlbiSem, above, if_neg untrapped, h.single', free, hk, Bool.false_eq_true, if_false]
    exact congrArg (fun r : List Nat × State => Eff.next (r.2.updCore n.val (fun c => { c with tlbis := c.tlbis ++ [r.1] }))) hr
  have core : v.core n.val = { c with tlbis := c.tlbis ++ [r.1] } := by rw [State.core_updCore_same, State.core_congr cores]
  have single : (v.core n.val).isShadow = false := by rw [core]; exact h.single'
  obtain ⟨t, ht, ⟨self, rest⟩, sends⟩ := h.next_sends (is := fun i => i.op = .tlbi && decide (i.byte = x.2)) (by simp [ho, hk]) e single
  rw [core] at self
  refine ⟨t, r.1, row.trans ht, ?_, by simpa [benchRouters] using tags, self, rest.mem.trans mem, rest.coh.trans coh, fun bench hb => ?_⟩
  · rw [self]; exact Core.loopBack_tlbis _ _
  · obtain ⟨f, there, fop, dst, inl⟩ := each _ (mem_benchRouters hb)
    have back := tlbiOf_inline (t := op) small inl
    refine ⟨f, sends there, fop, ?_, by rw [back], by rw [back], by rw [back]⟩
    rw [dst, BitVec.toNat_ofNat, Nat.mod_eq_of_lt (by omega)]

end Sys2Proof.Machine
end

section
/-! ### Performing a TLBI, and the answers to it -/

namespace Sys2Proof.Machine

/-- What a TLBI takes from the TLBs. -/
def Core.dropHits (t : TlbiOp) (c : Core) : Core :=
  { c with
    itlb := c.itlb.filter (fun e => !t.hits e), dtlb := c.dtlb.filter (fun e => !t.hits e)
    l2tlb := c.l2tlb.filter (fun x => match x.2 with
      | some e => !t.hits e
      | none => false) }

/-- A walk in progress ends, and what its table reads bring is discarded (07 R214). -/
def State.endWalk (s : State) (n : Nat) : State := if (s.core n).walk.isSome then (s.walkDrop n).dropTableReads n else s

theorem State.endWalk_spec (s : State) (n : Nat) :
    (∃ given, (s.endWalk n).core n = { s.core n with walk := none, given := given }) ∧ (∀ m, m ≠ n → (s.endWalk n).core m = s.core m)
      ∧ (s.endWalk n).mem = s.mem := by
  unfold State.endWalk
  split
  next walks =>
    have core := fun m => State.core_updCore (s.walkDrop n) n m (fun c => { c with given := c.given.filter (fun g => g.un || g.fetch) })
    have stop := fun m => State.core_updCore s n m (fun c => { c with walk := none })
    refine ⟨⟨(s.core n).given.filter (fun g => g.un || g.fetch), (core n).trans ?_⟩, fun m hm => (core m).trans ?_, rfl⟩
    · rw [if_pos rfl, show (s.walkDrop n).core n = _ from stop n, if_pos rfl]
    · rw [if_neg hm, show (s.walkDrop n).core m = _ from stop m, if_neg hm]
  next none_ => exact ⟨⟨(s.core n).given, by rw [← show (s.core n).walk = none by simpa using none_]⟩, fun _ _ => rfl, rfl⟩

theorem State.performTlbi_eq (s : State) (n : Nat) (t : TlbiOp) :
    s.performTlbi n t = ((s.count (corePage n 0x154)).endWalk n).updCore n (Core.dropHits t) := rfl

theorem State.performTlbi_spec (s : State) (n : Nat) (t : TlbiOp) :
    (∃ given, (s.performTlbi n t).core n = { (s.core n).dropHits t with walk := none, given := given })
      ∧ (∀ m, m ≠ n → (s.performTlbi n t).core m = s.core m) ∧ (s.performTlbi n t).mem = s.mem := by
  obtain ⟨⟨given, self⟩, others, mem⟩ := (s.count (corePage n 0x154)).endWalk_spec n
  rw [State.performTlbi_eq]
  exact ⟨⟨given, by rw [State.core_updCore_same, self]; rfl⟩, fun m hm => by rw [State.core_updCore, if_neg hm, others m hm]; rfl, mem⟩

theorem tlbiPacket_performs {s : State} {n : Fin 192} {k : Packet} (there : ∃ f ∈ s.net.flights, f.pkt = k) (gate : s.atGate k = false)
    (up_ : s.domUp n.val = true) (dst : k.dst.toNat = benchRouter n.val) :
    (tlbiArrive n.val k s).cores = ((s.arrive k).performTlbi n.val (tlbiOf k)).cores ∧ (tlbiArrive n.val k s).mem = ((s.arrive k).performTlbi n.val (tlbiOf k)).mem := by
  have here : s.net.flights.any (fun f => f.pkt = k) = true := by simpa using there
  have mine : (benchCores (n.val / 8)).contains n.val = true := by simpa using mem_benchCores.mpr rfl
  have up' : (s.arrive k).domUp n.val = true := by
    obtain ⟨l, e⟩ := s.arrive_eq k
    rw [e]; exact up_
  unfold tlbiArrive
  dsimp only
  rw [if_neg (by simp [gate, dst]), here, if_pos rfl]
  dsimp only
  rw [up', mine, Bool.and_self, if_pos rfl]
  split <;> exact ⟨rfl, rfl⟩

/-- A core that a TLBI reaches loses what it matches, and its walk; no other core, and no memory (07 R212-R214). -/
theorem tlbiArrive_spec {s : State} {n : Fin 192} {k : Packet} (there : ∃ f ∈ s.net.flights, f.pkt = k) (gate : s.atGate k = false)
    (up_ : s.domUp n.val = true) (dst : k.dst.toNat = benchRouter n.val) :
    (∃ given, (tlbiArrive n.val k s).core n.val = { (s.core n.val).dropHits (tlbiOf k) with walk := none, given := given })
      ∧ (∀ m, m ≠ n.val → (tlbiArrive n.val k s).core m = s.core m) ∧ (tlbiArrive n.val k s).mem = s.mem := by
  obtain ⟨cores, mem⟩ := tlbiPacket_performs there gate up_ dst
  obtain ⟨⟨given, self⟩, others, mem'⟩ := (s.arrive k).performTlbi_spec n.val (tlbiOf k)
  obtain ⟨l, e⟩ := s.arrive_eq k
  have same : ∀ m, (s.arrive k).core m = s.core m := fun m => by rw [e]; rfl
  have core := State.core_congr cores
  exact ⟨⟨given, by rw [core, self, same]⟩, fun m hm => by rw [core, others m hm, same], by rw [mem, mem', e]⟩

/-- An answer to a TLBI counts at every core of the bench that asked. -/
theorem tlbiAck_spec {s : State} {k q : Packet} {b : Nat} (gate : s.atGate k = false)
    (asked : s.net.outs.find? (fun q => answers k q) = some q) (bench : benchOf q = some b) (n : Nat) (hn : n / 8 = b) :
    (tlbiAck k s).core n = (s.core n).tlbiDone q.tag.toNat ∧ (tlbiAck k s).net.outs.length + 1 = s.net.outs.length ∧ (tlbiAck k s).mem = s.mem := by
  obtain ⟨l, e⟩ := s.arrive_eq k
  rw [List.find?_eq_bind_findIdx?_getElem?] at asked
  obtain ⟨j, at_, there⟩ := Option.bind_eq_some_iff.mp asked
  have lt : j < s.net.outs.length := (List.getElem?_eq_some_iff.mp there).1
  have eq : tlbiAck k s = (benchCores b).foldl (fun s n => s.updCore n (fun c => c.tlbiDone q.tag.toNat)) ((s.arrive k).dropOut j) := by
    rw [e]
    simp only [tlbiAck, State.landed, gate, e, State.answered, at_, there, bench]
    rfl
  have outs : ((s.arrive k).dropOut j).net.outs = s.net.outs.eraseIdx j := by rw [e]; rfl
  have same : ((s.arrive k).dropOut j).core n = s.core n ∧ ((s.arrive k).dropOut j).mem = s.mem := by rw [e]; exact ⟨rfl, rfl⟩
  rw [eq]
  generalize (s.arrive k).dropOut j = u at outs same
  have core := State.core_foldl_updCore (fun c => c.tlbiDone q.tag.toNat) (benchCores_nodup b) u n
  rw [if_pos (mem_benchCores.mpr hn), same.1] at core
  generalize hf : (fun (s : State) (n : Nat) => s.updCore n (fun c => c.tlbiDone q.tag.toNat)) = f at core ⊢
  refine ⟨core, ?_, (foldl_keeps State.mem f (fun _ _ => by rw [← hf]; rfl) _ _).trans same.2⟩
  rw [foldl_keeps (fun t => t.net.outs.length) f (fun _ _ => by rw [← hf]; rfl), outs, List.length_eraseIdx_of_lt lt]
  omega

theorem tlbiPerformed : Rules.TlbiPerformed := by
  intro s n runs c
  refine ⟨fun k there gate up_ dst => ?_, fun k q gate asked bench => ?_⟩
  · obtain ⟨⟨given, self⟩, others, mem⟩ := tlbiArrive_spec (k := { k with op := opTlbi }) there gate up_ dst
    refine ⟨_, act_runs s _ runs, ?_⟩
    have op : tlbiOf { k with op := opTlbi } = tlbiOf k := rfl
    rw [op] at self
    refine ⟨by rw [self], fun e => ?_, fun e => ?_, fun w e => ?_, others, mem, by rw [self]; rfl, by rw [self]; rfl⟩ <;> rw [self] <;> simp [Core.dropHits, c]
  · obtain ⟨core, outs, mem⟩ := tlbiAck_spec (k := { k with op := opTlbiAck }) gate asked bench n.val rfl
    refine ⟨_, act_runs s _ runs, ?_, outs, mem⟩
    rw [core, Core.tlbiDone]
    simp only [ne_eq, decide_not]
    rfl

end Sys2Proof.Machine
end

section
/-! ### Cache maintenance (08 R234-R236, R243) -/

namespace Sys2Proof.Machine

theorem ViaCaches.actL2 (s : State) (b line op : Nat) (q : PartId) (w : Bool) : ViaCaches s (s.actL2 b line op q w) := by
  unfold State.actL2
  extract_lets kill s1
  have h1 : ViaCaches s s1 := ViaCaches.settleL1 s _ _ _ _
  split
  · exact h1
  · extract_lets dirty s2
    have h2 : ViaCaches s s2 := by
      refine h1.trans ?_
      simp only [s2]; split
      · exact ViaCaches.sendBack s1 _ _ _ _ _
      · split
        · exact ViaCaches.homeRequest s1 _ _ _ _ _ _ _ _
        · exact ViaCaches.refl s1
    split
    · exact h2.trans (((ViaCaches.include s2 _ _).trans (ViaCaches.modL2 _ _ _ _)).trans (ViaCaches.count _ _ _))
    · exact h2.trans (ViaCaches.modL2 s2 _ _ _)

theorem ViaCaches.swL1d (s : State) (n op line : Nat) : ViaCaches s (s.swL1d n op line) := by
  unfold State.swL1d
  split
  · exact ViaCaches.takeL1 s _ _ _
  · split
    · exact ViaCaches.modL1d s _ _ _
    · exact ViaCaches.takeL1 s _ _ _

theorem ViaCaches.swL2 (s : State) (n op line : Nat) : ViaCaches s (s.swL2 n op line) := by
  unfold State.swL2
  extract_lets s1
  refine ViaCaches.trans (t := s1) ?_ (ViaCaches.actL2 _ _ _ _ _ _)
  simp only [s1]; split
  · exact ViaCaches.foldl _ (fun s _ => ViaCaches.modL1d s _ _ _) _ s
  · exact ViaCaches.refl s

theorem ViaCaches.cmosw (s : State) (n op lvl set w : Nat) : ViaCaches s (s.cmosw n op lvl set w) := by
  unfold State.cmosw
  split
  · split
    · exact ViaCaches.swL1d s _ _ _
    · exact ViaCaches.refl s
  · split
    · split
      · exact ViaCaches.refl s
      · exact ViaCaches.updCore s _ _ (fun _ => rfl)
    · split
      · exact ViaCaches.swL2 s _ _ _
      · exact ViaCaches.refl s

/-- What the caches do changes no register of a core. -/
theorem ViaCaches.isShadow {s t : State} (h : ViaCaches s t) (n : Nat) : (t.core n).isShadow = (s.core n).isShadow := Core.arch_isShadow (h.cores n)

theorem ViaCaches.registers {s t : State} (h : ViaCaches s t) (n : Nat) :
    (t.core n).g = (s.core n).g ∧ (t.core n).f = (s.core n).f ∧ (t.core n).sys = (s.core n).sys :=
  ⟨(congrArg Core.g (h.cores n) : (t.core n).arch.g = (s.core n).arch.g), (congrArg Core.f (h.cores n) : (t.core n).arch.f = (s.core n).arch.f),
    (congrArg Core.sys (h.cores n) : (t.core n).arch.sys = (s.core n).arch.sys)⟩

/-! ### CMO -/

/-- The store buffer entry of a CMO of operation `op` at level `lv`. -/
def cmoEntry (op lv pa : Nat) (mt : MemType) (part : PartId) : SbEntry :=
  { addr := pa / 64 * 64, data := [], mt := mt, part := part, cmo := some (op + (if op = 1 ∧ 2 ≤ lv then 8 else 0)) }

/-- A CMO takes its place in the store buffer. -/
def Core.queueCmo (op lv pa : Nat) (mt : MemType) (c : Core) : Core := { c with sb := c.sb ++ [cmoEntry op lv pa mt c.part] }

theorem cmoSem_next {u v : State} {n : Fin 192} {i : Insn} {pa : Nat} {mt : MemType} (q : W64) (level : 1 ≤ (u.core n.val).level.val)
    (room : (u.core n.val).sb.length < 48) (single : (u.core n.val).isShadow = false)
    (placed : u.translate n.val ((u.core n.val).gr i.a) .read (u.core n.val).level.val 1 = (.ok pa mt, v)) (free : v.confOwner pa 1 = none) :
    cmoSem n.val i q u = .next (v.updCore n.val (Core.queueCmo i.byte (u.core n.val).level.val pa mt)) := by
  have below : (u.core n.val).below 1 = false := Core.not_below level
  have room : ¬48 ≤ (u.core n.val).sb.length := by omega
  simp only [cmoSem, below, single, room, placed, free, Bool.false_eq_true, if_false]
  rfl

theorem cmoEnters : ∀ x ∈ cmoRows, ∀ (s u v : State) (n : Fin 192) (b : List Byte) (i : Insn) (pa : Nat) (mt : MemType), Issues s n b i u → i.op = .cmo →
    i.byte = x.2 → 1 ≤ (u.core n.val).level.val → (u.core n.val).sb.length < 48 →
    u.translate n.val ((u.core n.val).gr i.a) .read (u.core n.val).level.val 1 = (.ok pa mt, v) → v.confOwner pa 1 = none →
      ∃ t e, exec (x.1 n b) s = .next t ∧ Retires v t n { v.core n.val with sb := (v.core n.val).sb ++ [e] } (seqOf u n i)
        ∧ e.addr = 64 * (pa / 64) ∧ e.cmo = some (if x.2 = 1 ∧ 2 ≤ (u.core n.val).level.val then 9 else x.2) ∧ e.data = [] := by
  intro x hx s u v n b i pa mt h ho hk level room placed free
  have row : exec (x.1 n b) s = cmoRow n b x.2 s := by
    unfold cmoRows at hx
    simp only [List.mem_cons, List.not_mem_nil, or_false] at hx
    rcases hx with rfl | rfl | rfl | rfl | rfl <;> rfl
  have via : ViaCaches u v := by
    have := ViaCaches.translate u n.val ((u.core n.val).gr i.a) .read (u.core n.val).level.val 1 true
    rwa [placed] at this
  obtain ⟨t, ht, retires⟩ := h.next_from (is := fun i => i.op = .cmo && decide (i.byte = x.2)) (by simp [ho, hk])
    (cmoSem_next _ level room h.single' placed free)
    ((Leaves.refl v n.val).updCore (f := Core.queueCmo i.byte (u.core n.val).level.val pa mt) (fun _ _ => rfl))
    (by rw [via.isShadow, h.single'])
  refine ⟨t, _, row.trans ht, retires, Nat.mul_comm _ _, ?_, rfl⟩
  simp only [cmoEntry, hk]
  split
  next both => rw [both.1]
  next => rfl

/-! ### CMOSW -/

/-- The operand names a cache, a set and a way, and nothing else (08 R236). -/
structure SwOperand (a : W64) : Prop where
  reserved : ¬(fieldOf a 2 6 ≠ 0 ∨ fieldOf a 20 12 ≠ 0 ∨ fieldOf a 36 28 ≠ 0)
  cache : fieldOf a 0 2 ≤ 2
  set : fieldOf a 8 12 < (if fieldOf a 0 2 = 0 then 128 else if fieldOf a 0 2 = 1 then 256 else 4096)
  way : fieldOf a 32 4 < (if fieldOf a 0 2 = 0 then 8 else if fieldOf a 0 2 = 1 then 4 else 16)

theorem cmoswSem_legal {u : State} {n : Fin 192} {i : Insn} (q : W64) (operand : SwOperand ((u.core n.val).gr i.a)) (level : 2 ≤ (u.core n.val).level.val)
    (single : (u.core n.val).isShadow = false) :
    let a := (u.core n.val).gr i.a
    cmoswSem n.val i q u = if u.swWaits n.val (fieldOf a 0 2) (fieldOf a 8 12) (fieldOf a 32 4) then .wait u
      else .next (u.cmosw n.val i.byte (fieldOf a 0 2) (fieldOf a 8 12) (fieldOf a 32 4)) := by
  obtain ⟨reserved, cache, set, way⟩ := operand
  have below : (u.core n.val).below 2 = false := Core.not_below level
  intro va
  unfold cmoswSem
  extract_lets c a lvl set_ w sets ways
  have legal : ¬(lvl = 3 ∨ sets ≤ set_ ∨ ways ≤ w) := by
    have sized : sets = (if lvl = 0 then 128 else if lvl = 1 then 256 else 4096) ∧ ways = (if lvl = 0 then 8 else if lvl = 1 then 4 else 16) := by
      simp only [sets, ways]
      generalize lvl = l
      rcases l with _ | _ | l <;> simp
    rw [sized.1, sized.2]
    have not3 : lvl ≠ 3 := fun e => by rw [show fieldOf ((u.core n.val).gr i.a) 0 2 = 3 from e] at cache; omega
    exact not_or.mpr ⟨not3, not_or.mpr ⟨not_le.mpr set, not_le.mpr way⟩⟩
  rw [if_neg reserved, if_neg legal, if_neg (ne_true_of_eq_false below), if_neg (ne_true_of_eq_false single)]

theorem cmosw_row {x : (Fin 192 → List Byte → Instr) × Nat} (hx : x ∈ cmoswRows) (n : Fin 192) (b : List Byte) (s : State) :
    exec (x.1 n b) s = cmoswRow n b x.2 s := by
  unfold cmoswRows at hx
  simp only [List.mem_cons, List.not_mem_nil, or_false] at hx
  rcases hx with rfl | rfl | rfl <;> rfl

theorem cacheMaintenance : Rules.CacheMaintenance := by
  refine ⟨cmoEnters, ?_, ?_⟩
  · intro x hx s u n b i h ho hk a r1 r2 r3 cache set way level v waits
    have e := cmoswSem_legal (seqOf u n i) (n := n) (i := i) ⟨by simp only [not_or, not_not]; exact ⟨r1, r2, r3⟩, cache, set, way⟩ level h.single'
    have is : (fun i : Insn => i.op = .cmosw && decide (i.byte = x.2)) i = true := by simp [ho, hk]
    rw [hk] at e
    rw [cmosw_row hx]
    refine ⟨fun busy => h.wait is (e.trans (if_pos busy)), fun free => ?_⟩
    have via : ViaCaches u v := ViaCaches.cmosw u _ _ _ _ _
    obtain ⟨g, f, sys⟩ := via.registers n.val
    obtain ⟨t, ht, retires⟩ := h.next_from (is := fun i => i.op = .cmosw && decide (i.byte = x.2)) is (e.trans (if_neg (ne_true_of_eq_false free))) (Leaves.refl v n.val) (by rw [via.isShadow, h.single'])
    exact ⟨t, ht, retires, g, f, sys, via.mem⟩
  · intro x hx s u n b i h ho hk c vec reserved
    have e : cmoswSem n.val i (seqOf u n i) u = .trap u (ill 5) := if_pos (.inl reserved)
    rw [cmosw_row hx]
    exact ⟨_, h.trap (is := fun i => i.op = .cmosw && decide (i.byte = x.2)) (by simp [ho, hk]) e, State.raiseExc_ill 5 vec⟩

/-- Settles O22. -/
theorem tlbAndCacheMaintenance : Obligations.TlbAndCacheMaintenance := ⟨tlbiSends, tlbiPerformed, cacheMaintenance⟩

end Sys2Proof.Machine
end

section
/-! ## Loads (04 R71, R86, R95; 06 R166-R168, R179), O24 -/

namespace Sys2Proof.Machine

/-! ### What translation and reading leave alone -/

theorem ViaCaches.placeParts (n : Nat) (m : MemAcc) (k : Bool) (l : List (W64 × Nat)) (s : State) : ViaCaches s (s.placeParts n m k l).2 := by
  induction l generalizing s with
  | nil => exact ViaCaches.refl s
  | cons x l ih =>
    obtain ⟨va, len⟩ := x
    have via := ViaCaches.translate s n va m.acc (s.core n).level.val len k
    unfold State.placeParts
    dsimp only
    generalize s.translate n va m.acc (s.core n).level.val len k = r at via
    obtain ⟨y, v⟩ := r
    cases y with
    | fault f => exact via
    | walk => exact via
    | ok pa mt =>
      have rest := via.trans (ih v)
      dsimp only
      generalize v.placeParts n m k l = w at rest
      obtain ⟨z, w⟩ := w
      split
      · exact via
      · cases z <;> exact rest

theorem ViaCaches.readPiece (s : State) (n : Nat) (mt : MemType) (h pa len : Nat) : ViaCaches s (s.readPiece n mt h pa len).2 := by
  unfold State.readPiece
  split
  · have via := ViaCaches.loadLine s n (pa / 64) h
    generalize s.loadLine n (pa / 64) h = r at via
    obtain ⟨_ | ⟨d, p⟩, v⟩ := r <;> exact via
  · split
    · exact ViaCaches.refl s
    · exact ViaCaches.sendRead s _ _ _ _ _

theorem ViaCaches.readPieces (n : Nat) (mt : MemType) (h : Nat) (l : List (Nat × Nat)) (s : State) : ViaCaches s (s.readPieces n mt h l).2 := by
  induction l generalizing s with
  | nil => exact ViaCaches.refl s
  | cons x l ih => exact (ViaCaches.readPiece s n mt h x.1 x.2).trans (ih _)

theorem ViaCaches.readParts (n h : Nat) (l : List Part) (s : State) : ViaCaches s (s.readParts n h l).2 := by
  induction l generalizing s with
  | nil => exact ViaCaches.refl s
  | cons p l ih => exact (ViaCaches.readPieces n p.mt h (linePieces p.pa p.len) s).trans (ih _)

theorem ViaCaches.refuseParts (n : Nat) (l : List Part) (s : State) : ViaCaches s (s.refuseParts n l) := by
  refine ViaCaches.foldl _ (fun s p => ?_) l s
  split
  · exact ViaCaches.refuseConf s _ _
  · exact ViaCaches.refl s

theorem ViaCaches.control {s t : State} (h : ViaCaches s t) (n : Nat) :
    (t.core n).pc = (s.core n).pc ∧ (t.core n).level = (s.core n).level ∧ (t.core n).vec = (s.core n).vec :=
  ⟨(congrArg Core.pc (h.cores n) : (t.core n).arch.pc = (s.core n).arch.pc), (congrArg Core.level (h.cores n) : (t.core n).arch.level = (s.core n).arch.level),
    (congrArg Core.vec (h.cores n) : (t.core n).arch.vec = (s.core n).arch.vec)⟩

/-! ### Accesses whose parts translate -/

section
variable {s v : State} {n : Nat} {m : MemAcc} {hint sz : Nat} {ps : List Part} {f : List Part → State → Eff}

theorem State.withParts_ok (h : s.placeParts n m true m.pages = (.ok ps, v)) : s.withParts n m hint f = f ps v := by
  simp only [State.withParts, h]

/-- The parts of a load that none is refused, and that waits for no store to a device (04 R95; 15 R423). -/
structure Loadable (s : State) (n : Nat) (ps : List Part) : Prop where
  clear : ∀ p ∈ ps, p.refused = false
  quiet : ¬((∃ e ∈ (s.core n).sb, e.mt = .dev) ∧ ∃ p ∈ ps, p.mt = .dev)

variable {g : List Byte → State → Eff}

theorem Loadable.clear_find (h : Loadable s n ps) : ps.find? (fun p => p.refused) = none := by
  rw [List.find?_eq_none]
  exact fun p hp => ne_true_of_eq_false (h.clear p hp)

theorem Loadable.calm (h : Loadable s n ps) : ((s.core n).devWaits && ps.any (fun p => p.mt = .dev)) = false := by
  rw [← Bool.not_eq_true, Bool.and_eq_true]
  rintro ⟨waits, dev⟩
  obtain ⟨e, he, hdev⟩ := List.any_eq_true.mp waits
  obtain ⟨p, hp, pdev⟩ := List.any_eq_true.mp dev
  exact h.quiet ⟨⟨e, he, of_decide_eq_true hdev⟩, p, hp, of_decide_eq_true pdev⟩

theorem State.loadParts_data (h : Loadable s n ps) {l : List Byte} (fwd : forwardAll (s.core n).sb ps = .data l) : s.loadParts n hint sz ps g = g l s := by
  simp [State.loadParts, h.clear_find, h.calm, fwd]

theorem State.loadParts_partly (h : Loadable s n ps) (fwd : forwardAll (s.core n).sb ps = .partly) : s.loadParts n hint sz ps g =
    .wait (s.updCore n (fun c => Core.redirect { c with replay := ps.map (fun p => (p.pa, p.len)), issued := false })) := by
  simp [State.loadParts, h.clear_find, h.calm, fwd]

section
variable (h : Loadable s n ps) (fwd : forwardAll (s.core n).sb ps = .none)
include h fwd

theorem State.loadParts_awaits (read : s.readParts n hint ps = (none, v)) : s.loadParts n hint sz ps g = .wait (v.await n) := by
  simp [State.loadParts, h.clear_find, h.calm, fwd, read]

theorem State.loadParts_poison {l : List Byte} {far : W64} (read : s.readParts n hint ps = (some (l, some far), v)) :
    s.loadParts n hint sz ps g = .trap v (poisonExc far false sz) := by
  simp [State.loadParts, h.clear_find, h.calm, fwd, read]

theorem State.loadParts_reads {l : List Byte} (read : s.readParts n hint ps = (some (l, none), v)) : s.loadParts n hint sz ps g = g l v := by
  simp [State.loadParts, h.clear_find, h.calm, fwd, read]

end

end

/-! ### Comparing with the store buffer (06 R167) -/

theorem forwardFrom_none {sb : List SbEntry} {pa len : Nat} (h : ∀ e ∈ sb, e.overlaps pa len = false) : forwardFrom sb pa len = .none := by
  have none_ : sb.filter (fun e => e.overlaps pa len) = [] := by
    rw [List.filter_eq_nil_iff]; exact fun e he => ne_true_of_eq_false (h e he)
  simp [forwardFrom, none_]

theorem forwardAll_none {sb : List SbEntry} {ps : List Part} (h : ∀ p ∈ ps, ∀ e ∈ sb, e.overlaps p.pa p.len = false) : forwardAll sb ps = .none := by
  unfold forwardAll
  split
  · exact forwardFrom_none (h _ (by simp))
  · rename_i p q
    have none_ : sb.any (fun e => e.overlaps p.pa p.len || e.overlaps q.pa q.len) = false := by
      rw [List.any_eq_false]
      intro e he
      rw [h p (by simp) e he, h q (by simp) e he]
      decide
    simp [forwardTwo, none_]
  · rfl

/-- The youngest older store to the bytes holds them all. -/
theorem forwardFrom_data {sb : List SbEntry} {pa len : Nat} {e : SbEntry} (young : (sb.filter (fun e => e.overlaps pa len)).getLast? = some e)
    (low : e.addr ≤ pa) (high : pa + len ≤ e.addr + e.data.length) : forwardFrom sb pa len = .data ((e.data.drop (pa - e.addr)).take len) := by
  have there := (List.mem_filter.mp (List.mem_of_getLast? young)).2
  have plain : e.cmo.isNone = true := by
    simp only [SbEntry.overlaps, Bool.and_eq_true] at there
    exact there.1.1
  have all : e.holdsAll pa len = true := by simp only [SbEntry.holdsAll, plain, low, high, decide_true, Bool.and_true]
  simp [forwardFrom, young, all, SbEntry.slice]

/-! ### The rows -/

theorem sextNat_mod_word (x w : Nat) (hw : w ≤ 64) : sextNat (x % 2 ^ 64) w = sextNat x w := by
  unfold sextNat
  rw [Nat.mod_mod_of_dvd _ (Nat.pow_dvd_pow 2 hw)]

theorem Insn.w_le (i : Insn) : i.w ≤ 64 := by
  unfold Insn.w
  split <;> decide

/-- A load's row, and how its value is written (04 R71, R86). -/
structure LoadRow (x : LoadSpec) (put : Insn → List Byte → Core → Core) : Prop where
  row : ∀ (n : Fin 192) (b : List Byte) (s : State), exec (x.con n b) s = s.issue n.val b (fun i => i.op = x.op) (loadSem x.len put)
  value : ∀ i l c, put i l c = x.put i (leNat l) c
  bunk : ∀ i l, IgnoresBunk (put i l)

theorem loadRow {x : LoadSpec} (hx : x ∈ loadSpecs) : ∃ put, LoadRow x put := by
  unfold loadSpecs at hx
  simp only [List.mem_cons, List.not_mem_nil, or_false] at hx
  rcases hx with rfl | rfl | rfl | rfl
  · exact ⟨ldPut, fun _ _ _ => rfl, fun _ _ _ => rfl, fun i l => .setG _ _⟩
  · refine ⟨ldxPut, fun _ _ _ => rfl, fun i l c => ?_, fun i l => .setG _ _⟩
    simp only [ldxPut, sext64, BitVec.toNat_ofNat, sextNat_mod_word _ _ i.w_le]
  · exact ⟨fldPut, fun _ _ _ => rfl, fun _ _ _ => rfl, fun _ _ _ _ => rfl⟩
  · exact ⟨fldPut, fun _ _ _ => rfl, fun _ _ _ => rfl, fun _ _ _ _ => rfl⟩

section
variable {s u v w : State} {n : Fin 192} {b : List Byte} {i : Insn} {ps : List Part} {x : LoadSpec} {put : Insn → List Byte → Core → Core}
  (h : Issues s n b i u) (r : LoadRow x put) (ho : i.op = x.op)

/-- What a load asks of memory (04 R86). -/
def loadAcc (u : State) (n : Fin 192) (i : Insn) (len : Nat) : MemAcc :=
  { va := i.ea (seqOf u n i) (u.core n.val), len := len, acc := .read, strict := i.ordIs 3 }

/-- The value that has come is logged and written (09 R253). -/
def loadEnd (put : Insn → List Byte → Core → Core) (n : Fin 192) (i : Insn) (l : List Byte) (s : State) : Eff :=
  .next ((s.logRec n.val false (recordOf l)).updCore n.val (put i l))

include h in
theorem Issues.loads (placed : u.placeParts n.val (loadAcc u n i (x.len i)) true (loadAcc u n i (x.len i)).pages = (.ok ps, v)) :
    loadSem x.len put n.val i (seqOf u n i) u = v.loadParts n.val i.hintCode (loadAcc u n i (x.len i)).sz ps (loadEnd put n i) := by
  unfold loadSem
  simp only [h.single', Bool.false_eq_true, if_false]
  exact State.withParts_ok placed

include h r ho in
theorem Issues.load_ends {l : List Byte} (e : loadSem x.len put n.val i (seqOf u n i) u = loadEnd put n i l w) (via : ViaCaches u w) :
    ∃ t, exec (x.con n b) s = .next t ∧ Retires w t n (x.put i (leNat l) (w.core n.val)) (seqOf u n i) := by
  obtain ⟨t, ht, retires⟩ := h.next_from (is := fun i => i.op = x.op) (by simp [ho]) e
    (((Leaves.refl w n.val).logRec false (recordOf l)).updCore (r.bunk i l)) (by rw [via.isShadow, h.single'])
  rw [r.value] at retires
  exact ⟨t, (r.row n b s).trans ht, retires⟩

end

theorem loadsRead : Rules.LoadsRead := by
  intro x hx s u v n b i ps h ho c q m placed clear quiet
  obtain ⟨put, r⟩ := loadRow hx
  have loads := h.loads (put := put) placed
  have ok : Loadable v n.val ps := ⟨clear, quiet⟩
  have via : ViaCaches u v := by
    have := ViaCaches.placeParts n.val m true m.pages u
    rwa [placed] at this
  have is : (fun i : Insn => decide (i.op = x.op)) i = true := by simp [ho]
  refine ⟨via, fun l fwd => ?_, fun fwd => ?_, fun p l one young => ?_, fun apart w l => ?_⟩
  · exact h.load_ends r ho (loads.trans (State.loadParts_data ok fwd)) via
  · rw [r.row]
    exact h.wait is (loads.trans (State.loadParts_partly ok fwd))
  · obtain ⟨e, last, low, high, rfl⟩ := young
    rw [one]
    exact forwardFrom_data last low high
  · have fwd := forwardAll_none apart
    have read : ∀ y, v.readParts n.val i.hintCode ps = (y, w) → ViaCaches v w := fun y e => by
      have := ViaCaches.readParts n.val i.hintCode ps v
      rwa [e] at this
    refine ⟨fun e => ⟨read _ e, h.load_ends r ho (loads.trans (State.loadParts_reads ok fwd e)) (via.trans (read _ e))⟩, fun e => ?_, fun a e vec => ?_⟩
    · rw [r.row]
      exact h.wait is (loads.trans (State.loadParts_awaits ok fwd e))
    · have through := via.trans (read _ e)
      obtain ⟨pc, level, vec_⟩ := through.control n.val
      rw [r.row]
      obtain ⟨t, ht, frame, entered⟩ := h.traps (is := fun i => i.op = x.op) is (loads.trans (State.loadParts_poison ok fwd e)) (vec_.trans vec) (by simp [poisonExc]) (by simp [poisonExc]) rfl
      rw [pc, level] at entered
      have word : (poisonExc a false m.sz).word = BitVec.ofNat 64 (0x18 + 131072 * Nat.log2 (x.len i)) := by simp [poisonExc, Exc.word, b2n, MemAcc.sz, m]
      rw [← word]
      exact ⟨t, ht, frame, entered⟩

end Sys2Proof.Machine
end

section
/-! ## Stores (04 R86; 06 R166, R168; 15 R423), O24 -/

namespace Sys2Proof.Machine

theorem BunkOnly.signStore (n : Nat) (s : State) (va : W64) (l : List Byte) : BunkOnly n s (s.signStore n va l) := by
  unfold State.signStore
  split
  · exact BunkOnly.updBunk n s _ (fun _ => ⟨rfl, rfl⟩)
  · exact BunkOnly.refl n s

theorem State.signStore_unbound {s : State} {n : Nat} (va : W64) (l : List Byte) (h : (s.core n).bunk.bound = false) : s.signStore n va l = s :=
  if_neg (ne_true_of_eq_false h)

theorem Leaves.signStore {u v : State} {n : Nat} {c : Core} (h : Leaves u v n c) (va : W64) (l : List Byte) : Leaves u (v.signStore n va l) n c :=
  h.log (BunkOnly.signStore n v va l) (State.signStore_unbound va l)

theorem State.refuseConf_core (s : State) (a : Nat) (p : PartId) (n : Nat) : (s.refuseConf a p).core n = s.core n := by
  have cores : (s.noteConf a p).cores = s.cores := by
    unfold State.noteConf
    dsimp only
    rw [State.setNat_cores, State.setNat_cores, State.count_cores]
  rw [State.refuseConf, State.core_raise, State.core_congr cores]

/-- Refusals are counted, and touch no core. -/
theorem State.refuseParts_core (s : State) (n : Nat) (ps : List Part) (m : Nat) : (s.refuseParts n ps).core m = s.core m := by
  unfold State.refuseParts
  refine foldl_keeps (fun t => t.core m) _ (fun t p => ?_) ps s
  split
  · exact State.refuseConf_core t _ _ m
  · rfl

/-- The entries of a store join the buffer behind all others. -/
def Core.queueStores (es : List SbEntry) (c : Core) : Core := { c with sb := c.sb ++ es }

/-- A store's row. -/
theorem storeRow {x : (Fin 192 → List Byte → Instr) × OzOp × (Insn → Core → List Byte)} (hx : x ∈ storeRows) (n : Fin 192) (b : List Byte) (s : State) :
    exec (x.1 n b) s = s.issue n.val b (fun i => i.op = x.2.1) (storeSem x.2.2) := by
  unfold storeRows at hx
  simp only [List.mem_cons, List.not_mem_nil, or_false] at hx
  rcases hx with rfl | rfl | rfl <;> rfl

/-- What a store asks of memory (04 R86). -/
def storeAcc (u : State) (n : Fin 192) (i : Insn) (l : List Byte) : MemAcc :=
  { va := i.ea (seqOf u n i) (u.core n.val), len := l.length, acc := .write, strict := i.ordIs 3 }

/-- A store whose parts translate waits for room, or takes its places (06 R166, R168). -/
theorem storeSem_placed {u v : State} {n : Fin 192} {i : Insn} {data : Insn → Core → List Byte} {ps : List Part} (single : (u.core n.val).isShadow = false)
    (placed : u.placeParts n.val (storeAcc u n i (data i (u.core n.val))) true (storeAcc u n i (data i (u.core n.val))).pages = (.ok ps, v)) :
    let l := data i (u.core n.val)
    let es := sbOf (u.core n.val).part i.hintCode ps l
    storeSem data n.val i (seqOf u n i) u = if 48 < (v.core n.val).sb.length + es.length then .wait v
      else .next (((v.refuseParts n.val ps).signStore n.val (i.ea (seqOf u n i) (u.core n.val)) l).updCore n.val (Core.queueStores es)) := by
  unfold storeSem
  simp only [single, Bool.false_eq_true, if_false]
  exact State.withParts_ok placed

theorem storesEnterTheBuffer : Rules.StoresEnterTheBuffer := by
  intro x hx s u v n b i ps h ho c q l m es w placed
  have stores := storeSem_placed h.single' placed
  have is : (fun i : Insn => decide (i.op = x.2.1)) i = true := by simp [ho]
  have via : ViaCaches u v := by
    have := ViaCaches.placeParts n.val m true m.pages u
    rwa [placed] at this
  refine ⟨fun room => ?_, fun full => ?_, fun p one whole => ?_⟩
  · have through : ViaCaches v w := ViaCaches.refuseParts n.val ps v
    obtain ⟨t, ht, retires⟩ := h.next_from (is := fun i => i.op = x.2.1) is (stores.trans (if_neg (not_lt.mpr room)))
      (((Leaves.refl w n.val).signStore _ l).updCore (f := Core.queueStores es) (fun _ _ => rfl)) (by rw [through.isShadow, via.isShadow, h.single'])
    exact ⟨t, (storeRow hx n b s).trans ht, retires, through.mem, State.refuseParts_core v n.val ps n.val⟩
  · rw [storeRow hx]
    exact h.wait is (stores.trans (if_pos full))
  · simp only [es, one, sbOf, whole, List.take_length, List.map_nil]

end Sys2Proof.Machine
end

section
/-! ## The exceptions of an access (04 R87, R91, R99, R102; 07 R197-R200), O24 -/

namespace Sys2Proof.Machine

/-! ### Writing a core twice -/

theorem SMap.insert_insert {α : Type} (m : SMap α) (k : Nat) (v w : α) : SMap.insert (SMap.insert m k v) k w = SMap.insert m k w := by
  induction m with
  | nil => simp [SMap.insert]
  | cons x m ih =>
    obtain ⟨j, y⟩ := x
    simp only [SMap.insert]
    split
    · simp [SMap.insert]
    · split
      · simp [SMap.insert]
      next lt ne => simp [SMap.insert, lt, ne, ih]

theorem State.setCore_setCore (s : State) (n : Nat) {c d : Core} (hc : c ≠ {}) (hd : d ≠ {}) : (s.setCore n c).setCore n d = s.setCore n d := by
  simp only [State.setCore, SMap.set, if_neg hc, if_neg hd, SMap.insert_insert]

/-- A walk that starts, and the access that waits for it. -/
theorem State.startWalk_await (s : State) (n : Nat) (va : W64) (acc : Acc) (lv sz : Nat) : (s.startWalk n va acc lv sz).await n =
    s.setCore n { s.core n with walk := (s.core n).walk.or (some ⟨va, acc, lv, sz, [], false⟩), issued := true } := by
  have walks : ((s.core n).walk.or (some ⟨va, acc, lv, sz, [], false⟩)).isSome = true := by cases (s.core n).walk <;> rfl
  have busy : ∀ c : Core, c.walk.isSome = true → c ≠ {} := fun c h e => by rw [e] at h; exact absurd h (by decide)
  rw [State.await, State.startWalk, State.updCore, State.core_updCore_same, State.updCore, State.setCore_setCore]
  · exact busy _ walks
  · exact busy _ walks

/-! ### A fault, entered -/

theorem State.raiseExc_enters {s : State} {n : Nat} {x : Exc} (vec : (s.core n).vec = false) :
    s.raiseExc n x = s.enterSync n (max x.level (s.core n).level.val) (s.core n).pc x.word x.far x.far2 := by
  unfold State.raiseExc
  simp only [vec, Bool.false_eq_true, if_false]

/-- What a synchronous entry with FAR2_H leaves in the registers of its level (04 R102; 07 R200). -/
theorem State.enterSync_regs {s : State} {n : Fin 192} {t : Nat} (ret cause far : W64) (far2 : Option W64) (h1 : 1 ≤ t) (h3 : t ≤ 3) :
    let d := (s.enterSync n.val t ret cause far far2).core n.val
    d.level.val = t ∧ d.sysReg (0x4000 * t) = ret ∧ d.sysReg (0x4000 * t + 2) = cause ∧ d.sysReg (0x4000 * t + 3) = far
      ∧ (∀ a, far2 = some a → d.sysReg 0x8007 = a) ∧ d.g = (s.core n.val).g ∧ d.f = (s.core n.val).f ∧ d.sb = (s.core n.val).sb := by
  intro d
  obtain ⟨-, same⟩ := s.enterSync_spec n t ret cause far far2
  obtain ⟨g, f, sb, -⟩ := (s.core n.val).enter_gs t ret cause far far2 (syncOff t (s.core n.val).level.val)
  have reg := fun r => (Core.sysReg_congr same.sys r).trans ((s.core n.val).sysReg_enter t ret cause far far2 _ r)
  have place : ∀ k, k < 4 → d.sysReg (0x4000 * t + k) = _ := fun k hk =>
    (reg _).trans ((s.core n.val).sysReg_entryRegs_level ret cause far far2 h1 hk)
  refine ⟨by rw [same.level, Core.enter_level, Fin.val_ofNat, Nat.mod_eq_of_lt (by omega)], place 0 (by omega), place 2 (by omega), place 3 (by omega),
    fun a some_ => ?_, same.g.trans g, same.f.trans f, same.sb.trans sb⟩
  rw [reg, Core.sysReg_entryRegs, if_neg (by decide), if_pos ⟨rfl, by rw [some_]; rfl⟩, some_]; rfl

theorem Flt.level_exc {f : Flt} (h : f.cause ∈ [0x10, 0x11, 0x12, 0x13, 0x14]) (wr : Bool) (sz : Nat) :
    (f.exc wr sz).level = if f.cause = 0x11 ∨ f.cause = 0x13 ∨ f.cause = 0x14 then 2 else 1 := by
  obtain ⟨cause, sub, far, far2⟩ := f
  simp only [List.mem_cons, List.not_mem_nil, or_false] at h
  rcases h with rfl | rfl | rfl | rfl | rfl <;> rfl

/-! ### The first page -/

section
variable {u v : State} {n : Nat} {m : MemAcc} {hint : Nat} {f : List Part → State → Eff}

/-- The first page of an access and what is left of it (06 R168). -/
theorem MemAcc.pages_first (m : MemAcc) : ∃ rest, m.pages = (m.va, min m.len (4096 - m.va.toNat % 4096)) :: rest := by
  unfold MemAcc.pages
  dsimp only
  split
  next fits => exact ⟨[], by rw [min_eq_left fits]⟩
  next crosses => exact ⟨_, by rw [min_eq_right (by omega)]⟩

theorem State.withParts_align {pa : Nat} {mt : MemType}
    (first : u.translate n m.va m.acc (u.core n).level.val (min m.len (4096 - m.va.toNat % 4096)) = (.ok pa mt, v)) (off : m.aligned = false)
    (must : m.strict = true ∨ mt = .dev) : u.withParts n m hint f = .trap v (alignExc m.va m.acc.writes m.sz) := by
  obtain ⟨rest, pages⟩ := m.pages_first
  have bad : (!m.aligned && (m.strict || mt = .dev)) = true := by rcases must with h | h <;> simp [off, h]
  simp [State.withParts, pages, State.placeParts, first, bad]

theorem State.withParts_fault {x : Flt}
    (first : u.translate n m.va m.acc (u.core n).level.val (min m.len (4096 - m.va.toNat % 4096)) = (.fault x, v)) :
    u.withParts n m hint f = .trap v (x.exc m.acc.writes m.sz) := by
  obtain ⟨rest, pages⟩ := m.pages_first
  simp [State.withParts, pages, State.placeParts, first]

theorem State.withParts_walk (first : u.translate n m.va m.acc (u.core n).level.val (min m.len (4096 - m.va.toNat % 4096)) = (.walk, v)) :
    u.withParts n m hint f = .wait ((v.startWalk n m.va m.acc (v.core n).level.val m.sz).await n) := by
  obtain ⟨rest, pages⟩ := m.pages_first
  simp [State.withParts, pages, State.placeParts, first]

end

/-! ### The rows -/

/-- What an access asks of memory (04 R86, R91). -/
def accessOf (acc : Acc) (len : Nat) (u : State) (n : Fin 192) (i : Insn) : MemAcc :=
  { va := if acc = .rmw then (u.core n.val).gr i.b else i.ea (seqOf u n i) (u.core n.val), len := len, acc := acc, strict := decide (acc = .rmw) || i.ordIs 3 }

/-- A row that translates what it asks of memory first. -/
structure AccessRow (x : (Fin 192 → List Byte → Instr) × OzOp × Acc × (Insn → Nat)) (sem : Sem) : Prop where
  row : ∀ (n : Fin 192) (b : List Byte) (s : State), exec (x.1 n b) s = s.issue n.val b (fun i => i.op = x.2.1) sem
  asks : ∀ (u : State) (n : Fin 192) (i : Insn), (u.core n.val).isShadow = false →
    ∃ hint f, sem n.val i (seqOf u n i) u = u.withParts n.val (accessOf x.2.2.1 (x.2.2.2 i) u n i) hint f

theorem atomRow {x : (Fin 192 → List Byte → Instr) × OzOp × (Nat → Nat → Nat → Nat → Option Nat)} (hx : x ∈ atomRows) (n : Fin 192) (b : List Byte)
    (s : State) : exec (x.1 n b) s = s.issue n.val b (fun i => i.op = x.2.1) (atomSem x.2.2) := by
  unfold atomRows at hx
  simp only [List.mem_cons, List.not_mem_nil, or_false] at hx
  rcases hx with rfl | rfl | rfl | rfl | rfl | rfl | rfl | rfl <;> rfl

theorem store_length {x : (Fin 192 → List Byte → Instr) × OzOp × (Insn → Core → List Byte)} (hx : x ∈ storeRows) (i : Insn) (c d : Core) :
    (x.2.2 i c).length = (x.2.2 i d).length := by
  unfold storeRows at hx
  simp only [List.mem_cons, List.not_mem_nil, or_false] at hx
  rcases hx with rfl | rfl | rfl <;> simp only [length_leBytes]

theorem accessRow {x : (Fin 192 → List Byte → Instr) × OzOp × Acc × (Insn → Nat)} (hx : x ∈ accessRows) : ∃ sem, AccessRow x sem := by
  unfold accessRows at hx
  rw [List.mem_append, List.mem_append, List.mem_map, List.mem_map, List.mem_map] at hx
  rcases hx with (⟨y, hy, rfl⟩ | ⟨y, hy, rfl⟩) | ⟨y, hy, rfl⟩
  · obtain ⟨put, r⟩ := loadRow hy
    exact ⟨loadSem y.len put, r.row, fun u n i single => ⟨_, _, if_neg (ne_true_of_eq_false single)⟩⟩
  · refine ⟨storeSem y.2.2, storeRow hy, fun u n i single => ?_⟩
    dsimp only
    rw [store_length hy i {} (u.core n.val)]
    exact ⟨_, _, if_neg (ne_true_of_eq_false single)⟩
  · exact ⟨atomSem y.2.2, atomRow hy, fun u n i single => ⟨_, _, if_neg (ne_true_of_eq_false single)⟩⟩

theorem b2n_writes (acc : Acc) (h : acc = .read ∨ acc = .write ∨ acc = .rmw) : 65536 * b2n acc.writes = if acc = .read then 0 else 65536 := by
  rcases h with rfl | rfl | rfl <;> rfl

/-- Accesses of data read, write, or do both. -/
theorem accessRows_acc {x : (Fin 192 → List Byte → Instr) × OzOp × Acc × (Insn → Nat)} (hx : x ∈ accessRows) :
    x.2.2.1 = .read ∨ x.2.2.1 = .write ∨ x.2.2.1 = .rmw := by
  unfold accessRows at hx
  rw [List.mem_append, List.mem_append, List.mem_map, List.mem_map, List.mem_map] at hx
  rcases hx with (⟨y, hy, rfl⟩ | ⟨y, hy, rfl⟩) | ⟨y, hy, rfl⟩
  · exact .inl rfl
  · exact .inr (.inl rfl)
  · exact .inr (.inr rfl)

theorem accessesTrap : Rules.AccessesTrap := by
  intro x hx s u v n b i h ho vec c lv len rmw va wr first lvl
  obtain ⟨sem, r⟩ := accessRow hx
  obtain ⟨hint, f, asks⟩ := r.asks u n i h.single'
  have is : (fun i : Insn => decide (i.op = x.2.1)) i = true := by simp [ho]
  have at_ : (accessOf x.2.2.1 (x.2.2.2 i) u n i).va = va := by
    show (if x.2.2.1 = .rmw then _ else _) = if decide (x.2.2.1 = .rmw) = true then _ else _
    simp only [decide_eq_true_eq]
    rfl
  have same : ∀ y, u.translate n.val va x.2.2.1 lv first = (y, v) → u.translate n.val (accessOf x.2.2.1 (x.2.2.2 i) u n i).va (accessOf x.2.2.1 (x.2.2.2 i) u n i).acc
      (u.core n.val).level.val (min (accessOf x.2.2.1 (x.2.2.2 i) u n i).len (4096 - (accessOf x.2.2.1 (x.2.2.2 i) u n i).va.toNat % 4096)) = (y, v) :=
    fun y e => by rw [at_]; exact e
  have via : ∀ y, u.translate n.val va x.2.2.1 lv first = (y, v) → ViaCaches u v := fun y e => by
    have := ViaCaches.translate u n.val va x.2.2.1 lv first true
    rwa [e] at this
  have writes : 65536 * b2n x.2.2.1.writes = wr := b2n_writes _ (accessRows_acc hx)
  refine ⟨?_, ?_, ?_⟩
  · intro pa mt e off must
    obtain ⟨pc, level, vec_⟩ := (via _ e).control n.val
    have strict : (accessOf x.2.2.1 (x.2.2.2 i) u n i).strict = true ∨ mt = .dev := by
      rcases must with h | h | h
      · exact .inl (Bool.or_eq_true_iff.mpr (.inl h))
      · exact .inl (Bool.or_eq_true_iff.mpr (.inr h))
      · exact .inr h
    have odd : (accessOf x.2.2.1 (x.2.2.2 i) u n i).aligned = false := by
      rw [MemAcc.aligned, at_]
      exact decide_eq_false off
    have trap := asks.trans (State.withParts_align (hint := hint) (f := f) (same _ e) odd strict)
    obtain ⟨t, ht, frame, entered⟩ := h.traps (is := fun i => i.op = x.2.1) is trap (vec_.trans vec) (by simp [alignExc]) (by simp [alignExc]) rfl
    rw [pc, level, at_] at entered
    rw [r.row]
    have word : (alignExc va x.2.2.1.writes (Nat.log2 len)).word = BitVec.ofNat 64 (3 + wr + 131072 * Nat.log2 len) := by
      simp [alignExc, Exc.word, writes]
    rw [← word]
    exact ⟨t, ht, frame, entered⟩
  · intro y e T cause
    obtain ⟨pc, level, vec_⟩ := (via _ e).control n.val
    obtain ⟨g, fs, -⟩ := (via _ e).registers n.val
    have sb : (v.core n.val).sb = c.sb := (congrArg Core.sb ((via _ e).cores n.val) : (v.core n.val).arch.sb = c.arch.sb)
    have trap := h.trap (is := fun i => i.op = x.2.1) is (asks.trans (State.withParts_fault (hint := hint) (f := f) (same _ e)))
    rw [r.row, trap, State.raiseExc_enters (vec_.trans vec), Flt.level_exc cause, level, pc]
    have top : 1 ≤ T ∧ T ≤ 3 := by
      have lt4 := c.level.isLt
      simp only [T, lvl, lv]
      split <;> omega
    obtain ⟨frame, -⟩ := v.enterSync_spec n T c.pc (y.exc x.2.2.1.writes (Nat.log2 len)).word y.far y.far2
    have entry := v.enterSync_regs (n := n) c.pc (y.exc x.2.2.1.writes (Nat.log2 len)).word y.far y.far2 top.1 top.2
    have word : (y.exc x.2.2.1.writes (Nat.log2 len)).word = BitVec.ofNat 64 (y.cause + 256 * y.sub + wr + 131072 * Nat.log2 len) := by
      simp [Flt.exc, Exc.word, writes]
    rw [← word, ← g, ← fs, ← sb]
    exact ⟨_, rfl, frame, entry⟩
  · intro e
    obtain ⟨pc, level, vec_⟩ := (via _ e).control n.val
    rw [r.row]
    refine (h.wait is (asks.trans (State.withParts_walk (same _ e)))).trans ?_
    rw [State.startWalk_await, level, at_]
    rfl

/-- Settles O24. -/
theorem loadsAndStores : Obligations.LoadsAndStores := ⟨loadsRead, storesEnterTheBuffer, accessesTrap⟩

end Sys2Proof.Machine
end

section
/-! ## Accesses performed whole (08 R232), as the cores see them -/

namespace Sys2Proof.Machine

/-- Nothing changed at a core but what fetches, caches and translates for it. -/
def SameArch (s t : State) : Prop := ∀ m, (t.core m).arch = (s.core m).arch

namespace SameArch

variable {s t u : State}

theorem refl (s : State) : SameArch s s := fun _ => rfl
theorem trans (h : SameArch s t) (k : SameArch t u) : SameArch s u := fun m => (k m).trans (h m)
theorem of_cores (h : t.cores = s.cores) : SameArch s t := fun m => congrArg Core.arch (State.core_congr h m)
theorem of_via (h : ViaCaches s t) : SameArch s t := h.cores
theorem of_lines {m : Nat} {L : Nat → Prop} (h : LinesOnly m L s t) : SameArch s t := of_cores (by rw [h.rest])
theorem isShadow (h : SameArch s t) (n : Nat) : (t.core n).isShadow = (s.core n).isShadow := Core.arch_isShadow (h n)

theorem ite (c : Prop) [Decidable c] (ht : SameArch s t) (hu : SameArch s u) : SameArch s (if c then t else u) := by
  split <;> assumption

theorem foldl {α : Type} {f : State → α → State} (h : ∀ s x, SameArch s (f s x)) (l : List α) (s : State) : SameArch s (l.foldl f s) := by
  induction l generalizing s with
  | nil => exact refl s
  | cons x l ih => exact (h s x).trans (ih _)

/-! ### On the way (10 R272-R293) -/

theorem force (s : State) (b k : Nat) : SameArch s (s.force b k) := of_cores (s.force_cores b k)
theorem raise (s : State) (b k : Nat) (q : Option PartId) : SameArch s (s.raise b k q) := of_cores (s.raise_cores b k q)
theorem count (s : State) (a k : Nat) : SameArch s (s.count a k) := of_cores (s.count_cores a k)
theorem setNat (s : State) (a v : Nat) : SameArch s (s.setNat a v) := of_cores (s.setNat_cores a v)
theorem send (s : State) (r port : Nat) (p : Packet) : SameArch s (s.send r port p) := of_cores rfl

theorem exhaust (s : State) (rg : Nat) (m : Meter) (p : Nat) : SameArch s (s.exhaust rg m p) := by
  unfold State.exhaust
  extract_lets e x s1 s2 s3
  have h1 : SameArch s s1 := ite _ (refl s) (of_cores (s.count16_cores x))
  have h3 : SameArch s1 s3 := of_cores rfl
  exact ((h1.trans h3).trans (raise s3 rg 0 none)).trans (of_cores rfl)

theorem charge (s : State) (rg : Nat) (m : Meter) (p n : Nat) : SameArch s (s.charge rg m p n) := by
  unfold State.charge
  extract_lets was a t
  have h1 : SameArch s t := setNat s _ _
  exact ite _ (h1.trans (exhaust t rg m p)) h1

theorem hopDrop (s : State) (r : Nat) : SameArch s (s.hopDrop r) := (count s _ _).trans (raise _ _ _ _)

theorem fenceDrop (s : State) (r : Nat) (p : Packet) : SameArch s (s.fenceDrop r p) := by
  unfold State.fenceDrop
  extract_lets s1
  have h1 : SameArch s s1 := (count s _ _).trans (raise _ _ _ _)
  exact ite _ (h1.trans (send s1 _ _ _)) h1

theorem timeoutAt (s : State) (r port addr : Nat) (part : PartId) : SameArch s (s.timeoutAt r port addr part) :=
  (((count s _ _).trans (setNat _ _ _)).trans (setNat _ _ _)).trans (raise _ _ _ _)

theorem traceRec (s : State) (r : Nat) (x : W128) : SameArch s (s.traceRec r x) := by
  unfold State.traceRec
  extract_lets s1 cur lines cur' net s2 k d
  have h1 : SameArch s s1 := force s _ _
  refine ite _ (h1.trans ((count s1 _ _).trans (raise _ _ _ _))) (ite _ (h1.trans (of_cores rfl)) ?_)
  have h2 : SameArch s1 s2 := of_cores rfl
  exact (h1.trans h2).trans (send s2 _ _ _)

theorem probe (s : State) (r : Nat) (p : Packet) : SameArch s (s.probe r p) := by
  unfold State.probe
  extract_lets hits s1
  have h1 : SameArch s s1 := foldl (fun s k => count s _ _) hits s
  exact ite _ (h1.trans (traceRec s1 _ _)) h1

/-- A packet carried through the fabric meets regulators, probes, fences and routers, and no core. -/
theorem travel (fuel : Nat) (s : State) (p : Packet) (r : Nat) : SameArch s (s.travel p fuel r).2 := by
  induction fuel generalizing s p r with
  | zero => exact refl s
  | succ fuel ih =>
    unfold State.travel
    extract_lets g m s1 s2 s3
    split
    · exact refl s
    · have h1 : SameArch s s1 := by
        unfold s1
        clear_value g
        cases g with
        | none => exact refl s
        | some rg => exact (force s _ _).trans (charge _ _ _ _ _)
      have h2 : SameArch s s2 := h1.trans ((force s1 _ _).trans (force _ _ _))
      have h3 : SameArch s s3 := h2.trans (probe s2 r p)
      clear_value s1 s2 s3
      split
      · exact h1
      · split
        · exact h2.trans (hopDrop s2 r)
        · split
          · exact h3.trans (fenceDrop s3 r p)
          · split
            · exact h3
            · split
              · exact h3
              · exact h3.trans (ih s3 _ _)

/-! ### At the benches and at home (08 R221-R233) -/

theorem snoopBench (s : State) (b line kind : Nat) : SameArch s (s.snoopBench b line kind).2 := by
  unfold State.snoopBench
  extract_lets s1
  have h1 : ViaCaches s s1 := ViaCaches.settleL1 s _ _ _ _
  clear_value s1
  apply of_via
  split
  · extract_lets out st
    split
    · exact h1.trans ((ViaCaches.include s1 _ _).trans (ViaCaches.modL2 _ _ _ _))
    · exact h1.trans (ViaCaches.modL2 s1 _ _ _)
  · exact h1

theorem modDir (s : State) (k line : Nat) (f : DirEnt → Option DirEnt) : SameArch s (s.modDir k line f) := by
  unfold State.modDir
  extract_lets d
  split
  · split
    · exact of_cores rfl
    · exact refl s
  · exact refl s

theorem setSlc (s : State) (k : Nat) (c : Cache) : SameArch s (s.setSlc k c) := of_cores rfl

theorem toDram (s : State) (k line : Nat) (part : PartId) (d : BitVec 512) (x y : Bool) : SameArch s (s.toDram k line part d x y) :=
  of_via ((ViaCaches.setEvb s _ _).trans (ViaCaches.request _ _ _ _))

theorem fillSlc (s : State) (k line : Nat) (dirty : Bool) (d : BitVec 512) (x : Bool) (part : PartId) (y : Bool) :
    SameArch s (s.fillSlc k line dirty d x part y) := by
  unfold State.fillSlc
  extract_lets page set s1 l
  have h1 : SameArch s s1 := of_via (ViaCaches.tagCheck s _ _ _)
  clear_value s1
  split
  · exact h1.trans (setSlc s1 _ _)
  · split
    · exact ite _ (h1.trans (toDram s1 _ _ _ _ _ _)) h1
    · extract_lets s2 s3 s4
      have h2 : SameArch s1 s2 := by
        unfold s2
        split
        · exact ite _ ((count s1 _ _).trans (toDram _ _ _ _ _ _ _)) (refl s1)
        · exact refl s1
      have h3 : SameArch s2 s3 := of_via (((ViaCaches.taint s2 _ _ _).trans (ViaCaches.taint _ _ _ _)).trans (ViaCaches.taint _ _ _ _))
      have h4 : SameArch s3 s4 := setSlc s3 _ _
      exact ite _ (((h1.trans h2).trans h3).trans (h4.trans (setSlc s4 _ _))) (((h1.trans h2).trans h3).trans h4)

theorem slcLook (s : State) (k line : Nat) : SameArch s (s.slcLook k line) := by
  unfold State.slcLook
  extract_lets page s1 s2 s3 s4
  have h1 : SameArch s s1 := count s _ _
  have h2 : SameArch s1 s2 := ite _ (refl s1) (count s1 _ _)
  have h3 : SameArch s2 s3 := of_via (((ViaCaches.checkUnit s2 _ _ _).trans (ViaCaches.tagCheck _ _ _ _)).trans (ViaCaches.tagCheck _ _ _ _))
  have h4 : SameArch s3 s4 := of_via (ViaCaches.found s3 _ _ _)
  exact ite _ (((h1.trans h2).trans h3).trans (h4.trans (setSlc s4 _ _))) ((h1.trans h2).trans h3)

theorem chargeDram (s : State) (line : Nat) (part : PartId) : SameArch s (s.chargeDram line part) := (force s _ _).trans (charge _ _ _ _ _)

theorem dramRead (s : State) (m line : Nat) (x : DramCheck) : SameArch s (s.dramRead m line x).2.2 :=
  of_lines (LinesOnly.dramRead (L := fun _ => True) trivial s x)
theorem dramWrite (s : State) (m line : Nat) (d : BitVec 512) (x : Bool) : SameArch s (s.dramWrite m line d x) :=
  of_lines (LinesOnly.dramWrite (L := fun _ => True) trivial s d x)

theorem homeLine (s : State) (line : Nat) (part : PartId) : SameArch s (s.homeLine line part).2 := by
  unfold State.homeLine
  extract_lets k s1 r
  have h1 : SameArch s s1 := slcLook s _ _
  clear_value s1
  split
  · refine h1.trans ?_
    split
    · exact setSlc s1 _ _
    · exact refl s1
  · have hr : SameArch s1 r.2.2 := (chargeDram s1 _ _).trans (dramRead _ _ _ _)
    exact (h1.trans hr).trans (fillSlc r.2.2 _ _ _ _ _ _ _)

/-- A snoop of one bench, wherever it gets. -/
theorem ask (a : Snooped) (k b line : Nat) (part : PartId) (kill : Bool) : SameArch a.st (a.ask k b line part kill).st := by
  unfold Snooped.ask
  extract_lets sr br q
  have out := travel 16 a.st q sr
  generalize a.st.travel q 16 sr = r at out
  obtain ⟨_ | _ | _, t⟩ := r
  · dsimp -zeta only
    extract_lets x back
    have h1 : SameArch a.st x.2 := out.trans (snoopBench t _ _ _)
    have home := travel 16 x.2 back br
    generalize x.2.travel back 16 br = y at home
    obtain ⟨_ | _ | _, u⟩ := y
    · exact h1.trans home
    · exact refl _
    · exact (h1.trans home).trans (timeoutAt u _ _ _ _)
  · exact refl _
  · exact out.trans (timeoutAt t _ _ _ _)

theorem asks (k line : Nat) (part : PartId) (kill : Bool) (l : List Nat) (a : Snooped) :
    SameArch a.st (l.foldl (fun a b => a.ask k b line part kill) a).st := by
  induction l generalizing a with
  | nil => exact refl _
  | cons b l ih => exact (ask a k b line part kill).trans (ih _)

theorem homeSnoop (s : State) (line : Nat) (part : PartId) (kill : Bool) : SameArch s (s.homeSnoop line part kill).st := by
  unfold State.homeSnoop
  extract_lets k l r
  have h1 : SameArch s r.st := asks k line part kill l { st := s }
  exact h1.trans (ite _ (modDir r.st _ _ _) (modDir r.st _ _ _))

theorem homeRead {s t : State} {line : Nat} {part : PartId} {x : BitVec 512 × Bool} (h : s.homeRead line part = some (x, t)) : SameArch s t := by
  have snooped := homeSnoop s line part false
  unfold State.homeRead at h
  dsimp only at h
  split at h
  · cases h
  · split at h
    · cases h; exact snooped
    · have line_ := homeLine (s.homeSnoop line part false).st line part
      rw [Option.some.inj h] at line_
      exact snooped.trans line_

theorem homeStore {s t : State} {line off : Nat} {l : List Byte} {bad : Bool} {part : PartId} (h : s.homeStore line off l bad part = some t) : SameArch s t := by
  have snooped := homeSnoop s line part true
  unfold State.homeStore at h
  extract_lets k full r old d p at h
  split at h
  · cases h
  · have hold : SameArch s old.2 := by
      unfold old
      split
      · exact snooped
      · split
        · exact snooped
        · exact snooped.trans (homeLine r.st _ _)
    rw [← Option.some.inj h]
    exact hold.trans (ite _ (fillSlc old.2 _ _ _ _ _ _ _) ((chargeDram old.2 _ _).trans (dramWrite _ _ _ _ _)))

theorem wholeLine (s : State) (r port : Nat) (part : PartId) (a n : Nat) (w : Option (List Byte × Bool)) : SameArch s (s.wholeLine r port part a n w).2 := by
  unfold State.wholeLine
  extract_lets line k q
  have out := (force s (routerPage r 0) 0).trans (travel 16 _ q r)
  generalize (s.force (routerPage r 0) 0).travel q 16 r = y at out
  obtain ⟨_ | _ | _, t⟩ := y
  · dsimp -zeta only
    extract_lets dram served
    have hserved : ∀ x, served = some x → SameArch t x.2 := by
      intro x e
      unfold served at e
      split at e
      · obtain ⟨u, hu, rfl⟩ := Option.map_eq_some_iff.mp e
        exact homeStore hu
      · exact homeRead e
    split
    · exact refl s
    · split
      · exact refl s
      · clear_value served
        cases served with
        | none => exact refl s
        | some x =>
          dsimp -zeta only
          extract_lets back
          have h1 : SameArch s x.2 := out.trans (hserved x rfl)
          have home := travel 16 x.2 back (sliceRouter k)
          generalize x.2.travel back 16 (sliceRouter k) = y at home
          obtain ⟨_ | _ | _, u⟩ := y
          · exact h1.trans home
          · exact refl s
          · exact (h1.trans home).trans (timeoutAt u _ _ _ _)
  · exact refl s
  · exact out.trans (timeoutAt t _ _ _ _)

theorem wholeLines (r port : Nat) (part : PartId) (fuel : Nat) (w : Option (List Byte × Bool)) (a n : Nat) (s : State) :
    SameArch s (s.wholeLines r port part w fuel a n).2 := by
  induction fuel generalizing w a n s with
  | zero => exact refl s
  | succ fuel ih =>
    unfold State.wholeLines
    split
    · exact refl s
    · extract_lets m
      have first := wholeLine s r port part a m (w.map (fun x => (x.1.take m, x.2)))
      generalize s.wholeLine r port part a m (w.map (fun x => (x.1.take m, x.2))) = y at first
      obtain ⟨_ | ⟨l, p, lost⟩, t⟩ := y
      · exact refl s
      · dsimp only
        have rest := first.trans (ih (w.map (fun x => (x.1.drop m, x.2))) (a + m) (n - m) t)
        generalize t.wholeLines r port part (w.map (fun x => (x.1.drop m, x.2))) fuel (a + m) (n - m) = z at rest
        obtain ⟨_ | ⟨l', p', lost'⟩, u⟩ := z
        · exact refl s
        · exact rest

theorem wholeAccess (s : State) (r port : Nat) (part : PartId) (a n : Nat) (w : Option (List Byte × Bool)) :
    SameArch s (s.wholeAccess r port part a n w).2 := wholeLines r port part _ w a n s

end SameArch

end Sys2Proof.Machine
end

section
/-! ## Atomics (04 R91, R95; 05 R133; 08 R227), O25 -/

namespace Sys2Proof.Machine

/-! ### A line that the L1D holds writable -/

section
variable {s : State} {n line : Nat} {l : CLine}

theorem State.checkL1d_calm (calm : s.err.flaws = []) : s.checkL1d n line = s := by
  have clean : ∀ base bit key, s.tainted base bit key = false := fun _ _ _ => by simp [State.tainted, calm]
  simp [State.checkL1d, State.checkUnit, State.tagCheck, clean]

theorem State.writable_of_line (there : s.l1dLine n line = some l) (st : l.st = .m ∨ l.st = .e) : s.writable n line = true := by
  rcases st with st | st <;> simp [State.writable, there, st]

theorem State.own_writable (h : s.writable n line = true) (hint : Nat) : s.own n line hint = s := by
  simp [State.own, h]

/-- The line as an atomic leaves it: the new value is stored, where there is one. -/
def State.atomStored (s : State) (n pa len : Nat) (new : Option Nat) : State :=
  match new with
  | some k => s.storeLine n (pa / 64) (pa % 64) (leBytes len k) 0
  | none => s

theorem ViaCaches.storeLine (s : State) (n line off : Nat) (l : List Byte) (h : Nat) : ViaCaches s (s.storeLine n line off l h) :=
  (((ViaCaches.tagCheck s _ _ _).trans (ViaCaches.taint _ _ _ _)).trans (ViaCaches.taint _ _ _ _)).trans
    ((ViaCaches.modL1d _ _ _ _).trans (ViaCaches.hitL1d _ _ _ _))

theorem ViaCaches.atomStored (s : State) (n pa len : Nat) (new : Option Nat) : ViaCaches s (s.atomStored n pa len new) := by
  cases new with
  | none => exact ViaCaches.refl s
  | some k => exact ViaCaches.storeLine s _ _ _ _ _

theorem State.atomLine_writable {pa len : Nat} {f : Nat → Option Nat} (ungiven : ∀ g ∈ (s.core n).given, ¬(g.line = pa / 64 ∧ g.un = true))
    (stays : s.evicting n (pa / 64) = false) (calm : s.err.flaws = []) (there : s.l1dLine n (pa / 64) = some l) (st : l.st = .m ∨ l.st = .e)
    (sound : l.poison = false) :
    let old := leNat (((lineBytes l.data).drop (pa % 64)).take len)
    s.atomLine n pa len 0 f = (some (old, false), s.atomStored n pa len (f old)) := by
  intro old
  have none_ : (s.core n).given.find? (fun g => g.line == pa / 64 && g.un) = none := by
    rw [List.find?_eq_none]
    intro g hg
    have := ungiven g hg
    simpa using this
  have writable := State.writable_of_line there st
  unfold State.atomLine
  simp only [none_, stays, writable, Bool.not_true, Bool.false_and, Bool.false_eq_true, if_false, State.checkL1d_calm calm, State.own_writable writable,
    there, sound]
  cases f old <;> rfl

end

/-! ### What an atomic does, once its address is translated -/

/-- Where an atomic is carried out (04 R91; assumption log 34). -/
def State.atomAt (s : State) (n : Nat) (i : Insn) (p : Part) (f : Nat → Option Nat) : Option (Nat × Bool) × State :=
  if s.cached p.mt p.pa then s.atomLine n p.pa p.len 0 f
  else if s.isDram p.pa then s.atomHome n p.pa p.len f
  else s.atomOut n i p f

/-- What an atomic asks of memory (04 R91). -/
def atomAcc (u : State) (n : Fin 192) (i : Insn) : MemAcc := { va := (u.core n.val).gr i.b, len := i.w / 8, acc := .rmw, strict := true }

/-- What an atomic stores for an old value. -/
def atomNew (g : AtomOp) (u : State) (n : Fin 192) (i : Insn) : Nat → Option Nat := g i.w (low i.w ((u.core n.val).gr i.a)) (low i.w ((u.core n.val).gr i.c))

/-- An atomic whose address translates to one part, which nothing refuses and no older store stands before. -/
structure Placed1 (u v : State) (n : Fin 192) (i : Insn) (p : Part) : Prop where
  single : (u.core n.val).isShadow = false
  placed : u.placeParts n.val (atomAcc u n i) true (atomAcc u n i).pages = (.ok [p], v)
  clear : p.refused = false
  first : (v.core n.val).atomWaits i p = false
  room : v.atomFull n.val p = false

section
variable {u v w : State} {n : Fin 192} {i : Insn} {p : Part} {g : AtomOp} {q : W64} (h : Placed1 u v n i p)
include h

theorem Placed1.via : ViaCaches u v := by
  have := ViaCaches.placeParts n.val (atomAcc u n i) true (atomAcc u n i).pages u
  rwa [h.placed] at this

theorem Placed1.unshadowed : (v.core n.val).isShadow = false := by rw [h.via.isShadow, h.single]

theorem Placed1.awaits (e : v.atomAt n.val i p (atomNew g u n i) = (none, w)) : atomSem g n.val i q u = .wait (w.await n.val) := by
  unfold atomSem
  simp only [h.single, Bool.false_eq_true, if_false]
  refine (State.withParts_ok h.placed).trans ?_
  simp only [h.clear, h.first, h.room, Bool.or_false, Bool.and_false, Bool.false_eq_true, if_false]
  unfold State.atomAt atomNew at e
  rw [e]

theorem Placed1.ends {old : Nat} (e : v.atomAt n.val i p (atomNew g u n i) = (some (old, false), w)) :
    atomSem g n.val i q u = .next (w.atomEnd n.val i ((u.core n.val).gr i.b) old (atomNew g u n i old)) := by
  unfold atomSem
  simp only [h.single, Bool.false_eq_true, if_false]
  refine (State.withParts_ok h.placed).trans ?_
  simp only [h.clear, h.first, h.room, Bool.or_false, Bool.and_false, Bool.false_eq_true, if_false]
  unfold State.atomAt atomNew at e
  rw [e]
  rfl

end

/-- The end of an atomic writes A; its log and its signature are the bound core's own (05 R133; 09 R253, R258). -/
theorem Leaves.atomEnd {u v : State} {n : Nat} {c : Core} (h : Leaves u v n c) (i : Insn) (va : W64) (old : Nat) (new : Option Nat) :
    Leaves u (v.atomEnd n i va old new) n (c.setG i.a (BitVec.ofNat 64 old)) := by
  unfold State.atomEnd
  refine Leaves.updCore ?_ (.setG _ _)
  cases new with
  | none => exact h.logRec _ _
  | some k => exact (h.logRec _ _).signStore _ _

theorem Issues.atom_ends {s u v w : State} {n : Fin 192} {b : List Byte} {i : Insn} {p : Part}
    {x : (Fin 192 → List Byte → Instr) × OzOp × (Nat → Nat → Nat → Nat → Option Nat)} (hx : x ∈ atomRows) (h : Issues s n b i u) (ho : i.op = x.2.1)
    (placed : Placed1 u v n i p) {old : Nat} (e : v.atomAt n.val i p (atomNew x.2.2 u n i) = (some (old, false), w)) {z : State} {c : Core}
    (hw : Leaves z w n.val c) (single : (z.core n.val).isShadow = false) :
    ∃ t, exec (x.1 n b) s = .next t ∧ Retires z t n (c.setG i.a (BitVec.ofNat 64 old)) (seqOf u n i) := by
  rw [atomRow hx]
  exact h.next_from (is := fun i => i.op = x.2.1) (by simp [ho]) (placed.ends e) (hw.atomEnd i _ old _) single

/-! ### At home, and outside DRAM -/

theorem State.atomHome_reads {s t : State} {n pa len : Nat} {f : Nat → Option Nat} {l : List Byte}
    (read : s.wholeAccess (benchRtr (n / 8)) 0 (s.core n).part pa len none = (.done l false false, t)) (keeps : f (leNat l) = none) :
    s.atomHome n pa len f = (some (leNat l, false), t) := by
  simp [State.atomHome, read, keeps]

theorem State.atomHome_writes {s t t' : State} {n pa len k : Nat} {f : Nat → Option Nat} {l l' : List Byte} {bad lost : Bool}
    (read : s.wholeAccess (benchRtr (n / 8)) 0 (s.core n).part pa len none = (.done l false false, t)) (stores : f (leNat l) = some k)
    (write : t.wholeAccess (benchRtr (n / 8)) 0 (s.core n).part pa len (some (leBytes len k, false)) = (.done l' bad lost, t')) :
    s.atomHome n pa len f = (some (leNat l, false), t') := by
  simp [State.atomHome, read, stores, write]

/-- The write of an atomic outside DRAM joins the store buffer (assumption log 34). -/
def Core.atomWrite (p : Part) (k : Nat) (part : PartId) (c : Core) : Core :=
  { c with
    sb := c.sb ++ [{ addr := p.pa, data := leBytes p.len k, mt := p.mt, part := part }]
    ext := c.ext.map (fun y => if y.addr = p.pa && !y.fetch then { y with wrote := true } else y) }

section
variable {s : State} {n : Nat} {i : Insn} {p : Part} {f : Nat → Option Nat}

theorem State.readPiece_asks (unasked : ∀ y ∈ (s.core n).ext, ¬(y.addr = p.pa ∧ y.fetch = false)) :
    s.readPiece n .dev 0 p.pa p.len = (none, s.sendRead n p.pa p.len) := by
  have none_ : (s.core n).ext.find? (fun x => x.addr = p.pa && !x.fetch) = none := by
    rw [List.find?_eq_none]
    intro y hy
    simpa using unasked y hy
  have plain : s.cached .dev p.pa = false := rfl
  simp only [State.readPiece, plain, Bool.false_eq_true, if_false, none_]

theorem State.atomOut_asks (unasked : ∀ y ∈ (s.core n).ext, ¬(y.addr = p.pa ∧ y.fetch = false)) :
    s.atomOut n i p f = (none, s.sendRead n p.pa p.len) := by
  simp only [State.atomOut, State.readPiece_asks unasked]

theorem State.atomOut_writes {y : ExtRead} {d : BitVec 256} {k : Nat} (asked : (s.core n).ext.find? (fun y => y.addr = p.pa && !y.fetch) = some y)
    (got : y.got = some (d, false)) (unwritten : ∀ y ∈ (s.core n).ext, y.wrote = false) (stores : f (leNat (leBytes p.len d.toNat)) = some k)
    (plain : i.ordIs 0 = false) (plain' : i.ordIs 2 = false) :
    s.atomOut n i p f = (some (leNat (leBytes p.len d.toNat), false), s.updCore n (Core.atomWrite p k (s.core n).part)) := by
  have uncached : s.cached .dev p.pa = false := rfl
  have read : s.readPiece n .dev 0 p.pa p.len = (some (leBytes p.len d.toNat, false), s) := by
    simp [State.readPiece, uncached, asked, got]
  have fresh : (s.core n).ext.any (fun x => x.addr = p.pa && x.wrote) = false := by
    rw [List.any_eq_false]
    intro y hy
    simp [unwritten y hy]
  simp only [State.atomOut, read, fresh, stores, plain, plain', Bool.or_false, Bool.false_eq_true, if_false]
  rfl

end

/-! ### The statement -/

theorem atomicsPerform : Rules.AtomicsPerform := by
  intro x hx s u v n b i p h ho c q m new r placed clear first
  have at_ : ∀ room, Placed1 u v n i p := fun room => ⟨h.single', placed, clear, first, room⟩
  have inDram : v.isDram p.pa = true → v.atomFull n.val p = false := fun dram => by simp [State.atomFull, dram]
  refine ⟨?_, ?_, ?_⟩
  · intro l cached calm stays ungiven there st sound old w
    have dram : v.isDram p.pa = true := by
      simp only [State.cached, Bool.and_eq_true] at cached
      exact cached.2
    have P := at_ (inDram dram)
    have e : v.atomAt n.val i p (atomNew x.2.2 u n i) = (some (old, false), v.atomStored n.val p.pa p.len (new old)) :=
      (if_pos cached).trans (State.atomLine_writable ungiven stays calm there st sound)
    have same : w = v.atomStored n.val p.pa p.len (new old) := by
      simp only [w, State.atomStored] <;> cases new old <;> rfl
    have through : ViaCaches v w := by rw [same]; exact ViaCaches.atomStored v _ _ _ _
    rw [← same] at e
    exact h.atom_ends hx ho P e (Leaves.refl w n.val) (by rw [through.isShadow, P.unshadowed])
  · intro l w uncached dram read
    have P := at_ (inDram dram)
    have home : v.atomAt n.val i p (atomNew x.2.2 u n i) = v.atomHome n.val p.pa p.len (atomNew x.2.2 u n i) :=
      (if_neg (ne_true_of_eq_false uncached)).trans (if_pos dram)
    have hw : SameArch v w := by
      have := SameArch.wholeAccess v r 0 (v.core n.val).part p.pa p.len none
      rwa [read] at this
    refine ⟨fun keeps => ?_, fun k l' bad lost w' stores write => ?_⟩
    · exact h.atom_ends hx ho P (home.trans (State.atomHome_reads read keeps)) (Leaves.refl w n.val) (by rw [hw.isShadow, P.unshadowed])
    · have hw' : SameArch w w' := by
        have := SameArch.wholeAccess w r 0 (v.core n.val).part p.pa p.len (some (leBytes p.len k, false))
        rwa [write] at this
      exact h.atom_ends hx ho P (home.trans (State.atomHome_writes read stores write)) (Leaves.refl w' n.val)
        (by rw [hw'.isShadow, hw.isShadow, P.unshadowed])
  · intro outside uncached free
    have P := at_ (by rw [State.atomFull, Bool.and_eq_false_iff]; exact .inr (decide_eq_false (not_le.mpr free)))
    have out : v.atomAt n.val i p (atomNew x.2.2 u n i) = v.atomOut n.val i p (atomNew x.2.2 u n i) :=
      (if_neg (ne_true_of_eq_false uncached)).trans (if_neg (ne_true_of_eq_false outside))
    refine ⟨fun unasked => ?_, fun y d k asked got unwritten stores plain plain' => ?_⟩
    · rw [atomRow hx]
      exact h.wait (by simp [ho]) (P.awaits (out.trans (State.atomOut_asks unasked)))
    · exact h.atom_ends hx ho P (out.trans (State.atomOut_writes asked got unwritten stores plain plain'))
        ((Leaves.refl v n.val).updCore (f := Core.atomWrite p k (v.core n.val).part) (fun _ _ => rfl)) P.unshadowed

/-- Settles O25. -/
theorem atomics : Obligations.Atomics := atomicsPerform

end Sys2Proof.Machine
end
